-- ==== Sys2Proof/Word.lean ====
section
/-!
DEFINITION. Words, names and small value types shared by the syntax and the state: widths, the codes the
spec numbers, and the payloads that an event of the opcode table carries into the package.
-/

namespace Sys2Proof

abbrev Byte := BitVec 8
abbrev U16 := BitVec 16
abbrev U32 := BitVec 32
abbrev Word := BitVec 64
/-- A descriptor register (Table 8-9). -/
abbrev DescW := BitVec 256

/-- The three hardware contexts of a core (R175). -/
inductive CtxId where
  | L | C | S
deriving DecidableEq, Repr, Inhabited

/-- The eight paths of Table 0-3. -/
inductive Path where
  | L | S | M | A | N | X | I | C
deriving DecidableEq, Repr, Inhabited

/-- The five engine queues of Table 8-4. -/
inductive QueueId where
  | LQ | MQ | VQ | SQ | XQ
deriving DecidableEq, Repr, Inhabited

/-- Who issues an instruction: a context of a compute core (flat number, R6), or a system core (R442). -/
inductive Agent where
  | core (f : BitVec 9) (c : CtxId)
  | sys (n : BitVec 4)
deriving DecidableEq, Repr, Inhabited

/-- A position in a code image: line and slot (R245). -/
structure Pos where
  line : BitVec 24
  slot : BitVec 4
deriving DecidableEq, Repr, Inhabited

/-- The choices of the object manager when it creates or moves an object: the index and the virtual base (R73),
the frame numbers in segment order (R86) and the addresses of new page tables in the order of need. -/
structure Alloc where
  index : BitVec 30
  vbase : BitVec 52
  pfns : List (BitVec 32)
  tabs : List (BitVec 40)
deriving DecidableEq, Repr, Inhabited

/-- What enumeration finds at a CXL port or a flash port (R30, R34): the device type and the levels of switching before it;
the bytes of a logical block and of its metadata, and the most that one command moves. -/
structure Device where
  type : BitVec 2
  switches : BitVec 4
  block : BitVec 32
  metadata : BitVec 16
  transfer : BitVec 32
deriving DecidableEq, Repr, Inhabited

/-- A firmware image of on-package flash (R111): its bytes, and, as they stand in it, the vendor public key, the signature
and the security version. -/
structure FwImage where
  bytes : List Byte
  key : List Byte
  sig : List Byte
  version : BitVec 32
deriving DecidableEq, Repr, Inhabited

/-- What the object manager fixes when it starts (Table 1-7 step 8): where it keeps the object table (R72),
the page-table root (R84), the frame area (R245), the fault queue (R246), and where it puts the security service object
(R112). -/
structure OmLayout where
  otBase : BitVec 40
  otCap : BitVec 23
  ptRoot : BitVec 40
  frameBase : BitVec 40
  fqBase : BitVec 40
  cq0 : Alloc
  svc : Alloc
deriving DecidableEq, Repr, Inhabited

/-- The operation of a request that crosses the peer links (R44). A version request carries its operation: 0 read,
1 open a draft, 2 publish, 3 subscribe, 4 pin, 5 unpin (R355), 6 the task has ended, 7 a continuation has failed (R148). Some
operations carry what the spec asks of another package without naming a flit for it (log entry 83): part, bytes of the request
that follows it; guest, the entry of an object with segments there, or that its segments are to be freed; lost, an object
lost; query, the words of an entry for OBJQUERY; forward, an object-manager command that its home carries out; replicate, a PUB at the home of the entry asks the primary of
another shard for its copies (R81); walk, the leaf that the tables of the package have for a page; handover, a step of a handover (R118; log entry 48). -/
inductive RemoteOp where
  | entry (index : BitVec 30)
  | load (va : BitVec 52) (len : BitVec 7)
  | store (va : BitVec 52) (data mask : List Byte)
  | strongLoad (va : BitVec 52) (len : BitVec 7)
  | strongStore (va : BitVec 52) (data : List Byte)
  | atomic (va : BitVec 52) (wide : Bool) (op : BitVec 4) (operand : Word)
  | cas (va : BitVec 52) (wide : Bool) (expect new : Word)
  | fatomic (va : BitVec 52) (op : BitVec 2) (operand : U32)
  | version (index : BitVec 30) (op : BitVec 3) (v : U32) (task : Word)
  | casc (va : BitVec 52) (wide : Bool) (expect new : Word) (template index : Word) (world : Byte)
  | nearbank (args : List Word) (data : List Byte)
  | sequence (index : BitVec 30) (op : BitVec 4) (args : List Word) (data : List Byte)
  | decrement (task : Word) (k : BitVec 16) (world : Byte) (system poison : Bool)
  | taskq (task : Word) (item : BitVec 4) (world : Byte) (system : Bool)
  | invalidateTlb (va : BitVec 52) (all : Bool)
  | invalidateEntry (handle : Word) (all : Bool)
  | part (data : List Byte)
  | guest (gone : Bool) (entry : List Word)
  | lost (index : BitVec 30)
  | query (index : BitVec 30)
  | forward (words : List Word) (world : Byte)
  | replicate
  | walk (va : BitVec 52)
  | line (va : BitVec 52) (data : List Byte)
  | recall (va : BitVec 52) (len : U32)
  | handover (step : BitVec 4) (args : List Word) (data : List Byte)
deriving DecidableEq, Repr, Inhabited

/-- A remote request: the requester's tag (0 for a message that awaits no answer), the path it keeps (R44), the handle, run,
task and world of the access, and its operation. -/
structure RemoteReq where
  tag : U32
  path : Path
  handle : Word
  run : Nat
  task : Word
  world : Byte
  op : RemoteOp
deriving DecidableEq, Repr, Inhabited

/-- The choices of a chain when it starts a message: for every byte read, in order, which of the allowed values
the weak read returns (R158, R216). -/
abbrev Choices := List Nat

end Sys2Proof
end

