-- ==== Sys2Proof/Syntax.lean ====
section
/-!
DEFINITION. The instruction type: one constructor for each row of the opcode table.

Rows 154 to 348 are the instructions of map 1 (Table 12-5) and stand first; their arguments are the fields of the
encoding, as R283 and the entry of each instruction place them: g is the guard (R282), tk the token bits (R188), and
the other names are those of the entry. The other rows are the events of the package: what the host, a port, a sensor,
a timer or a unit of the package does at one instant. Their arguments are the inputs that arrive from outside and the
choices that the spec leaves to the implementation (log entry 7).
-/

namespace Sys2Proof

/-- The instructions and the events of the XF4, one constructor per row of the opcode table. -/
inductive Instr where
  /-- ADD, R304, opcode 0x001, 32 bits: d := a + b modulo 2^64. -/
  | add (g : BitVec 4) (x y z : BitVec 5)
  /-- SUB, R304, opcode 0x003, 32 bits: d := a − b modulo 2^64. -/
  | sub (g : BitVec 4) (x y z : BitVec 5)
  /-- MUL, R304, opcode 0x004, 32 bits: Low 64 bits of the product. -/
  | mul (g : BitVec 4) (x y z : BitVec 5)
  /-- MULH, R304, opcode 0x005, 32 bits: High 64 bits of the signed product. -/
  | mulh (g : BitVec 4) (x y z : BitVec 5)
  /-- MULHZ, R304, opcode 0x006, 32 bits: High 64 bits of the unsigned product. -/
  | mulhz (g : BitVec 4) (x y z : BitVec 5)
  /-- DIV, R305, opcode 0x007, 32 bits: Signed division towards zero, never trapping. -/
  | div (g : BitVec 4) (x y z : BitVec 5)
  /-- DIVZ, R305, opcode 0x008, 32 bits: Unsigned division. -/
  | divz (g : BitVec 4) (x y z : BitVec 5)
  /-- REM, R305, opcode 0x009, 32 bits: Signed remainder with the sign of the dividend. -/
  | rem (g : BitVec 4) (x y z : BitVec 5)
  /-- REMZ, R305, opcode 0x00A, 32 bits: Unsigned remainder. -/
  | remz (g : BitVec 4) (x y z : BitVec 5)
  /-- AND, R304, opcode 0x00B, 32 bits: Bitwise and. -/
  | and (g : BitVec 4) (x y z : BitVec 5)
  /-- OR, R304, opcode 0x00D, 32 bits: Bitwise or. -/
  | or (g : BitVec 4) (x y z : BitVec 5)
  /-- XOR, R304, opcode 0x00F, 32 bits: Bitwise exclusive or. -/
  | xor (g : BitVec 4) (x y z : BitVec 5)
  /-- ANDN, R304, opcode 0x011, 32 bits: a and not b. -/
  | andn (g : BitVec 4) (x y z : BitVec 5)
  /-- SHL, R306, opcode 0x012, 32 bits: Shift left by b[5:0]. -/
  | shl (g : BitVec 4) (x y z : BitVec 5)
  /-- SHR, R306, opcode 0x014, 32 bits: Logical shift right. -/
  | shr (g : BitVec 4) (x y z : BitVec 5)
  /-- SAR, R306, opcode 0x016, 32 bits: Arithmetic shift right. -/
  | sar (g : BitVec 4) (x y z : BitVec 5)
  /-- ROTL, R306, opcode 0x018, 32 bits: Rotate left. -/
  | rotl (g : BitVec 4) (x y z : BitVec 5)
  /-- MIN, R304, opcode 0x019, 32 bits: Signed minimum. -/
  | min (g : BitVec 4) (x y z : BitVec 5)
  /-- MINZ, R304, opcode 0x01A, 32 bits: Unsigned minimum. -/
  | minz (g : BitVec 4) (x y z : BitVec 5)
  /-- MAX, R304, opcode 0x01B, 32 bits: Signed maximum. -/
  | max (g : BitVec 4) (x y z : BitVec 5)
  /-- MAXZ, R304, opcode 0x01C, 32 bits: Unsigned maximum. -/
  | maxz (g : BitVec 4) (x y z : BitVec 5)
  /-- CLZ, R307, opcode 0x01D, 32 bits: Count leading zeros. -/
  | clz (g : BitVec 4) (x y : BitVec 5)
  /-- CTZ, R307, opcode 0x01E, 32 bits: Count trailing zeros. -/
  | ctz (g : BitVec 4) (x y : BitVec 5)
  /-- POPC, R307, opcode 0x01F, 32 bits: Count one bits. -/
  | popc (g : BitVec 4) (x y : BitVec 5)
  /-- BSWAP, R307, opcode 0x020, 32 bits: Reverse byte order. -/
  | bswap (g : BitVec 4) (x y : BitVec 5)
  /-- SEXT, R307, opcode 0x021, 32 bits: Sign-extend from 8, 16 or 32 bits. -/
  | sext (g : BitVec 4) (x y z : BitVec 5)
  /-- ZEXT, R307, opcode 0x022, 32 bits: Zero-extend from 8, 16 or 32 bits. -/
  | zext (g : BitVec 4) (x y z : BitVec 5)
  /-- MOV, R310, opcode 0x025, 32 bits: Move between s, a, lc and p register classes. -/
  | mov (g : BitVec 4) (x y : BitVec 5) (dc sc : BitVec 2)
  /-- PAND, R314, opcode 0x02A, 32 bits: Predicate and. -/
  | pand (g : BitVec 4) (x y z : BitVec 3)
  /-- POR, R314, opcode 0x02B, 32 bits: Predicate or. -/
  | por (g : BitVec 4) (x y z : BitVec 3)
  /-- PXOR, R314, opcode 0x02C, 32 bits: Predicate exclusive or. -/
  | pxor (g : BitVec 4) (x y z : BitVec 3)
  /-- PNOT, R314, opcode 0x02D, 32 bits: Predicate not. -/
  | pnot (g : BitVec 4) (x y : BitVec 3)
  /-- ADDI, R308, opcode 0x002, 64 bits: Add a sign-extended immediate on an s, a or lc register. -/
  | addi (g : BitVec 4) (x y : BitVec 5) (rc : BitVec 2) (imm : BitVec 32)
  /-- ANDI, R308, opcode 0x00C, 64 bits: And with an immediate. -/
  | andi (g : BitVec 4) (x y : BitVec 5) (imm : BitVec 32)
  /-- ORI, R308, opcode 0x00E, 64 bits: Or with an immediate. -/
  | ori (g : BitVec 4) (x y : BitVec 5) (imm : BitVec 32)
  /-- XORI, R308, opcode 0x010, 64 bits: Exclusive or with an immediate. -/
  | xori (g : BitVec 4) (x y : BitVec 5) (imm : BitVec 32)
  /-- SHLI, R308, opcode 0x013, 64 bits: Shift left by an immediate. -/
  | shli (g : BitVec 4) (x y : BitVec 5) (n : BitVec 6)
  /-- SHRI, R308, opcode 0x015, 64 bits: Logical shift right by an immediate. -/
  | shri (g : BitVec 4) (x y : BitVec 5) (n : BitVec 6)
  /-- SARI, R308, opcode 0x017, 64 bits: Arithmetic shift right by an immediate. -/
  | sari (g : BitVec 4) (x y : BitVec 5) (n : BitVec 6)
  /-- BFX, R309, opcode 0x023, 64 bits: Extract a bit field, signed or unsigned. -/
  | bfx (g : BitVec 4) (x y : BitVec 5) (sg : BitVec 1) (lo wm : BitVec 6)
  /-- BFI, R309, opcode 0x024, 64 bits: Insert a bit field. -/
  | bfi (g : BitVec 4) (x y : BitVec 5) (lo wm : BitVec 6)
  /-- MOVI_64, R311, opcode 0x026, 64 bits: Load a sign-extended 32-bit immediate. -/
  | movi64 (g : BitVec 4) (x : BitVec 5) (imm : BitVec 32)
  /-- MOVI_96, R311, opcode 0x026, 96 bits: Load a 64-bit immediate. -/
  | movi96 (g : BitVec 4) (x : BitVec 5) (imm lit : BitVec 32)
  /-- MOVHI, R311, opcode 0x027, 64 bits: Set the high 32 bits from an immediate. -/
  | movhi (g : BitVec 4) (x y : BitVec 5) (imm : BitVec 32)
  /-- SEL, R312, opcode 0x028, 64 bits: Select one of two registers by a predicate. -/
  | sel (g : BitVec 4) (x y : BitVec 5) (pr : BitVec 3) (z : BitVec 5)
  /-- CMP, R313, opcode 0x029, 64 bits: Integer compare into a predicate. -/
  | cmp (g : BitVec 4) (x : BitVec 3) (y : BitVec 5) (cc : BitVec 4) (ii : BitVec 1) (imm : BitVec 32)
  /-- FADD, R316, opcode 0x040, 64 bits: Floating-point add, rounded once. -/
  | fadd (g : BitVec 4) (x y : BitVec 5) (fm : BitVec 2) (b : BitVec 5) (rnd : BitVec 3)
  /-- FSUB, R316, opcode 0x041, 64 bits: Floating-point subtract. -/
  | fsub (g : BitVec 4) (x y : BitVec 5) (fm : BitVec 2) (b : BitVec 5) (rnd : BitVec 3)
  /-- FMUL, R316, opcode 0x042, 64 bits: Floating-point multiply. -/
  | fmul (g : BitVec 4) (x y : BitVec 5) (fm : BitVec 2) (b : BitVec 5) (rnd : BitVec 3)
  /-- FFMA, R316, opcode 0x043, 64 bits: Fused multiply-add. -/
  | ffma (g : BitVec 4) (x y : BitVec 5) (fm : BitVec 2) (b : BitVec 5) (rnd : BitVec 3) (c : BitVec 5)
  /-- FDIV, R316, opcode 0x044, 64 bits: Floating-point divide. -/
  | fdiv (g : BitVec 4) (x y : BitVec 5) (fm : BitVec 2) (b : BitVec 5) (rnd : BitVec 3)
  /-- FSQRT, R316, opcode 0x045, 64 bits: Floating-point square root. -/
  | fsqrt (g : BitVec 4) (x y : BitVec 5) (fm : BitVec 2) (rnd : BitVec 3)
  /-- FMIN, R317, opcode 0x046, 32 bits: Floating-point minimum by Table 11-8. -/
  | fmin (g : BitVec 4) (x y z : BitVec 5) (f : BitVec 1)
  /-- FMAX, R317, opcode 0x047, 32 bits: Floating-point maximum. -/
  | fmax (g : BitVec 4) (x y z : BitVec 5) (f : BitVec 1)
  /-- FCLASS, R319, opcode 0x04A, 32 bits: Classify a floating-point value. -/
  | fclass (g : BitVec 4) (x y : BitVec 5) (f : BitVec 1)
  /-- FCMP, R318, opcode 0x048, 64 bits: Quiet floating-point compare into a predicate. -/
  | fcmp (g : BitVec 4) (x : BitVec 3) (y : BitVec 5) (fm : BitVec 2) (cc : BitVec 4) (b : BitVec 5)
  /-- FCVT, R320, opcode 0x049, 64 bits: Convert between any two formats. -/
  | fcvt (g : BitVec 4) (x y : BitVec 5) (dfmt sfmt : BitVec 8) (rnd : BitVec 3) (sat : BitVec 1)
  /-- BR, R321, opcode 0x060, 64 bits: Unconditional branch. -/
  | br (g slot : BitVec 4) (ld : BitVec 28)
  /-- BRP, R321, opcode 0x061, 64 bits: Branch on a predicate. -/
  | brp (g : BitVec 4) (x : BitVec 3) (n : BitVec 1) (slot : BitVec 4) (ld : BitVec 28)
  /-- BRZ, R321, opcode 0x062, 64 bits: Branch if zero. -/
  | brz (g : BitVec 4) (x : BitVec 5) (slot : BitVec 4) (ld : BitVec 28)
  /-- BRNZ, R321, opcode 0x063, 64 bits: Branch if not zero. -/
  | brnz (g : BitVec 4) (x : BitVec 5) (slot : BitVec 4) (ld : BitVec 28)
  /-- CALL, R322, opcode 0x064, 64 bits: Push the return position and branch. -/
  | call (g slot : BitVec 4) (ld : BitVec 28)
  /-- RET, R322, opcode 0x065, 32 bits: Pop the return stack and continue there. -/
  | ret (g : BitVec 4)
  /-- LOOP, R323, opcode 0x066, 64 bits: Count down a loop counter and branch back. -/
  | loop (g : BitVec 4) (x : BitVec 2) (slot : BitVec 4) (ld : BitVec 28)
  /-- NOP, R324, opcode 0x067, 32 bits: No operation. -/
  | nop (g : BitVec 4)
  /-- HINT, R324, opcode 0x068, 32 bits: Hint with no architectural effect. -/
  | hint (g : BitVec 4) (w : BitVec 16)
  /-- LDP, R326, opcode 0x070, 64 bits: Load from the parameter image. -/
  | ldp (g : BitVec 4) (x : BitVec 5) (wd : BitVec 2) (sg : BitVec 1) (off : BitVec 12)
  /-- LDS, R327, opcode 0x071, 64 bits: Load from scratchpad. -/
  | lds (g : BitVec 4) (x : BitVec 5) (y : BitVec 3) (wd : BitVec 2) (sg : BitVec 1) (imm : BitVec 32)
  /-- STS, R327, opcode 0x072, 64 bits: Store to scratchpad. -/
  | sts (g : BitVec 4) (x : BitVec 5) (y : BitVec 3) (wd : BitVec 2) (imm : BitVec 32)
  /-- DMOV, R331, opcode 0x07F, 32 bits: Copy a descriptor register. -/
  | dmov (g x y : BitVec 4)
  /-- HLD, R329, opcode 0x078, 64 bits: Load a handle register. -/
  | hld (g x : BitVec 4) (y : BitVec 5) (src : BitVec 1) (imm : BitVec 32)
  /-- HQRY, R330, opcode 0x079, 64 bits: Query a field of an object's entry. -/
  | hqry (g : BitVec 4) (x : BitVec 5) (y item : BitVec 4)
  /-- DSET, R331, opcode 0x07A, 96 bits: Set a whole descriptor and mark it valid. -/
  | dset (g x y : BitVec 4) (rows cols : BitVec 7) (col0 : BitVec 16) (lit : BitVec 32)
  /-- DIDX, R331, opcode 0x07B, 64 bits: Set one index of a descriptor. -/
  | didx (g x : BitVec 4) (y : BitVec 5) (k : BitVec 2) (ii : BitVec 1) (imm : BitVec 32)
  /-- DADD, R331, opcode 0x07C, 64 bits: Add to one index of a descriptor. -/
  | dadd (g x : BitVec 4) (y : BitVec 5) (k : BitVec 2) (ii : BitVec 1) (imm : BitVec 32)
  /-- DSHP, R331, opcode 0x07D, 64 bits: Set a descriptor's tile shape. -/
  | dshp (g x : BitVec 4) (rows cols : BitVec 7)
  /-- DPAD, R331, opcode 0x07E, 96 bits: Set or clear a descriptor's pad override. -/
  | dpad (g x : BitVec 4) (clr : BitVec 1) (imm lit : BitVec 32)
  /-- LDE, R338, opcode 0x100, 64 bits: Element load, weak or strong. -/
  | lde (g : BitVec 4) (x y : BitVec 5) (h : BitVec 4) (str : BitVec 2) (rd : BitVec 3)
  /-- STE, R338, opcode 0x101, 64 bits: Element store, weak or strong. -/
  | ste (g : BitVec 4) (x y : BitVec 5) (h : BitVec 4) (str : BitVec 2)
  /-- ATOM, R341, opcode 0x102, 64 bits: Integer atomic returning the old value. -/
  | atom (g : BitVec 4) (x y : BitVec 5) (h : BitVec 4) (w : BitVec 1) (v : BitVec 5) (opc : BitVec 4)
  /-- FATOM, R341, opcode 0x104, 64 bits: FP32 atomic returning the old value. -/
  | fatom (g : BitVec 4) (x y : BitVec 5) (h : BitVec 4) (v : BitVec 5) (fop : BitVec 2)
  /-- ATOMNR, R341, opcode 0x105, 64 bits: Atomic that returns nothing. -/
  | atomnr (g : BitVec 4) (x y : BitVec 5) (h : BitVec 4) (w : BitVec 1) (opc : BitVec 4) (f : BitVec 1)
  /-- CAS, R342, opcode 0x103, 96 bits: Compare and swap at the home slice. -/
  | cas (g : BitVec 4) (x y : BitVec 5) (h : BitVec 4) (w : BitVec 1) (e nv : BitVec 5) (pd : BitVec 3)
  /-- CASC, R344, opcode 0x106, 96 bits: Compare and swap that launches a continuation through the Spout. -/
  | casc (g : BitVec 4) (x y : BitVec 5) (h : BitVec 4) (w : BitVec 1) (e nv : BitVec 5) (t : BitVec 4) (st : BitVec 5)
  /-- LDT, R350, opcode 0x110, 64 bits: Tile load into registers or scratchpad. -/
  | ldt (tk g : BitVec 4) (vd : BitVec 11) (q : BitVec 1) (d : BitVec 4) (a rd : BitVec 3)
  /-- STT, R350, opcode 0x111, 64 bits: Tile store, optionally masked by ROWLIM. -/
  | stt (tk g : BitVec 4) (vd : BitVec 11) (q : BitVec 1) (d : BitVec 4) (a : BitVec 3) (m : BitVec 1)
  /-- PFT, R351, opcode 0x112, 64 bits: Tile prefetch into L2 and Basin. -/
  | pft (tk g d : BitVec 4) (rd : BitVec 3)
  /-- BMAP, R353, opcode 0x118, 64 bits: Map a range into the step's Basin. -/
  | bmap (tk g d : BitVec 4) (all : BitVec 1)
  /-- BFLUSH, R354, opcode 0x119, 64 bits: Write back dirty Basin lines of a range. -/
  | bflush (tk g d : BitVec 4) (all : BitVec 1)
  /-- BDROP, R354, opcode 0x11A, 64 bits: Discard Basin lines of a range. -/
  | bdrop (tk g d : BitVec 4) (all : BitVec 1)
  /-- OPENV, R356, opcode 0x120, 64 bits: Request the draft of an object. -/
  | openv (g h : BitVec 4)
  /-- PUB, R356, opcode 0x121, 64 bits: Publish a new version of an object after its release point. -/
  | pub (g h : BitVec 4)
  /-- SUBV, R358, opcode 0x122, 64 bits: Attach a version subscription to a task. -/
  | subv (g : BitVec 4) (x y : BitVec 5) (h : BitVec 4)
  /-- PINV, R357, opcode 0x123, 64 bits: Pin a held version. -/
  | pinv (g : BitVec 4) (x y : BitVec 5) (h : BitVec 4)
  /-- UNPV, R356, opcode 0x124, 64 bits: Release the step's pin. -/
  | unpv (g h : BitVec 4)
  /-- VERQ, R356, opcode 0x125, 64 bits: Read VERSION strongly. -/
  | verq (g : BitVec 4) (x : BitVec 5) (h : BitVec 4)
  /-- FENCE_P, R359, opcode 0x128, 32 bits: Order accesses of a second path set after those of a first. -/
  | fenceP (g : BitVec 4) (s1 s2 : BitVec 8)
  /-- NBFILL, R360, opcode 0x130, 96 bits: Near-bank fill of a range with a pattern. -/
  | nbfill (tk g hd : BitVec 4) (a : BitVec 3) (imm lit : BitVec 32)
  /-- NBCOPY, R360, opcode 0x131, 96 bits: Near-bank copy within a slice. -/
  | nbcopy (tk g hd hs : BitVec 4) (a : BitVec 3)
  /-- NBAXPY, R362, opcode 0x132, 96 bits: Near-bank y := alpha × x + y. -/
  | nbaxpy (tk g hd hs : BitVec 4) (a : BitVec 3) (imm : BitVec 32) (rnd : BitVec 3) (sat : BitVec 1)
  /-- NBSCALE, R362, opcode 0x133, 96 bits: Near-bank y := alpha × y. -/
  | nbscale (tk g hd : BitVec 4) (a : BitVec 3) (imm : BitVec 32) (rnd : BitVec 3) (sat : BitVec 1)
  /-- NBRELAY, R360, opcode 0x134, 96 bits: Near-bank copy to another slice of the package. -/
  | nbrelay (tk g hd hs : BitVec 4) (a : BitVec 3)
  /-- RRZERO, R364, opcode 0x135, 96 bits: Zero whole DRAM rows in place. -/
  | rrzero (tk g hd : BitVec 4) (a : BitVec 3)
  /-- RRCOPY, R364, opcode 0x136, 96 bits: Copy whole DRAM rows within a slice. -/
  | rrcopy (tk g hd hs : BitVec 4) (a : BitVec 3)
  /-- FMTQ_REG, R369, opcode 0x180, 64 bits: Push a format word from an s register. -/
  | fmtqReg (g : BitVec 4) (x : BitVec 5)
  /-- FMTQ_IMM, R369, opcode 0x180, 96 bits: Push an immediate format word. -/
  | fmtqImm (g : BitVec 4) (imm lit : BitVec 32)
  /-- MMA_64, R378, opcode 0x181, 64 bits: Matrix multiply-accumulate from vector registers. -/
  | mma64 (tk g : BitVec 4) (va vb : BitVec 11) (acc : BitVec 3) (z : BitVec 1) (kl : BitVec 6)
  /-- MMA_96, R378, opcode 0x181, 96 bits: Matrix multiply-accumulate from any sources. -/
  | mma96 (tk g : BitVec 4) (va vb : BitVec 11) (acc : BitVec 3) (z : BitVec 1) (kl : BitVec 6) (ak bk : BitVec 2) (al bl : BitVec 4)
  /-- MMAM_64, R379, opcode 0x182, 64 bits: Row-masked matrix multiply-accumulate from registers. -/
  | mmam64 (tk g : BitVec 4) (va vb : BitVec 11) (acc : BitVec 3) (z : BitVec 1) (kl : BitVec 6)
  /-- MMAM_96, R379, opcode 0x182, 96 bits: Row-masked matrix multiply-accumulate from any sources. -/
  | mmam96 (tk g : BitVec 4) (va vb : BitVec 11) (acc : BitVec 3) (z : BitVec 1) (kl : BitVec 6) (ak bk : BitVec 2) (al bl : BitVec 4)
  /-- MZERO, R383, opcode 0x183, 32 bits: Zero an accumulator. -/
  | mzero (tk g : BitVec 4) (acc : BitVec 3)
  /-- MRD, R385, opcode 0x184, 64 bits: Read accumulator rows to registers, scaled and rounded. -/
  | mrd (tk g : BitVec 4) (vd : BitVec 11) (acc : BitVec 3) (rg ng : BitVec 2)
  /-- MWR, R385, opcode 0x185, 64 bits: Write accumulator rows from registers. -/
  | mwr (tk g : BitVec 4) (va : BitVec 11) (acc : BitVec 3) (rg ng : BitVec 2)
  /-- MRED, R387, opcode 0x186, 64 bits: Reduce along rows or columns. -/
  | mred (tk g : BitVec 4) (va : BitVec 11) (acc : BitVec 3) (z ax : BitVec 1)
  /-- MSCAN, R387, opcode 0x187, 64 bits: Scan along rows or columns. -/
  | mscan (tk g : BitVec 4) (va : BitVec 11) (acc : BitVec 3) (z ax ex : BitVec 1)
  /-- MTRN, R388, opcode 0x188, 64 bits: Transpose into an accumulator. -/
  | mtrn (tk g : BitVec 4) (va : BitVec 11) (acc : BitVec 3)
  /-- VADD, R398, opcode 0x200, 64 bits: Vector add. -/
  | vadd (tk g : BitVec 4) (vd : BitVec 11) (q : BitVec 1) (va vb : BitVec 11) (ty : BitVec 4) (nr : BitVec 2) (x3 : BitVec 3) (x1 : BitVec 1)
  /-- VSUB, R398, opcode 0x201, 64 bits: Vector subtract. -/
  | vsub (tk g : BitVec 4) (vd : BitVec 11) (q : BitVec 1) (va vb : BitVec 11) (ty : BitVec 4) (nr : BitVec 2) (x3 : BitVec 3) (x1 : BitVec 1)
  /-- VMUL, R398, opcode 0x202, 64 bits: Vector multiply. -/
  | vmul (tk g : BitVec 4) (vd : BitVec 11) (q : BitVec 1) (va vb : BitVec 11) (ty : BitVec 4) (nr : BitVec 2) (x3 : BitVec 3) (x1 : BitVec 1)
  /-- VFMA, R398, opcode 0x203, 96 bits: Vector fused multiply-add. -/
  | vfma (tk g : BitVec 4) (vd : BitVec 11) (q : BitVec 1) (va vb : BitVec 11) (ty : BitVec 4) (nr : BitVec 2) (x3 : BitVec 3) (x1 : BitVec 1) (vc : BitVec 11)
  /-- VFMS, R398, opcode 0x204, 96 bits: Vector fused multiply-subtract. -/
  | vfms (tk g : BitVec 4) (vd : BitVec 11) (q : BitVec 1) (va vb : BitVec 11) (ty : BitVec 4) (nr : BitVec 2) (x3 : BitVec 3) (x1 : BitVec 1) (vc : BitVec 11)
  /-- VMIN, R398, opcode 0x205, 64 bits: Vector minimum. -/
  | vmin (tk g : BitVec 4) (vd : BitVec 11) (q : BitVec 1) (va vb : BitVec 11) (ty : BitVec 4) (nr : BitVec 2) (x1 : BitVec 1)
  /-- VMAX, R398, opcode 0x206, 64 bits: Vector maximum. -/
  | vmax (tk g : BitVec 4) (vd : BitVec 11) (q : BitVec 1) (va vb : BitVec 11) (ty : BitVec 4) (nr : BitVec 2) (x1 : BitVec 1)
  /-- VABS, R398, opcode 0x207, 64 bits: Vector absolute value. -/
  | vabs (tk g : BitVec 4) (vd va : BitVec 11) (ty : BitVec 4) (nr : BitVec 2) (x1 : BitVec 1)
  /-- VNEG, R398, opcode 0x208, 64 bits: Vector negate. -/
  | vneg (tk g : BitVec 4) (vd va : BitVec 11) (ty : BitVec 4) (nr : BitVec 2) (x1 : BitVec 1)
  /-- VCLAMP, R398, opcode 0x209, 96 bits: Vector clamp. -/
  | vclamp (tk g : BitVec 4) (vd va vb : BitVec 11) (ty : BitVec 4) (nr : BitVec 2) (x1 : BitVec 1) (vc : BitVec 11)
  /-- VCVT, R405, opcode 0x20A, 64 bits: Vector format conversion. -/
  | vcvt (tk g : BitVec 4) (vd va : BitVec 11) (dfmt : BitVec 8) (rnd : BitVec 3) (sfmt : BitVec 8) (sat : BitVec 1)
  /-- VAND, R401, opcode 0x20B, 64 bits: Vector bitwise and. -/
  | vand (tk g : BitVec 4) (vd : BitVec 11) (q : BitVec 1) (va vb : BitVec 11) (ty : BitVec 4) (nr : BitVec 2)
  /-- VOR, R401, opcode 0x20C, 64 bits: Vector bitwise or. -/
  | vor (tk g : BitVec 4) (vd : BitVec 11) (q : BitVec 1) (va vb : BitVec 11) (ty : BitVec 4) (nr : BitVec 2)
  /-- VXOR, R401, opcode 0x20D, 64 bits: Vector bitwise exclusive or. -/
  | vxor (tk g : BitVec 4) (vd : BitVec 11) (q : BitVec 1) (va vb : BitVec 11) (ty : BitVec 4) (nr : BitVec 2)
  /-- VNOT, R401, opcode 0x20E, 64 bits: Vector bitwise not. -/
  | vnot (tk g : BitVec 4) (vd va : BitVec 11) (ty : BitVec 4) (nr : BitVec 2)
  /-- VSHL, R401, opcode 0x20F, 64 bits: Vector shift left. -/
  | vshl (tk g : BitVec 4) (vd : BitVec 11) (q : BitVec 1) (va vb : BitVec 11) (ty : BitVec 4) (nr : BitVec 2)
  /-- VSHR, R401, opcode 0x210, 64 bits: Vector logical shift right. -/
  | vshr (tk g : BitVec 4) (vd : BitVec 11) (q : BitVec 1) (va vb : BitVec 11) (ty : BitVec 4) (nr : BitVec 2)
  /-- VSAR, R401, opcode 0x211, 64 bits: Vector arithmetic shift right. -/
  | vsar (tk g : BitVec 4) (vd : BitVec 11) (q : BitVec 1) (va vb : BitVec 11) (ty : BitVec 4) (nr : BitVec 2)
  /-- VCMP, R402, opcode 0x212, 64 bits: Vector compare into a mask. -/
  | vcmp (tk g : BitVec 4) (vd : BitVec 11) (q : BitVec 1) (va vb : BitVec 11) (ty : BitVec 4) (nr : BitVec 2) (x3 : BitVec 3)
  /-- VSEL, R403, opcode 0x213, 96 bits: Vector select by a mask. -/
  | vsel (tk g : BitVec 4) (vd : BitVec 11) (q : BitVec 1) (va vb : BitVec 11) (ty : BitVec 4) (nr : BitVec 2) (vc : BitVec 11)
  /-- VMOV, R404, opcode 0x214, 64 bits: Vector move from a register or scalar. -/
  | vmov (tk g : BitVec 4) (vd : BitVec 11) (q : BitVec 1) (va vb : BitVec 11) (ty : BitVec 4) (nr : BitVec 2)
  /-- VMOVI, R404, opcode 0x215, 96 bits: Vector move of an immediate. -/
  | vmovi (tk g : BitVec 4) (vd : BitVec 11) (ty : BitVec 4) (nr : BitVec 2) (lit : BitVec 32)
  /-- VROTR, R406, opcode 0x216, 64 bits: Rotate along the row axis. -/
  | vrotr (tk g : BitVec 4) (vd : BitVec 11) (q : BitVec 1) (va vb : BitVec 11) (ty : BitVec 4) (nr : BitVec 2)
  /-- VROTC, R406, opcode 0x217, 64 bits: Rotate along the column axis. -/
  | vrotc (tk g : BitVec 4) (vd : BitVec 11) (q : BitVec 1) (va vb : BitVec 11) (ty : BitVec 4) (nr : BitVec 2)
  /-- VBCR, R406, opcode 0x218, 64 bits: Broadcast a column along the row axis. -/
  | vbcr (tk g : BitVec 4) (vd : BitVec 11) (q : BitVec 1) (va vb : BitVec 11) (ty : BitVec 4) (nr : BitVec 2)
  /-- VBCC, R406, opcode 0x219, 64 bits: Broadcast a row along the column axis. -/
  | vbcc (tk g : BitVec 4) (vd : BitVec 11) (q : BitVec 1) (va vb : BitVec 11) (ty : BitVec 4) (nr : BitVec 2)
  /-- VSHUF, R407, opcode 0x21A, 64 bits: Permute along the row axis. -/
  | vshuf (tk g : BitVec 4) (vd va vb : BitVec 11) (ty : BitVec 4) (nr : BitVec 2)
  /-- VGATH, R408, opcode 0x21B, 64 bits: Gather elements from scratchpad. -/
  | vgath (tk g : BitVec 4) (vd vb : BitVec 11) (ty : BitVec 4) (nr : BitVec 2) (x3 : BitVec 3) (x1 : BitVec 1)
  /-- VSCAT, R408, opcode 0x21C, 64 bits: Scatter elements to scratchpad. -/
  | vscat (tk g : BitVec 4) (va vb : BitVec 11) (ty : BitVec 4) (nr : BitVec 2) (x3 : BitVec 3) (x1 : BitVec 1)
  /-- VEXP2, R410, opcode 0x21D, 64 bits: Vector 2^x. -/
  | vexp2 (tk g : BitVec 4) (vd va : BitVec 11) (ty : BitVec 4) (nr : BitVec 2) (x3 : BitVec 3) (x1 : BitVec 1)
  /-- VLOG2, R410, opcode 0x21E, 64 bits: Vector log2. -/
  | vlog2 (tk g : BitVec 4) (vd va : BitVec 11) (ty : BitVec 4) (nr : BitVec 2) (x3 : BitVec 3) (x1 : BitVec 1)
  /-- VRCP, R410, opcode 0x21F, 64 bits: Vector reciprocal. -/
  | vrcp (tk g : BitVec 4) (vd va : BitVec 11) (ty : BitVec 4) (nr : BitVec 2) (x3 : BitVec 3) (x1 : BitVec 1)
  /-- VRSQ, R410, opcode 0x220, 64 bits: Vector reciprocal square root. -/
  | vrsq (tk g : BitVec 4) (vd va : BitVec 11) (ty : BitVec 4) (nr : BitVec 2) (x3 : BitVec 3) (x1 : BitVec 1)
  /-- VSIN, R410, opcode 0x221, 64 bits: Vector sin(πx). -/
  | vsin (tk g : BitVec 4) (vd va : BitVec 11) (ty : BitVec 4) (nr : BitVec 2) (x3 : BitVec 3) (x1 : BitVec 1)
  /-- VCOS, R410, opcode 0x222, 64 bits: Vector cos(πx). -/
  | vcos (tk g : BitVec 4) (vd va : BitVec 11) (ty : BitVec 4) (nr : BitVec 2) (x3 : BitVec 3) (x1 : BitVec 1)
  /-- VTANH, R410, opcode 0x223, 64 bits: Vector tanh. -/
  | vtanh (tk g : BitVec 4) (vd va : BitVec 11) (ty : BitVec 4) (nr : BitVec 2) (x3 : BitVec 3) (x1 : BitVec 1)
  /-- VPACK, R413, opcode 0x224, 64 bits: Pack narrow elements into containers. -/
  | vpack (tk g : BitVec 4) (vd va : BitVec 11) (x1 : BitVec 1)
  /-- VUNPK, R413, opcode 0x225, 64 bits: Unpack narrow elements. -/
  | vunpk (tk g : BitVec 4) (vd va : BitVec 11) (x1 : BitVec 1)
  /-- VQNT, R412, opcode 0x226, 64 bits: Quantise 32-column blocks with E8M0 scales. -/
  | vqnt (tk g : BitVec 4) (vd va : BitVec 11) (fmt : BitVec 8) (rnd : BitVec 3) (ty : BitVec 4) (nr : BitVec 2) (x1 : BitVec 1)
  /-- VSEED, R414, opcode 0x227, 64 bits: Reseed SRBASE and the engine states. -/
  | vseed (tk g : BitVec 4) (sa : BitVec 5)
  /-- ATTN, R433, opcode 0x280, 64 bits: Run one attention request against a sequence snapshot. -/
  | attn (tk g h : BitVec 4) (a : BitVec 3) (dq dd : BitVec 4)
  /-- KVAPP, R424, opcode 0x281, 64 bits: Append tokens to a sequence. -/
  | kvapp (tk g h : BitVec 4) (a : BitVec 3) (vk vv : BitVec 11) (n : BitVec 6)
  /-- ROPE, R426, opcode 0x282, 64 bits: Rotate queries with the sequence's angles. -/
  | rope (tk g : BitVec 4) (vd va : BitVec 11) (sb : BitVec 5) (h : BitVec 4) (pinc : BitVec 1) (ng : BitVec 2)
  /-- SPANOPEN, R427, opcode 0x283, 64 bits: Seal the tail and set the current span tag. -/
  | spanopen (tk g h : BitVec 4) (tag : BitVec 3)
  /-- SPANCLOSE, R427, opcode 0x284, 64 bits: Seal the tail. -/
  | spanclose (tk g h : BitVec 4)
  /-- RETSPAN, R428, opcode 0x285, 64 bits: Retire every span of the tags named. -/
  | retspan (tk g h : BitVec 4) (a : BitVec 3) (mode : BitVec 1) (mask : BitVec 8)
  /-- KVPROMO, R440, opcode 0x287, 64 bits: Promote blocks of named tags to HBM. -/
  | kvpromo (tk g h : BitVec 4) (a : BitVec 3) (mask : BitVec 8)
  /-- SEQQ, R441, opcode 0x286, 64 bits: Query sequence state strongly. -/
  | seqq (g : BitVec 4) (x y : BitVec 5) (h item : BitVec 4)
  /-- SPAWN, R444, opcode 0x300, 64 bits: Launch a task from a scratchpad record. -/
  | spawn (g : BitVec 4) (x y : BitVec 5) (a : BitVec 3)
  /-- SPAWN_REC, R444, opcode 0x301, 64 bits: Launch an operator task over tile records. -/
  | spawnRec (g : BitVec 4) (x y : BitVec 5) (a : BitVec 3)
  /-- DEPDEC, R446, opcode 0x302, 64 bits: Decrement a task's dependence count. -/
  | depdec (g : BitVec 4) (x y : BitVec 5) (ii : BitVec 1) (k : BitVec 16)
  /-- TASKQ, R450, opcode 0x306, 64 bits: Read a word of a task record. -/
  | taskq (g : BitVec 4) (x y : BitVec 5) (item : BitVec 4)
  /-- COMMIT, R447, opcode 0x303, 32 bits: Mark the step committed. -/
  | commit (g : BitVec 4)
  /-- EXIT, R448, opcode 0x304, 32 bits: End the step. -/
  | exit (g : BitVec 4)
  /-- ARRIVE, R449, opcode 0x305, 32 bits: Arrive at a barrier slot, with or without poison. -/
  | arrive (g : BitVec 4) (slot : BitVec 2) (p : BitVec 1)
  /-- RACQ_P, R453, opcode 0x308, 32 bits: Acquire the next free slot of a ring as producer. -/
  | racqP (g : BitVec 4) (a k : BitVec 3)
  /-- RACQ_C, R453, opcode 0x308, 32 bits: Acquire the next full slot of a ring as consumer. -/
  | racqC (g : BitVec 4) (a k : BitVec 3)
  /-- RREL_P, R453, opcode 0x309, 32 bits: Release the oldest produced slot. -/
  | rrelP (g : BitVec 4) (k : BitVec 3)
  /-- RREL_C, R453, opcode 0x309, 32 bits: Release the oldest consumed slot. -/
  | rrelC (g : BitVec 4) (k : BitVec 3)
  /-- TOKQ, R457, opcode 0x30A, 32 bits: Read the bank's token counters. -/
  | tokq (g : BitVec 4) (x : BitVec 5)
  /-- PUT, R456, opcode 0x30B, 64 bits: Copy a released slot to consumer rings. -/
  | put (g : BitVec 4) (x y : BitVec 5) (a k : BitVec 3)
  /-- INTK, R458, opcode 0x310, 64 bits: Submit a message to a Cascade chain. -/
  | intk (tk g : BitVec 4) (a : BitVec 3) (imm : BitVec 32)
  /-- SUMPRD, R459, opcode 0x311, 64 bits: Remove the oldest Sump record of the world. -/
  | sumprd (g : BitVec 4) (x : BitVec 5) (a : BitVec 3) (ch : BitVec 4)
  /-- XSEND, R461, opcode 0x318, 96 bits: Peer transfer between objects. -/
  | xsend (tk g hd hs : BitVec 4) (a : BitVec 3) (imm : BitVec 32)
  /-- XSTEP, R462, opcode 0x319, 64 bits: Check and run a hop plan. -/
  | xstep (tk g : BitVec 4) (sr : BitVec 5) (a : BitVec 3) (ld : BitVec 28)
  /-- XSYNC, R460, opcode 0x31A, 64 bits: Read TETHERCNT, optionally waiting for an instant. -/
  | xsync (g : BitVec 4) (x y : BitVec 5) (w : BitVec 1)
  /-- TRAP, R466, opcode 0x380, 32 bits: Raise cause TRAP with a code. -/
  | trap (g : BitVec 4) (w : BitVec 16)
  /-- OMCALL, R467, opcode 0x381, 32 bits: Queue an object-manager request. -/
  | omcall (g : BitVec 4) (x : BitVec 5) (y : BitVec 3)
  /-- SYSRD, R465, opcode 0x382, 64 bits: Read a system register. -/
  | sysrd (g : BitVec 4) (x y : BitVec 5) (num : BitVec 12)
  /-- SYSWR, R465, opcode 0x383, 64 bits: Write a system register. -/
  | syswr (g : BitVec 4) (x y : BitVec 5) (num : BitVec 12)
  /-- ERET, R466, opcode 0x384, 32 bits: Return from a system-core handler to EPC. -/
  | eret (g : BitVec 4)
  /-- WAITI, R468, opcode 0x385, 32 bits: Wait for a wake event and return the latched mask. -/
  | waiti (g : BitVec 4) (x : BitVec 5)
  /-- HALT, R468, opcode 0x386, 32 bits: Stop the system core until reset. -/
  | halt (g : BitVec 4)
  /-- DECMAP, R469, opcode 0x387, 64 bits: Load a decode-map slot. -/
  | decmap (g : BitVec 4) (x y : BitVec 5) (h : BitVec 4) (slot : BitVec 3)
  /-- TLBINV, R470, opcode 0x388, 64 bits: Invalidate TLB entries. -/
  | tlbinv (g : BitVec 4) (x y : BitVec 5) (sc : BitVec 2) (all : BitVec 1)
  /-- OTINV, R470, opcode 0x389, 64 bits: Invalidate object-cache entries. -/
  | otinv (g : BitVec 4) (x y : BitVec 5) (sc : BitVec 2) (all : BitVec 1)
  /-- MIGR, R471, opcode 0x38A, 64 bits: Migrate a segment. -/
  | migr (g : BitVec 4) (x : BitVec 5) (a : BitVec 3)
  /-- ZEROB, R472, opcode 0x38B, 64 bits: Zero a frame, bank, scratchpad or L2. -/
  | zerob (g : BitVec 4) (x y : BitVec 5) (kind : BitVec 3)
  /-- KEYSET, R473, opcode 0x38C, 64 bits: Load or erase a world key in the key engines. -/
  | keyset (g : BitVec 4) (x : BitVec 5) (op : BitVec 1) (wl : BitVec 8)
  /-- COLD_RESET, R24: Power-on reset runs the bring-up sequence from step 1. -/
  | coldReset
  /-- WARM_RESET, R24: A PCIe Fundamental or Hot Reset on the host link runs bring-up from step 1 and reuses the stored training results if their CRC passes. -/
  | warmReset (crcOk : Bool)
  /-- BRINGUP_STEP_COMPLETE, R24: A bring-up step finishes or fails; the next step starts, or bring-up stops and reports its code in BOOTSTAT. It takes the layout of the object manager, and the firmware image that step 3 found. -/
  | bringupStepComplete (ok : Bool) (detail : U16) (ports : BitVec 18) (om : OmLayout × FwImage)
  /-- PWR_CMD_PS0, R20: PWRCMD with TARGET 0: change the clock from PS0, resume from PS1, or bring the device up from PS3. -/
  | pwrCmdPs0 (seq freq rsvHi : U16) (rsvLo : BitVec 14)
  /-- PWR_CMD_PS1, R20: PWRCMD with TARGET 1: stop dispatch and drain every running or parked step. -/
  | pwrCmdPs1 (seq freq rsvHi : U16) (rsvLo : BitVec 14)
  /-- PWR_CMD_PS2, R20: PWRCMD with TARGET 2: from PS1, write back, mark units zero-pending and gate the compute dies; from PS3, no transition is allowed. -/
  | pwrCmdPs2 (seq freq rsvHi : U16) (rsvLo : BitVec 14)
  /-- PWR_CMD_PS3, R20: PWRCMD with TARGET 3: stop the object manager and power off HBM and LPDDR6. -/
  | pwrCmdPs3 (seq freq rsvHi : U16) (rsvLo : BitVec 14)
  /-- PS1_DRAIN_COMPLETE, R20: No step runs or is parked any more, so the transition into PS1 completes and PWRRES reports PWR_DONE. -/
  | ps1DrainComplete
  /-- PS1_DRAIN_TIMEOUT, R21: 100 ms of TETHERCNT after a PS1 command, steps still running are discarded if before COMMIT, or stopped and their tasks killed with PWR_DRAIN. -/
  | ps1DrainTimeout
  /-- POWER_TRANSITION_COMPLETE, R20: The work of a transition other than PS0 to PS1 ends; PWRRES reports PWR_DONE and vector 2 signals. -/
  | powerTransitionComplete
  /-- SELF_REFRESH_IDLE, R22: In PS2, a stack or half that no access has reached for 100 µs returns to self-refresh. -/
  | selfRefreshIdle (u : BitVec 4)
  /-- POWER_SAMPLE, R15: Every 1 µs the power controller measures the sum over all rails into the 1 ms window mean. -/
  | powerSample (mw : U32)
  /-- POWER_THROTTLE_STEP, R15: At most every 10 µs the power controller lowers or raises the core clock by 100 MHz against the 3,600 W limit. -/
  | powerThrottleStep (estimate : U32)
  /-- THERMAL_STEP, R17: Every 10 µs the hottest junction lowers the clock above 105 °C or raises it below 100 °C. -/
  | thermalStep (t : U32)
  /-- THERMAL_STOP, R17: A junction above 115 °C stops the compute-die clock, sets THERM and raises the thermal vector and a THERMSTOP event. -/
  | thermalStop (t : U32)
  /-- THERMAL_RESTART, R17: Below 110 °C after a stop, the core clock restarts at 1.0 GHz. -/
  | thermalRestart (t : U32)
  /-- HOST_LINK_DOWN, R29: A surprise link-down holds MSI-X messages and discards launch records that were only partly written. -/
  | hostLinkDown
  /-- HOST_LINK_UP, R29: The host link retrains and the held MSI-X messages are sent. -/
  | hostLinkUp
  /-- PMCSR_WRITE, R28: A write of D3hot is honoured only in PS3; in any other state it is ignored. -/
  | pmcsrWrite (d : BitVec 2)
  /-- LAUNCH_SUBMIT, R57: A write to word 7 of a launch slot submits the record; it is checked by Table 3-6 and LSTAT is updated. -/
  | launchSubmit (slot : BitVec 10) (w : Word)
  /-- HOST_QUEUE_ACCEPT, R57: A scheduler unit with a free task record takes a record from the host launch queue and checks its handles again. -/
  | hostQueueAccept (pos : BitVec 12)
  /-- CQCREATE, R60: Object-manager command that creates completion object CQN with its size, vector and moderation. It takes the source and the placement of the ring. -/
  | cqcreate (src : BitVec 9 × Alloc)
  /-- CQDESTROY, R60: Object-manager command that destroys a completion object whose credits are all free. -/
  | cqdestroy (src : BitVec 9)
  /-- OBJCREATE, R75: Object-manager command that creates an object from an entry image and returns its new handle. -/
  | objcreate (src : BitVec 9) (al : Alloc) (dma : Bool)
  /-- OBJDELETE, R96: Object-manager command that sets DELETING, advances GEN and invalidates the object caches of the domain. -/
  | objdelete (src : BitVec 9)
  /-- OBJDELETE_COMPLETE, R96: Every segment's BUSY reaches 0, so the frames are returned zero-pending and STATE becomes FREE. -/
  | objdeleteComplete (index : BitVec 30)
  /-- OBJWRITE, R485: Object-manager command that writes host data into one buffer of an object, and publishes it when PUB is set. -/
  | objwrite (src : BitVec 9) (dma : Bool)
  /-- OBJREAD, R485: Object-manager command that reads a buffer of an object to host memory. -/
  | objread (src : BitVec 9) (dma : Bool)
  /-- OBJMOVE, R92: Object-manager command that migrates an object to another tier or package. -/
  | objmove (src : BitVec 9) (al : Alloc)
  /-- FLASHREG, R89: Object-manager command that registers a read-only flash-tier object. -/
  | flashreg (src : BitVec 9) (al : Alloc) (dma : Bool)
  /-- OBJQUERY, R60: Object-manager command that copies words 0 to 15 of an entry to host memory. -/
  | objquery (src : BitVec 9) (dma : Bool)
  /-- SLOTBIND, R60: Object-manager command that binds a launch or command slot to a world, or unbinds it. -/
  | slotbind (src : BitVec 9)
  /-- GANG, R67: Object-manager command that launches a multi-package gang, with this package as its coordinator. -/
  | gang (src : BitVec 9) (gid : U16) (dma : Bool)
  /-- CQHEAD_WRITE, R63: The host moves the head of a completion ring and returns credits; an invalid move sets CQERR. -/
  | cqheadWrite (n : BitVec 6) (v : Word)
  /-- CQTAIL_READ, R55: A read of CQTAILn returns the tail and clears CQERR. -/
  | cqtailRead (n : BitVec 6)
  /-- COMPLETION_MODERATION_TIMER, R64: MODUS µs after the first unsignalled IRQ record, the completion object signals its vector. -/
  | completionModerationTimer (n : BitVec 6)
  /-- ERRSTAT_CLEAR, R66: A W1C write clears ERRSTAT bits; a bit set in the same cycle stays set. -/
  | errstatClear (v : Word)
  /-- PWRSTAT_CLEAR, R23: A W1C write clears THERM_SEEN or PWRLIM_SEEN. -/
  | pwrstatClear (v : Word)
  /-- TETHERSTAT_CLEAR, R48: A W1C write clears LOSTLOCK. -/
  | tetherstatClear (v : Word)
  /-- PLSTAT_CLEAR, R43: A W1C write clears TIMEOUT of a peer-port status register. -/
  | plstatClear (n : BitVec 5) (v : Word)
  /-- SLSTAT_CLEAR, R278: A W1C write clears INV of a slice. -/
  | slstatClear (n : BitVec 8) (v : Word)
  /-- TETHERCTL_WRITE, R49: A write sets the time master and Tether participation; a change of MASTER or a clear of EN clears LOCK without an event. -/
  | tetherctlWrite (v : Word)
  /-- PLCTL_DISABLE, R49: Writing DIS = 1 takes peer port n down at once and times out its outstanding requests. -/
  | plctlDisable (n : BitVec 5)
  /-- PLCTL_ENABLE, R49: Writing DIS = 0 starts training of peer port n. -/
  | plctlEnable (n : BitVec 5)
  /-- STEP_COUNTER_WRITE, R465: A system write to an engine step counter of a parked bank rewrites the frame field; a write to a running bank is ignored. -/
  | stepCounterWrite (q : QueueId) (inst : BitVec 10) (v : Word)
  /-- FQHEAD_WRITE, R246: A system core advances the fault-queue consumer index, which makes room for pending records. -/
  | fqheadWrite (v : Word)
  /-- FANSWER_RESUME, R248: FANSWER with ACTION RESUME makes a parked bank resumable from its frame. -/
  | fanswerResume (core : BitVec 9) (bank : BitVec 1)
  /-- FANSWER_SKIP, R248: FANSWER with ACTION SKIP resumes the bank with the faulting instruction or command retired without further effect. -/
  | fanswerSkip (core : BitVec 9) (bank : BitVec 1)
  /-- FANSWER_REPLAY, R248: FANSWER with ACTION REPLAY discards the step and replays it, or kills the task if the step was committed. -/
  | fanswerReplay (core : BitVec 9) (bank : BitVec 1)
  /-- FANSWER_KILL, R248: FANSWER with ACTION KILL kills the task with the given DETAIL. -/
  | fanswerKill (core : BitVec 9) (bank : BitVec 1) (detail : U16)
  /-- REGISTER_WRITE, R54: A write to a register or slot word that has no behaviour of its own. A write of several words gives the first, and those that follow it. -/
  | registerWrite (bar : BitVec 3) (off : BitVec 26) (size : BitVec 7) (v : Word × List Word)
  /-- CXL_PORT_DOWN, R33: A CXL port goes down and its segments are marked unavailable. -/
  | cxlPortDown (p : BitVec 4) (why : BitVec 4)
  /-- CXL_PORT_UP, R33: A CXL port comes up again and the faults on its segments are answered. It takes the port, and what enumeration finds there: none while it trains. -/
  | cxlPortUp (p : BitVec 4 × Option Device)
  /-- CXL_DOWN_TIMEOUT, R33: A CXL port still down after 1 s puts its segments in state LOST. -/
  | cxlDownTimeout (p : BitVec 4)
  /-- CXL_EXTENT_ADD, R31: A dynamic-capacity device reports an extent, which is registered as capacity. It takes the length, over how many ports the range is interleaved, and which of them this one is. -/
  | cxlExtentAdd (p : BitVec 2) (base : U32) (len : U32 × BitVec 3 × BitVec 3)
  /-- CXL_EXTENT_RELEASE, R31: A device asks to release an extent, which is released once its segments have migrated away. -/
  | cxlExtentRelease (p : BitVec 2) (base : U32)
  /-- NVME_COMPLETION, R34: An NVMe command completes on a flash drive. -/
  | nvmeCompletion (p : BitVec 3) (cid : U16)
  /-- NVME_TIMEOUT, R36: An NVMe command not done within 8 s is aborted and the controller reset; a second timeout within 60 s takes the port down. -/
  | nvmeTimeout (p : BitVec 3) (cid : U16)
  /-- PEER_PORT_TRAINED, R43: A peer port finishes training and its STATE becomes up. -/
  | peerPortTrained (p : BitVec 5) (nbr : BitVec 10)
  /-- IDLE, R40: Receipt of an IDLE flit, which carries an acknowledgement; without a header, the sending of one. -/
  | idle (p : BitVec 5) (h : Option Word) (crc : Bool)
  /-- RDREQ, R44: Receipt of a remote read request at its home package. -/
  | rdreq (p : BitVec 5) (h : Word) (crc : Bool) (q : RemoteReq)
  /-- RDRSP, R44: Receipt of a remote read response by the requester: its tag, and whether more of it follows. -/
  | rdrsp (p : BitVec 5) (h : Word) (crc : Bool) (tag : U32 × Bool) (data : List Byte)
  /-- WRREQ, R44: Receipt of a remote write request at its home package. -/
  | wrreq (p : BitVec 5) (h : Word) (crc : Bool) (q : RemoteReq)
  /-- WRACK, R44: Receipt of a remote write acknowledgement. -/
  | wrack (p : BitVec 5) (h : Word) (crc : Bool) (tag : U32)
  /-- ATREQ, R44: Receipt of a remote atomic, strong access or decrement request at its home. -/
  | atreq (p : BitVec 5) (h : Word) (crc : Bool) (q : RemoteReq)
  /-- ATRSP, R44: Receipt of a remote atomic or strong-access response. -/
  | atrsp (p : BitVec 5) (h : Word) (crc : Bool) (tag : U32) (status : Byte) (old : Word)
  /-- XFER, R53: Receipt of a peer-transfer flit, which carries a request, or of a hop-plan block flit, held in the collective buffer. -/
  | xfer (p : BitVec 5) (h : Word) (crc : Bool) (data : Option RemoteReq × List Byte)
  /-- TSYNC, R46: Receipt of a Tether synchronisation flit, which corrects TETHERCNT and updates LOCK. -/
  | tsync (p : BitVec 5) (h : Word) (crc : Bool) (count : Word) (rtt : U16)
  /-- TSYNC_TIMER, R46: Every 1 µs a package sends TSYNC flits on each port. -/
  | tsyncTimer
  /-- LCTL_NAK, R40: Receipt of a NAK, after which the sender replays from the named SEQ. -/
  | lctlNak (p : BitVec 5) (h : Word) (crc : Bool) (seq : BitVec 10)
  /-- LCTL_CREDIT, R40: Receipt of a credit return for a virtual channel. -/
  | lctlCredit (p : BitVec 5) (h : Word) (crc : Bool) (vc : BitVec 2) (n : BitVec 9)
  /-- PORT_RX_TIMEOUT, R42: A port that has received no flit for 2 µs is marked down and its outstanding requests time out. -/
  | portRxTimeout (p : BitVec 5)
  /-- REQUEST_TIMEOUT, R42: A remote request unanswered 50 µs after issue is treated as a link timeout. -/
  | requestTimeout (id : U32)
  /-- GANG_PREPARE, R67: A member receives a prepare flit and reserves placement and a credit, or refuses. -/
  | gangPrepare (p : BitVec 5) (h : Word) (crc : Bool) (gid : U16) (lr : List Word)
  /-- GANG_PREPARED, R67: The coordinator receives a PREPARED answer; with the last one it chooses T and sends commit. -/
  | gangPrepared (p : BitVec 5) (h : Word) (crc : Bool) (gid : U16)
  /-- GANG_REFUSED, R67: The coordinator receives a REFUSED answer and aborts the gang before start. -/
  | gangRefused (p : BitVec 5) (h : Word) (crc : Bool) (gid status : U16)
  /-- GANG_COMMIT, R67: A member receives the commit naming T, or releases its reservation if it arrives at or after T. -/
  | gangCommit (p : BitVec 5) (h : Word) (crc : Bool) (gid : U16) (t : Word)
  /-- GANG_ABORT, R67: A member receives an abort flit, releases its reservation or discards and kills its task. -/
  | gangAbort (p : BitVec 5) (h : Word) (crc : Bool) (gid : U16)
  /-- GANG_ALIVE, R68: Receipt of a GANG ALIVE flit. -/
  | gangAlive (p : BitVec 5) (h : Word) (crc : Bool) (gid : U16)
  /-- GANG_DONE, R68: The coordinator receives GANG DONE from a member; with the last one it writes the GANG record. -/
  | gangDone (p : BitVec 5) (h : Word) (crc : Bool) (gid status replays preempts : U16)
  /-- GANG_PREPARE_DEADLINE, R67: The prepare deadline expires with a member unanswered, and the gang aborts before start. -/
  | gangPrepareDeadline (gid : U16)
  /-- GANG_START_T, R144: At Tether instant T a prepared and committed member dispatches step 0 on its held core. -/
  | gangStartT (src : BitVec 10) (gid : U16)
  /-- GANG_COMMIT_WAIT_TIMEOUT, R67: A member that has received neither commit nor abort 100 µs after preparing releases its reservation. -/
  | gangCommitWaitTimeout (src : BitVec 10) (gid : U16)
  /-- GANG_ALIVE_TIMER, R68: Every 10 µs started members and the coordinator send ALIVE flits. -/
  | gangAliveTimer
  /-- GANG_MEMBER_SILENT, R68: The coordinator hears nothing from a member for 50 µs and starts phase 4. -/
  | gangMemberSilent (gid : U16) (pkg : BitVec 10)
  /-- GANG_COORDINATOR_SILENT, R68: A member hears no ALIVE from the coordinator for 50 µs, kills its task and writes GANG_INCOMPLETE. -/
  | gangCoordinatorSilent (src : BitVec 10) (gid : U16)
  /-- GANG_ABORT_COLLECT, R67: 10 µs after phase-4 abort, the coordinator writes the present list and a GANG_INCOMPLETE record. -/
  | gangAbortCollect (gid : U16) (dma : Bool)
  /-- HOPPLAN_SEND_SLOT, R53: The start slot of a SEND step begins and its flits leave within the slot. -/
  | hopplanSendSlot (core : BitVec 9)
  /-- HOPPLAN_RECV_STEP, R51: The block of a RECV step is complete and its arithmetic is applied. -/
  | hopplanRecvStep (core : BitVec 9)
  /-- HOPPLAN_RECV_DEADLINE, R53: A RECV block incomplete at the end of slot plus 8 is a link timeout. -/
  | hopplanRecvDeadline (core : BitVec 9)
  /-- OBJECT_CACHE_FILL, R72: An object-table entry fill arrives and its CRC is checked; a second mismatch makes the object LOST. -/
  | objectCacheFill (unit : BitVec 6) (handle : Word)
  /-- PAGE_WALK_COMPLETE, R208: A page-table walk ends, serving or faulting every request joined to it, or restarting if stale. -/
  | pageWalkComplete (unit : BitVec 6) (va : BitVec 52)
  /-- MEMORY_REQUEST_COMPLETE, R90: A request completes at its segment and lowers BUSY. -/
  | memoryRequestComplete (id : U32) (ch : Choices)
  /-- SLICE_STRONG_ACCESS, R215: A strong access or atomic executes at its home slice at its place in the strong order. -/
  | sliceStrongAccess (id : U32)
  /-- MIGRATION_BUSY_ZERO, R91: BUSY of a held segment reaches 0, so the migration engine copies it. -/
  | migrationBusyZero (id : U32)
  /-- MIGRATION_COPY_DONE, R91: The copy ends; the leaf is rewritten, TLBs invalidated, HOLD cleared and held requests released. -/
  | migrationCopyDone (id : U32)
  /-- EVICTION, R93: The least recently used qualifying segment is demoted when a promotion needs space; or no segment qualifies, for the parked bank that needs it. -/
  | eviction (victim : BitVec 52) (pfn : U32 × Option (BitVec 9 × BitVec 1))
  /-- ACCESS_BIT_SAMPLE, R210: Every 1 ms the object manager reads and clears the TLB access bits. -/
  | accessBitSample
  /-- MEMORY_SCRUB, R258: Every 24 h each HBM slice reads and corrects every line of its storage. -/
  | memoryScrub (slice : Byte)
  /-- HANDOVER_KEYXFER_ANSWER, R118: D answers the KEYXFER of a protected handover, and the source starts the copy. -/
  | handoverKeyxferAnswer (id : U32) (ok : Bool)
  /-- HANDOVER_DATAOK, R118: D answers DATAOK; the source erases its copy and the home sends REBIND. -/
  | handoverDataok (id : U32)
  /-- HANDOVER_REBIND, R118: D receives REBIND, installs the mapping and answers CONFIRM. -/
  | handoverRebind (va : BitVec 52) (leaf : Word) (al : Alloc)
  /-- HANDOVER_CONFIRM, R119: The home receives CONFIRM and ends the handover, or sends an erase if the object is already LOST. -/
  | handoverConfirm (id : U32)
  /-- HANDOVER_STEP_TIMEOUT, R119: A KEYXFER or DATAOK that is not answered within 1 ms aborts the handover. -/
  | handoverStepTimeout (id : U32)
  /-- HANDOVER_TIMEOUT, R119: No CONFIRM within 5 ms of REBIND makes the object LOST. -/
  | handoverTimeout (id : U32)
  /-- ATTEST, R115: Security-service request that returns a signed attestation report. -/
  | attest
  /-- WCREATE, R113: Security-service request that unwraps a world key and loads it into every engine. -/
  | wcreate
  /-- WDESTROY, R114: Security-service request that erases the key of an unused world. -/
  | wdestroy
  /-- KEYGEN, R117: Security-service request that creates a new attestation key after exhaustion. -/
  | keygen
  /-- CERTSET, R117: Security-service request that installs a vendor certificate for the attestation key. -/
  | certset
  /-- KEYXFER, R113: Security-service request that transfers a world key between packages. -/
  | keyxfer
  /-- SECURITY_LOCKSTEP_MISMATCH, R108: The comparator finds the security cores disagree; the complex resets and fails requests with SEC_FAULT. -/
  | securityLockstepMismatch
  /-- DEPENDENCE_DECREMENT, R127: A decrement reaches a scheduler unit and lowers COUNT, making the task ready at 0. -/
  | dependenceDecrement (id : U32)
  /-- PARAM_IMAGE_LOADED, R325: The parameter image of a task that became ready is copied, or its failure kills the task. -/
  | paramImageLoaded (task : Word) (ch : Choices)
  /-- STEP_DISPATCH, R130: A free core receives the next step of the ready item of highest EPRIO. -/
  | stepDispatch (core : BitVec 9) (ch : Choices)
  /-- AGING_STEP, R129: Each 65,536 cycles of waiting raise a ready task's EPRIO by one, up to 6. -/
  | agingStep (task : Word)
  /-- PREEMPT_GRACE, R149: An item has found no allowed core free for 8,192 cycles and pre-empts a qualifying step. -/
  | preemptGrace (task : Word)
  /-- PREEMPT_DISCARD_DONE, R150: The discard of a pre-empted step completes and its core goes to the pre-empting item. -/
  | preemptDiscardDone (core : BitVec 9)
  /-- GATHER_RELEASE, R139: A higher item has waited 8,192 cycles, so the gathering pipeline or gang releases its cores. -/
  | gatherRelease
  /-- PIPELINE_GATHERED, R138: A pipeline holds its CORES cores and decrements every stage in one cycle. -/
  | pipelineGathered
  /-- LOCAL_GANG_GATHERED, R143: A local gang holds GSIZE cores and dispatches every member's step 0 in one cycle. -/
  | localGangGathered (ch : Choices)
  /-- PIPELINE_REBALANCE, R140: Every 16 µs the pipeline's unit compares stage pressures and moves at most one core. -/
  | pipelineRebalance (task : Word)
  /-- TASK_END, R133: A task's last step and run-on commands have ended; it makes its arrivals and writes its TASK_EXIT record. -/
  | taskEnd (task : Word)
  /-- PARKED_STEP_RESUME, R131: An answered parked step resumes once the other bank's step ends, or at once if it is idle. -/
  | parkedStepResume (core : BitVec 9) (bank : BitVec 1)
  /-- CASC_ARRIVAL, R345: A CASC reaches its slice and enters the Spout waiting list, or returns NOSPOUT if the list is full. -/
  | cascArrival (id : U32)
  /-- SPOUT_GRANT, R345: A free Spout entry is granted to the oldest waiting CASC, which compares and swaps. -/
  | spoutGrant (slice : Byte)
  /-- CASC_HOLD_TIMEOUT, R345: A CASC granted no entry within 4,096 cycles returns NOSPOUT. -/
  | cascHoldTimeout (slice : Byte)
  /-- SPOUT_LAUNCH_TAKEN, R146: The scheduler unit takes a task record and credit for a forwarded Spout launch, or the launch faults. -/
  | spoutLaunchTaken (slice : Byte)
  /-- SPOUT_NO_RECORD, R147: No task record is free within 4,096 cycles of forwarding, so a launch-fault record is written. -/
  | spoutNoRecord (slice : Byte)
  /-- CHAIN_MESSAGE_START, R157: A chain's fetch front starts the next queued message and runs the checks of R157. -/
  | chainMessageStart (chain : BitVec 4) (ch : Choices)
  /-- CHAIN_STAGE_FAULT, R172: A stage faults a message, which ends with a closing batch and a Sump record. -/
  | chainStageFault (chain : BitVec 4)
  /-- BATCH_DELIVER, R168: The chain takes a free consumer slot, writes a batch and releases it. -/
  | batchDeliver (chain : BitVec 4)
  /-- CONSUMER_GONE, R169: A named consumer ends before taking its batches, and a CONS_GONE Sump record is written. -/
  | consumerGone (chain entry : BitVec 4)
  /-- ENGINE_COMMAND_ISSUE, R189: An engine issues its head command once its token pops are satisfied. -/
  | engineCommandIssue (core : BitVec 9) (q : QueueId)
  /-- ENGINE_COMMAND_RETIRE, R186: An engine command's results are written and it retires, pushing its tokens. -/
  | engineCommandRetire (core : BitVec 9) (q : QueueId) (steps : U16) (ch : Choices)
  /-- SFU_WRITEBACK, R252: A special-function result lands in its destination at the end of its latency. -/
  | sfuWriteback (core : BitVec 9)
  /-- STEP_BOUNDARY_RELEASE, R184: The queues named in QMASK are empty, so the new step's contexts begin to issue. -/
  | stepBoundaryRelease (core : BitVec 9) (bank : BitVec 1)
  /-- TOKEN_STALL, R191: For 65,536 cycles every queue waits on a token with nothing else moving, so the core traps. -/
  | tokenStall (core : BitVec 9)
  /-- FAULT_FRAME_WRITE, R244: The drain ends; the core writes its frame, appends a core-fault record and switches banks. -/
  | faultFrameWrite (core : BitVec 9) (bank : BitVec 1) (nl nm ns nx : Byte) (ch : Choices)
  /-- UE_ENGINE, R257: An uncorrectable error in core state replays the step; in a command at the head of a queue, that of the command. -/
  | ueEngine (core : BitVec 9) (bank : BitVec 1 × Option QueueId)
  /-- UE_MEM, R258: An uncorrectable memory read is repaired from another copy and the step replayed, or the segment becomes LOST. The reader is a step, or the command at the head of a queue. -/
  | ueMem (core : BitVec 9) (va : Option QueueId × BitVec 52)
  /-- UE_BASIN, R257: An uncorrectable error in a dirty Basin line kills the task. -/
  | ueBasin (core : BitVec 9) (bank : BitVec 1)
  /-- UE_CACHE_ENTRY, R257: An uncorrectable error in an L2 line, clean Basin line, code cache, object cache or TLB entry invalidates and refetches it. -/
  | ueCacheEntry (kind : BitVec 3) (unit : BitVec 9) (key : Word)
  /-- UE_SLICE_BUFFER, R257: An uncorrectable error in a slice buffer, Spout or Sump reports UEMEM. -/
  | ueSliceBuffer (slice : Byte) (handle : Word)
  /-- PUB_EFFECT, R227: A PUB reaches its release point and advances VERSION, closing the draft and delivering subscriptions. -/
  | pubEffect (id : U32)
  /-- DRAFT_OPEN, R226: A waiting OPENV's conflict ends, and the draft opens for its task. -/
  | draftOpen (id : U32)
  /-- SPAWN_ARRIVAL, R444: A SPAWN record reaches its scheduler unit after the release point and is checked by Table 18-1. -/
  | spawnArrival (id : U32)
  /-- NEARBANK_START, R363: A near-bank command starts at its sequencer once overlapping earlier commands have completed. -/
  | nearbankStart (core : BitVec 9) (bank : BitVec 1) (n : BitVec 5)
  /-- NEARBANK_COMPLETE, R363: A near-bank command completes after invalidating cached copies, and its writes perform. -/
  | nearbankComplete (core : BitVec 9) (bank : BitVec 1) (n : BitVec 5)
  /-- SEQ_COMMAND_EXECUTE, R421: A sequence command executes at the home once the previous command on the sequence has completed. -/
  | seqCommandExecute (core : BitVec 9) (bank : BitVec 1) (n : BitVec 5)
  /-- ATTN_REQUEST_START, R436: The attention engine takes the next request in arrival order and snapshots the sequence at its home. -/
  | attnRequestStart (cluster : BitVec 6) (ch : Choices)
  /-- PIN_RELEASE_FREE, R429: The last pin on a retired block is released and the block is zeroed and freed. -/
  | pinReleaseFree (handle : Word) (blk : BitVec 14)
  /-- RING_TRANSFER, R454: A released producer slot is moved to a consumer end that has a free slot. -/
  | ringTransfer (core : BitVec 9) (k : BitVec 3)
  /-- TETHER_MS_TICK, R468: TETHERCNT reaches a multiple of 1,000,000 ns and latches a wake event in every system core. -/
  | tetherMsTick
  /-- COMMAND_SLOT_SUBMIT, R60: A write to word 7 of a command slot submits the command record, which is checked against Table 3-6 orders 1, 9 and 10, or rejected in PS3, and CSTAT is updated. -/
  | commandSlotSubmit (slot : Byte) (w : Word)
  /-- XSYNC_WAIT_RELEASE, R460: Local TETHERCNT reaches the instant named by a stalled XSYNC.wait, so the context resumes and receives TETHERCNT. -/
  | xsyncWaitRelease (core : BitVec 9) (c : CtxId)
deriving DecidableEq, Repr, Inhabited

end Sys2Proof
end

