-- ==== Sys2Proof/Machine/State.lean ====
section
/-!
DEFINITION. The state of one XF4 package, as plain data, and the state right after reset.

Every field names, after it, its width, the file and rule of spec/ that give it, and its reset value; INVENTORY.md
lists them all. A reset value marked (3) is zero or empty by log entry 3: the spec gives none. Sparse tables hold only
the entries that differ from the default named beside them.
-/

namespace Sys2Proof.Machine

open Sys2Proof

/-- Bytes by address, in canonical form: rising addresses, no zero entry (log entry 4). -/
abbrev Memory := List Host.Cell

/-- A sparse table by number, rising keys. -/
abbrev Table (α : Type) := List (Nat × α)

/-! ### Power, reset and bring-up (01_package.md) -/

inductive PState where
  | ps0 | ps1 | ps2 | ps3
deriving DecidableEq, Repr, Inhabited

inductive BootFail where
  | none | rail | lock | auth | sys | mem | om
deriving DecidableEq, Repr, Inhabited

/-- A power transition in progress (R20): its target, the clock point that runs until it completes, the host's SEQ and its
start, by TETHERCNT. -/
structure Transition where
  target : PState
  was : U16
  seq : U16
  start : Nat
deriving DecidableEq, Repr, Inhabited

structure Power where
  bootStep : BitVec 8            -- 8; 03 R55 Table 3-3 STEP; 0x01
  bootFail : BootFail            -- 8; 03 R55 Table 3-3 FAIL; none
  bootDetail : U16               -- 16; 03 R55 Table 3-3 DETAIL; 0
  backupTried : Bool             -- 1; 01 R24 Table 1-7 step 3; false
  memRetried : List U16          -- -; 01 R24 Table 1-7 step 5, stacks and channels trained again; empty
  warm : Bool                    -- 1; 01 R24 (the stored training results are reused); false
  trained : Bool                 -- 1; 01 R24 (training results stored); false
  resumeFreq : Option U16        -- 16; 01 R20 PS3 to PS0 runs bring-up for this clock point; none
  pstate : PState                -- 2; 01 R23 PSTATE; PS0
  trans : Option Transition      -- -; 01 R20, R23 TRANS; none
  freqCmd : U16                  -- 16; 01 R23 FREQ_CMD; 0x0898
  powerCap : U16                 -- 16; 01 R15, R18 clock limit of the power controller, MHz; DESIGN CHOICE 2400 (log 9)
  thermCap : U16                 -- 16; 01 R17, R18 clock limit of the thermal actions, MHz; DESIGN CHOICE 2400 (log 9)
  thermStopped : Bool            -- 1; 01 R17 clock stopped by temperature; false
  thermSeen : Bool               -- 1; 01 R23 THERM_SEEN; 0
  pwrlimSeen : Bool              -- 1; 01 R23 PWRLIM_SEEN; 0
  windowSum : Nat                -- -; 01 R15 sum of the samples of the 1 ms window, mW; DESIGN CHOICE 0 (log 3)
  windowCount : Nat              -- -; 01 R15 samples in the window; DESIGN CHOICE 0 (log 3)
  windowMean : Nat               -- -; 01 R15 mean of the last whole window, mW; DESIGN CHOICE 0 (log 3)
  lastPowerStep : Nat            -- -; 01 R15 time of the last power step, ns; DESIGN CHOICE 0 (log 3)
  lastThermStep : Nat            -- -; 01 R17 time of the last thermal step, ns; DESIGN CHOICE 0 (log 3)
  lastSample : Nat               -- -; 01 R15 time of the last sample, ns; DESIGN CHOICE 0 (log 3)
  pwrres : Word                  -- 64; 03 R69 PWRRES; DESIGN CHOICE 0 (log 3)
  selfRefresh : BitVec 14        -- 14; 01 R22 stacks 0-11 and halves 12, 13 in self-refresh; 0
  lastAccess : Table Nat         -- -; 01 R22 last access per stack or half, ns; empty
deriving DecidableEq, Repr, Inhabited

/-! ### Links (02_links.md) -/

/-- An HDM range of a CXL port (R30, R31): base and length in 64 KiB units of the tier's space, the ports over which it is
interleaved at 4 KiB, and this port's place among them. -/
structure CxlRange where
  base : Nat
  len : Nat
  ways : Nat
  way : Nat
deriving DecidableEq, Repr, Inhabited

/-- The NVMe commands that R34 allows. -/
inductive NvmeOp where
  | read | write | flush | deallocate
deriving DecidableEq, Repr, Inhabited

structure NvmeCmd where
  cid : Nat
  op : NvmeOp
  start : Nat
deriving DecidableEq, Repr, Inhabited

/-- A CXL or flash port (Table 3-4), its ranges (R30, R31) and its NVMe commands (R34). -/
structure TierPort where
  st : BitVec 2                  -- 2; 03 R55 Table 3-4 STATE; 0
  why : BitVec 4                 -- 4; 03 R55 Table 3-4 WHY; 0
  downSince : Nat                -- -; 02 R33 time the port went down, ns; 0
  lost : Bool                    -- 1; 02 R33 down for 1 s, segments LOST; false
  extents : List CxlRange        -- <=8; 02 R30, R31 ranges registered as capacity; empty
  releasing : List Nat           -- -; 02 R31 extents whose release is pending; empty
  cmds : List NvmeCmd            -- <=32 x 1024; 02 R34, R36 NVMe commands outstanding, with their start, ns; empty
  waiting : List NvmeCmd         -- -; 02 R34 NVMe commands that wait for a queue entry, or to be issued again (R36); empty
  lastTimeout : Option Nat       -- -; 02 R36 time of the last command timeout; none
deriving DecidableEq, Repr, Inhabited

/-- A flit as sent: header (Table 2-3, its CRC field zero, log entry 12) and the request it carries. -/
inductive Payload where
  | none
  | request (q : RemoteReq)
  | response (tag : U32) (status : Byte) (data : List Byte) (old : Word)
  | block (data : List Byte)
  | tsync (count : Word)
  | nak (seq : BitVec 10)
  | credit (vc : BitVec 2) (n : BitVec 9)
  | gang (kind : BitVec 4) (gid status replays preempts : U16) (t : Word) (lr : List Word)
deriving DecidableEq, Repr, Inhabited

structure Flit where
  hdr : Word
  pay : Payload
deriving DecidableEq, Repr, Inhabited

structure PeerPort where
  st : BitVec 2                  -- 2; 02 R43 STATE; 0
  nbr : BitVec 10                -- 10; 02 R43 NBR; 0
  replays : U16                  -- 16; 02 R43 REPLAYS; 0
  crcerr : Byte                  -- 8; 02 R43 CRCERR; 0
  timeout : Bool                 -- 1; 02 R43 TIMEOUT; 0
  dis : Bool                     -- 1; 02 R49 PLCTLn.DIS; 0
  txSeq : BitVec 10              -- 10; 02 R38 next SEQ to send; DESIGN CHOICE 0 (log 3)
  rxSeq : BitVec 10              -- 10; 02 R38 next SEQ expected; DESIGN CHOICE 0 (log 3)
  replay : List Flit             -- <=512; 02 R40 replay buffer; empty
  txq : List Flit                -- -; 02 R40 flits that wait for a credit; empty
  credits : Vector Nat 4         -- 4 x 9; 02 R40 credits held per VC; 256 each
  collective : List (BitVec 10 × Nat × List Byte)  -- <=512 flits; 02 R53 collective buffer: source, arrival by TETHERCNT, bytes; empty
  lastRx : Nat                   -- -; 02 R42 time of the last flit, ns; 0
  sent : List Flit               -- -; 02 R40 flits sent, newest first: the model's own record (log 13); empty
deriving DecidableEq, Repr, Inhabited

structure Links where
  d3hot : Bool                   -- 1; 02 R28 PMCSR; D0
  hostUp : Bool                  -- 1; 02 R29 host link up; DESIGN CHOICE true (log 14)
  heldMsix : List Nat            -- 2048; 02 R29 MSI-X messages held, one per vector; empty
  msixTable : Memory             -- 2048 x 128; 03 R55 MSI-X table; PRESUMED every entry masked (log 15)
  msixEnable : Bool              -- 1; 03 R64 MSI-X Enable; PRESUMED 0 (log 15)
  msixFuncMask : Bool            -- 1; 03 R64 MSI-X Function Mask; PRESUMED 0 (log 15)
  pba : List Nat                 -- 2048; 03 R55 MSI-X PBA; 0
  msixSent : List Nat            -- -; 03 R64 messages sent, newest first: the model's own record (log 13); empty
  cxl : Table TierPort           -- 4; 02 R30, 03 R55 CXSTATn; STATE 0
  flash : Table TierPort         -- 8; 02 R34, 03 R55 FLSTATn; STATE 0
  peers : Table PeerPort         -- 18; 02 R43 PLSTATn; as PeerPort
  lock : Bool                    -- 1; 02 R48 LOCK; 0
  lostLock : Bool                -- 1; 02 R48 LOSTLOCK; 0
  skew : Byte                    -- 8; 02 R48 SKEW; 0
  master : BitVec 10             -- 10; 02 R49 MASTER; 0
  tetherEn : Bool                -- 1; 02 R49 EN; 1
  lastTsync : Nat                -- -; 02 R46 time of the last TSYNC flits, ns; 0
  routes : Table Nat             -- 576; 02 R41 port that leads to a package, once a flit has left for it; empty
deriving DecidableEq, Repr, Inhabited

/-! ### Host interface (03_host_interface.md) -/

structure Slot where
  words : Vector Word 8          -- 8 x 64; 03 R57 latest value of each word; DESIGN CHOICE 0 (log 3)
  mask : Byte                    -- 8; 03 R57 words written since the last submission; 0
  seq : U16                      -- 16; 03 R58 SEQ; 0
  rejcnt : U16                   -- 16; 03 R58 REJCNT; 0
  status : U16                   -- 16; 03 R58 STATUS; 0
  world : Byte                   -- 8; 03 R60 world bound by SLOTBIND, 0 unbound; 0
deriving DecidableEq, Repr, Inhabited

structure CompletionObj where
  log2 : BitVec 4                -- 4; 03 R60 SIZE, 64 << SIZE records; 6 for object 0
  vector : BitVec 11             -- 11; 03 R60 VECTOR; 64 for object 0
  modcnt : U16                   -- 16; 03 R60 MODCNT; 1 for object 0
  modus : U16                    -- 16; 03 R60 MODUS; 0 for object 0
  head : BitVec 14               -- 14; 03 R55 CQHEADn; 0
  tail : BitVec 14               -- 14; 03 R55 CQTAILn; 0
  count : Nat                    -- 15; 03 R63 records written and not passed by CQHEADn; 0
  held : Nat                     -- 15; 03 R62 credits held by records not yet written; 0
  events : Nat                   -- 7; 03 R62 EVENT credits in use, of 64; 0
  phase : Bool                   -- 1; 03 R63 PHASE of the current pass; 1
  kinds : List Bool              -- -; 03 R62 for each record not passed: it is an EVENT; empty
  irqCount : Nat                 -- -; 03 R64 IRQ records since the last signal; 0
  irqFirst : Option Nat          -- -; 03 R64 time of the first unsignalled one; none
  cqerr : Bool                   -- 1; 03 R55 CQERR; 0
  handle : Word                  -- 64; 03 R62 the pinned object of KIND 6 that is the ring
  base : Nat                     -- 40; 03 R62 where the ring lies in HBM
deriving DecidableEq, Repr, Inhabited

/-- A command that the system cores have still to carry out, from command slot src, or from OMCALL when src is 256. -/
structure OmCmd where
  src : BitVec 9
  words : Vector Word 8
  world : Byte
  started : Bool
  result : U16                   -- STATUS that its migrations have given so far
  origin : Option (BitVec 10 × U32) := none  -- the package that forwarded it, and its request
deriving DecidableEq, Repr, Inhabited

structure GangMember where
  pkg : BitVec 10
  state : BitVec 3               -- 0 asked, 1 prepared, 2 refused, 3 done, 4 answered the abort, 5 silent
  lastHeard : Nat
deriving DecidableEq, Repr, Inhabited

/-- The coordinator's record of a multi-package gang (R67, R68). phase: 1 prepare, 2 committed, 3 aborting, 4 ended. -/
structure GangCoord where
  gid : U16
  members : List GangMember
  lr : Vector Word 8
  deadline : Nat
  phase : BitVec 3
  t : Nat
  lastPrepared : Nat
  reason : U16
  present : Word
  tag : U32
  cq : BitVec 6
  abortAt : Nat
  replays : Nat
  preempts : Nat
  lastAlive : Nat
deriving DecidableEq, Repr, Inhabited

/-- This package as a member of a multi-package gang (R67, R68, R144). -/
structure GangHere where
  src : BitVec 10
  gid : U16
  lr : Vector Word 8
  unit : Nat
  index : Nat
  core : Nat
  prepared : Nat
  commit : Option Nat
  task : Option Word
  lastAlive : Nat
  lastSent : Nat
  peers : List (BitVec 10)       -- the members of the gang
  over_ : Bool                   -- its task has ended
  silent : Bool                  -- it has fallen silent (R21)
deriving DecidableEq, Repr, Inhabited

structure HostIf where
  errstat : Word                 -- 64; 03 R66 ERRSTAT; 0
  replaycnt : Word               -- 64; 03 R55 REPLAYCNT; DESIGN CHOICE 0 (log 3)
  launchSlots : Table Slot       -- 1024; 03 R54, R57 launch slots; as Slot
  cmdSlots : Table Slot          -- 256; 03 R54, R60 command slots; as Slot
  hlq : List (Vector Word 8)     -- <=4096; 03 R57 host launch queue; empty
  cmds : List OmCmd              -- -; 03 R60, R61 commands submitted and not complete; empty
  omcalls : List OmCmd           -- <=1024; 18 R467 object-manager request queue; empty
  cqs : Table CompletionObj      -- 64; 03 R62 completion objects created; empty (object 0 from Ready)
  coords : List GangCoord        -- -; 03 R67 gangs that this package coordinates; empty
  members : List GangHere        -- -; 03 R67 gangs of which this package is a member; empty
deriving DecidableEq, Repr, Inhabited

/-! ### Objects, translation and requests (04_objects.md, 08_cores.md, 09_memory_model.md) -/

/-- Who waits on a fill or a walk: what its fault frame would name (R208, Table 10-2). -/
structure Waiter where
  who : Agent
  bank : BitVec 1
  source : BitVec 3
  path : Path
  handle : Word
  idx : List U32
  va : BitVec 52
  fpc : Pos
  ord : Nat
  run : Nat := 0                 -- its step run, by which it issued before those of later runs
deriving DecidableEq, Repr, Inhabited

structure CacheEntry where
  index : BitVec 30
  home : BitVec 10
  words : Vector Word 16         -- 15 x 64; 04 R72 words 0 and 2 to 15 (word 1 is never cached)
  used : Nat                     -- -; 08 R207 least recently used
deriving DecidableEq, Repr, Inhabited

structure TlbEntry where
  va : BitVec 52                 -- first byte of the page
  large : Bool
  leafPa : Nat                   -- address of the leaf entry
  leaf : Word                    -- the leaf as read by the walk
  access : Bool                  -- 1; 08 R210 access bit
  used : Nat
  far : Option (BitVec 10) := none  -- the package whose tables map the page, none for this one (log 86)
deriving DecidableEq, Repr, Inhabited

structure Fill where
  handle : Word
  stale : Bool                   -- 1; 08 R209
  retried : Bool                 -- 1; 04 R72 the entry was read again after a CRC mismatch
  remote : Option (Vector Word 16)
  joined : List Waiter
deriving DecidableEq, Repr, Inhabited

structure Walk where
  va : BitVec 52
  stale : Bool
  joined : List Waiter
  far : Option (BitVec 10) := none                 -- the package whose tables it walks, none for this one (log 86)
  answer : Option (Nat × Word × Bool) := none      -- what that package found: the level of a failure or 0, the leaf, its size
deriving DecidableEq, Repr, Inhabited

structure HandleUnit where
  cache : List CacheEntry        -- 4096, 8-way; 08 R207 object cache; empty
  tlb : List TlbEntry            -- 8192, 8-way; 08 R207 TLB; empty
  fills : List Fill              -- -; 08 R206 object-cache fills in flight; empty
  walks : List Walk              -- <=512; 08 R207 page-table walks outstanding; empty
  held : List Waiter             -- <=4096; 08 R207 held list; empty
  waiting : List Waiter          -- -; 08 R207 requests that found a structure full, in arrival order; empty
  clockLru : Nat                 -- -; 08 R207 use order of the entries; 0
deriving DecidableEq, Repr, Inhabited

/-- A resolved element or line: where it is (R206). nib: a 4-bit element in the high half of its byte. -/
structure Place where
  handle : Word
  pkg : BitVec 10
  va : BitVec 52
  pa : Nat
  width : Nat
  nib : Bool
  leafPa : Nat
  idx : Word
deriving DecidableEq, Repr, Inhabited

inductive ReqKind where
  | wload (dst : BitVec 5) (signed : Bool) (rd : BitVec 3)
  | wstore (bytes : List (Nat × Byte × Byte))        -- (virtual address, value, mask)
  | rawLine (data : List Byte)                       -- a whole line as it is stored (R104)
  | sload (dst : BitVec 5) (signed : Bool) (acq : Bool)
  | sstore (v : Word) (rel : Bool)
  | atomic (wide : Bool) (op : BitVec 4) (v : Word) (dst : Option (BitVec 5))
  | fatomic (op : BitVec 2) (v : U32) (dst : Option (BitVec 5))
  | cas (wide : Bool) (x n : Word) (dst : BitVec 5) (pd : BitVec 3)
  | casc (wide : Bool) (x n : Word) (dst st : BitVec 5) (template : Word)
  | openv
  | pub
  | subv (v : U32) (t : Word)
  | pinv (v : U32) (dst : BitVec 5)
  | unpv
  | verq (dst : BitVec 5)
  | seqq (item : BitVec 4) (e : Word) (dst : BitVec 5)
  | spawn (lr : Vector Word 8) (viaRec : Bool) (sd sst : BitVec 5)
  | decrement (t : Word) (k : Nat) (system poison : Bool)
  | arrive (slot : Nat) (poison : Bool)
  | taskq (item : BitVec 4) (t : Word) (dst : BitVec 5)
  | entryFill
  | objEntry
  | walkRead
  | inval (dst : BitVec 5) (op : RemoteOp)
  | lineFill (key : Nat)
  | versionRead (key : Nat)
  | command (ser : Nat) (op : RemoteOp)
deriving DecidableEq, Repr, Inhabited

/-- A request or a release-point action that has left its context and has not yet taken effect. -/
structure Req where
  id : Nat
  unit : Nat
  who : Agent
  bank : BitVec 1
  run : Nat
  task : Word
  world : Byte
  path : Path
  ord : Nat                      -- place in step order (R212)
  issued : Nat                   -- time of issue, ns (R42)
  place : Place
  floor : Nat                    -- time of the floor that is known at issue (Table 9-2)
  fences : List (Byte × Nat)     -- fences before it: first set and place in step order (R223)
  kind : ReqKind
  remote : Bool                  -- it has crossed the peer links
  got : List Byte := []          -- bytes of its answer that have arrived (R37)
  spoiled : Bool := false        -- its line has been written since its issue: it fills no cache
deriving DecidableEq, Repr, Inhabited

/-- A write that has performed: the byte it replaced, and who wrote it (R213, R214). -/
structure WRec where
  va : Nat
  old : Byte
  seq : Nat
  run : Nat
  task : Word
  path : Path
  ord : Nat
deriving DecidableEq, Repr, Inhabited

inductive MigrWhy where
  | command (src : BitVec 9)
  | fault
  | evict
  | instr (n : BitVec 4) (dst : BitVec 5)
  | promo (core : Nat)
  | relay (src : BitVec 10) (id : Nat)   -- the home rebinds for a source that is another package (R118)
deriving DecidableEq, Repr, Inhabited

/-- A migration (R91) or a handover (R118) of one segment. phase: 1 waits for BUSY 0, 2 copies;
a handover goes on with 3 key sent, 4 copying, 5 rebind sent, 6 lost; 7 its copy has timed out. -/
structure Migration where
  id : Nat
  handle : Word
  va : BitVec 52
  large : Bool
  leafPa : Nat
  tier : BitVec 2
  pkg : BitVec 10
  pfn : U32
  phase : BitVec 3
  since : Nat
  why : MigrWhy
deriving DecidableEq, Repr, Inhabited

/-- A segment that another package is sending here (R118): the source and its number of the handover, the world, and, once
REBIND has come, the home and its number of it. -/
structure Incoming where
  src : BitVec 10
  id : Nat
  handle : Word
  va : Nat
  size : Nat
  rebind : Option (BitVec 10 × Nat)
deriving DecidableEq, Repr, Inhabited

structure Draft where
  task : Word                    -- for an object-manager command, a number that no task has (R485)
  since : Nat
deriving DecidableEq, Repr, Inhabited

structure Pin where
  index : Nat
  version : U32
  run : Nat
  since : Nat
deriving DecidableEq, Repr, Inhabited

structure Sub where
  index : Nat
  version : U32
  task : Word
  delivered : Bool
deriving DecidableEq, Repr, Inhabited

/-- A pin of an ATTN on a pool block (R431). -/
structure SpanPin where
  blk : Nat
  run : Nat
  task : Word
  ser : Nat
deriving DecidableEq, Repr, Inhabited

structure Objects where
  otBase : Nat                   -- 40; 04 R72 base of the object table; DESIGN CHOICE 0 (log 3)
  otCap : Nat                    -- 23; 04 R72 capacity; DESIGN CHOICE 0 (log 3)
  ptRoot : Word                  -- 64; 04 R84 PTROOT; DESIGN CHOICE 0 (log 3)
  retired : List Nat             -- -; 04 R70 indexes never reissued; empty
  units : Table HandleUnit       -- 40 (and one on the I/O dies, log 16); 08 R206, R207; empty
  reqs : List Req                -- -; 08 R206, 09 R213 requests and release points outstanding; empty
  nextReq : Nat                  -- -; the model's own numbering of requests (log 1); 0
  wlog : List WRec               -- -; 09 R214 coherence order, newest first (log 8); empty
  seq : Nat                      -- -; 09 R214 writes performed so far (log 8); 0
  born : Table Nat               -- -; 09 R214 place in that order at which an object was created, by index; empty
  versions : Table (List (U32 × Nat))  -- -; 09 R216 Table 9-2 Pin: place at which VERSION reached a value, by index; empty
  migrations : List Migration    -- -; 04 R91, 05 R118 migrations and handovers in progress; empty
  drafts : Table Draft           -- -; 09 R226 open draft, by index; empty
  pins : List Pin                -- -; 09 R229 pins held; empty
  subs : List Sub                -- <=4096 per slice; 14 R358 subscriptions; empty
  striped : List Nat             -- -; 04 R82 groups of frames in striped mode, slice * 32 + group; empty
  freeFrames : List Nat          -- -; 04 R97, R98 frames returned and zero-pending, as PFN with tier; empty
  lastUse : Table Nat            -- -; 08 R210, 04 R93 sample at which a segment was last used, by page; empty
  samples : Nat                  -- -; 08 R210 samples taken; 0
  lastSampleNs : Nat             -- -; 08 R210 TETHERCNT of the last sample; 0
  spans : Table (List SpanPin)   -- -; 17 R429, R431 pins of ATTN on pool blocks, by sequence; empty
  stored : List (Word × Nat)     -- -; 04 R81 tasks that have stored to a replicated object since their PUB; empty
  lines : List (Nat × Word × Nat × List Byte)  -- -; 02 R44 lines of other packages that have arrived for a unit that reads whole lines, by asker; empty
  attnFree : List (Nat × Nat)    -- -; 17 R429 retired blocks whose freeing is deferred; empty
  flashHome : Table Word         -- -; 04 R89 leaf of a promoted flash segment before its promotion, by leaf address; empty
  away : List (Nat × Nat)        -- -; 05 R118 objects without a shard map that have moved: key and package (log 48); empty
  parts : List (Nat × U32 × List Byte)  -- -; 02 R37 bytes that precede a request of another package: source, tag, bytes; empty
  guests : List (Word × Vector Word 16)  -- -; 04 R80, 05 R118 objects of other packages with segments here: handle and entry; empty
  incoming : List Incoming       -- -; 05 R118 segments on their way here; empty
  stash : List (Nat × List Byte) -- -; 05 R118 their lines that have arrived, by virtual address (log 48); empty
deriving DecidableEq, Repr, Inhabited

/-! ### Worlds and the security complex (05_worlds.md) -/

structure Security where
  devSecret : BitVec 256         -- 256; 05 R109 DEVSECRET; DESIGN CHOICE 0 (log 17)
  devId : BitVec 256             -- 256; 05 R109 DEVID, the SHAKE256 of DEVSECRET; that of a DEVSECRET of 0 (log 17)
  vroot : BitVec 512             -- 512; 05 R109 VROOT; DESIGN CHOICE 0 (log 17)
  minfw : Word                   -- 64; 05 R109 MINFW; DESIGN CHOICE 0 (log 17)
  life : BitVec 4                -- 4; 05 R109 LIFE; DESIGN CHOICE 3, deployed (log 17)
  keys : Table (List Byte)       -- 255 x 512; 05 R109 key store slots 1 to 255; empty
  engineKeys : Table (List Byte) -- 255 x 512; 05 R110 keys loaded in every key engine; empty
  bootKey : Nat                  -- -; 05 R109 boot key pair, by bring-up number (log 18); 0
  fwHash : BitVec 512            -- 512; 05 R115 SHAKE256 of the running firmware image; DESIGN CHOICE 0 (log 17)
  fwVersion : Word               -- 64; 05 R111 its security version; DESIGN CHOICE 0 (log 17)
  nextRes : Nat                  -- 40; 05 R116 NEXTRES; DESIGN CHOICE 0 (log 17)
  nextIdx : Nat                  -- 40; 05 R116 next signature index; 0
  exhausted : Bool               -- 1; 05 R117; false
  keyGen : Nat                   -- -; 05 R117 attestation key, by number; 0
  cert : Option (List Byte)      -- -; 05 R115, R117 vendor certificate of the key; DESIGN CHOICE none (log 17)
  request : Option (List Byte)   -- 4 KiB; 05 R112 request copied by the service; none
  faulted : Bool                 -- 1; 05 R108 that request ends with SEC_FAULT once its object can be written; false
  answered : U32                 -- 32; 05 R112 VERSION after the last response, by which the service knows of a request; 0
deriving DecidableEq, Repr, Inhabited

/-! ### Tasks and scheduling (06_scheduler.md) -/

inductive TState where
  | waiting | ready | running | ended
deriving DecidableEq, Repr, Inhabited

/-- A step handed back by pre-emption or replay (R150, R151). -/
structure Requeued where
  step : U32
  idx : Vector U32 6
  tileRec : Word
  rowlim : BitVec 7
  replays : Nat
  preempted : Bool
  replay : Bool
deriving DecidableEq, Repr, Inhabited

/-- The loop-nest walker of an operator task (R132 to R135). -/
structure Walker where
  ext : Vector U32 6
  isRec : Bool
  at_ : Vector U32 6
  ended : Bool
  tileRec : Word
  recRead : Bool                 -- the record of the current outer index has been read
deriving DecidableEq, Repr, Inhabited

inductive TaskRole where
  | plain
  | pipeline
  | stage (parent : Nat) (s : Nat)
  | gang (gid : U16) (size : U16)
  | member (src : BitVec 10) (gid : U16)
deriving DecidableEq, Repr, Inhabited

structure StageInfo where
  template : Word
  param : Word
  minCores : Nat
  maxCores : Nat
  index : Nat                    -- task record of the stage, in the same unit
deriving DecidableEq, Repr, Inhabited

structure RingDecl where
  slots : Nat
  size : Nat
  prod : Nat
  cons : Nat
  pring : Nat
  cring : Nat
  occ : Nat                      -- full slots of its consumer ends, summed over the window's nanoseconds (R140)
  samples : Nat                  -- all slots of those ends, summed likewise
deriving DecidableEq, Repr, Inhabited

structure PipeInfo where
  cores : Nat
  stages : List StageInfo
  rings : List RingDecl
  held : List (Nat × Nat)        -- core, and the stage it is held for (R138)
  started : Bool
  lastBalance : Nat
  worst : Option (U16 × U16)     -- 16, 16; 06 R137 STATUS and DETAIL of the worst stage that has ended; none
deriving DecidableEq, Repr, Inhabited

structure Task where
  lr : Vector Word 8             -- 8 x 64; 06 R122 words 0 to 7
  seq : U16                      -- 16; 06 R122 SEQ
  count : U16                    -- 16; 06 R122, R127 COUNT
  st : TState                    -- 2; 06 R122 STATE
  eprio : BitVec 3               -- 3; 06 R122, R129 EPRIO
  arrived : BitVec 4             -- 4; 06 R122, R145 ARRIVED
  running : U16                  -- 16; 06 R122 RUNNING
  nextStep : U32                 -- 32; 06 R122 NEXTSTEP
  done : U32                     -- 32; 06 R122 DONE
  waitStart : Word               -- 64; 06 R122 WAITSTART
  status : Word                  -- 64; 06 R125 task status word
  bars : Vector Word 4           -- 4 x 64; 06 R122, R145 BAR0 to BAR3
  role : TaskRole                -- -; 06 R137, R142
  viaRec : Bool                  -- 1; 06 R134, 18 R445 launched by SPAWN.REC
  viaCasc : Bool                 -- 1; 06 R146 launched by a Spout
  readySeq : Nat                 -- -; 09 R234 place in the coherence order at which it became ready
  readyNs : Nat                  -- -; 06 R149 cycle from which no allowed core has been free
  loaded : Bool                  -- 1; 13 R325 the parameter image is copied
  param : Memory                 -- N x 8; 13 R325 parameter image
  paramLen : Nat                 -- 13; 13 R325 N
  walker : Option Walker         -- -; 06 R132
  requeued : List Requeued       -- -; 06 R150, R151
  killed : Option (U16 × U16)    -- 16, 16; 06 R153 STATUS and DETAIL of the kill
  pipe : Option PipeInfo         -- -; 06 R136
deriving DecidableEq, Repr, Inhabited

structure SchedUnit where
  tasks : Table Task             -- 65536 x 128 bytes; 06 R122 task records in use; empty
  seqs : Table U16               -- 65536 x 16; 06 R120 SEQ of the last use of an index; DESIGN CHOICE 0 (log 3)
  depstale : U32                 -- 32; 06 R128 DEPSTALE; DESIGN CHOICE 0 (log 3)
deriving DecidableEq, Repr, Inhabited

/-- The item that gathers cores (R139): its task, and when an item of higher EPRIO began to wait. -/
structure Gather where
  task : Word
  held : List (Nat × Nat)        -- core, and the member of the gang it is held for
  higherSince : Option Nat
deriving DecidableEq, Repr, Inhabited

structure LocalGang where
  world : Byte
  gid : U16
  size : U16
  members : List Word
  started : Bool
  detail : Option U16
deriving DecidableEq, Repr, Inhabited

structure Sched where
  units : Table SchedUnit        -- 40; 06 R122 scheduler units; empty
  gather : Option Gather         -- -; 06 R139; none
  gangs : List LocalGang         -- -; 06 R143; empty
  grants : List (Nat × Word)     -- -; 06 R150 core being discarded, and the item that receives it; empty
  occWindow : Nat                -- -; 06 R140 start of the current window; 0
deriving DecidableEq, Repr, Inhabited

/-! ### Intake chains (07_intake.md) -/

structure Submission where
  words : Vector Word 8          -- 8 x 64; 07 R155 Table 7-1
  world : Byte
  task : Word
  run : Nat
  core : BitVec 9                -- the core, bank and place in step order of its INTK
  bank : BitVec 1
  ord : Nat
deriving DecidableEq, Repr, Inhabited

/-- The fault of a message (Tables 7-6 and 7-10). -/
structure ChainFault where
  stage : BitVec 4
  code : U16
  offset : Word
  detail : Word
  when_ : Word                   -- TETHERCNT at the fault
deriving DecidableEq, Repr, Inhabited

/-- A message in the stages: its number, the consumer entries that it still names, with their words as check 4 found
them, the token words of a full batch, the tokens still to be batched, how many have been, its fault, and whether its
closing batch has been written. -/
structure ChainMsg where
  no : Nat
  sub : Submission
  cons : List (Nat × Word)
  cap : Nat
  tokens : List Word
  sent : Nat
  first : Bool
  fault : Option ChainFault
  closed : Bool := false
deriving DecidableEq, Repr, Inhabited

/-- A batch in the output buffer: its message, the tokens of the message up to its end, its bytes, and the consumer
entries that have not taken it. -/
structure Batch where
  no : Nat
  sub : Submission
  sent : Nat
  bytes : List Byte
  left : List (Nat × Word)
deriving DecidableEq, Repr, Inhabited

structure Chain where
  queue : List Submission        -- <=64; 07 R155 intake queue; empty
  cons : Vector Word 16          -- 16 x 64; 07 R165 ICONS0 to ICONS15; 0
  msg : Option ChainMsg          -- -; 07 R171 message at stage TOKN, or on its way there; none
  behind : List ChainMsg         -- <=4; 07 R170, R171 later messages in the stages before it; empty
  out : List Batch               -- <=16; 07 R168 output buffer; empty
  sump : List (Byte × Vector Word 8)  -- <=1024; 07 R173 Sump; empty
  tables : List (Word × U32 × List Word)  -- -; 07 R158 tables held: handle, version, elements; empty
  count : Nat                    -- -; the model's own numbering of messages (log 1); 0
  world : Byte                   -- 8; 07 R174 WORLD; 0
  lastWorld : Byte               -- 8; 05 R102 world of the last message; 0
  sumpFull : Bool                -- 1; 07 R173 a record waits for room in the Sump; 0
  goneAt : Option Word           -- 64; 07 R172 TETHERCNT at which a CONS_GONE that waits for room arose; none
  bpWait : Bool                  -- 1; 07 R174 BPWAIT; 0
deriving DecidableEq, Repr, Inhabited

/-! ### Cores (08_cores.md, 10_faults.md, 12 and 13) -/

structure Ctx where
  line : BitVec 24               -- 24; 08 R181, 10 R245 position, line; entry line at step start
  slot : BitVec 4                -- 4; 08 R181, 10 R245 position, slot; 0 at step start
  s : Vector Word 32             -- 32 x 64; 12 R290 s0 to s31; 0 (R124)
  p : BitVec 8                   -- 8 x 1; 12 R290 p0 to p7 (p0 reads 1); 0 (R124)
  a : Vector U32 8               -- 8 x 32; 12 R290 a0 to a7; 0 (R124)
  lc : Vector U32 4              -- 4 x 32; 12 R290 lc0 to lc3; 0 (R124)
  ret : List Pos                 -- 8 x 28; 13 R322 return stack, newest first; empty
  pendS : U32                    -- 32; 08 R176 s registers that await a result; 0
  pendP : BitVec 8               -- 8; 08 R176 predicates that await a result; 0
  fence : Option Nat             -- -; 09 R223, 18 R464 place in step order of the instruction that waits; none
  xsync : Option (BitVec 5 × Word) -- -; 18 R460 an XSYNC.wait that stalls: destination and instant; none
  skip : Bool                    -- 1; 10 R248 the instruction at its position was answered SKIP; false
deriving DecidableEq, Repr, Inhabited

/-- An engine command in its queue (R186, R187): the instruction, what it sampled at issue (R333), and its progress. -/
structure Cmd where
  instr : Instr
  ser : Nat                      -- the model's own numbering of commands (log 1)
  tok : BitVec 4
  world : Byte
  task : Word
  run : Nat
  step : U32
  rowlim : BitVec 7
  ord : Nat
  pos : Pos
  hs : List Word                 -- handle registers sampled
  ds : List DescW                -- descriptors sampled
  vs : List Word                 -- scalar and pointer registers sampled
  blk : List Byte                -- operand block read at issue
  word : Option Word             -- format word popped (R370)
  issued : Bool                  -- issued into the engine: tokens popped
  issueCycle : Nat
  accepted : Bool                -- accepted by its slice, home or attention engine
  started : Bool
  snap : List Word               -- snapshot of an ATTN: entry words (R431)
  status : Word                  -- status word of a command executed at the home
  opA : List (U16 × Byte)        -- operand A as read, code and scale byte, row by row (R372)
  opB : List (U16 × Byte)        -- operand B as read
  skip : Bool                    -- answered SKIP: it retires without further effect (R248)
deriving DecidableEq, Repr, Inhabited

/-- A row group of a vector command on its way to its registers (R394): issued at one cycle, written at the end of
another. A special function reads its sources when its row group issues (R411); until then it has no values. -/
structure Landing where
  ser : Nat
  group : Nat
  sfu : Bool
  issue : Nat
  cycle : Nat
  ready : Bool
  regs : List (Nat × List Byte)  -- whole registers
  scat : List (Nat × List Byte)  -- scratchpad bytes of a VSCAT, in element order
  wide : List Nat                -- registers that it writes
deriving DecidableEq, Repr

inductive SlotState where
  | free | prod | full | cons | retiring
deriving DecidableEq, Repr, Inhabited

inductive RingKind where
  | producer | consumer | loc
deriving DecidableEq, Repr, Inhabited

/-- A PUT in progress (R456): its slot, the entries still to be served by number, the mask of those skipped, and where
the status goes. -/
structure PutRun where
  slot : Nat
  left : List (Nat × Word)
  skip : Nat
  who : Agent
  dst : BitVec 5
deriving DecidableEq, Repr, Inhabited

/-- A ring end (R452). pend: slots released by RREL.p that wait for the commands named. -/
structure RingEnd where
  task : Word
  k : Nat
  kind : RingKind
  size : Nat
  base : Nat
  slots : List SlotState
  pptr : Nat
  cptr : Nat
  heldP : List Nat
  heldC : List Nat
  outside : List Nat             -- slots filled from outside the step
  pend : List (Nat × List Nat)
  puts : List PutRun
  xfer : List Nat                -- producer slots that wait for their transfer (R454)
deriving DecidableEq, Repr, Inhabited

/-- A hop plan that runs (R50 to R53, R462): its entries, its start slot, its object and the number of its buffer, the steps
that have run, the block whose partial is held, and the leaves that it counts in BUSY. -/
structure PlanRun where
  hdr : Vector U32 3
  steps : List (Vector U32 3)
  s0 : Word
  buf : Word
  bufNo : Nat
  done : List Nat
  held : Option Nat
  leaves : List Nat
  lost : Bool := false           -- the package has lost lock since the plan started (R48)
deriving DecidableEq, Repr, Inhabited

structure BasinLine where
  handle : Word
  off : Nat                      -- line offset in the object (R199)
  way : Nat                      -- way of its set
  va : BitVec 52                 -- address of the line
  pkg : BitVec 10                -- package that holds the line
  pa : Nat                       -- and its address there
  data : List Byte               -- 64 bytes
  dirty : List (Nat × Nat × Path)  -- dirty bytes: offset, and the step order and path of the store
  task : Word
  world : Byte                   -- world of that task (R99)
  run : Nat
  rrpv : BitVec 3                -- 3; 08 R202 prediction value
  stamp : Nat                    -- -; 09 R218 fill stamp
deriving DecidableEq, Repr, Inhabited

/-- A range of the Basin map of a step (R352), given by its run: lines named one by one, or the lines of a whole buffer
from lo to hi. -/
structure MapRange where
  run : Nat
  handle : Word
  lines : List (BitVec 52)
  lo : Nat
  hi : Nat
deriving DecidableEq, Repr, Inhabited

/-- The step that a bank runs (R124 to R126, R150). -/
structure StepRun where
  id : Nat                       -- the model's own numbering of runs (log 1)
  task : Word                    -- 64; 06 R120 TASKID
  world : Byte                   -- 8; 05 R99 WORLD
  system : Bool                  -- 1; 01 R10 a system task
  step : U32                     -- 32; 06 R124 step number
  prio : BitVec 3                -- 3; 06 R129 run priority
  committed : Bool               -- 1; 10 R251 COMMIT has issued
  replay : Bool                  -- 1; 06 R125 TASKSTAT.REPLAY
  replays : BitVec 8             -- 8; 06 R125 TASKSTAT.REPLAYS
  preempted : Bool               -- 1; 06 R125 TASKSTAT.PREEMPTED
  skips : U16                    -- 16; 10 R249 FAULTCAUSE.SKIPS
  cause : U16                    -- 16; 10 R249 FAULTCAUSE.CAUSE
  rowlim : BitVec 7              -- 7; 06 R126 ROWLIM; 0x40
  tileRec : Word                 -- 64; 06 R124 s31
  idx : Vector U32 6             -- 6 x 32; 06 R124 s24 to s29
  maps : BitVec 9                -- 9; 12 R286 DMAPSEL as sampled
  template : Word                -- 64; 06 R123 code image
  nlines : Nat                   -- 24; 08 R182 NLINES
  regs : Nat                     -- 11; 06 R123 REGS
  nbars : Nat                    -- 3; 06 R123 BARS
  scratch : Nat                  -- 32; 06 R123 SCRATCH
  basin : Nat                    -- 32; 06 R123 BASIN
  qmask : BitVec 5               -- 5; 08 R182 QMASK of its image
  ord : Nat                      -- -; 09 R212 step order so far
  acqs : List (Word × Path × Nat × Nat)  -- -; 09 R220 acquires: object, path, place in step order, place in coherence order
  fences : List (Byte × Byte × Nat × Nat)  -- -; 09 R223 fences: sets, place in step order of the issue and of the retirement
  waitStart : Word               -- 64; 06 R150 WAITSTART at dispatch
  dispatched : Nat               -- -; 06 R149 cycle of dispatch
  held : Bool                    -- 1; 08 R184 its contexts wait at the step boundary
  boundary : BitVec 5            -- 5; 08 R184 queues that must be empty first
  fresh : Bool                   -- 1; 08 R190 tokens and format queue of the outgoing step still stand
  ringsAt : List RingEnd         -- -; 18 R455 ring ends as they stood at dispatch
  ended : Bool                   -- 1; 18 R448 EXIT has issued
  discarding : Bool              -- 1; 06 R150 being discarded
deriving DecidableEq, Repr, Inhabited

/-- The first cause of a stop, and what the frame will name (R242, R243, Table 10-2). -/
structure FaultInfo where
  cause : U16
  source : BitVec 3
  path : BitVec 4
  level : BitVec 4
  handle : Word
  idx : List U32
  va : BitVec 52
  fpc : Pos
  task : Word
  multi : Bool
  code : U16                     -- TRAP code
  cycle : Nat                    -- when the cause arose
  answered : Bool := false       -- its segment has come back while the bank drained (R33)
deriving DecidableEq, Repr, Inhabited

/-- parked: a fault frame stands and waits for an answer. resumable: answered RESUME or SKIP (R248). -/
inductive BankState where
  | idle | running | draining | parked | resumable
deriving DecidableEq, Repr, Inhabited

structure Bank where
  st : BankState                 -- -; 10 R244, 06 R131; idle
  owner : Word × Byte            -- 72; 04 R97 last owner (task, world); (0, 0)
  run : Option StepRun           -- -; 06 R124 step of the bank; none
  L : Ctx                        -- -; 08 R175, R178 context L; 0
  C : Ctx                        -- -; 08 R175, R178 context C; 0
  S : Ctx                        -- -; 08 R175, R178 context S; 0
  h : Vector Word 16             -- 16 x 64; 12 R290 h0 to h15; 0 (R124)
  d : Vector DescW 16            -- 16 x 256; 08 R196 d0 to d15; 0
  vregs : Memory                 -- 1536 x 2 KiB; 08 R194 vector registers, byte v * 2048 + 128i + 2j; 0 (R97)
  accs : Memory                  -- 8 x 16 KiB; 08 R194 accumulators, byte a * 16384 + 256i + 4j; 0 (R97)
  scratch : Memory               -- 4 MiB per core; 08 R197 footprint bytes; 0 (R97)
  basin : List BasinLine         -- <=2 MiB; 08 R199 Basin; empty
  bmap : List MapRange           -- 16 a step; 14 R353 mapped ranges, oldest first; empty
  lq : List Cmd                  -- 32; 08 R186, R187 LQ; empty
  mq : List Cmd                  -- 32; 08 R186 MQ; empty
  vq : List Cmd                  -- 32; 08 R186 VQ; empty
  sq : List Cmd                  -- 32; 08 R186 SQ; empty
  xq : List Cmd                  -- 32; 08 R186 XQ; empty
  tokens : Vector Nat 10         -- 10 x 4; 08 R189 counters in the order of Table 10-2 TOKENS; 0
  tokMark : Option (Nat × Vector Nat 10 × Vector Nat 10) -- -; 08 R189 cycle of the last change, and what each counter can still give and take in it; none
  fmtq : List (U32 × Nat × Word) -- 16 x 64; 15 R369, 08 R190 format queue: step, run, word; empty
  escl : U16                     -- 16; 08 R192 ESCL; 0
  mrow : U16                     -- 7; 08 R192 MROW; 0
  escv : U16                     -- 16; 08 R192 ESCV; 0
  escs : U16                     -- 16; 08 R192 ESCS; 0
  escx : U16                     -- 16; 08 R192 ESCX; 0
  srbase : Word                  -- 64; 11 R272 SRBASE; DESIGN CHOICE 0 (log 3)
  srV : Word                     -- 64; 11 R272 S of user 1; DESIGN CHOICE 0 (log 3)
  srM : Word                     -- 64; 11 R272 S of user 2; DESIGN CHOICE 0 (log 3)
  srH : Word                     -- 64; 11 R272 S of user 3; DESIGN CHOICE 0 (log 3)
  landings : List Landing        -- -; 16 R394 row groups in flight; empty
  nextV : Nat                    -- -; 16 R394 earliest cycle of the next vector issue; 0
  fault : Option FaultInfo       -- -; 10 R243 first cause; none
  record : Bool                  -- 1; 10 R246 its record waits for room in the fault queue; false
  skip : Bool                    -- 1; 10 R248 answered SKIP; false
  plan : Option PlanRun          -- -; 18 R462 running hop plan; none
  hOld : List (Nat × Nat × CtxId × Word) := []  -- -; 08 R177 h registers written in a cycle: register, cycle, writer, value before; empty
  dOld : List (Nat × Nat × CtxId × DescW) := [] -- -; 08 R177 d registers likewise; empty
  stall : Option (Nat × List Nat) -- -; 08 R191 cycle from which nothing moves, and where everything stood; none
deriving DecidableEq, Repr, Inhabited

structure Core where
  banks : Vector Bank 2          -- 2; 08 R178 context banks; as Bank
  active : BitVec 1              -- 1; 06 R131 bank now running; DESIGN CHOICE 0 (log 3)
  codeCache : Table (List Byte)  -- 64 KiB; 08 R183 lines held, by template index * 2^24 + line; empty
  maps : Table (List U16)        -- 6 x 1024 x 16; 12 R285 decode-map slots 2 to 7; DESIGN CHOICE empty (log 3)
  dmapsel : BitVec 9             -- 9; 12 R286 DMAPSEL; 0b001001001
  rings : List RingEnd           -- -; 18 R452 ring ends; empty
  nextSer : Nat                  -- -; the model's own numbering of commands (log 1); 0
  worlds : Vector Byte 5         -- 5 x 8; 05 R101 tag of the last command each engine retired; 0
  zeroPending : Bool             -- 1; 04 R98 banks, scratchpad and queues are zero-pending; false
deriving DecidableEq, Repr, Inhabited

structure L2Line where
  way : Nat                      -- way of its set
  pkg : BitVec 10
  pa : Nat                       -- address of the line
  handle : Word                  -- its object and virtual address
  va : Nat
  data : List Byte               -- 64 bytes, as they are stored (R201)
  rrpv : BitVec 3                -- 3; 08 R202
  stamp : Nat                    -- -; 09 R218
  world : Byte
deriving DecidableEq, Repr, Inhabited

/-- The attention engine of a cluster (R436). -/
structure Attention where
  queue : List (Nat × BitVec 1 × Nat)  -- requests in arrival order: core, bank, command
  world : Byte                   -- 8; 05 R102 world of the last request; 0
deriving DecidableEq, Repr, Inhabited

structure Cluster where
  l2 : List L2Line               -- 524288 lines; 08 R201 L2 lines; empty
  attn : Attention               -- -; 17 R436 attention engine; empty
deriving DecidableEq, Repr, Inhabited

/-- A CASC at its slice (R345). -/
structure CascWait where
  req : Nat
  arrived : Nat
deriving DecidableEq, Repr, Inhabited

/-- A granted Spout entry that holds a launch (R146). -/
structure SpoutEntry where
  object : Word
  index : Word
  old : Word
  template : Word
  world : Byte
  pkg : BitVec 10
  forwarded : Nat
deriving DecidableEq, Repr, Inhabited

structure Slice where
  inv : Bool                     -- 1; 11 R278 SLSTAT.INV; 0
  waiting : List CascWait        -- <=512; 14 R345 waiting list; empty
  spout : List SpoutEntry        -- <=64; 14 R345, 06 R146 Spout entries; empty
  nearbank : List (Nat × BitVec 1 × Nat)  -- -; 14 R363 commands at the sequencer: core, bank, command; empty
deriving DecidableEq, Repr, Inhabited

/-! ### Faults and system cores (10_faults.md, 18_isa_tasks_system.md) -/

structure SysCore where
  ctx : Ctx                      -- -; 18 R443 its context; DESIGN CHOICE 0 (log 3)
  h : Vector Word 16             -- 16 x 64; 18 R443 h registers; DESIGN CHOICE 0 (log 3)
  scratch : Memory               -- 256 KiB; 18 R443 private scratchpad; DESIGN CHOICE 0 (log 3)
  svec : BitVec 28               -- 28; 18 R465 SVEC; DESIGN CHOICE 0 (log 3)
  epc : BitVec 28                -- 28; 18 R465 EPC; DESIGN CHOICE 0 (log 3)
  ecause : U32                   -- 32; 18 R465 ECAUSE; DESIGN CHOICE 0 (log 3)
  latched : BitVec 6             -- 6; 18 R468 latched wake events; DESIGN CHOICE 0 (log 3)
  sleeping : Bool                -- 1; 18 R468 sleeps in WAITI; false
  invLate : Bool                 -- 1; 18 R470 a package has not answered an invalidation in time; false
  secFault : Bool                -- 1; 05 R108, 18 R473 the KEYSET in progress ended with SEC_FAULT; false
  halted : Bool                  -- 1; 18 R468 HALT; false
  ord : Nat                      -- -; 09 R212 step order of its accesses; 0
  acqs : List (Word × Path × Nat × Nat)  -- -; 09 R220 as of a step; empty
  fences : List (Byte × Byte × Nat × Nat) -- -; 09 R223 as of a step; empty
deriving DecidableEq, Repr, Inhabited

structure FaultRegs where
  frameBase : Word               -- 64; 10 R245 FRAMEBASE; DESIGN CHOICE 0 (log 3)
  fqBase : Word                  -- 64; 10 R246 FQBASE; DESIGN CHOICE 0 (log 3)
  fqTail : Word                  -- 64; 10 R246 FQTAIL; DESIGN CHOICE 0 (log 3)
  fqHead : Word                  -- 64; 10 R246 FQHEAD; DESIGN CHOICE 0 (log 3)
deriving DecidableEq, Repr, Inhabited

/-! ### The machine -/

/-- What moves next (log entry 1): an event of the package, an agent that issues, or time that passes. -/
inductive Action where
  | event (i : Instr)
  | turn (a : Agent)
  | wait (ns : Nat)
  /-- a gang message of the package to itself (R67; log entry 35) -/
  | toSelf (m : Payload)
deriving DecidableEq, Repr, Inhabited

structure State where
  agenda : List Action           -- -; the model's own: which agent moves next (log 1); DESIGN CHOICE empty
  turn : Agent                   -- -; the model's own: the agent that issues (log 1); DESIGN CHOICE core 0, context C
  now : Nat                      -- -; 00 R2 time since the reset, ns; 0
  cycle : Nat                    -- -; 00 R2 core-clock cycles since the reset; 0
  phase : Nat                    -- -; 00 R2 fraction of a cycle, in 1/1000; 0
  tether : Word                  -- 64; 02 R46 TETHERCNT; DESIGN CHOICE 0 (log 3)
  pkg : BitVec 10                -- 10; 02 R44 number of this package; DESIGN CHOICE 0 (log 19)
  free : Nat                     -- -; the model's own: free values drawn so far (log 7); DESIGN CHOICE 0
  runs : Nat                     -- -; the model's own: step runs begun so far (log 1); DESIGN CHOICE 0
  power : Power                  -- -; 01; as Power
  links : Links                  -- -; 02; as Links
  host : HostIf                  -- -; 03; as HostIf
  mem : Memory                   -- 2^52; 04 R82, R86 HBM, LPDDR6, CXL and flash by physical address (log 5); empty
  hostMem : Memory               -- 2^64; 03 R60 memory of the host, on the bus (log 5); empty
  objs : Objects                 -- -; 04, 08, 09; as Objects
  sec : Security                 -- -; 05; as Security
  sched : Sched                  -- -; 06; as Sched
  chains : Table Chain           -- 16; 07; as Chain
  cores : Table Core             -- 320; 08; as Core
  clusters : Table Cluster       -- 40; 08 R201, 17 R436; as Cluster
  slices : Table Slice           -- 192; 11, 14; as Slice
  faults : FaultRegs             -- -; 10; as FaultRegs
  sys : Table SysCore            -- 16; 18 R443; as SysCore
  firmware : Memory              -- -; 18 R443 verified firmware in private memory, line format; DESIGN CHOICE empty (log 6)
deriving DecidableEq, Repr, Inhabited

/-! ### Reasons to stop -/

/-- Why a step stops with a fault. -/
inductive Fault where
  /-- Raised by the memory operations of Machine/Ops.lean on a physical address at which the package has no storage
  (04 R82, R86: HBM slices 192 to 255, or beyond the capacity of a tier). Safe: the machine stops where the spec gives
  no storage. -/
  | noStorage (pa : Nat)
deriving DecidableEq, Repr

/-- Why an instruction is refused. -/
inductive Refusal where
  /-- Raised only by an arm of exec whose instruction has no meaning yet. Safe: nothing is claimed of it. -/
  | notModelled (mnemonic : String)
deriving DecidableEq, Repr

/-! ### Reset -/

namespace Power

/-- The power controller at step 1 of bring-up (R24). -/
def initial : Power where
  bootStep := 1
  bootFail := .none
  bootDetail := 0
  backupTried := false
  memRetried := []
  warm := false
  trained := false
  resumeFreq := none
  pstate := .ps0
  trans := none
  freqCmd := 0x0898
  powerCap := 2400
  thermCap := 2400
  thermStopped := false
  thermSeen := false
  pwrlimSeen := false
  windowSum := 0
  windowCount := 0
  windowMean := 0
  lastPowerStep := 0
  lastThermStep := 0
  lastSample := 0
  pwrres := 0
  selfRefresh := 0
  lastAccess := []

end Power

/-- A CXL or flash port at reset (Table 3-4). -/
def TierPort.initial : TierPort where
  st := 0
  why := 0
  downSince := 0
  lost := false
  extents := []
  releasing := []
  cmds := []
  waiting := []
  lastTimeout := none

/-- A peer port at reset (Table 2-5), with its 256 credits per virtual channel (R40). -/
def PeerPort.initial : PeerPort where
  st := 0
  nbr := 0
  replays := 0
  crcerr := 0
  timeout := false
  dis := false
  txSeq := 0
  rxSeq := 0
  replay := []
  txq := []
  credits := #v[256, 256, 256, 256]
  collective := []
  lastRx := 0
  sent := []

def Links.initial : Links where
  d3hot := false
  hostUp := true
  heldMsix := []
  msixTable := (List.range 2048).map fun k => (16 * k + 12, 1)
  msixEnable := false
  msixFuncMask := false
  pba := []
  msixSent := []
  cxl := []
  flash := []
  peers := []
  lock := false
  lostLock := false
  skew := 0
  master := 0
  tetherEn := true
  lastTsync := 0
  routes := []

def Slot.initial : Slot where
  words := .replicate 8 0
  mask := 0
  seq := 0
  rejcnt := 0
  status := 0
  world := 0

def HostIf.initial : HostIf where
  errstat := 0
  replaycnt := 0
  launchSlots := []
  cmdSlots := []
  hlq := []
  cmds := []
  omcalls := []
  cqs := []
  coords := []
  members := []

def HandleUnit.initial : HandleUnit where
  cache := []
  tlb := []
  fills := []
  walks := []
  held := []
  waiting := []
  clockLru := 0

def Objects.initial : Objects where
  otBase := 0
  otCap := 0
  ptRoot := 0
  retired := []
  units := []
  reqs := []
  nextReq := 0
  wlog := []
  seq := 0
  born := []
  versions := []
  migrations := []
  drafts := []
  pins := []
  subs := []
  striped := []
  freeFrames := []
  lastUse := []
  samples := 0
  lastSampleNs := 0
  spans := []
  stored := []
  lines := []
  attnFree := []
  flashHome := []
  away := []
  parts := []
  guests := []
  incoming := []
  stash := []

def Security.initial : Security where
  devSecret := 0
  devId := 0x6230add55717f81d743633645846db114f1219261dc33b72636a5483827c97f5
  vroot := 0
  minfw := 0
  life := 3
  keys := []
  engineKeys := []
  bootKey := 0
  fwHash := 0
  fwVersion := 0
  nextRes := 0
  nextIdx := 0
  exhausted := false
  keyGen := 0
  cert := none
  request := none
  faulted := false
  answered := 0

def SchedUnit.initial : SchedUnit where
  tasks := []
  seqs := []
  depstale := 0

def Sched.initial : Sched where
  units := []
  gather := none
  gangs := []
  grants := []
  occWindow := 0

def Chain.initial : Chain where
  queue := []
  cons := .replicate 16 0
  msg := none
  behind := []
  out := []
  sump := []
  tables := []
  count := 0
  world := 0
  lastWorld := 0
  sumpFull := false
  goneAt := none
  bpWait := false

/-- A context before its first step: every register zero (R124). -/
def Ctx.initial : Ctx where
  line := 0
  slot := 0
  s := .replicate 32 0
  p := 0
  a := .replicate 8 0
  lc := .replicate 4 0
  ret := []
  pendS := 0
  pendP := 0
  fence := none
  xsync := none
  skip := false

/-- A context bank that no step has used (R97). -/
def Bank.initial : Bank where
  st := .idle
  owner := (0, 0)
  run := none
  L := .initial
  C := .initial
  S := .initial
  h := .replicate 16 0
  d := .replicate 16 0
  vregs := []
  accs := []
  scratch := []
  basin := []
  bmap := []
  lq := []
  mq := []
  vq := []
  sq := []
  xq := []
  tokens := .replicate 10 0
  tokMark := none
  fmtq := []
  escl := 0
  mrow := 0
  escv := 0
  escs := 0
  escx := 0
  srbase := 0
  srV := 0
  srM := 0
  srH := 0
  landings := []
  nextV := 0
  fault := none
  record := false
  skip := false
  plan := none
  stall := none

def Core.initial : Core where
  banks := #v[.initial, .initial]
  active := 0
  codeCache := []
  maps := []
  dmapsel := 0b001001001
  rings := []
  nextSer := 0
  worlds := .replicate 5 0
  zeroPending := false

def Cluster.initial : Cluster where
  l2 := []
  attn := { queue := [], world := 0 }

def Slice.initial : Slice where
  inv := false
  waiting := []
  spout := []
  nearbank := []

def SysCore.initial : SysCore where
  ctx := .initial
  h := .replicate 16 0
  scratch := []
  svec := 0
  epc := 0
  ecause := 0
  latched := 0
  sleeping := false
  invLate := false
  secFault := false
  halted := false
  ord := 0
  acqs := []
  fences := []

/-- The package right after a cold reset: bring-up stands at step 1 (R24), every table of units is at the value each
unit has at reset, memory lists nothing, and nothing is on the agenda. -/
def State.reset : State where
  agenda := []
  turn := .core 0 .C
  now := 0
  cycle := 0
  phase := 0
  tether := 0
  pkg := 0
  free := 0
  runs := 0
  power := .initial
  links := .initial
  host := .initial
  mem := []
  hostMem := []
  objs := .initial
  sec := .initial
  sched := .initial
  chains := []
  cores := []
  clusters := []
  slices := []
  faults := { frameBase := 0, fqBase := 0, fqTail := 0, fqHead := 0 }
  sys := []
  firmware := []

end Sys2Proof.Machine
end

