-- ==== Sys2Proof/Machine/Bits.lean ====
section
/-!
DEFINITION. Bit fields, byte order, sparse tables, byte memories and checksums: the plainest operations that every
other file uses.
-/

namespace Sys2Proof.Machine

open Sys2Proof

/-! ### Bit fields (R299, Table 12-11) -/

/-- Bits(x, hi, lo) of a number. -/
def bits (x hi lo : Nat) : Nat := x / 2 ^ lo % 2 ^ (hi + 1 - lo)

/-- Bit k of a number. -/
def bit (x k : Nat) : Bool := x / 2 ^ k % 2 == 1

/-- x with Bits(x, hi, lo) replaced by v. -/
def putBits (x hi lo v : Nat) : Nat :=
  x % 2 ^ lo + v % 2 ^ (hi + 1 - lo) * 2 ^ lo + x / 2 ^ (hi + 1) * 2 ^ (hi + 1)

/-- SignExt(x, n) as an integer. -/
def signExt (x n : Nat) : Int :=
  let y := x % 2 ^ n
  if n ≠ 0 ∧ 2 ^ (n - 1) ≤ y then (y : Int) - 2 ^ n else y

/-- An integer modulo 2^64. -/
def wordOfInt (x : Int) : Word := BitVec.ofInt 64 x

def b2n (b : Bool) : Nat := if b then 1 else 0

/-- RoundUp(x, m). -/
def roundUp (x m : Nat) : Nat := (x + m - 1) / m * m
/-- Ceil(x / m). -/
def ceilDiv (x m : Nat) : Nat := (x + m - 1) / m

/-! ### Little-endian bytes (R3) -/

/-- The n bytes of x, lowest first. -/
def toBytes : Nat → Nat → List Byte
  | 0, _ => []
  | n + 1, x => BitVec.ofNat 8 x :: toBytes n (x / 256)

/-- The number whose bytes, lowest first, these are. -/
def ofBytes : List Byte → Nat
  | [] => 0
  | b :: bs => b.toNat + 256 * ofBytes bs

/-- Byte k of a byte string, 0 beyond its end. -/
def byteAt (bs : List Byte) (k : Nat) : Byte := bs.getD k 0

/-- Word k (8 bytes) of a byte string. -/
def wordAt (bs : List Byte) (k : Nat) : Word := BitVec.ofNat 64 (ofBytes ((bs.drop (8 * k)).take 8))

def bytesOfWords (ws : List Word) : List Byte := ws.flatMap fun w => toBytes 8 w.toNat

/-- Eight words of a 64-byte record. -/
def words8 (bs : List Byte) : Vector Word 8 := .ofFn fun k => wordAt bs k
def bytes8 (v : Vector Word 8) : List Byte := bytesOfWords v.toList

/-! ### Sparse tables -/

/-- The value at key k, if any. -/
def tfind {α : Type} : List (Nat × α) → Nat → Option α
  | [], _ => none
  | (j, v) :: t, k => if j = k then some v else tfind t k

/-- The table with v at key k. -/
def tset {α : Type} : List (Nat × α) → Nat → α → List (Nat × α)
  | [], k, v => [(k, v)]
  | (j, w) :: t, k, v =>
    if j = k then (k, v) :: t
    else if k < j then (k, v) :: (j, w) :: t
    else (j, w) :: tset t k v

/-- The value at key k, d where the table lists none. -/
def tget {α : Type} (t : List (Nat × α)) (d : α) (k : Nat) : α := (tfind t k).getD d

/-- The table without key k. -/
def tdel {α : Type} (t : List (Nat × α)) (k : Nat) : List (Nat × α) := t.filter fun e => e.1 ≠ k

/-! ### Byte memories -/

/-- The byte at an address; an unlisted address reads as 0 (log entry 4). -/
def mget (m : Memory) (a : Nat) : Byte := tget m 0 a

/-- Write one byte and keep the canonical form. -/
def mset (m : Memory) (a : Nat) (b : Byte) : Memory := if b = 0 then tdel m a else tset m a b

/-- The n bytes from an address. -/
def mread (m : Memory) (a : Nat) : Nat → List Byte
  | 0 => []
  | n + 1 => mget m a :: mread m (a + 1) n

/-- Write bytes from an address upwards. -/
def mwrite (m : Memory) (a : Nat) : List Byte → Memory
  | [] => m
  | b :: bs => mwrite (mset m a b) (a + 1) bs

/-- Zero the n bytes from an address. -/
def mzero (m : Memory) (a n : Nat) : Memory := m.filter fun e => !(a ≤ e.1 && e.1 < a + n)

/-- The 8-byte word at an address. -/
def mword (m : Memory) (a : Nat) : Word := BitVec.ofNat 64 (ofBytes (mread m a 8))
def mputWord (m : Memory) (a : Nat) (w : Word) : Memory := mwrite m a (toBytes 8 w.toNat)

/-- The canonical form: addresses strictly rising and no zero entry. -/
def Memory.wf : Memory → Bool
  | [] => true
  | [e] => e.2 ≠ 0
  | e :: f :: t => e.2 ≠ 0 && e.1 < f.1 && Memory.wf (f :: t)

/-! ### Lists -/

/-- The list with element k replaced. -/
def lset {α : Type} (l : List α) (k : Nat) (v : α) : List α := l.set k v

/-- The first element that meets p, replaced. -/
def lmap1 {α : Type} (p : α → Bool) (f : α → α) : List α → List α
  | [] => []
  | x :: xs => if p x then f x :: xs else x :: lmap1 p f xs

/-- Where p first holds. -/
def lfindIdx {α : Type} (p : α → Bool) : List α → Option Nat
  | [] => none
  | x :: xs => if p x then some 0 else (lfindIdx p xs).map (· + 1)

/-- The entry with the least key, the first among equals. -/
def leastBy {α : Type} (key : α → Nat) : List α → Option α
  | [] => none
  | x :: xs =>
    match leastBy key xs with
    | none => some x
    | some y => if key x ≤ key y then some x else some y

/-- The entry with the greatest key, the first among equals. -/
def greatestBy {α : Type} (key : α → Nat) : List α → Option α
  | [] => none
  | x :: xs =>
    match greatestBy key xs with
    | none => some x
    | some y => if key y ≤ key x then some x else some y

def sumBy {α : Type} (f : α → Nat) (l : List α) : Nat := l.foldl (fun n x => n + f x) 0

/-! ### CRC-32C (R72, R437) -/

/-- One bit of the reflected CRC-32C, polynomial 0x1EDC6F41. -/
def crcBit (c : Nat) : Nat := if c % 2 = 1 then (c / 2) ^^^ 0x82F63B78 else c / 2

def crcByte (c : Nat) (b : Byte) : Nat :=
  crcBit (crcBit (crcBit (crcBit (crcBit (crcBit (crcBit (crcBit (c ^^^ b.toNat))))))))

/-- CRC-32C of a byte string (log entry 20). -/
def crc32c (bs : List Byte) : U32 := BitVec.ofNat 32 (bs.foldl crcByte 0xFFFFFFFF ^^^ 0xFFFFFFFF)

end Sys2Proof.Machine
end

