-- ==== Sys2Proof/Machine/Crypto.lean ====
section
/-!
DEFINITION. SHAKE256 (FIPS 202), used by R109 to R115 and R437, and AES-256-XTS (IEEE 1619) on one 64-byte line, the
cipher of protected objects (R105).
-/

namespace Sys2Proof.Machine

open Sys2Proof

/-! ### SHAKE256 -/

/-- A lane turned left by n bits. -/
def rotl64 (x : Word) (n : Nat) : Word := BitVec.ofNat 64 (x.toNat * 2 ^ (n % 64) % 2 ^ 64 + x.toNat / 2 ^ (64 - n % 64))

/-- The sponge's state: five planes, y = 0 to 4, each of the five lanes x = 0 to 4. -/
abbrev Planes := List (List Word)

/-- The lanes of a plane seen from lane k on, round the plane. -/
def fromLane (k : Nat) (p : List Word) : List Word := p.drop k ++ p.take k

def xorPlane (p q : List Word) : List Word := p.zipWith (· ^^^ ·) q

/-- Theta: every lane takes the parity of the column before it, and that of the column after it turned by one bit. -/
def theta (a : Planes) : Planes :=
  let parity := a.foldl xorPlane (.replicate 5 0)
  let mix := xorPlane (fromLane 4 parity) ((fromLane 1 parity).map (rotl64 · 1))
  a.map (xorPlane mix)

/-- Rho and pi as one walk over the lanes: it starts at lane (1, 0) and goes from (x, y) to (y, 2x + 3y), to which the
lane moves, turned by the next triangular number. Each entry names where a lane goes, where it comes from, and its turn. -/
def laneWalk : Nat → Nat → Nat → Nat → List ((Nat × Nat) × (Nat × Nat) × Nat)
  | 0, _, _, _ => []
  | n + 1, turn, x, y =>
    let next := (y, (2 * x + 3 * y) % 5)
    (next, (x, y), turn * (turn + 1) / 2) :: laneWalk n (turn + 1) next.1 next.2

def laneMoves : List ((Nat × Nat) × (Nat × Nat) × Nat) := ((0, 0), (0, 0), 0) :: laneWalk 24 1 1 0

def rhoPi (a : Planes) : Planes :=
  (List.range 5).map fun y => (List.range 5).map fun x =>
    match laneMoves.find? fun m => m.1 == (x, y) with
    | some (_, (fx, fy), turn) => rotl64 ((a.getD fy []).getD fx 0) turn
    | none => 0

/-- Chi: each lane is flipped where the next is 0 and the one after it is 1. -/
def chiPlane (p : List Word) : List Word :=
  xorPlane p (((fromLane 1 p).map (~~~·)).zipWith (· &&& ·) (fromLane 2 p))

/-- The shift register of the round constants after t steps from 1, modulo x^8 + x^6 + x^5 + x^4 + 1. -/
def rcRegister : Nat → Nat
  | 0 => 1
  | t + 1 => let r := 2 * rcRegister t; if 256 ≤ r then r ^^^ 0x171 else r

/-- The constant of a round: bit 2^j - 1 is the register's lowest bit after 7 * round + j steps. -/
def roundConst (round : Nat) : Word :=
  BitVec.ofNat 64 (((List.range 7).map fun j => rcRegister (7 * round + j) % 2 * 2 ^ (2 ^ j - 1)).sum)

/-- Iota: the constant goes into lane (0, 0). -/
def iota (round : Nat) : Planes → Planes
  | (v :: rest) :: planes => ((v ^^^ roundConst round) :: rest) :: planes
  | a => a

/-- The permutation of 24 rounds. -/
def sponge24 (a : Planes) : Planes :=
  (List.range 24).foldl (fun a round => iota round ((rhoPi (theta a)).map chiPlane)) a

/-- The state as its 200 bytes, and back. -/
def planeBytes (a : Planes) : List Byte := bytesOfWords a.flatten
def planesOf (b : List Byte) : Planes := (List.range 5).map fun y => (List.range 5).map fun x => wordAt b (5 * y + x)

/-- SHAKE256 takes and gives blocks of 136 bytes. -/
def shakeRate : Nat := 136

/-- Every block of the padded message enters the state, which is then permuted. -/
def spongeIn : Nat → List Byte → Planes → Planes
  | 0, _, a => a
  | n + 1, m, a =>
    let blk := planesOf (m.take shakeRate ++ .replicate (200 - shakeRate) 0)
    spongeIn n (m.drop shakeRate) (sponge24 (a.zipWith xorPlane blk))

/-- n blocks of output. -/
def spongeOut : Nat → Planes → List Byte
  | 0, _ => []
  | n + 1, a => (planeBytes a).take shakeRate ++ spongeOut n (sponge24 a)

/-- The first n bytes of SHAKE256 of a message: the message is closed by the bits 1111, then by a 1 at each end of the
padding. -/
def shake256 (m : List Byte) (n : Nat) : List Byte :=
  let blocks := m.length / shakeRate + 1
  let padded := (m ++ 0x1F :: .replicate (blocks * shakeRate - m.length - 1) 0)
  let closed := padded.set (blocks * shakeRate - 1) (padded.getD (blocks * shakeRate - 1) 0 ||| 0x80)
  (spongeOut (ceilDiv n shakeRate) (spongeIn blocks closed (.replicate 5 (.replicate 5 0)))).take n

/-! ### AES-256 -/

/-- Multiplication in GF(2^8) modulo x^8 + x^4 + x^3 + x + 1. -/
def gmul (a b : Byte) : Byte :=
  ((List.range 8).foldl (fun (acc : Byte × Byte) k =>
    (if b.getLsbD k then acc.1 ^^^ acc.2 else acc.1,
     (acc.2 <<< 1) ^^^ (if acc.2.getLsbD 7 then 0x1B else 0))) (0, a)).1

/-- The inverse in GF(2^8), 0 for 0: the power 254. -/
def ginv (a : Byte) : Byte :=
  let a2 := gmul a a
  let a4 := gmul a2 a2
  let a8 := gmul a4 a4
  let a16 := gmul a8 a8
  let a32 := gmul a16 a16
  let a64 := gmul a32 a32
  let a128 := gmul a64 a64
  gmul a2 (gmul a4 (gmul a8 (gmul a16 (gmul a32 (gmul a64 a128)))))

def rotl8 (x : Byte) (n : Nat) : Byte := (x <<< n) ||| (x >>> (8 - n))

def sbox (x : Byte) : Byte :=
  let b := ginv x
  b ^^^ rotl8 b 1 ^^^ rotl8 b 2 ^^^ rotl8 b 3 ^^^ rotl8 b 4 ^^^ 0x63
def invSbox (x : Byte) : Byte := ginv (rotl8 x 1 ^^^ rotl8 x 3 ^^^ rotl8 x 6 ^^^ 0x05)

def xorBytes (a b : List Byte) : List Byte := List.zipWith (· ^^^ ·) a b

/-- Words n to 59 of the key schedule, newest first. -/
def keySchedule : Nat → Nat → Byte → List (List Byte) → List (List Byte)
  | 0, _, _, ws => ws
  | k + 1, i, rcon, ws =>
    let t := ws.headD []
    let old := ws.getD 7 []
    let u :=
      if i % 8 = 0 then xorBytes ((t.drop 1 ++ t.take 1).map sbox) [rcon, 0, 0, 0]
      else if i % 8 = 4 then t.map sbox else t
    keySchedule k (i + 1) (if i % 8 = 0 then gmul rcon 2 else rcon) (xorBytes old u :: ws)

/-- The 15 round keys of a 32-byte key. -/
def roundKeys (key : List Byte) : List (List Byte) :=
  let ws := (keySchedule 52 8 1 ((List.range 8).reverse.map fun i => (key.drop (4 * i)).take 4)).reverse
  (List.range 15).map fun r => ((ws.drop (4 * r)).take 4).flatten

/-- Byte r + 4c of a block moves by the row shifts. -/
def shiftRows (b : List Byte) : List Byte := (List.range 16).map fun k => b.getD ((k + 4 * (k % 4)) % 16) 0
def invShiftRows (b : List Byte) : List Byte := (List.range 16).map fun k => b.getD ((k + 12 * (k % 4)) % 16) 0

def mixWith (m0 m1 m2 m3 : Byte) (b : List Byte) : List Byte := (List.range 16).map fun k =>
  let c := k / 4 * 4
  gmul m0 (b.getD k 0) ^^^ gmul m1 (b.getD (c + (k + 1) % 4) 0) ^^^ gmul m2 (b.getD (c + (k + 2) % 4) 0)
    ^^^ gmul m3 (b.getD (c + (k + 3) % 4) 0)

def aesEnc (rk : List (List Byte)) (p : List Byte) : List Byte :=
  let mid := ((rk.drop 1).take 13).foldl (fun b k => xorBytes (mixWith 2 3 1 1 (shiftRows (b.map sbox))) k)
    (xorBytes p (rk.getD 0 []))
  xorBytes (shiftRows (mid.map sbox)) (rk.getD 14 [])

def aesDec (rk : List (List Byte)) (c : List Byte) : List Byte :=
  let mid := ((rk.drop 1).take 13).reverse.foldl
    (fun b k => mixWith 14 11 13 9 (xorBytes ((invShiftRows b).map invSbox) k)) (xorBytes c (rk.getD 14 []))
  xorBytes ((invShiftRows mid).map invSbox) (rk.getD 0 [])

/-! ### XTS on one line (R105) -/

/-- The tweak value times x in GF(2^128). -/
def xtsNext (t : List Byte) : List Byte :=
  let n := ofBytes t
  toBytes 16 (if 2 ^ 127 ≤ n then ((2 * n) % 2 ^ 128) ^^^ 0x87 else 2 * n)

def xtsBlocks (f : List Byte → List Byte) : Nat → List Byte → List Byte → List Byte
  | 0, _, _ => []
  | n + 1, t, x => xorBytes (f (xorBytes (x.take 16) t)) t ++ xtsBlocks f n (xtsNext t) (x.drop 16)

/-- The tweak of the line at va of an object (R105). -/
def tweakOf (gen home va : Nat) : Nat := gen * 2 ^ 112 + home * 2 ^ 96 + va / 64 % 2 ^ 46

/-- Encrypt the 64 bytes of a line under a 64-byte world key: bytes 0 to 31 the data key, 32 to 63 the tweak key. -/
def encLine (kw : List Byte) (tweak : Nat) (x : List Byte) : List Byte :=
  let t := aesEnc (roundKeys (kw.drop 32)) (toBytes 16 tweak)
  let rk := roundKeys (kw.take 32)
  xtsBlocks (aesEnc rk) 4 t x
def decLine (kw : List Byte) (tweak : Nat) (x : List Byte) : List Byte :=
  let t := aesEnc (roundKeys (kw.drop 32)) (toBytes 16 tweak)
  let rk := roundKeys (kw.take 32)
  xtsBlocks (aesDec rk) 4 t x

end Sys2Proof.Machine
end

