-- ==== Sys2Proof/Machine/Num.lean ====
section
/-!
DEFINITION. Number formats and arithmetic (11_number_formats.md): exact values, the codes of every format, the one
rounding of R268 to R271, group sums, and the random bits of SR.

A finite code of a floating format is counted by its index: the codes of one sign in rising order of magnitude are
0, 1, 2, …, which are their exponent and trailing fields read as one number (R265). The least significant bit of the
index is that of the code, so R268's ties and the overflow tests are tests on indexes.
-/

namespace Sys2Proof.Machine

open Sys2Proof

/-- An exact value: not a number, an infinity, or (-1)^neg × n / d with d above 0; zeros keep their sign. -/
inductive Val where
  | nan
  | inf (neg : Bool)
  | fin (neg : Bool) (n d : Nat)
deriving DecidableEq, Repr, Inhabited

namespace Val

def zero : Val := .fin false 0 1
def ofNat (n : Nat) : Val := .fin false n 1
def ofInt (x : Int) : Val := .fin (x < 0) x.natAbs 1

def isNan : Val → Bool
  | .nan => true
  | _ => false
def isZero : Val → Bool
  | .fin _ 0 _ => true
  | _ => false
def isNeg : Val → Bool
  | .nan => false
  | .inf s => s
  | .fin s _ _ => s
def isInf : Val → Bool
  | .inf _ => true
  | _ => false
def neg : Val → Val
  | .nan => .nan
  | .inf s => .inf (!s)
  | .fin s n d => .fin (!s) n d
def abs : Val → Val
  | .nan => .nan
  | .inf _ => .inf false
  | .fin _ n d => .fin false n d

/-- x × 2^e, exactly. -/
def scale (x : Val) (e : Int) : Val :=
  match x with
  | .fin s n d => if 0 ≤ e then .fin s (n * 2 ^ e.toNat) d else .fin s n (d * 2 ^ (-e).toNat)
  | y => y

/-- a × b; 0 × ∞ is NaN (R316). -/
def mul : Val → Val → Val
  | .nan, _ => .nan
  | _, .nan => .nan
  | .inf s, .inf t => .inf (s != t)
  | .inf s, .fin t n _ => if n = 0 then .nan else .inf (s != t)
  | .fin s n _, .inf t => if n = 0 then .nan else .inf (s != t)
  | .fin s n d, .fin t m e => .fin (s != t) (n * m) (d * e)

/-- a + b; ∞ − ∞ is NaN. An exact zero sum is −0 when down holds and the addends are not both +0, or when both are −0
(R316). -/
def add (down : Bool) : Val → Val → Val
  | .nan, _ => .nan
  | _, .nan => .nan
  | .inf s, .inf t => if s = t then .inf s else .nan
  | .inf s, _ => .inf s
  | _, .inf t => .inf t
  | .fin s n d, .fin t m e =>
    let a := n * e
    let b := m * d
    if s = t then .fin s (a + b) (d * e)
    else if a = b then .fin down 0 1
    else if b < a then .fin s (a - b) (d * e)
    else .fin t (b - a) (d * e)

/-- a / b (R316). -/
def div : Val → Val → Val
  | .nan, _ => .nan
  | _, .nan => .nan
  | .inf _, .inf _ => .nan
  | .inf s, .fin t _ _ => .inf (s != t)
  | .fin s _ _, .inf t => .fin (s != t) 0 1
  | .fin s n d, .fin t m e =>
    if m = 0 then (if n = 0 then .nan else .inf (s != t)) else .fin (s != t) (n * e) (d * m)

end Val

/-- Floor of the square root, k bits of result. -/
def isqrtGo : Nat → Nat → Nat → Nat
  | 0, _, r => r
  | k + 1, x, r =>
    let t := r + 2 ^ k
    isqrtGo k x (if t * t ≤ x then t else r)
def isqrt (x : Nat) : Nat := isqrtGo (x.log2 / 2 + 1) x 0

/-- √a with 160 more bits and a sticky bit below them: every rounding of it is that of the exact root (R316). -/
def Val.sqrt : Val → Val
  | .nan => .nan
  | .inf s => if s then .nan else .inf false
  | .fin s n d =>
    if n = 0 then .fin s 0 1
    else if s then .nan
    else
      let x := n * d * 2 ^ 320
      let r := isqrt x
      .fin false (2 * r + b2n (r * r ≠ x)) (2 * d * 2 ^ 160)

/-- Order of two values that are not NaN: -1 below, 0 equal (−0 equals +0), 1 above. -/
def Val.cmp : Val → Val → Int
  | .nan, _ => 0
  | _, .nan => 0
  | .inf s, .inf t => if s = t then 0 else if s then -1 else 1
  | .inf s, _ => if s then -1 else 1
  | _, .inf t => if t then 1 else -1
  | .fin s n d, .fin t m e =>
    let a : Int := if s then -((n * e : Nat) : Int) else ((n * e : Nat) : Int)
    let b : Int := if t then -((m * d : Nat) : Int) else ((m * d : Nat) : Int)
    if a < b then -1 else if a = b then 0 else 1

/-- Floor(Log2(n / d)) for n above 0. -/
def log2Frac (n d : Nat) : Int :=
  let l : Int := (n.log2 : Int) - d.log2
  let below := if 0 ≤ l then decide (n < d * 2 ^ l.toNat) else decide (n * 2 ^ (-l).toNat < d)
  if below then l - 1 else l

/-! ### Formats (R259 to R266, Table 11-1) -/

/-- A floating format: precision with the leading bit, exponent of the smallest normal, index of MaxFinite, whether it
has infinities, a sign, its width, its NaN, and whether it is an IEEE format. -/
structure Flt where
  prec : Nat
  emin : Int
  maxIdx : Nat
  hasInf : Bool
  signed : Bool
  width : Nat
  nan : Nat
  ieee : Bool
deriving DecidableEq, Repr

inductive Fmt where
  | int (signed : Bool) (width : Nat)
  | flt (f : Flt)
  | e8m0
deriving DecidableEq, Repr

def ieee (ebits mbits nan : Nat) : Flt where
  prec := mbits + 1
  emin := 2 - 2 ^ (ebits - 1)
  maxIdx := (2 ^ ebits - 1) * 2 ^ mbits - 1
  hasInf := true
  signed := true
  width := 1 + ebits + mbits
  nan := nan
  ieee := true

/-- A P3109 format (R264): U, X, K and P. -/
def p3109 (u x : Bool) (k p : Nat) : Flt :=
  let w := if u then k - p + 1 else k - p
  let last := if u then 2 ^ k - 2 else 2 ^ (k - 1) - 1
  { prec := p
    emin := 1 - (2 ^ (w - 1) : Nat)
    maxIdx := if x then last - 1 else last
    hasInf := x
    signed := !u
    width := k
    nan := if u then 2 ^ k - 1 else 2 ^ (k - 1)
    ieee := false }

def fp16 : Flt := ieee 5 10 0x7E00
def bf16 : Flt := ieee 8 7 0x7FC0
def fp32 : Flt := ieee 8 23 0x7FC00000
def fp64 : Flt := ieee 11 52 0x7FF8000000000000

/-- The format of a code of Table 11-1. -/
def fmtOf (c : Byte) : Fmt :=
  let n := c.toNat
  match n / 64 with
  | 0 => .int (bit n 2) (8 * 2 ^ (n % 4))
  | 1 => .flt (match n % 4 with | 0 => fp16 | 1 => bf16 | 2 => fp32 | _ => fp64)
  | 2 => .flt (p3109 (bit n 5) (bit n 4) (if bit n 3 then 4 else 8) (n % 8))
  | _ => .e8m0

/-- The element width b of a format code (R74). -/
def fmtWidth (c : Byte) : Nat :=
  match fmtOf c with
  | .int _ w => w
  | .flt f => f.width
  | .e8m0 => 8

/-- The magnitude of an index (R265, R262). -/
def idxVal (f : Flt) (neg : Bool) (i : Nat) : Val :=
  let t := f.prec - 1
  let e := i / 2 ^ t
  let m := i % 2 ^ t
  if e = 0 then (Val.fin neg m 1).scale (f.emin - t)
  else (Val.fin neg (2 ^ t + m) 1).scale (f.emin + e - 1 - t)

/-- Dec(code, fmt) for a floating format. -/
def decFlt (f : Flt) (code : Nat) : Val :=
  let c := code % 2 ^ f.width
  let neg := f.signed && 2 ^ (f.width - 1) ≤ c
  let i := if f.signed then c % 2 ^ (f.width - 1) else c
  if !f.ieee && c == f.nan then .nan
  else if f.ieee && f.maxIdx + 1 < i then .nan
  else if f.hasInf && i == f.maxIdx + 1 then .inf neg
  else idxVal f neg i

/-- Dec(code, fmt): the exact value of a code (Table 12-11). -/
def dec (code : Nat) (fmt : Byte) : Val :=
  match fmtOf fmt with
  | .int s w => if s then .ofInt (signExt code w) else .ofNat (code % 2 ^ w)
  | .flt f => decFlt f code
  | .e8m0 => if code % 256 = 255 then .nan else (Val.ofNat 1).scale ((code % 256 : Nat) - 127)

/-! ### Rounding (R268 to R271) -/

/-- Rounding codes of R268. -/
inductive Rnd where
  | rne | rtz | rup | rdn | sr
deriving DecidableEq, Repr, Inhabited

def rndOf (n : Nat) : Rnd :=
  match n with
  | 0 => .rne
  | 1 => .rtz
  | 2 => .rup
  | 3 => .rdn
  | _ => .sr

/-- Whether the magnitude i + rem / den, between index i and index i + 1, goes up. -/
def roundsUp (r : Rnd) (rnd8 : Nat) (neg : Bool) (i rem den : Nat) : Bool :=
  if rem = 0 then false
  else
    match r with
    | .rne => if 2 * rem = den then i % 2 = 1 else den < 2 * rem
    | .rtz => false
    | .rup => !neg
    | .rdn => neg
    | .sr => 256 - 256 * rem / den ≤ rnd8

/-- Steps 1 and 2 of R268 for a magnitude n / d above 0: the index chosen, in the target extended upwards. -/
def roundIdx (prec : Nat) (emin : Int) (r : Rnd) (rnd8 : Nat) (neg : Bool) (n d : Nat) : Nat :=
  let e := max (log2Frac n d) emin
  let q : Int := e - (prec - 1 : Nat)
  let num := if 0 ≤ q then n else n * 2 ^ (-q).toNat
  let den := if 0 ≤ q then d * 2 ^ q.toNat else d
  let i := num / den + (e - emin).toNat * 2 ^ (prec - 1)
  if roundsUp r rnd8 neg i (num % den) den then i + 1 else i

/-- The code of an index with a sign. -/
def codeOf (f : Flt) (neg : Bool) (i : Nat) : Nat := if f.signed && neg then i + 2 ^ (f.width - 1) else i

/-- Table 11-5: a rounded magnitude above MaxFinite. -/
def overflowCode (f : Flt) (r : Rnd) (ovf neg : Bool) : Nat :=
  let toInf :=
    match r with
    | .rne | .sr => true
    | .rtz => false
    | .rup => !neg
    | .rdn => neg
  if f.hasInf && ovf && toInf then codeOf f neg (f.maxIdx + 1) else codeOf f neg f.maxIdx

/-- RoundTo for a floating target; ovf is OVFINF. -/
def roundFlt (f : Flt) (r : Rnd) (ovf : Bool) (rnd8 : Nat) : Val → Nat
  | .nan => f.nan
  | .inf neg =>
    if !f.signed && neg then (if ovf then f.nan else 0)
    else if f.hasInf && ovf then codeOf f neg (f.maxIdx + 1) else codeOf f neg f.maxIdx
  | .fin neg n d =>
    if n = 0 then (if f.ieee && neg then 2 ^ (f.width - 1) else 0)
    else
      let i := roundIdx f.prec f.emin r rnd8 neg n d
      if !f.signed && neg then (if i = 0 then 0 else if ovf then f.nan else 0)
      else if f.maxIdx < i then overflowCode f r ovf neg
      else if i = 0 && !f.ieee then 0
      else codeOf f neg i

/-- RoundTo for an E8M0 target (R269): the byte counts the binades from 2^-127. -/
def roundE8 (r : Rnd) (rnd8 : Nat) : Val → Nat
  | .nan => 0xFF
  | .inf neg => if neg then 0 else 0xFE
  | .fin neg n d =>
    if n = 0 || neg then 0
    else
      let e := log2Frac n d
      if e < -127 then 0
      else
        let num := if 0 ≤ e then n else n * 2 ^ (-e).toNat
        let den := if 0 ≤ e then d * 2 ^ e.toNat else d
        let i := (e + 127).toNat
        min 0xFE (if roundsUp r rnd8 false i (num % den) den then i + 1 else i)

/-- RoundTo for an integer target (R270): the integer, clamped to the range. -/
def roundInt (signed : Bool) (w : Nat) (r : Rnd) (rnd8 : Nat) : Val → Int
  | .nan => 0
  | .inf neg => if neg then (if signed then -(2 ^ (w - 1) : Nat) else 0) else (if signed then (2 ^ (w - 1) : Nat) - 1 else (2 ^ w : Nat) - 1)
  | .fin neg n d =>
    let i := n / d
    let m := if roundsUp r rnd8 neg i (n % d) d then i + 1 else i
    let v : Int := if neg then -(m : Int) else m
    let lo : Int := if signed then -(2 ^ (w - 1) : Nat) else 0
    let hi : Int := if signed then (2 ^ (w - 1) : Nat) - 1 else (2 ^ w : Nat) - 1
    max lo (min hi v)

/-- RoundTo(x, fmt, rnd, sat): the code of the result in the low bits. -/
def roundTo (x : Val) (fmt : Byte) (r : Rnd) (ovf : Bool) (rnd8 : Nat) : Nat :=
  match fmtOf fmt with
  | .int s w => (roundInt s w r rnd8 x % (2 ^ w : Nat)).toNat
  | .flt f => roundFlt f r ovf rnd8 x
  | .e8m0 => roundE8 r rnd8 x

/-! ### Stochastic rounding (R272) -/

def mix64 (z : Word) : Word :=
  let a := (z ^^^ (z >>> 30)) * 0xBF58476D1CE4E5B9
  let b := (a ^^^ (a >>> 27)) * 0x94D049BB133111EB
  b ^^^ (b >>> 31)

/-- rnd8 of element n, drawn from a user's state. -/
def rnd8 (st : Word) (n : Nat) : Nat :=
  (mix64 (st ^^^ BitVec.ofNat 64 (n * 0x9E3779B97F4A7C15))).toNat % 256

/-- The state after a command that rounded under SR. -/
def srAdvance (st : Word) : Word := mix64 (st + 1)
/-- SRBASE of a step (R272), and the state of user id under a base. -/
def srBaseOf (task : Word) (step : U32) : Word := mix64 (task ^^^ mix64 (step.setWidth 64))
def srState (base : Word) (user : Nat) : Word := mix64 (base ^^^ BitVec.ofNat 64 user)

/-! ### Group sums (R274) -/

/-- One exact product with the scales of its two elements. -/
def product (a b sa sb : Val) : Val := ((a.mul b).mul sa).mul sb

/-- Trunc(p / 2^q) as an integer. -/
def truncAt (q : Int) : Val → Int
  | .fin s n d =>
    let m := if 0 ≤ q then n / (d * 2 ^ q.toNat) else n * 2 ^ (-q).toNat / d
    if s then -(m : Int) else m
  | _ => 0

/-- GroupSum of the products of one group; none has been left out of the list that G does not include (R387). -/
def groupSum (ps : List Val) : Val :=
  if ps.any Val.isNan || (ps.any (· == .inf true) && ps.any (· == .inf false)) then .nan
  else
    match ps.find? Val.isInf with
    | some i => i
    | none =>
      if ps.all Val.isZero then .fin (ps.all Val.isNeg) 0 1
      else
        let es := ps.filterMap fun p => match p with
          | .fin _ n d => if n = 0 then none else some (log2Frac n d)
          | _ => none
        let e := es.foldl max (es.headD 0)
        let q := e - 40
        let sum := (ps.map (truncAt q)).foldl (· + ·) 0
        let x := (Val.ofInt sum).scale q
        decFlt fp32 (roundFlt fp32 .rne true 0 x)

/-- c + GroupSum, rounded to FP32 (R274). -/
def accumulate (c : Val) (ps : List Val) : Val :=
  decFlt fp32 (roundFlt fp32 .rne true 0 (c.add false (groupSum ps)))

/-- An FP32 code of a value that FP32 holds. -/
def code32 (x : Val) : Nat := roundFlt fp32 .rne true 0 x

/-! ### Minimum, maximum and class (R277, Table 11-8, R319) -/

/-- Table 11-8 on codes of an IEEE format, FMAX being its mirror. -/
def fminCode (f : Flt) (isMax : Bool) (old operand : Nat) : Nat :=
  let a := decFlt f old
  let b := decFlt f operand
  if a.isNan && b.isNan then f.nan
  else if a.isNan then operand
  else if b.isNan then old
  else
    let c := a.cmp b
    let aFirst := if c = 0 then (a.isNeg || !b.isNeg) else c < 0
    if isMax then (if c = 0 then (if a.isNeg && !b.isNeg then operand else old) else if c < 0 then operand else old)
    else if aFirst then old else operand

/-- A signalling NaN of an IEEE format. -/
def isSNan (f : Flt) (code : Nat) : Bool :=
  (decFlt f code).isNan && !bit code (f.prec - 2)

/-- FCLASS (R319): the one bit set. -/
def fclassBit (f : Flt) (code : Nat) : Nat :=
  match decFlt f code with
  | .nan => if isSNan f code then 8 else 9
  | .inf neg => if neg then 0 else 7
  | .fin neg n d =>
    if n = 0 then (if neg then 3 else 4)
    else if log2Frac n d < f.emin then (if neg then 2 else 5)
    else if neg then 1 else 6

end Sys2Proof.Machine
end

