-- ==== Sys2Proof/Config.lean ====
section
/-!
DEFINITION. What an implementation fixes and the spec leaves open, as constants without a body: nothing in Lean can
evaluate one, so a statement about them holds whatever they are.
-/

namespace Sys2Proof.Config

open Sys2Proof

/-- Free values (log entry 7): the n-th free word that the package draws. -/
opaque freeWord : Nat → Word

/-- The CT of the n-th ML-KEM-1024 encapsulation that a package makes to an encapsulation key (FIPS 203, R113; log entry
10). -/
opaque mlkemCt : List Byte → Nat → List Byte
/-- The shared secret that a CT stands for under the key pair of an encapsulation key: what encapsulation gave with it, and
what decapsulation finds (FIPS 203, R113; log entry 10). -/
opaque mlkemSecret : List Byte → List Byte → List Byte
/-- The encapsulation key EK of bring-up n (R115; log entry 10). -/
opaque mlkemEk : Nat → List Byte
/-- XMSS^MT of the parameter set of R111: public key of attestation key n (132 bytes; log entry 10). -/
opaque xmssPublic : Nat → List Byte
/-- What follows the index in the XMSS^MT signature that the key pair of a public key makes at an index over a message (RFC
8391, R111, R115; log entry 10). -/
opaque xmssRest : List Byte → Nat → List Byte → List Byte
/-- Whether the verification of RFC 8391 takes, for a public key and a message, a signature that its key pair has not made
(R111; log entry 10). -/
opaque xmssTakes : List Byte → List Byte → List Byte → Bool
/-- Whether a vendor certificate is one of a public key under VROOT (R117; log entry 10). -/
opaque certOk : BitVec 512 → List Byte → List Byte → Bool

/-- How often the flash counter region can be written for attestation key n (R117; log entry 10). -/
opaque flashWrites : Nat → Nat

/-- The class of a character by the Unicode 15.1 properties (R163; log entry 11): 0 L, 1 N, 2 W, 3 O. -/
opaque unicodeClass : Nat → BitVec 2
/-- The decoders and indexes of the WHATWG Encoding Standard (R161; log entry 11), for a CHARSET code of Table 7-4
0x20 to 0x24: from the bytes that remain, the code points of the next sequence (none where it has none), whether a
sequence without code points is ill-formed rather than unmapped, and the bytes it takes less one. -/
opaque whatwgDecode : Byte → List Byte → List Nat × Bool × Nat

/-- Where the interval of a special function or a rotary angle does not decide the rounding (log entry 21): the result. -/
opaque undecided : Nat → Nat → Nat → Word

end Sys2Proof.Config
end

