-- ==== Sys2Proof/WellFormed.lean ====
section
/-!
DEFINITION. Which instructions are well formed: row 5 of Table 12-6 for every field, with the reserved codes of each
instruction's entry, and, for the events, the ranges of the ports, cores, slices and slots that the spec numbers.
A bit outside every field is checked by the decoder (R283).
-/

namespace Sys2Proof.WellFormed

open Sys2Proof

/-- R282: GUARD 0b1000 is reserved. -/
def guardOk (g : BitVec 4) : Bool := g != 8

/-- A register field of one class, by the class codes of R308 and R310: 0 s, 1 a, 2 lc, 3 p (Table 12-7). -/
def classOk (cls : BitVec 2) (r : BitVec 5) : Bool :=
  match cls.toNat with
  | 0 => true
  | 1 => r.toNat < 8
  | 2 => r.toNat < 4
  | _ => r.toNat < 8

/-- Table 11-1: the format codes that are not reserved. -/
def isInt (f : Byte) : Bool := f.toNat ≤ 7
def isIeee (f : Byte) : Bool := 0x40 ≤ f.toNat && f.toNat ≤ 0x43
def isP3109 (f : Byte) : Bool :=
  let n := f.toNat
  let p := n % 8
  n / 64 == 2 && 1 ≤ p && (if n / 8 % 2 == 1 then p ≤ 3 else true)
def isFormat (f : Byte) : Bool := isInt f || isIeee f || isP3109 f || f == 0xC0

/-- A vector register field below 1,536 (Table 12-6 row 5). -/
def vregOk (v : BitVec 11) : Bool := v.toNat < 1536
def evenReg (v : BitVec 11) : Bool := v.toNat % 2 == 0

/-- Table 16-1. -/
def tyOk (ty : BitVec 4) : Bool := ty.toNat ≤ 8
def isFloat (ty : BitVec 4) : Bool := ty.toNat ≤ 2
/-- A 32-bit type, which occupies a register pair. -/
def isPair (ty : BitVec 4) : Bool := ty == 2 || ty == 7 || ty == 8
def regOk (ty : BitVec 4) (v : BitVec 11) : Bool := vregOk v && (!isPair ty || evenReg v)
/-- R392: operand B is a register, or with Q = 1 a scalar register in VB[47:43]. -/
def scalarOk (q : BitVec 1) (ty : BitVec 4) (v : BitVec 11) : Bool :=
  if q == 1 then v.toNat < 32 else regOk ty v
/-- R398, R399: X3 is a rounding code on a floating type and reserved on an integer type. -/
def roundOk (ty : BitVec 4) (x3 : BitVec 3) : Bool := if isFloat ty then x3.toNat ≤ 4 else x3 == 0
/-- R405: the sides of VCVT exclude the 64-bit formats; a 32-bit side is a pair. -/
def vcvtOk (f : Byte) : Bool := isFormat f && f != 0x43 && f != 3 && f != 7
def isWide (f : Byte) : Bool := f == 0x42 || f == 2 || f == 6
/-- Table 15-2: one operand of a 96-bit multiply, by its source kind. -/
def operandOk (kind : BitVec 2) (v : BitVec 11) (l : BitVec 4) : Bool :=
  match kind.toNat with
  | 0 => vregOk v && l == 0
  | 1 => v == 0 && l.toNat < 8
  | 2 => v == 0
  | _ => false

end Sys2Proof.WellFormed

namespace Sys2Proof

open WellFormed

/-- An instruction or event whose every field the spec admits. -/
def Instr.wf : Instr → Bool
  | .add g _ _ _ => guardOk g
  | .sub g _ _ _ => guardOk g
  | .mul g _ _ _ => guardOk g
  | .mulh g _ _ _ => guardOk g
  | .mulhz g _ _ _ => guardOk g
  | .div g _ _ _ => guardOk g
  | .divz g _ _ _ => guardOk g
  | .rem g _ _ _ => guardOk g
  | .remz g _ _ _ => guardOk g
  | .and g _ _ _ => guardOk g
  | .or g _ _ _ => guardOk g
  | .xor g _ _ _ => guardOk g
  | .andn g _ _ _ => guardOk g
  | .shl g _ _ _ => guardOk g
  | .shr g _ _ _ => guardOk g
  | .sar g _ _ _ => guardOk g
  | .rotl g _ _ _ => guardOk g
  | .min g _ _ _ => guardOk g
  | .minz g _ _ _ => guardOk g
  | .max g _ _ _ => guardOk g
  | .maxz g _ _ _ => guardOk g
  | .clz g _ _ => guardOk g
  | .ctz g _ _ => guardOk g
  | .popc g _ _ => guardOk g
  | .bswap g _ _ => guardOk g
  | .sext g _ _ z => guardOk g && (z.toNat ≤ 2)
  | .zext g _ _ z => guardOk g && (z.toNat ≤ 2)
  | .mov g x y dc sc => guardOk g && (classOk dc x && classOk sc y)
  | .pand g _ _ _ => guardOk g
  | .por g _ _ _ => guardOk g
  | .pxor g _ _ _ => guardOk g
  | .pnot g _ _ => guardOk g
  | .addi g x y rc _ => guardOk g && (rc != 3 && classOk rc x && classOk rc y)
  | .andi g _ _ _ => guardOk g
  | .ori g _ _ _ => guardOk g
  | .xori g _ _ _ => guardOk g
  | .shli g _ _ _ => guardOk g
  | .shri g _ _ _ => guardOk g
  | .sari g _ _ _ => guardOk g
  | .bfx g _ _ _ _ _ => guardOk g
  | .bfi g _ _ _ _ => guardOk g
  | .movi64 g _ _ => guardOk g
  | .movi96 g _ _ _ => guardOk g
  | .movhi g _ _ _ => guardOk g
  | .sel g _ _ _ _ => guardOk g
  | .cmp g _ _ cc ii imm => guardOk g && (cc.toNat ≤ 10 && (ii == 1 || imm.toNat < 32))
  | .fadd g _ _ fm _ rnd => guardOk g && (fm.toNat ≤ 1 && rnd.toNat ≤ 3)
  | .fsub g _ _ fm _ rnd => guardOk g && (fm.toNat ≤ 1 && rnd.toNat ≤ 3)
  | .fmul g _ _ fm _ rnd => guardOk g && (fm.toNat ≤ 1 && rnd.toNat ≤ 3)
  | .ffma g _ _ fm _ rnd _ => guardOk g && (fm.toNat ≤ 1 && rnd.toNat ≤ 3)
  | .fdiv g _ _ fm _ rnd => guardOk g && (fm.toNat ≤ 1 && rnd.toNat ≤ 3)
  | .fsqrt g _ _ fm rnd => guardOk g && (fm.toNat ≤ 1 && rnd.toNat ≤ 3)
  | .fmin g _ _ _ _ => guardOk g
  | .fmax g _ _ _ _ => guardOk g
  | .fclass g _ _ _ => guardOk g
  | .fcmp g _ _ fm cc _ => guardOk g && (fm.toNat ≤ 1 && cc.toNat ≤ 7)
  | .fcvt g _ _ dfmt sfmt rnd _ => guardOk g && (isFormat dfmt && isFormat sfmt && rnd.toNat ≤ 3)
  | .br g slot _ => guardOk g && (slot != 15)
  | .brp g _ _ slot _ => guardOk g && (slot != 15)
  | .brz g _ slot _ => guardOk g && (slot != 15)
  | .brnz g _ slot _ => guardOk g && (slot != 15)
  | .call g slot _ => guardOk g && (slot != 15)
  | .ret g => guardOk g
  | .loop g _ slot _ => guardOk g && (slot != 15)
  | .nop g => guardOk g
  | .hint g _ => guardOk g
  | .ldp g _ _ _ _ => guardOk g
  | .lds g _ _ _ _ _ => guardOk g
  | .sts g _ _ _ _ => guardOk g
  | .dmov g _ _ => guardOk g
  | .hld g _ y src imm => guardOk g && (if src == 0 then y == 0 && imm.toNat < 4096 else imm == 0)
  | .hqry g _ _ item => guardOk g && (item.toNat ≤ 8)
  | .dset g _ _ _ _ _ _ => guardOk g
  | .didx g _ y _ ii imm => guardOk g && (if ii == 1 then y == 0 else imm == 0)
  | .dadd g _ y _ ii imm => guardOk g && (if ii == 1 then y == 0 else imm == 0)
  | .dshp g _ _ _ => guardOk g
  | .dpad g _ clr imm lit => guardOk g && (clr == 0 || (imm == 0 && lit == 0))
  | .lde g _ _ _ str rd => guardOk g && (str != 3 && (str == 0 || rd == 0))
  | .ste g _ _ _ str => guardOk g && (str != 3)
  | .atom g _ _ _ _ _ opc => guardOk g && (opc.toNat ≤ 9)
  | .fatom g _ _ _ _ fop => guardOk g && (fop != 3)
  | .atomnr g _ _ _ w opc f => guardOk g && (if f == 0 then opc.toNat ≤ 9 else opc.toNat ≤ 2 && w == 0)
  | .cas g _ _ _ _ _ _ _ => guardOk g
  | .casc g _ _ _ _ _ _ _ _ => guardOk g
  | .ldt _ g vd q _ a _ => guardOk g && (if q == 1 then a == 0 && vregOk vd else vd == 0)
  | .stt _ g vd q _ a _ => guardOk g && (if q == 1 then a == 0 && vregOk vd else vd == 0)
  | .pft _ g _ _ => guardOk g
  | .bmap _ g _ _ => guardOk g
  | .bflush _ g _ _ => guardOk g
  | .bdrop _ g _ _ => guardOk g
  | .openv g _ => guardOk g
  | .pub g _ => guardOk g
  | .subv g _ _ _ => guardOk g
  | .pinv g _ _ _ => guardOk g
  | .unpv g _ => guardOk g
  | .verq g _ _ => guardOk g
  | .fenceP g _ _ => guardOk g
  | .nbfill _ g _ _ _ _ => guardOk g
  | .nbcopy _ g _ _ _ => guardOk g
  | .nbaxpy _ g _ _ _ _ rnd _ => guardOk g && (rnd.toNat ≤ 3)
  | .nbscale _ g _ _ _ rnd _ => guardOk g && (rnd.toNat ≤ 3)
  | .nbrelay _ g _ _ _ => guardOk g
  | .rrzero _ g _ _ => guardOk g
  | .rrcopy _ g _ _ _ => guardOk g
  | .fmtqReg g _ => guardOk g
  | .fmtqImm g _ _ => guardOk g
  | .mma64 _ g va vb _ _ _ => guardOk g && (vregOk va && vregOk vb)
  | .mma96 _ g va vb _ _ _ ak bk al bl => guardOk g && (operandOk ak va al && operandOk bk vb bl)
  | .mmam64 _ g va vb _ _ _ => guardOk g && (vregOk va && vregOk vb)
  | .mmam96 _ g va vb _ _ _ ak bk al bl => guardOk g && (operandOk ak va al && operandOk bk vb bl)
  | .mzero _ g _ => guardOk g
  | .mrd _ g vd _ _ _ => guardOk g && (vregOk vd)
  | .mwr _ g va _ _ _ => guardOk g && (vregOk va)
  | .mred _ g va _ _ _ => guardOk g && (vregOk va)
  | .mscan _ g va _ _ _ _ => guardOk g && (vregOk va)
  | .mtrn _ g va _ => guardOk g && (vregOk va)
  | .vadd _ g vd q va vb ty _ x3 _ => guardOk g && (tyOk ty && regOk ty vd && regOk ty va && scalarOk q ty vb && roundOk ty x3)
  | .vsub _ g vd q va vb ty _ x3 _ => guardOk g && (tyOk ty && regOk ty vd && regOk ty va && scalarOk q ty vb && roundOk ty x3)
  | .vmul _ g vd q va vb ty _ x3 _ => guardOk g && (tyOk ty && regOk ty vd && regOk ty va && scalarOk q ty vb && roundOk ty x3)
  | .vfma _ g vd q va vb ty _ x3 _ vc => guardOk g && (tyOk ty && regOk ty vd && regOk ty va && scalarOk q ty vb && regOk ty vc && roundOk ty x3)
  | .vfms _ g vd q va vb ty _ x3 _ vc => guardOk g && (tyOk ty && regOk ty vd && regOk ty va && scalarOk q ty vb && regOk ty vc && roundOk ty x3)
  | .vmin _ g vd q va vb ty _ x1 => guardOk g && (tyOk ty && regOk ty vd && regOk ty va && scalarOk q ty vb && (!isFloat ty || x1 == 0))
  | .vmax _ g vd q va vb ty _ x1 => guardOk g && (tyOk ty && regOk ty vd && regOk ty va && scalarOk q ty vb && (!isFloat ty || x1 == 0))
  | .vabs _ g vd va ty _ x1 => guardOk g && (tyOk ty && regOk ty vd && regOk ty va && (!isFloat ty || x1 == 0))
  | .vneg _ g vd va ty _ x1 => guardOk g && (tyOk ty && regOk ty vd && regOk ty va && (!isFloat ty || x1 == 0))
  | .vclamp _ g vd va vb ty _ x1 vc => guardOk g && (tyOk ty && regOk ty vd && regOk ty va && regOk ty vb && regOk ty vc && (!isFloat ty || x1 == 0))
  | .vcvt _ g vd va dfmt rnd sfmt _ => guardOk g && (isFormat dfmt && isFormat sfmt && rnd.toNat ≤ 4 && vregOk vd && vregOk va && (!isWide dfmt || evenReg vd) && (!isWide sfmt || evenReg va))
  | .vand _ g vd q va vb ty _ => guardOk g && (tyOk ty && regOk ty vd && regOk ty va && scalarOk q ty vb)
  | .vor _ g vd q va vb ty _ => guardOk g && (tyOk ty && regOk ty vd && regOk ty va && scalarOk q ty vb)
  | .vxor _ g vd q va vb ty _ => guardOk g && (tyOk ty && regOk ty vd && regOk ty va && scalarOk q ty vb)
  | .vnot _ g vd va ty _ => guardOk g && (tyOk ty && regOk ty vd && regOk ty va)
  | .vshl _ g vd q va vb ty _ => guardOk g && (tyOk ty && regOk ty vd && regOk ty va && scalarOk q ty vb)
  | .vshr _ g vd q va vb ty _ => guardOk g && (tyOk ty && regOk ty vd && regOk ty va && scalarOk q ty vb)
  | .vsar _ g vd q va vb ty _ => guardOk g && (tyOk ty && regOk ty vd && regOk ty va && scalarOk q ty vb)
  | .vcmp _ g vd q va vb ty _ x3 => guardOk g && (tyOk ty && vregOk vd && regOk ty va && scalarOk q ty vb && (isFloat ty || x3 != 7))
  | .vsel _ g vd q va vb ty _ vc => guardOk g && (tyOk ty && regOk ty vd && regOk ty va && scalarOk q ty vb && vregOk vc)
  | .vmov _ g vd q va vb ty _ => guardOk g && (tyOk ty && regOk ty vd && (if q == 1 then va == 0 && vb.toNat < 32 else regOk ty va && vb == 0))
  | .vmovi _ g vd ty _ _ => guardOk g && (tyOk ty && regOk ty vd)
  | .vrotr _ g vd q va vb ty _ => guardOk g && (tyOk ty && regOk ty vd && regOk ty va && (if q == 1 then vb.toNat < 32 else vb.toNat < 128))
  | .vrotc _ g vd q va vb ty _ => guardOk g && (tyOk ty && regOk ty vd && regOk ty va && (if q == 1 then vb.toNat < 32 else vb.toNat < 128))
  | .vbcr _ g vd q va vb ty _ => guardOk g && (tyOk ty && regOk ty vd && regOk ty va && (if q == 1 then vb.toNat < 32 else vb.toNat < 128))
  | .vbcc _ g vd q va vb ty _ => guardOk g && (tyOk ty && regOk ty vd && regOk ty va && (if q == 1 then vb.toNat < 32 else vb.toNat < 128))
  | .vshuf _ g vd va vb ty _ => guardOk g && (tyOk ty && regOk ty vd && regOk ty va && vregOk vb)
  | .vgath _ g vd vb ty _ _ x1 => guardOk g && (tyOk ty && regOk ty vd && vregOk vb && (x1 == 0 || evenReg vb))
  | .vscat _ g va vb ty _ _ x1 => guardOk g && (tyOk ty && regOk ty va && vregOk vb && (x1 == 0 || evenReg vb))
  | .vexp2 _ g vd va ty _ x3 _ => guardOk g && (tyOk ty && regOk ty vd && regOk ty va && x3.toNat ≤ 4)
  | .vlog2 _ g vd va ty _ x3 _ => guardOk g && (tyOk ty && regOk ty vd && regOk ty va && x3.toNat ≤ 4)
  | .vrcp _ g vd va ty _ x3 _ => guardOk g && (tyOk ty && regOk ty vd && regOk ty va && x3.toNat ≤ 4)
  | .vrsq _ g vd va ty _ x3 _ => guardOk g && (tyOk ty && regOk ty vd && regOk ty va && x3.toNat ≤ 4)
  | .vsin _ g vd va ty _ x3 _ => guardOk g && (tyOk ty && regOk ty vd && regOk ty va && x3.toNat ≤ 4)
  | .vcos _ g vd va ty _ x3 _ => guardOk g && (tyOk ty && regOk ty vd && regOk ty va && x3.toNat ≤ 4)
  | .vtanh _ g vd va ty _ x3 _ => guardOk g && (tyOk ty && regOk ty vd && regOk ty va && x3.toNat ≤ 4)
  | .vpack _ g vd va _ => guardOk g && (vregOk vd && vregOk va)
  | .vunpk _ g vd va _ => guardOk g && (vregOk vd && vregOk va)
  | .vqnt _ g vd va fmt rnd ty _ _ => guardOk g && (tyOk ty && isFormat fmt && rnd.toNat ≤ 4 && vregOk vd && regOk ty va)
  | .vseed _ g _ => guardOk g
  | .attn _ g _ _ _ _ => guardOk g
  | .kvapp _ g _ _ vk vv _ => guardOk g && (vregOk vk && vregOk vv)
  | .rope _ g vd va _ _ _ _ => guardOk g && (vregOk vd && vregOk va)
  | .spanopen _ g _ _ => guardOk g
  | .spanclose _ g _ => guardOk g
  | .retspan _ g _ _ _ _ => guardOk g
  | .kvpromo _ g _ _ _ => guardOk g
  | .seqq g _ y _ item => guardOk g && (item.toNat ≤ 6 && (5 ≤ item.toNat || y == 0))
  | .spawn g _ _ _ => guardOk g
  | .spawnRec g _ _ _ => guardOk g
  | .depdec g _ y ii k => guardOk g && (if ii == 1 then y == 0 else k == 0)
  | .taskq g _ _ item => guardOk g && (item.toNat ≤ 5)
  | .commit g => guardOk g
  | .exit g => guardOk g
  | .arrive g _ _ => guardOk g
  | .racqP g _ _ => guardOk g
  | .racqC g _ _ => guardOk g
  | .rrelP g _ => guardOk g
  | .rrelC g _ => guardOk g
  | .tokq g _ => guardOk g
  | .put g _ _ _ _ => guardOk g
  | .intk _ g _ _ => guardOk g
  | .sumprd g _ _ _ => guardOk g
  | .xsend _ g _ _ _ _ => guardOk g
  | .xstep _ g _ _ _ => guardOk g
  | .xsync g _ _ _ => guardOk g
  | .trap g _ => guardOk g
  | .omcall g _ _ => guardOk g
  | .sysrd g _ _ _ => guardOk g
  | .syswr g _ _ _ => guardOk g
  | .eret g => guardOk g
  | .waiti g _ => guardOk g
  | .halt g => guardOk g
  | .decmap g _ _ _ _ => guardOk g
  | .tlbinv g _ _ sc _ => guardOk g && (sc.toNat ≤ 1)
  | .otinv g _ _ sc _ => guardOk g && (sc.toNat ≤ 1)
  | .migr g _ _ => guardOk g
  | .zerob g _ _ kind => guardOk g && (kind.toNat ≤ 3)
  | .keyset g _ _ _ => guardOk g
  | .coldReset => true
  | .warmReset _ => true
  | .bringupStepComplete _ _ _ _ => true
  | .pwrCmdPs0 _ _ _ _ => true
  | .pwrCmdPs1 _ _ _ _ => true
  | .pwrCmdPs2 _ _ _ _ => true
  | .pwrCmdPs3 _ _ _ _ => true
  | .ps1DrainComplete => true
  | .ps1DrainTimeout => true
  | .powerTransitionComplete => true
  | .selfRefreshIdle u => u.toNat < 14
  | .powerSample _ => true
  | .powerThrottleStep _ => true
  | .thermalStep _ => true
  | .thermalStop _ => true
  | .thermalRestart _ => true
  | .hostLinkDown => true
  | .hostLinkUp => true
  | .pmcsrWrite _ => true
  | .launchSubmit _ _ => true
  | .hostQueueAccept _ => true
  | .cqcreate _ => true
  | .cqdestroy src => src.toNat ≤ 256
  | .objcreate src _ _ => src.toNat ≤ 256
  | .objdelete src => src.toNat ≤ 256 || src.toNat = 511
  | .objdeleteComplete _ => true
  | .objwrite src _ => src.toNat ≤ 256
  | .objread src _ => src.toNat ≤ 256
  | .objmove src _ => src.toNat ≤ 256 || src.toNat = 511
  | .flashreg src _ _ => src.toNat ≤ 256
  | .objquery src _ => src.toNat ≤ 256
  | .slotbind src => src.toNat ≤ 256
  | .gang src _ _ => src.toNat ≤ 256
  | .cqheadWrite _ _ => true
  | .cqtailRead _ => true
  | .completionModerationTimer _ => true
  | .errstatClear _ => true
  | .pwrstatClear _ => true
  | .tetherstatClear _ => true
  | .plstatClear n _ => n.toNat < 18
  | .slstatClear n _ => n.toNat < 192
  | .tetherctlWrite _ => true
  | .plctlDisable n => n.toNat < 18
  | .plctlEnable n => n.toNat < 18
  | .stepCounterWrite _ inst _ => inst.toNat < 640
  | .fqheadWrite _ => true
  | .fanswerResume core _ => core.toNat < 320
  | .fanswerSkip core _ => core.toNat < 320
  | .fanswerReplay core _ => core.toNat < 320
  | .fanswerKill core _ _ => core.toNat < 320
  | .registerWrite _ _ _ _ => true
  | .cxlPortDown _ _ => true
  | .cxlPortUp _ => true
  | .cxlDownTimeout _ => true
  | .cxlExtentAdd _ _ _ => true
  | .cxlExtentRelease _ _ => true
  | .nvmeCompletion _ _ => true
  | .nvmeTimeout _ _ => true
  | .peerPortTrained p _ => p.toNat < 18
  | .idle p _ _ => p.toNat < 18
  | .rdreq p _ _ _ => p.toNat < 18
  | .rdrsp p _ _ _ data => p.toNat < 18 && data.length ≤ 112
  | .wrreq p _ _ _ => p.toNat < 18
  | .wrack p _ _ _ => p.toNat < 18
  | .atreq p _ _ _ => p.toNat < 18
  | .atrsp p _ _ _ _ _ => p.toNat < 18
  | .xfer p _ _ data => p.toNat < 18 && data.2.length == 120
  | .tsync p _ _ _ _ => p.toNat < 18
  | .tsyncTimer => true
  | .lctlNak p _ _ _ => p.toNat < 18
  | .lctlCredit p _ _ _ n => p.toNat < 18 && n.toNat ≤ 256
  | .portRxTimeout p => p.toNat < 18
  | .requestTimeout _ => true
  | .gangPrepare p _ _ _ lr => p.toNat < 18 && lr.length == 8
  | .gangPrepared p _ _ _ => p.toNat < 18
  | .gangRefused p _ _ _ _ => p.toNat < 18
  | .gangCommit p _ _ _ _ => p.toNat < 18
  | .gangAbort p _ _ _ => p.toNat < 18
  | .gangAlive p _ _ _ => p.toNat < 18
  | .gangDone p _ _ _ _ _ _ => p.toNat < 18
  | .gangPrepareDeadline _ => true
  | .gangStartT _ _ => true
  | .gangCommitWaitTimeout _ _ => true
  | .gangAliveTimer => true
  | .gangMemberSilent _ _ => true
  | .gangCoordinatorSilent _ _ => true
  | .gangAbortCollect _ _ => true
  | .hopplanSendSlot core => core.toNat < 320
  | .hopplanRecvStep core => core.toNat < 320
  | .hopplanRecvDeadline core => core.toNat < 320
  | .objectCacheFill unit _ => unit.toNat ≤ 40
  | .pageWalkComplete unit _ => unit.toNat ≤ 40
  | .memoryRequestComplete _ _ => true
  | .sliceStrongAccess _ => true
  | .migrationBusyZero _ => true
  | .migrationCopyDone _ => true
  | .eviction _ _ => true
  | .accessBitSample => true
  | .memoryScrub slice => slice.toNat < 192
  | .handoverKeyxferAnswer _ _ => true
  | .handoverDataok _ => true
  | .handoverRebind _ _ _ => true
  | .handoverConfirm _ => true
  | .handoverStepTimeout _ => true
  | .handoverTimeout _ => true
  | .attest => true
  | .wcreate => true
  | .wdestroy => true
  | .keygen => true
  | .certset => true
  | .keyxfer => true
  | .securityLockstepMismatch => true
  | .dependenceDecrement _ => true
  | .paramImageLoaded _ _ => true
  | .stepDispatch core _ => core.toNat < 320
  | .agingStep _ => true
  | .preemptGrace _ => true
  | .preemptDiscardDone core => core.toNat < 320
  | .gatherRelease => true
  | .pipelineGathered => true
  | .localGangGathered _ => true
  | .pipelineRebalance _ => true
  | .taskEnd _ => true
  | .parkedStepResume core _ => core.toNat < 320
  | .cascArrival _ => true
  | .spoutGrant slice => slice.toNat < 192
  | .cascHoldTimeout slice => slice.toNat < 192
  | .spoutLaunchTaken slice => slice.toNat < 192
  | .spoutNoRecord slice => slice.toNat < 192
  | .chainMessageStart _ _ => true
  | .chainStageFault _ => true
  | .batchDeliver _ => true
  | .consumerGone _ _ => true
  | .engineCommandIssue core _ => core.toNat < 320
  | .engineCommandRetire core _ _ _ => core.toNat < 320
  | .sfuWriteback core => core.toNat < 320
  | .stepBoundaryRelease core _ => core.toNat < 320
  | .tokenStall core => core.toNat < 320
  | .faultFrameWrite core _ _ _ _ _ _ => core.toNat < 320
  | .ueEngine core _ => core.toNat < 320
  | .ueMem core _ => core.toNat < 320
  | .ueBasin core _ => core.toNat < 320
  | .ueCacheEntry _ _ _ => true
  | .ueSliceBuffer slice _ => slice.toNat < 192
  | .pubEffect _ => true
  | .draftOpen _ => true
  | .spawnArrival _ => true
  | .nearbankStart core _ _ => core.toNat < 320
  | .nearbankComplete core _ _ => core.toNat < 320
  | .seqCommandExecute core _ _ => core.toNat < 320
  | .attnRequestStart cluster _ => cluster.toNat < 40
  | .pinReleaseFree _ _ => true
  | .ringTransfer core _ => core.toNat < 320
  | .tetherMsTick => true
  | .commandSlotSubmit _ _ => true
  | .xsyncWaitRelease core _ => core.toNat < 320

end Sys2Proof
end

