-- ==== Sys2Proof/Decode.lean ====
section
/-!
DEFINITION. The decoder, from words to an instruction or a named rejection, and the encoder.

An instruction is cut into segments from bit 0 of its first word upwards (R281, R283): LEN, OP, the fields of its
entry, and the reserved bits between them. One row per operation and length lists the widths of its segments and
the segments whose value is fixed. Decode maps (R285) are applied before, by the fetch of Machine/Step.lean.
-/

namespace Sys2Proof

/-- Why a word sequence is no instruction (Table 12-6 rows 1 to 5). All of them raise ILLEGAL_OP. -/
inductive DecodeError where
  | padWord
  | unmapped (op : Nat)
  | badLength (op words : Nat)
  | reservedBits (op : Nat)
  | reservedCode
deriving DecidableEq, Repr, Inhabited

namespace Decode

/-- The segments of x, from bit 0 upwards. -/
def unpack : List Nat → Nat → List Nat
  | [], _ => []
  | w :: ws, x => x % 2 ^ w :: unpack ws (x / 2 ^ w)

/-- The number whose segments, from bit 0 upwards, have these widths and values. -/
def pack : List (Nat × Nat) → Nat
  | [] => 0
  | (w, v) :: rest => v % 2 ^ w + 2 ^ w * pack rest

/-- The value of segment k as an n-bit field. -/
def at_ {n : Nat} (v : List Nat) (k : Nat) : BitVec n := BitVec.ofNat n (v.getD k 0)

/-- One operation at one length: opcode, words, segment widths, fixed segments, and the instruction. -/
structure Row where
  op : Nat
  words : Nat
  widths : List Nat
  fixed : List (Nat × Nat)
  build : List Nat → Instr

/-- The fixed and reserved segments have the values the row gives. -/
def Row.fits (r : Row) (x : Nat) : Bool :=
  let v := unpack r.widths x
  r.fixed.all fun f => v.getD f.1 0 == f.2

def rows0 : List Row := [
  ⟨0x001, 1, [2, 10, 4, 1, 5, 5, 5], [(3, 0)], fun v => .add (at_ v 2) (at_ v 6) (at_ v 5) (at_ v 4)⟩,
  ⟨0x003, 1, [2, 10, 4, 1, 5, 5, 5], [(3, 0)], fun v => .sub (at_ v 2) (at_ v 6) (at_ v 5) (at_ v 4)⟩,
  ⟨0x004, 1, [2, 10, 4, 1, 5, 5, 5], [(3, 0)], fun v => .mul (at_ v 2) (at_ v 6) (at_ v 5) (at_ v 4)⟩,
  ⟨0x005, 1, [2, 10, 4, 1, 5, 5, 5], [(3, 0)], fun v => .mulh (at_ v 2) (at_ v 6) (at_ v 5) (at_ v 4)⟩,
  ⟨0x006, 1, [2, 10, 4, 1, 5, 5, 5], [(3, 0)], fun v => .mulhz (at_ v 2) (at_ v 6) (at_ v 5) (at_ v 4)⟩,
  ⟨0x007, 1, [2, 10, 4, 1, 5, 5, 5], [(3, 0)], fun v => .div (at_ v 2) (at_ v 6) (at_ v 5) (at_ v 4)⟩,
  ⟨0x008, 1, [2, 10, 4, 1, 5, 5, 5], [(3, 0)], fun v => .divz (at_ v 2) (at_ v 6) (at_ v 5) (at_ v 4)⟩,
  ⟨0x009, 1, [2, 10, 4, 1, 5, 5, 5], [(3, 0)], fun v => .rem (at_ v 2) (at_ v 6) (at_ v 5) (at_ v 4)⟩,
  ⟨0x00A, 1, [2, 10, 4, 1, 5, 5, 5], [(3, 0)], fun v => .remz (at_ v 2) (at_ v 6) (at_ v 5) (at_ v 4)⟩,
  ⟨0x00B, 1, [2, 10, 4, 1, 5, 5, 5], [(3, 0)], fun v => .and (at_ v 2) (at_ v 6) (at_ v 5) (at_ v 4)⟩,
  ⟨0x00D, 1, [2, 10, 4, 1, 5, 5, 5], [(3, 0)], fun v => .or (at_ v 2) (at_ v 6) (at_ v 5) (at_ v 4)⟩,
  ⟨0x00F, 1, [2, 10, 4, 1, 5, 5, 5], [(3, 0)], fun v => .xor (at_ v 2) (at_ v 6) (at_ v 5) (at_ v 4)⟩,
  ⟨0x011, 1, [2, 10, 4, 1, 5, 5, 5], [(3, 0)], fun v => .andn (at_ v 2) (at_ v 6) (at_ v 5) (at_ v 4)⟩,
  ⟨0x012, 1, [2, 10, 4, 1, 5, 5, 5], [(3, 0)], fun v => .shl (at_ v 2) (at_ v 6) (at_ v 5) (at_ v 4)⟩,
  ⟨0x014, 1, [2, 10, 4, 1, 5, 5, 5], [(3, 0)], fun v => .shr (at_ v 2) (at_ v 6) (at_ v 5) (at_ v 4)⟩,
  ⟨0x016, 1, [2, 10, 4, 1, 5, 5, 5], [(3, 0)], fun v => .sar (at_ v 2) (at_ v 6) (at_ v 5) (at_ v 4)⟩,
  ⟨0x018, 1, [2, 10, 4, 1, 5, 5, 5], [(3, 0)], fun v => .rotl (at_ v 2) (at_ v 6) (at_ v 5) (at_ v 4)⟩,
  ⟨0x019, 1, [2, 10, 4, 1, 5, 5, 5], [(3, 0)], fun v => .min (at_ v 2) (at_ v 6) (at_ v 5) (at_ v 4)⟩,
  ⟨0x01A, 1, [2, 10, 4, 1, 5, 5, 5], [(3, 0)], fun v => .minz (at_ v 2) (at_ v 6) (at_ v 5) (at_ v 4)⟩,
  ⟨0x01B, 1, [2, 10, 4, 1, 5, 5, 5], [(3, 0)], fun v => .max (at_ v 2) (at_ v 6) (at_ v 5) (at_ v 4)⟩,
  ⟨0x01C, 1, [2, 10, 4, 1, 5, 5, 5], [(3, 0)], fun v => .maxz (at_ v 2) (at_ v 6) (at_ v 5) (at_ v 4)⟩,
  ⟨0x01D, 1, [2, 10, 4, 6, 5, 5], [(3, 0)], fun v => .clz (at_ v 2) (at_ v 5) (at_ v 4)⟩,
  ⟨0x01E, 1, [2, 10, 4, 6, 5, 5], [(3, 0)], fun v => .ctz (at_ v 2) (at_ v 5) (at_ v 4)⟩,
  ⟨0x01F, 1, [2, 10, 4, 6, 5, 5], [(3, 0)], fun v => .popc (at_ v 2) (at_ v 5) (at_ v 4)⟩,
  ⟨0x020, 1, [2, 10, 4, 6, 5, 5], [(3, 0)], fun v => .bswap (at_ v 2) (at_ v 5) (at_ v 4)⟩]

def rows1 : List Row := [
  ⟨0x021, 1, [2, 10, 4, 1, 5, 5, 5], [(3, 0)], fun v => .sext (at_ v 2) (at_ v 6) (at_ v 5) (at_ v 4)⟩,
  ⟨0x022, 1, [2, 10, 4, 1, 5, 5, 5], [(3, 0)], fun v => .zext (at_ v 2) (at_ v 6) (at_ v 5) (at_ v 4)⟩,
  ⟨0x025, 1, [2, 10, 4, 2, 2, 2, 5, 5], [(3, 0)], fun v => .mov (at_ v 2) (at_ v 7) (at_ v 6) (at_ v 5) (at_ v 4)⟩,
  ⟨0x02A, 1, [2, 10, 4, 1, 3, 2, 3, 2, 3, 2], [(3, 0), (5, 0), (7, 0), (9, 0)], fun v => .pand (at_ v 2) (at_ v 8) (at_ v 6) (at_ v 4)⟩,
  ⟨0x02B, 1, [2, 10, 4, 1, 3, 2, 3, 2, 3, 2], [(3, 0), (5, 0), (7, 0), (9, 0)], fun v => .por (at_ v 2) (at_ v 8) (at_ v 6) (at_ v 4)⟩,
  ⟨0x02C, 1, [2, 10, 4, 1, 3, 2, 3, 2, 3, 2], [(3, 0), (5, 0), (7, 0), (9, 0)], fun v => .pxor (at_ v 2) (at_ v 8) (at_ v 6) (at_ v 4)⟩,
  ⟨0x02D, 1, [2, 10, 4, 6, 3, 2, 3, 2], [(3, 0), (5, 0), (7, 0)], fun v => .pnot (at_ v 2) (at_ v 6) (at_ v 4)⟩,
  ⟨0x002, 2, [2, 10, 4, 2, 4, 5, 5, 32], [(4, 0)], fun v => .addi (at_ v 2) (at_ v 6) (at_ v 5) (at_ v 3) (at_ v 7)⟩,
  ⟨0x00C, 2, [2, 10, 4, 6, 5, 5, 32], [(3, 0)], fun v => .andi (at_ v 2) (at_ v 5) (at_ v 4) (at_ v 6)⟩,
  ⟨0x00E, 2, [2, 10, 4, 6, 5, 5, 32], [(3, 0)], fun v => .ori (at_ v 2) (at_ v 5) (at_ v 4) (at_ v 6)⟩,
  ⟨0x010, 2, [2, 10, 4, 6, 5, 5, 32], [(3, 0)], fun v => .xori (at_ v 2) (at_ v 5) (at_ v 4) (at_ v 6)⟩,
  ⟨0x013, 2, [2, 10, 4, 6, 5, 5, 6, 26], [(3, 0), (7, 0)], fun v => .shli (at_ v 2) (at_ v 5) (at_ v 4) (at_ v 6)⟩,
  ⟨0x015, 2, [2, 10, 4, 6, 5, 5, 6, 26], [(3, 0), (7, 0)], fun v => .shri (at_ v 2) (at_ v 5) (at_ v 4) (at_ v 6)⟩,
  ⟨0x017, 2, [2, 10, 4, 6, 5, 5, 6, 26], [(3, 0), (7, 0)], fun v => .sari (at_ v 2) (at_ v 5) (at_ v 4) (at_ v 6)⟩,
  ⟨0x023, 2, [2, 10, 4, 1, 5, 5, 5, 6, 2, 6, 18], [(4, 0), (8, 0), (10, 0)], fun v => .bfx (at_ v 2) (at_ v 6) (at_ v 5) (at_ v 3) (at_ v 7) (at_ v 9)⟩,
  ⟨0x024, 2, [2, 10, 4, 6, 5, 5, 6, 2, 6, 18], [(3, 0), (7, 0), (9, 0)], fun v => .bfi (at_ v 2) (at_ v 5) (at_ v 4) (at_ v 6) (at_ v 8)⟩,
  ⟨0x026, 2, [2, 10, 4, 11, 5, 32], [(3, 0)], fun v => .movi64 (at_ v 2) (at_ v 4) (at_ v 5)⟩,
  ⟨0x026, 3, [2, 10, 4, 11, 5, 32, 32], [(3, 0)], fun v => .movi96 (at_ v 2) (at_ v 4) (at_ v 5) (at_ v 6)⟩,
  ⟨0x027, 2, [2, 10, 4, 6, 5, 5, 32], [(3, 0)], fun v => .movhi (at_ v 2) (at_ v 5) (at_ v 4) (at_ v 6)⟩,
  ⟨0x028, 2, [2, 10, 4, 3, 3, 5, 5, 5, 27], [(4, 0), (8, 0)], fun v => .sel (at_ v 2) (at_ v 6) (at_ v 5) (at_ v 3) (at_ v 7)⟩,
  ⟨0x029, 2, [2, 10, 4, 4, 1, 1, 5, 3, 2, 32], [(4, 0), (8, 0)], fun v => .cmp (at_ v 2) (at_ v 7) (at_ v 6) (at_ v 3) (at_ v 5) (at_ v 9)⟩,
  ⟨0x040, 2, [2, 10, 4, 2, 4, 5, 5, 5, 3, 24], [(4, 0), (9, 0)], fun v => .fadd (at_ v 2) (at_ v 6) (at_ v 5) (at_ v 3) (at_ v 7) (at_ v 8)⟩,
  ⟨0x041, 2, [2, 10, 4, 2, 4, 5, 5, 5, 3, 24], [(4, 0), (9, 0)], fun v => .fsub (at_ v 2) (at_ v 6) (at_ v 5) (at_ v 3) (at_ v 7) (at_ v 8)⟩,
  ⟨0x042, 2, [2, 10, 4, 2, 4, 5, 5, 5, 3, 24], [(4, 0), (9, 0)], fun v => .fmul (at_ v 2) (at_ v 6) (at_ v 5) (at_ v 3) (at_ v 7) (at_ v 8)⟩,
  ⟨0x044, 2, [2, 10, 4, 2, 4, 5, 5, 5, 3, 24], [(4, 0), (9, 0)], fun v => .fdiv (at_ v 2) (at_ v 6) (at_ v 5) (at_ v 3) (at_ v 7) (at_ v 8)⟩]

def rows2 : List Row := [
  ⟨0x043, 2, [2, 10, 4, 2, 4, 5, 5, 5, 3, 5, 19], [(4, 0), (10, 0)], fun v => .ffma (at_ v 2) (at_ v 6) (at_ v 5) (at_ v 3) (at_ v 7) (at_ v 8) (at_ v 9)⟩,
  ⟨0x045, 2, [2, 10, 4, 2, 4, 5, 5, 5, 3, 24], [(4, 0), (7, 0), (9, 0)], fun v => .fsqrt (at_ v 2) (at_ v 6) (at_ v 5) (at_ v 3) (at_ v 8)⟩,
  ⟨0x046, 1, [2, 10, 4, 1, 5, 5, 5], [], fun v => .fmin (at_ v 2) (at_ v 6) (at_ v 5) (at_ v 4) (at_ v 3)⟩,
  ⟨0x047, 1, [2, 10, 4, 1, 5, 5, 5], [], fun v => .fmax (at_ v 2) (at_ v 6) (at_ v 5) (at_ v 4) (at_ v 3)⟩,
  ⟨0x04A, 1, [2, 10, 4, 1, 5, 5, 5], [(4, 0)], fun v => .fclass (at_ v 2) (at_ v 6) (at_ v 5) (at_ v 3)⟩,
  ⟨0x048, 2, [2, 10, 4, 2, 4, 5, 3, 2, 5, 27], [(7, 0), (9, 0)], fun v => .fcmp (at_ v 2) (at_ v 6) (at_ v 5) (at_ v 3) (at_ v 4) (at_ v 8)⟩,
  ⟨0x049, 2, [2, 10, 4, 6, 5, 5, 8, 8, 3, 1, 12], [(3, 0), (10, 0)], fun v => .fcvt (at_ v 2) (at_ v 5) (at_ v 4) (at_ v 6) (at_ v 7) (at_ v 8) (at_ v 9)⟩,
  ⟨0x060, 2, [2, 10, 4, 16, 4, 28], [(3, 0)], fun v => .br (at_ v 2) (at_ v 4) (at_ v 5)⟩,
  ⟨0x061, 2, [2, 10, 4, 1, 10, 3, 2, 4, 28], [(4, 0), (6, 0)], fun v => .brp (at_ v 2) (at_ v 5) (at_ v 3) (at_ v 7) (at_ v 8)⟩,
  ⟨0x062, 2, [2, 10, 4, 11, 5, 4, 28], [(3, 0)], fun v => .brz (at_ v 2) (at_ v 4) (at_ v 5) (at_ v 6)⟩,
  ⟨0x063, 2, [2, 10, 4, 11, 5, 4, 28], [(3, 0)], fun v => .brnz (at_ v 2) (at_ v 4) (at_ v 5) (at_ v 6)⟩,
  ⟨0x064, 2, [2, 10, 4, 16, 4, 28], [(3, 0)], fun v => .call (at_ v 2) (at_ v 4) (at_ v 5)⟩,
  ⟨0x065, 1, [2, 10, 4, 16], [(3, 0)], fun v => .ret (at_ v 2)⟩,
  ⟨0x066, 2, [2, 10, 4, 11, 2, 3, 4, 28], [(3, 0), (5, 0)], fun v => .loop (at_ v 2) (at_ v 4) (at_ v 6) (at_ v 7)⟩,
  ⟨0x067, 1, [2, 10, 4, 16], [(3, 0)], fun v => .nop (at_ v 2)⟩,
  ⟨0x068, 1, [2, 10, 4, 16], [], fun v => .hint (at_ v 2) (at_ v 3)⟩,
  ⟨0x070, 2, [2, 10, 4, 2, 1, 8, 5, 12, 20], [(5, 0), (8, 0)], fun v => .ldp (at_ v 2) (at_ v 6) (at_ v 3) (at_ v 4) (at_ v 7)⟩,
  ⟨0x071, 2, [2, 10, 4, 2, 1, 3, 3, 2, 5, 32], [(5, 0), (7, 0)], fun v => .lds (at_ v 2) (at_ v 8) (at_ v 6) (at_ v 3) (at_ v 4) (at_ v 9)⟩,
  ⟨0x072, 2, [2, 10, 4, 2, 4, 3, 2, 5, 32], [(4, 0), (6, 0)], fun v => .sts (at_ v 2) (at_ v 7) (at_ v 5) (at_ v 3) (at_ v 8)⟩,
  ⟨0x07F, 1, [2, 10, 4, 6, 4, 1, 4, 1], [(3, 0), (5, 0), (7, 0)], fun v => .dmov (at_ v 2) (at_ v 6) (at_ v 4)⟩,
  ⟨0x078, 2, [2, 10, 4, 1, 5, 5, 4, 1, 32], [(4, 0), (7, 0)], fun v => .hld (at_ v 2) (at_ v 6) (at_ v 5) (at_ v 3) (at_ v 8)⟩,
  ⟨0x079, 2, [2, 10, 4, 6, 4, 1, 5, 4, 28], [(3, 0), (5, 0), (8, 0)], fun v => .hqry (at_ v 2) (at_ v 6) (at_ v 4) (at_ v 7)⟩,
  ⟨0x07A, 3, [2, 10, 4, 6, 4, 1, 4, 1, 7, 1, 7, 1, 16, 32], [(3, 0), (5, 0), (7, 0), (9, 0), (11, 0)], fun v => .dset (at_ v 2) (at_ v 6) (at_ v 4) (at_ v 8) (at_ v 10) (at_ v 12) (at_ v 13)⟩,
  ⟨0x07B, 2, [2, 10, 4, 2, 1, 3, 5, 4, 1, 32], [(5, 0), (8, 0)], fun v => .didx (at_ v 2) (at_ v 7) (at_ v 6) (at_ v 3) (at_ v 4) (at_ v 9)⟩,
  ⟨0x07C, 2, [2, 10, 4, 2, 1, 3, 5, 4, 1, 32], [(5, 0), (8, 0)], fun v => .dadd (at_ v 2) (at_ v 7) (at_ v 6) (at_ v 3) (at_ v 4) (at_ v 9)⟩]

def rows3 : List Row := [
  ⟨0x07D, 2, [2, 10, 4, 11, 4, 1, 7, 1, 7, 17], [(3, 0), (5, 0), (7, 0), (9, 0)], fun v => .dshp (at_ v 2) (at_ v 4) (at_ v 6) (at_ v 8)⟩,
  ⟨0x07E, 3, [2, 10, 4, 1, 10, 4, 1, 32, 32], [(4, 0), (6, 0)], fun v => .dpad (at_ v 2) (at_ v 5) (at_ v 3) (at_ v 7) (at_ v 8)⟩,
  ⟨0x100, 2, [2, 10, 4, 4, 2, 5, 5, 3, 29], [(8, 0)], fun v => .lde (at_ v 2) (at_ v 6) (at_ v 5) (at_ v 3) (at_ v 4) (at_ v 7)⟩,
  ⟨0x101, 2, [2, 10, 4, 4, 2, 5, 5, 32], [(7, 0)], fun v => .ste (at_ v 2) (at_ v 6) (at_ v 5) (at_ v 3) (at_ v 4)⟩,
  ⟨0x102, 2, [2, 10, 4, 4, 1, 1, 5, 5, 5, 4, 23], [(5, 0), (10, 0)], fun v => .atom (at_ v 2) (at_ v 7) (at_ v 6) (at_ v 3) (at_ v 4) (at_ v 8) (at_ v 9)⟩,
  ⟨0x104, 2, [2, 10, 4, 4, 2, 5, 5, 5, 2, 25], [(4, 0), (9, 0)], fun v => .fatom (at_ v 2) (at_ v 6) (at_ v 5) (at_ v 3) (at_ v 7) (at_ v 8)⟩,
  ⟨0x105, 2, [2, 10, 4, 4, 1, 1, 5, 5, 5, 4, 1, 22], [(5, 0), (8, 0), (11, 0)], fun v => .atomnr (at_ v 2) (at_ v 7) (at_ v 6) (at_ v 3) (at_ v 4) (at_ v 9) (at_ v 10)⟩,
  ⟨0x103, 3, [2, 10, 4, 4, 1, 1, 5, 5, 5, 5, 22, 3, 29], [(5, 0), (10, 0), (12, 0)], fun v => .cas (at_ v 2) (at_ v 7) (at_ v 6) (at_ v 3) (at_ v 4) (at_ v 8) (at_ v 9) (at_ v 11)⟩,
  ⟨0x106, 3, [2, 10, 4, 4, 1, 1, 5, 5, 5, 5, 22, 4, 5, 23], [(5, 0), (10, 0), (13, 0)], fun v => .casc (at_ v 2) (at_ v 7) (at_ v 6) (at_ v 3) (at_ v 4) (at_ v 8) (at_ v 9) (at_ v 11) (at_ v 12)⟩,
  ⟨0x110, 2, [2, 10, 4, 11, 1, 4, 22, 4, 3, 3], [(6, 0)], fun v => .ldt (at_ v 2) (at_ v 5) (at_ v 3) (at_ v 4) (at_ v 7) (at_ v 8) (at_ v 9)⟩,
  ⟨0x111, 2, [2, 10, 4, 11, 1, 4, 22, 4, 3, 1, 2], [(6, 0), (10, 0)], fun v => .stt (at_ v 2) (at_ v 5) (at_ v 3) (at_ v 4) (at_ v 7) (at_ v 8) (at_ v 9)⟩,
  ⟨0x112, 2, [2, 10, 4, 12, 4, 22, 4, 3, 3], [(3, 0), (5, 0), (7, 0)], fun v => .pft (at_ v 2) (at_ v 4) (at_ v 6) (at_ v 8)⟩,
  ⟨0x118, 2, [2, 10, 4, 4, 1, 7, 4, 32], [(5, 0), (7, 0)], fun v => .bmap (at_ v 2) (at_ v 6) (at_ v 3) (at_ v 4)⟩,
  ⟨0x119, 2, [2, 10, 4, 4, 1, 7, 4, 32], [(5, 0), (7, 0)], fun v => .bflush (at_ v 2) (at_ v 6) (at_ v 3) (at_ v 4)⟩,
  ⟨0x11A, 2, [2, 10, 4, 4, 1, 7, 4, 32], [(5, 0), (7, 0)], fun v => .bdrop (at_ v 2) (at_ v 6) (at_ v 3) (at_ v 4)⟩,
  ⟨0x120, 2, [2, 10, 4, 4, 44], [(4, 0)], fun v => .openv (at_ v 2) (at_ v 3)⟩,
  ⟨0x121, 2, [2, 10, 4, 4, 44], [(4, 0)], fun v => .pub (at_ v 2) (at_ v 3)⟩,
  ⟨0x122, 2, [2, 10, 4, 4, 2, 5, 5, 32], [(4, 0), (7, 0)], fun v => .subv (at_ v 2) (at_ v 6) (at_ v 5) (at_ v 3)⟩,
  ⟨0x123, 2, [2, 10, 4, 4, 2, 5, 5, 32], [(4, 0), (7, 0)], fun v => .pinv (at_ v 2) (at_ v 6) (at_ v 5) (at_ v 3)⟩,
  ⟨0x124, 2, [2, 10, 4, 4, 44], [(4, 0)], fun v => .unpv (at_ v 2) (at_ v 3)⟩,
  ⟨0x125, 2, [2, 10, 4, 4, 7, 5, 32], [(4, 0), (6, 0)], fun v => .verq (at_ v 2) (at_ v 5) (at_ v 3)⟩,
  ⟨0x128, 1, [2, 10, 4, 8, 8], [], fun v => .fenceP (at_ v 2) (at_ v 3) (at_ v 4)⟩,
  ⟨0x130, 3, [2, 10, 4, 4, 4, 3, 1, 4, 32, 32], [(4, 0), (6, 0)], fun v => .nbfill (at_ v 2) (at_ v 7) (at_ v 3) (at_ v 5) (at_ v 8) (at_ v 9)⟩,
  ⟨0x131, 3, [2, 10, 4, 4, 4, 3, 1, 4, 64], [(6, 0), (8, 0)], fun v => .nbcopy (at_ v 2) (at_ v 7) (at_ v 3) (at_ v 4) (at_ v 5)⟩,
  ⟨0x132, 3, [2, 10, 4, 4, 4, 3, 1, 4, 32, 3, 1, 28], [(6, 0), (11, 0)], fun v => .nbaxpy (at_ v 2) (at_ v 7) (at_ v 3) (at_ v 4) (at_ v 5) (at_ v 8) (at_ v 9) (at_ v 10)⟩]

def rows4 : List Row := [
  ⟨0x133, 3, [2, 10, 4, 4, 4, 3, 1, 4, 32, 3, 1, 28], [(4, 0), (6, 0), (11, 0)], fun v => .nbscale (at_ v 2) (at_ v 7) (at_ v 3) (at_ v 5) (at_ v 8) (at_ v 9) (at_ v 10)⟩,
  ⟨0x134, 3, [2, 10, 4, 4, 4, 3, 1, 4, 64], [(6, 0), (8, 0)], fun v => .nbrelay (at_ v 2) (at_ v 7) (at_ v 3) (at_ v 4) (at_ v 5)⟩,
  ⟨0x135, 3, [2, 10, 4, 4, 4, 3, 1, 4, 64], [(4, 0), (6, 0), (8, 0)], fun v => .rrzero (at_ v 2) (at_ v 7) (at_ v 3) (at_ v 5)⟩,
  ⟨0x136, 3, [2, 10, 4, 4, 4, 3, 1, 4, 64], [(6, 0), (8, 0)], fun v => .rrcopy (at_ v 2) (at_ v 7) (at_ v 3) (at_ v 4) (at_ v 5)⟩,
  ⟨0x180, 2, [2, 10, 4, 11, 5, 32], [(3, 0), (5, 0)], fun v => .fmtqReg (at_ v 2) (at_ v 4)⟩,
  ⟨0x180, 3, [2, 10, 4, 16, 32, 32], [(3, 0)], fun v => .fmtqImm (at_ v 2) (at_ v 4) (at_ v 5)⟩,
  ⟨0x181, 2, [2, 10, 4, 12, 4, 11, 11, 3, 1, 6], [(3, 0)], fun v => .mma64 (at_ v 2) (at_ v 4) (at_ v 5) (at_ v 6) (at_ v 7) (at_ v 8) (at_ v 9)⟩,
  ⟨0x181, 3, [2, 10, 4, 12, 4, 11, 11, 3, 1, 6, 11, 2, 2, 4, 4, 9], [(3, 0), (10, 0), (15, 0)], fun v => .mma96 (at_ v 2) (at_ v 4) (at_ v 5) (at_ v 6) (at_ v 7) (at_ v 8) (at_ v 9) (at_ v 11) (at_ v 12) (at_ v 13) (at_ v 14)⟩,
  ⟨0x182, 2, [2, 10, 4, 12, 4, 11, 11, 3, 1, 6], [(3, 0)], fun v => .mmam64 (at_ v 2) (at_ v 4) (at_ v 5) (at_ v 6) (at_ v 7) (at_ v 8) (at_ v 9)⟩,
  ⟨0x182, 3, [2, 10, 4, 12, 4, 11, 11, 3, 1, 6, 11, 2, 2, 4, 4, 9], [(3, 0), (10, 0), (15, 0)], fun v => .mmam96 (at_ v 2) (at_ v 4) (at_ v 5) (at_ v 6) (at_ v 7) (at_ v 8) (at_ v 9) (at_ v 11) (at_ v 12) (at_ v 13) (at_ v 14)⟩,
  ⟨0x183, 1, [2, 10, 4, 3, 9, 4], [(4, 0)], fun v => .mzero (at_ v 2) (at_ v 5) (at_ v 3)⟩,
  ⟨0x184, 2, [2, 10, 4, 11, 1, 4, 22, 3, 2, 2, 3], [(4, 0), (6, 0), (10, 0)], fun v => .mrd (at_ v 2) (at_ v 5) (at_ v 3) (at_ v 7) (at_ v 8) (at_ v 9)⟩,
  ⟨0x185, 2, [2, 10, 4, 12, 4, 11, 11, 3, 2, 2, 3], [(3, 0), (6, 0), (10, 0)], fun v => .mwr (at_ v 2) (at_ v 4) (at_ v 5) (at_ v 7) (at_ v 8) (at_ v 9)⟩,
  ⟨0x186, 2, [2, 10, 4, 12, 4, 11, 11, 3, 1, 1, 5], [(3, 0), (6, 0), (10, 0)], fun v => .mred (at_ v 2) (at_ v 4) (at_ v 5) (at_ v 7) (at_ v 8) (at_ v 9)⟩,
  ⟨0x187, 2, [2, 10, 4, 12, 4, 11, 11, 3, 1, 1, 1, 4], [(3, 0), (6, 0), (11, 0)], fun v => .mscan (at_ v 2) (at_ v 4) (at_ v 5) (at_ v 7) (at_ v 8) (at_ v 9) (at_ v 10)⟩,
  ⟨0x188, 2, [2, 10, 4, 12, 4, 11, 11, 3, 7], [(3, 0), (6, 0), (8, 0)], fun v => .mtrn (at_ v 2) (at_ v 4) (at_ v 5) (at_ v 7)⟩,
  ⟨0x200, 2, [2, 10, 4, 11, 1, 4, 11, 11, 4, 2, 3, 1], [], fun v => .vadd (at_ v 2) (at_ v 5) (at_ v 3) (at_ v 4) (at_ v 6) (at_ v 7) (at_ v 8) (at_ v 9) (at_ v 10) (at_ v 11)⟩,
  ⟨0x201, 2, [2, 10, 4, 11, 1, 4, 11, 11, 4, 2, 3, 1], [], fun v => .vsub (at_ v 2) (at_ v 5) (at_ v 3) (at_ v 4) (at_ v 6) (at_ v 7) (at_ v 8) (at_ v 9) (at_ v 10) (at_ v 11)⟩,
  ⟨0x202, 2, [2, 10, 4, 11, 1, 4, 11, 11, 4, 2, 3, 1], [], fun v => .vmul (at_ v 2) (at_ v 5) (at_ v 3) (at_ v 4) (at_ v 6) (at_ v 7) (at_ v 8) (at_ v 9) (at_ v 10) (at_ v 11)⟩,
  ⟨0x203, 3, [2, 10, 4, 11, 1, 4, 11, 11, 4, 2, 3, 1, 11, 21], [(13, 0)], fun v => .vfma (at_ v 2) (at_ v 5) (at_ v 3) (at_ v 4) (at_ v 6) (at_ v 7) (at_ v 8) (at_ v 9) (at_ v 10) (at_ v 11) (at_ v 12)⟩,
  ⟨0x204, 3, [2, 10, 4, 11, 1, 4, 11, 11, 4, 2, 3, 1, 11, 21], [(13, 0)], fun v => .vfms (at_ v 2) (at_ v 5) (at_ v 3) (at_ v 4) (at_ v 6) (at_ v 7) (at_ v 8) (at_ v 9) (at_ v 10) (at_ v 11) (at_ v 12)⟩,
  ⟨0x205, 2, [2, 10, 4, 11, 1, 4, 11, 11, 4, 2, 3, 1], [(10, 0)], fun v => .vmin (at_ v 2) (at_ v 5) (at_ v 3) (at_ v 4) (at_ v 6) (at_ v 7) (at_ v 8) (at_ v 9) (at_ v 11)⟩,
  ⟨0x206, 2, [2, 10, 4, 11, 1, 4, 11, 11, 4, 2, 3, 1], [(10, 0)], fun v => .vmax (at_ v 2) (at_ v 5) (at_ v 3) (at_ v 4) (at_ v 6) (at_ v 7) (at_ v 8) (at_ v 9) (at_ v 11)⟩,
  ⟨0x207, 2, [2, 10, 4, 11, 1, 4, 11, 11, 4, 2, 3, 1], [(4, 0), (7, 0), (10, 0)], fun v => .vabs (at_ v 2) (at_ v 5) (at_ v 3) (at_ v 6) (at_ v 8) (at_ v 9) (at_ v 11)⟩,
  ⟨0x208, 2, [2, 10, 4, 11, 1, 4, 11, 11, 4, 2, 3, 1], [(4, 0), (7, 0), (10, 0)], fun v => .vneg (at_ v 2) (at_ v 5) (at_ v 3) (at_ v 6) (at_ v 8) (at_ v 9) (at_ v 11)⟩]

def rows5 : List Row := [
  ⟨0x209, 3, [2, 10, 4, 11, 1, 4, 11, 11, 4, 2, 3, 1, 11, 21], [(4, 0), (10, 0), (13, 0)], fun v => .vclamp (at_ v 2) (at_ v 5) (at_ v 3) (at_ v 6) (at_ v 7) (at_ v 8) (at_ v 9) (at_ v 11) (at_ v 12)⟩,
  ⟨0x20A, 2, [2, 10, 4, 11, 1, 4, 11, 8, 3, 8, 1, 1], [(4, 0), (11, 0)], fun v => .vcvt (at_ v 2) (at_ v 5) (at_ v 3) (at_ v 6) (at_ v 7) (at_ v 8) (at_ v 9) (at_ v 10)⟩,
  ⟨0x20B, 2, [2, 10, 4, 11, 1, 4, 11, 11, 4, 2, 4], [(10, 0)], fun v => .vand (at_ v 2) (at_ v 5) (at_ v 3) (at_ v 4) (at_ v 6) (at_ v 7) (at_ v 8) (at_ v 9)⟩,
  ⟨0x20C, 2, [2, 10, 4, 11, 1, 4, 11, 11, 4, 2, 4], [(10, 0)], fun v => .vor (at_ v 2) (at_ v 5) (at_ v 3) (at_ v 4) (at_ v 6) (at_ v 7) (at_ v 8) (at_ v 9)⟩,
  ⟨0x20D, 2, [2, 10, 4, 11, 1, 4, 11, 11, 4, 2, 4], [(10, 0)], fun v => .vxor (at_ v 2) (at_ v 5) (at_ v 3) (at_ v 4) (at_ v 6) (at_ v 7) (at_ v 8) (at_ v 9)⟩,
  ⟨0x20E, 2, [2, 10, 4, 11, 1, 4, 11, 11, 4, 2, 4], [(4, 0), (7, 0), (10, 0)], fun v => .vnot (at_ v 2) (at_ v 5) (at_ v 3) (at_ v 6) (at_ v 8) (at_ v 9)⟩,
  ⟨0x20F, 2, [2, 10, 4, 11, 1, 4, 11, 11, 4, 2, 4], [(10, 0)], fun v => .vshl (at_ v 2) (at_ v 5) (at_ v 3) (at_ v 4) (at_ v 6) (at_ v 7) (at_ v 8) (at_ v 9)⟩,
  ⟨0x210, 2, [2, 10, 4, 11, 1, 4, 11, 11, 4, 2, 4], [(10, 0)], fun v => .vshr (at_ v 2) (at_ v 5) (at_ v 3) (at_ v 4) (at_ v 6) (at_ v 7) (at_ v 8) (at_ v 9)⟩,
  ⟨0x211, 2, [2, 10, 4, 11, 1, 4, 11, 11, 4, 2, 4], [(10, 0)], fun v => .vsar (at_ v 2) (at_ v 5) (at_ v 3) (at_ v 4) (at_ v 6) (at_ v 7) (at_ v 8) (at_ v 9)⟩,
  ⟨0x212, 2, [2, 10, 4, 11, 1, 4, 11, 11, 4, 2, 3, 1], [(11, 0)], fun v => .vcmp (at_ v 2) (at_ v 5) (at_ v 3) (at_ v 4) (at_ v 6) (at_ v 7) (at_ v 8) (at_ v 9) (at_ v 10)⟩,
  ⟨0x213, 3, [2, 10, 4, 11, 1, 4, 11, 11, 4, 2, 4, 11, 21], [(10, 0), (12, 0)], fun v => .vsel (at_ v 2) (at_ v 5) (at_ v 3) (at_ v 4) (at_ v 6) (at_ v 7) (at_ v 8) (at_ v 9) (at_ v 11)⟩,
  ⟨0x214, 2, [2, 10, 4, 11, 1, 4, 11, 11, 4, 2, 4], [(10, 0)], fun v => .vmov (at_ v 2) (at_ v 5) (at_ v 3) (at_ v 4) (at_ v 6) (at_ v 7) (at_ v 8) (at_ v 9)⟩,
  ⟨0x215, 3, [2, 10, 4, 11, 1, 4, 22, 4, 2, 4, 32], [(4, 0), (6, 0), (9, 0)], fun v => .vmovi (at_ v 2) (at_ v 5) (at_ v 3) (at_ v 7) (at_ v 8) (at_ v 10)⟩,
  ⟨0x216, 2, [2, 10, 4, 11, 1, 4, 11, 11, 4, 2, 4], [(10, 0)], fun v => .vrotr (at_ v 2) (at_ v 5) (at_ v 3) (at_ v 4) (at_ v 6) (at_ v 7) (at_ v 8) (at_ v 9)⟩,
  ⟨0x217, 2, [2, 10, 4, 11, 1, 4, 11, 11, 4, 2, 4], [(10, 0)], fun v => .vrotc (at_ v 2) (at_ v 5) (at_ v 3) (at_ v 4) (at_ v 6) (at_ v 7) (at_ v 8) (at_ v 9)⟩,
  ⟨0x218, 2, [2, 10, 4, 11, 1, 4, 11, 11, 4, 2, 4], [(10, 0)], fun v => .vbcr (at_ v 2) (at_ v 5) (at_ v 3) (at_ v 4) (at_ v 6) (at_ v 7) (at_ v 8) (at_ v 9)⟩,
  ⟨0x219, 2, [2, 10, 4, 11, 1, 4, 11, 11, 4, 2, 4], [(10, 0)], fun v => .vbcc (at_ v 2) (at_ v 5) (at_ v 3) (at_ v 4) (at_ v 6) (at_ v 7) (at_ v 8) (at_ v 9)⟩,
  ⟨0x21A, 2, [2, 10, 4, 11, 1, 4, 11, 11, 4, 2, 4], [(4, 0), (10, 0)], fun v => .vshuf (at_ v 2) (at_ v 5) (at_ v 3) (at_ v 6) (at_ v 7) (at_ v 8) (at_ v 9)⟩,
  ⟨0x21B, 2, [2, 10, 4, 11, 1, 4, 11, 11, 4, 2, 3, 1], [(4, 0), (6, 0)], fun v => .vgath (at_ v 2) (at_ v 5) (at_ v 3) (at_ v 7) (at_ v 8) (at_ v 9) (at_ v 10) (at_ v 11)⟩,
  ⟨0x21C, 2, [2, 10, 4, 12, 4, 11, 11, 4, 2, 3, 1], [(3, 0)], fun v => .vscat (at_ v 2) (at_ v 4) (at_ v 5) (at_ v 6) (at_ v 7) (at_ v 8) (at_ v 9) (at_ v 10)⟩,
  ⟨0x21D, 2, [2, 10, 4, 11, 1, 4, 11, 11, 4, 2, 3, 1], [(4, 0), (7, 0)], fun v => .vexp2 (at_ v 2) (at_ v 5) (at_ v 3) (at_ v 6) (at_ v 8) (at_ v 9) (at_ v 10) (at_ v 11)⟩,
  ⟨0x21E, 2, [2, 10, 4, 11, 1, 4, 11, 11, 4, 2, 3, 1], [(4, 0), (7, 0)], fun v => .vlog2 (at_ v 2) (at_ v 5) (at_ v 3) (at_ v 6) (at_ v 8) (at_ v 9) (at_ v 10) (at_ v 11)⟩,
  ⟨0x21F, 2, [2, 10, 4, 11, 1, 4, 11, 11, 4, 2, 3, 1], [(4, 0), (7, 0)], fun v => .vrcp (at_ v 2) (at_ v 5) (at_ v 3) (at_ v 6) (at_ v 8) (at_ v 9) (at_ v 10) (at_ v 11)⟩,
  ⟨0x220, 2, [2, 10, 4, 11, 1, 4, 11, 11, 4, 2, 3, 1], [(4, 0), (7, 0)], fun v => .vrsq (at_ v 2) (at_ v 5) (at_ v 3) (at_ v 6) (at_ v 8) (at_ v 9) (at_ v 10) (at_ v 11)⟩,
  ⟨0x221, 2, [2, 10, 4, 11, 1, 4, 11, 11, 4, 2, 3, 1], [(4, 0), (7, 0)], fun v => .vsin (at_ v 2) (at_ v 5) (at_ v 3) (at_ v 6) (at_ v 8) (at_ v 9) (at_ v 10) (at_ v 11)⟩]

def rows6 : List Row := [
  ⟨0x222, 2, [2, 10, 4, 11, 1, 4, 11, 11, 4, 2, 3, 1], [(4, 0), (7, 0)], fun v => .vcos (at_ v 2) (at_ v 5) (at_ v 3) (at_ v 6) (at_ v 8) (at_ v 9) (at_ v 10) (at_ v 11)⟩,
  ⟨0x223, 2, [2, 10, 4, 11, 1, 4, 11, 11, 4, 2, 3, 1], [(4, 0), (7, 0)], fun v => .vtanh (at_ v 2) (at_ v 5) (at_ v 3) (at_ v 6) (at_ v 8) (at_ v 9) (at_ v 10) (at_ v 11)⟩,
  ⟨0x224, 2, [2, 10, 4, 11, 1, 4, 11, 20, 1], [(4, 0), (7, 0)], fun v => .vpack (at_ v 2) (at_ v 5) (at_ v 3) (at_ v 6) (at_ v 8)⟩,
  ⟨0x225, 2, [2, 10, 4, 11, 1, 4, 11, 20, 1], [(4, 0), (7, 0)], fun v => .vunpk (at_ v 2) (at_ v 5) (at_ v 3) (at_ v 6) (at_ v 8)⟩,
  ⟨0x226, 2, [2, 10, 4, 11, 1, 4, 11, 8, 3, 4, 2, 3, 1], [(4, 0), (11, 0)], fun v => .vqnt (at_ v 2) (at_ v 5) (at_ v 3) (at_ v 6) (at_ v 7) (at_ v 8) (at_ v 9) (at_ v 10) (at_ v 12)⟩,
  ⟨0x227, 2, [2, 10, 4, 12, 4, 5, 27], [(3, 0), (6, 0)], fun v => .vseed (at_ v 2) (at_ v 4) (at_ v 5)⟩,
  ⟨0x280, 2, [2, 10, 4, 4, 3, 5, 4, 4, 4, 24], [(5, 0), (9, 0)], fun v => .attn (at_ v 2) (at_ v 6) (at_ v 3) (at_ v 4) (at_ v 7) (at_ v 8)⟩,
  ⟨0x281, 2, [2, 10, 4, 4, 3, 5, 4, 11, 11, 6, 4], [(5, 0), (10, 0)], fun v => .kvapp (at_ v 2) (at_ v 6) (at_ v 3) (at_ v 4) (at_ v 7) (at_ v 8) (at_ v 9)⟩,
  ⟨0x282, 2, [2, 10, 4, 11, 1, 4, 11, 5, 6, 4, 1, 2, 3], [(4, 0), (8, 0), (12, 0)], fun v => .rope (at_ v 2) (at_ v 5) (at_ v 3) (at_ v 6) (at_ v 7) (at_ v 9) (at_ v 10) (at_ v 11)⟩,
  ⟨0x283, 2, [2, 10, 4, 4, 3, 5, 4, 32], [(5, 0), (7, 0)], fun v => .spanopen (at_ v 2) (at_ v 6) (at_ v 3) (at_ v 4)⟩,
  ⟨0x284, 2, [2, 10, 4, 4, 8, 4, 32], [(4, 0), (6, 0)], fun v => .spanclose (at_ v 2) (at_ v 5) (at_ v 3)⟩,
  ⟨0x285, 2, [2, 10, 4, 4, 3, 1, 4, 4, 8, 24], [(6, 0), (9, 0)], fun v => .retspan (at_ v 2) (at_ v 7) (at_ v 3) (at_ v 4) (at_ v 5) (at_ v 8)⟩,
  ⟨0x287, 2, [2, 10, 4, 4, 3, 5, 4, 8, 24], [(5, 0), (8, 0)], fun v => .kvpromo (at_ v 2) (at_ v 6) (at_ v 3) (at_ v 4) (at_ v 7)⟩,
  ⟨0x286, 2, [2, 10, 4, 4, 2, 5, 5, 4, 28], [(4, 0), (8, 0)], fun v => .seqq (at_ v 2) (at_ v 6) (at_ v 5) (at_ v 3) (at_ v 7)⟩,
  ⟨0x300, 2, [2, 10, 4, 3, 3, 5, 5, 32], [(4, 0), (7, 0)], fun v => .spawn (at_ v 2) (at_ v 6) (at_ v 5) (at_ v 3)⟩,
  ⟨0x301, 2, [2, 10, 4, 3, 3, 5, 5, 32], [(4, 0), (7, 0)], fun v => .spawnRec (at_ v 2) (at_ v 6) (at_ v 5) (at_ v 3)⟩,
  ⟨0x302, 2, [2, 10, 4, 1, 5, 5, 5, 16, 16], [(4, 0), (8, 0)], fun v => .depdec (at_ v 2) (at_ v 6) (at_ v 5) (at_ v 3) (at_ v 7)⟩,
  ⟨0x306, 2, [2, 10, 4, 6, 5, 5, 4, 28], [(3, 0), (7, 0)], fun v => .taskq (at_ v 2) (at_ v 5) (at_ v 4) (at_ v 6)⟩,
  ⟨0x303, 1, [2, 10, 4, 16], [(3, 0)], fun v => .commit (at_ v 2)⟩,
  ⟨0x304, 1, [2, 10, 4, 16], [(3, 0)], fun v => .exit (at_ v 2)⟩,
  ⟨0x305, 1, [2, 10, 4, 2, 1, 13], [(5, 0)], fun v => .arrive (at_ v 2) (at_ v 3) (at_ v 4)⟩,
  ⟨0x308, 1, [2, 10, 4, 3, 3, 1, 9], [(5, 0), (6, 0)], fun v => .racqP (at_ v 2) (at_ v 3) (at_ v 4)⟩,
  ⟨0x308, 1, [2, 10, 4, 3, 3, 1, 9], [(5, 1), (6, 0)], fun v => .racqC (at_ v 2) (at_ v 3) (at_ v 4)⟩,
  ⟨0x309, 1, [2, 10, 4, 3, 3, 1, 9], [(3, 0), (5, 0), (6, 0)], fun v => .rrelP (at_ v 2) (at_ v 4)⟩,
  ⟨0x309, 1, [2, 10, 4, 3, 3, 1, 9], [(3, 0), (5, 1), (6, 0)], fun v => .rrelC (at_ v 2) (at_ v 4)⟩]

def rows7 : List Row := [
  ⟨0x30A, 1, [2, 10, 4, 11, 5], [(3, 0)], fun v => .tokq (at_ v 2) (at_ v 4)⟩,
  ⟨0x30B, 2, [2, 10, 4, 3, 3, 5, 5, 3, 29], [(4, 0), (8, 0)], fun v => .put (at_ v 2) (at_ v 6) (at_ v 5) (at_ v 3) (at_ v 7)⟩,
  ⟨0x310, 2, [2, 10, 4, 3, 9, 4, 32], [(4, 0)], fun v => .intk (at_ v 2) (at_ v 5) (at_ v 3) (at_ v 6)⟩,
  ⟨0x311, 2, [2, 10, 4, 3, 8, 5, 4, 28], [(4, 0), (7, 0)], fun v => .sumprd (at_ v 2) (at_ v 5) (at_ v 3) (at_ v 6)⟩,
  ⟨0x318, 3, [2, 10, 4, 4, 4, 3, 1, 4, 32, 32], [(6, 0), (9, 0)], fun v => .xsend (at_ v 2) (at_ v 7) (at_ v 3) (at_ v 4) (at_ v 5) (at_ v 8)⟩,
  ⟨0x319, 2, [2, 10, 4, 5, 3, 4, 4, 28, 4], [(5, 0), (8, 0)], fun v => .xstep (at_ v 2) (at_ v 6) (at_ v 3) (at_ v 4) (at_ v 7)⟩,
  ⟨0x31A, 2, [2, 10, 4, 1, 5, 5, 5, 32], [(4, 0), (7, 0)], fun v => .xsync (at_ v 2) (at_ v 6) (at_ v 5) (at_ v 3)⟩,
  ⟨0x380, 1, [2, 10, 4, 16], [], fun v => .trap (at_ v 2) (at_ v 3)⟩,
  ⟨0x381, 1, [2, 10, 4, 6, 3, 2, 5], [(3, 0), (5, 0)], fun v => .omcall (at_ v 2) (at_ v 6) (at_ v 4)⟩,
  ⟨0x382, 2, [2, 10, 4, 6, 5, 5, 12, 20], [(3, 0), (7, 0)], fun v => .sysrd (at_ v 2) (at_ v 5) (at_ v 4) (at_ v 6)⟩,
  ⟨0x383, 2, [2, 10, 4, 6, 5, 5, 12, 20], [(3, 0), (7, 0)], fun v => .syswr (at_ v 2) (at_ v 5) (at_ v 4) (at_ v 6)⟩,
  ⟨0x384, 1, [2, 10, 4, 16], [(3, 0)], fun v => .eret (at_ v 2)⟩,
  ⟨0x385, 1, [2, 10, 4, 11, 5], [(3, 0)], fun v => .waiti (at_ v 2) (at_ v 4)⟩,
  ⟨0x386, 1, [2, 10, 4, 16], [(3, 0)], fun v => .halt (at_ v 2)⟩,
  ⟨0x387, 2, [2, 10, 4, 4, 2, 5, 5, 3, 29], [(4, 0), (8, 0)], fun v => .decmap (at_ v 2) (at_ v 6) (at_ v 5) (at_ v 3) (at_ v 7)⟩,
  ⟨0x388, 2, [2, 10, 4, 2, 1, 3, 5, 5, 32], [(5, 0), (8, 0)], fun v => .tlbinv (at_ v 2) (at_ v 7) (at_ v 6) (at_ v 3) (at_ v 4)⟩,
  ⟨0x389, 2, [2, 10, 4, 2, 1, 3, 5, 5, 32], [(5, 0), (8, 0)], fun v => .otinv (at_ v 2) (at_ v 7) (at_ v 6) (at_ v 3) (at_ v 4)⟩,
  ⟨0x38A, 2, [2, 10, 4, 3, 8, 5, 32], [(4, 0), (6, 0)], fun v => .migr (at_ v 2) (at_ v 5) (at_ v 3)⟩,
  ⟨0x38B, 2, [2, 10, 4, 3, 3, 5, 5, 32], [(4, 0), (7, 0)], fun v => .zerob (at_ v 2) (at_ v 6) (at_ v 5) (at_ v 3)⟩,
  ⟨0x38C, 2, [2, 10, 4, 1, 10, 5, 8, 24], [(4, 0), (7, 0)], fun v => .keyset (at_ v 2) (at_ v 5) (at_ v 3) (at_ v 6)⟩]

/-- Map 1 (Table 12-5) with the fields of every entry. -/
def rows : List Row := rows0 ++ rows1 ++ rows2 ++ rows3 ++ rows4 ++ rows5 ++ rows6 ++ rows7

/-- Decode x as the operation of map 1 with opcode op, in words words: rows 3 to 5 of Table 12-6. -/
def operation (op words x : Nat) : Except DecodeError Instr :=
  match rows.find? (fun r => r.op == op && r.words == words && r.fits x) with
  | some r =>
    let i := r.build (unpack r.widths x)
    if i.wf then .ok i else .error .reservedCode
  | none =>
    if rows.any (fun r => r.op == op && r.words == words) then .error (.reservedBits op)
    else if rows.any (fun r => r.op == op) then .error (.badLength op words)
    else .error (.unmapped op)

/-- LEN of a first word (R279). -/
def lenOf (x : Nat) : Nat := x % 4
/-- OP of a first word. -/
def opOf (x : Nat) : Nat := x / 4 % 1024

/-- Words, first at the lowest address, as one number (R279). -/
def join : List U32 → Nat
  | [] => 0
  | w :: ws => w.toNat + 2 ^ 32 * join ws

/-- Decode an instruction of map 1 from its words; a LEN of 0 is a pad word, no instruction (R280). -/
def words (ws : List U32) : Except DecodeError Instr :=
  let x := join ws
  let n := lenOf x
  if n == 0 || ws.length < n then .error .padWord
  else operation (opOf x) n (x % 2 ^ (32 * n))

/-- Four bytes, little-endian (R3), make each word. -/
def wordsOfBytes : List Byte → List U32
  | a :: b :: c :: d :: rest => BitVec.ofNat 32 (a.toNat + 256 * b.toNat + 65536 * c.toNat + 16777216 * d.toNat) :: wordsOfBytes rest
  | _ => []

/-- Decode any bytes. -/
def bytes (bs : List Byte) : Except DecodeError Instr := words (wordsOfBytes bs)

end Decode

/-- The segments of an instruction's encoding; an event has none. -/
def segments : Instr → List (Nat × Nat)
  | .add g x y z => [(2, 1), (10, 0x001), (4, g.toNat), (1, 0), (5, z.toNat), (5, y.toNat), (5, x.toNat)]
  | .sub g x y z => [(2, 1), (10, 0x003), (4, g.toNat), (1, 0), (5, z.toNat), (5, y.toNat), (5, x.toNat)]
  | .mul g x y z => [(2, 1), (10, 0x004), (4, g.toNat), (1, 0), (5, z.toNat), (5, y.toNat), (5, x.toNat)]
  | .mulh g x y z => [(2, 1), (10, 0x005), (4, g.toNat), (1, 0), (5, z.toNat), (5, y.toNat), (5, x.toNat)]
  | .mulhz g x y z => [(2, 1), (10, 0x006), (4, g.toNat), (1, 0), (5, z.toNat), (5, y.toNat), (5, x.toNat)]
  | .div g x y z => [(2, 1), (10, 0x007), (4, g.toNat), (1, 0), (5, z.toNat), (5, y.toNat), (5, x.toNat)]
  | .divz g x y z => [(2, 1), (10, 0x008), (4, g.toNat), (1, 0), (5, z.toNat), (5, y.toNat), (5, x.toNat)]
  | .rem g x y z => [(2, 1), (10, 0x009), (4, g.toNat), (1, 0), (5, z.toNat), (5, y.toNat), (5, x.toNat)]
  | .remz g x y z => [(2, 1), (10, 0x00A), (4, g.toNat), (1, 0), (5, z.toNat), (5, y.toNat), (5, x.toNat)]
  | .and g x y z => [(2, 1), (10, 0x00B), (4, g.toNat), (1, 0), (5, z.toNat), (5, y.toNat), (5, x.toNat)]
  | .or g x y z => [(2, 1), (10, 0x00D), (4, g.toNat), (1, 0), (5, z.toNat), (5, y.toNat), (5, x.toNat)]
  | .xor g x y z => [(2, 1), (10, 0x00F), (4, g.toNat), (1, 0), (5, z.toNat), (5, y.toNat), (5, x.toNat)]
  | .andn g x y z => [(2, 1), (10, 0x011), (4, g.toNat), (1, 0), (5, z.toNat), (5, y.toNat), (5, x.toNat)]
  | .shl g x y z => [(2, 1), (10, 0x012), (4, g.toNat), (1, 0), (5, z.toNat), (5, y.toNat), (5, x.toNat)]
  | .shr g x y z => [(2, 1), (10, 0x014), (4, g.toNat), (1, 0), (5, z.toNat), (5, y.toNat), (5, x.toNat)]
  | .sar g x y z => [(2, 1), (10, 0x016), (4, g.toNat), (1, 0), (5, z.toNat), (5, y.toNat), (5, x.toNat)]
  | .rotl g x y z => [(2, 1), (10, 0x018), (4, g.toNat), (1, 0), (5, z.toNat), (5, y.toNat), (5, x.toNat)]
  | .min g x y z => [(2, 1), (10, 0x019), (4, g.toNat), (1, 0), (5, z.toNat), (5, y.toNat), (5, x.toNat)]
  | .minz g x y z => [(2, 1), (10, 0x01A), (4, g.toNat), (1, 0), (5, z.toNat), (5, y.toNat), (5, x.toNat)]
  | .max g x y z => [(2, 1), (10, 0x01B), (4, g.toNat), (1, 0), (5, z.toNat), (5, y.toNat), (5, x.toNat)]
  | .maxz g x y z => [(2, 1), (10, 0x01C), (4, g.toNat), (1, 0), (5, z.toNat), (5, y.toNat), (5, x.toNat)]
  | .clz g x y => [(2, 1), (10, 0x01D), (4, g.toNat), (6, 0), (5, y.toNat), (5, x.toNat)]
  | .ctz g x y => [(2, 1), (10, 0x01E), (4, g.toNat), (6, 0), (5, y.toNat), (5, x.toNat)]
  | .popc g x y => [(2, 1), (10, 0x01F), (4, g.toNat), (6, 0), (5, y.toNat), (5, x.toNat)]
  | .bswap g x y => [(2, 1), (10, 0x020), (4, g.toNat), (6, 0), (5, y.toNat), (5, x.toNat)]
  | .sext g x y z => [(2, 1), (10, 0x021), (4, g.toNat), (1, 0), (5, z.toNat), (5, y.toNat), (5, x.toNat)]
  | .zext g x y z => [(2, 1), (10, 0x022), (4, g.toNat), (1, 0), (5, z.toNat), (5, y.toNat), (5, x.toNat)]
  | .mov g x y dc sc => [(2, 1), (10, 0x025), (4, g.toNat), (2, 0), (2, sc.toNat), (2, dc.toNat), (5, y.toNat), (5, x.toNat)]
  | .pand g x y z => [(2, 1), (10, 0x02A), (4, g.toNat), (1, 0), (3, z.toNat), (2, 0), (3, y.toNat), (2, 0), (3, x.toNat), (2, 0)]
  | .por g x y z => [(2, 1), (10, 0x02B), (4, g.toNat), (1, 0), (3, z.toNat), (2, 0), (3, y.toNat), (2, 0), (3, x.toNat), (2, 0)]
  | .pxor g x y z => [(2, 1), (10, 0x02C), (4, g.toNat), (1, 0), (3, z.toNat), (2, 0), (3, y.toNat), (2, 0), (3, x.toNat), (2, 0)]
  | .pnot g x y => [(2, 1), (10, 0x02D), (4, g.toNat), (6, 0), (3, y.toNat), (2, 0), (3, x.toNat), (2, 0)]
  | .addi g x y rc imm => [(2, 2), (10, 0x002), (4, g.toNat), (2, rc.toNat), (4, 0), (5, y.toNat), (5, x.toNat), (32, imm.toNat)]
  | .andi g x y imm => [(2, 2), (10, 0x00C), (4, g.toNat), (6, 0), (5, y.toNat), (5, x.toNat), (32, imm.toNat)]
  | .ori g x y imm => [(2, 2), (10, 0x00E), (4, g.toNat), (6, 0), (5, y.toNat), (5, x.toNat), (32, imm.toNat)]
  | .xori g x y imm => [(2, 2), (10, 0x010), (4, g.toNat), (6, 0), (5, y.toNat), (5, x.toNat), (32, imm.toNat)]
  | .shli g x y n => [(2, 2), (10, 0x013), (4, g.toNat), (6, 0), (5, y.toNat), (5, x.toNat), (6, n.toNat), (26, 0)]
  | .shri g x y n => [(2, 2), (10, 0x015), (4, g.toNat), (6, 0), (5, y.toNat), (5, x.toNat), (6, n.toNat), (26, 0)]
  | .sari g x y n => [(2, 2), (10, 0x017), (4, g.toNat), (6, 0), (5, y.toNat), (5, x.toNat), (6, n.toNat), (26, 0)]
  | .bfx g x y sg lo wm => [(2, 2), (10, 0x023), (4, g.toNat), (1, sg.toNat), (5, 0), (5, y.toNat), (5, x.toNat), (6, lo.toNat), (2, 0), (6, wm.toNat), (18, 0)]
  | .bfi g x y lo wm => [(2, 2), (10, 0x024), (4, g.toNat), (6, 0), (5, y.toNat), (5, x.toNat), (6, lo.toNat), (2, 0), (6, wm.toNat), (18, 0)]
  | .movi64 g x imm => [(2, 2), (10, 0x026), (4, g.toNat), (11, 0), (5, x.toNat), (32, imm.toNat)]
  | .movi96 g x imm lit => [(2, 3), (10, 0x026), (4, g.toNat), (11, 0), (5, x.toNat), (32, imm.toNat), (32, lit.toNat)]
  | .movhi g x y imm => [(2, 2), (10, 0x027), (4, g.toNat), (6, 0), (5, y.toNat), (5, x.toNat), (32, imm.toNat)]
  | .sel g x y pr z => [(2, 2), (10, 0x028), (4, g.toNat), (3, pr.toNat), (3, 0), (5, y.toNat), (5, x.toNat), (5, z.toNat), (27, 0)]
  | .cmp g x y cc ii imm => [(2, 2), (10, 0x029), (4, g.toNat), (4, cc.toNat), (1, 0), (1, ii.toNat), (5, y.toNat), (3, x.toNat), (2, 0), (32, imm.toNat)]
  | .fadd g x y fm b rnd => [(2, 2), (10, 0x040), (4, g.toNat), (2, fm.toNat), (4, 0), (5, y.toNat), (5, x.toNat), (5, b.toNat), (3, rnd.toNat), (24, 0)]
  | .fsub g x y fm b rnd => [(2, 2), (10, 0x041), (4, g.toNat), (2, fm.toNat), (4, 0), (5, y.toNat), (5, x.toNat), (5, b.toNat), (3, rnd.toNat), (24, 0)]
  | .fmul g x y fm b rnd => [(2, 2), (10, 0x042), (4, g.toNat), (2, fm.toNat), (4, 0), (5, y.toNat), (5, x.toNat), (5, b.toNat), (3, rnd.toNat), (24, 0)]
  | .ffma g x y fm b rnd c => [(2, 2), (10, 0x043), (4, g.toNat), (2, fm.toNat), (4, 0), (5, y.toNat), (5, x.toNat), (5, b.toNat), (3, rnd.toNat), (5, c.toNat), (19, 0)]
  | .fdiv g x y fm b rnd => [(2, 2), (10, 0x044), (4, g.toNat), (2, fm.toNat), (4, 0), (5, y.toNat), (5, x.toNat), (5, b.toNat), (3, rnd.toNat), (24, 0)]
  | .fsqrt g x y fm rnd => [(2, 2), (10, 0x045), (4, g.toNat), (2, fm.toNat), (4, 0), (5, y.toNat), (5, x.toNat), (5, 0), (3, rnd.toNat), (24, 0)]
  | .fmin g x y z f => [(2, 1), (10, 0x046), (4, g.toNat), (1, f.toNat), (5, z.toNat), (5, y.toNat), (5, x.toNat)]
  | .fmax g x y z f => [(2, 1), (10, 0x047), (4, g.toNat), (1, f.toNat), (5, z.toNat), (5, y.toNat), (5, x.toNat)]
  | .fclass g x y f => [(2, 1), (10, 0x04A), (4, g.toNat), (1, f.toNat), (5, 0), (5, y.toNat), (5, x.toNat)]
  | .fcmp g x y fm cc b => [(2, 2), (10, 0x048), (4, g.toNat), (2, fm.toNat), (4, cc.toNat), (5, y.toNat), (3, x.toNat), (2, 0), (5, b.toNat), (27, 0)]
  | .fcvt g x y dfmt sfmt rnd sat => [(2, 2), (10, 0x049), (4, g.toNat), (6, 0), (5, y.toNat), (5, x.toNat), (8, dfmt.toNat), (8, sfmt.toNat), (3, rnd.toNat), (1, sat.toNat), (12, 0)]
  | .br g slot ld => [(2, 2), (10, 0x060), (4, g.toNat), (16, 0), (4, slot.toNat), (28, ld.toNat)]
  | .brp g x n slot ld => [(2, 2), (10, 0x061), (4, g.toNat), (1, n.toNat), (10, 0), (3, x.toNat), (2, 0), (4, slot.toNat), (28, ld.toNat)]
  | .brz g x slot ld => [(2, 2), (10, 0x062), (4, g.toNat), (11, 0), (5, x.toNat), (4, slot.toNat), (28, ld.toNat)]
  | .brnz g x slot ld => [(2, 2), (10, 0x063), (4, g.toNat), (11, 0), (5, x.toNat), (4, slot.toNat), (28, ld.toNat)]
  | .call g slot ld => [(2, 2), (10, 0x064), (4, g.toNat), (16, 0), (4, slot.toNat), (28, ld.toNat)]
  | .ret g => [(2, 1), (10, 0x065), (4, g.toNat), (16, 0)]
  | .loop g x slot ld => [(2, 2), (10, 0x066), (4, g.toNat), (11, 0), (2, x.toNat), (3, 0), (4, slot.toNat), (28, ld.toNat)]
  | .nop g => [(2, 1), (10, 0x067), (4, g.toNat), (16, 0)]
  | .hint g w => [(2, 1), (10, 0x068), (4, g.toNat), (16, w.toNat)]
  | .ldp g x wd sg off => [(2, 2), (10, 0x070), (4, g.toNat), (2, wd.toNat), (1, sg.toNat), (8, 0), (5, x.toNat), (12, off.toNat), (20, 0)]
  | .lds g x y wd sg imm => [(2, 2), (10, 0x071), (4, g.toNat), (2, wd.toNat), (1, sg.toNat), (3, 0), (3, y.toNat), (2, 0), (5, x.toNat), (32, imm.toNat)]
  | .sts g x y wd imm => [(2, 2), (10, 0x072), (4, g.toNat), (2, wd.toNat), (4, 0), (3, y.toNat), (2, 0), (5, x.toNat), (32, imm.toNat)]
  | .dmov g x y => [(2, 1), (10, 0x07F), (4, g.toNat), (6, 0), (4, y.toNat), (1, 0), (4, x.toNat), (1, 0)]
  | .hld g x y src imm => [(2, 2), (10, 0x078), (4, g.toNat), (1, src.toNat), (5, 0), (5, y.toNat), (4, x.toNat), (1, 0), (32, imm.toNat)]
  | .hqry g x y item => [(2, 2), (10, 0x079), (4, g.toNat), (6, 0), (4, y.toNat), (1, 0), (5, x.toNat), (4, item.toNat), (28, 0)]
  | .dset g x y rows cols col0 lit => [(2, 3), (10, 0x07A), (4, g.toNat), (6, 0), (4, y.toNat), (1, 0), (4, x.toNat), (1, 0), (7, rows.toNat), (1, 0), (7, cols.toNat), (1, 0), (16, col0.toNat), (32, lit.toNat)]
  | .didx g x y k ii imm => [(2, 2), (10, 0x07B), (4, g.toNat), (2, k.toNat), (1, ii.toNat), (3, 0), (5, y.toNat), (4, x.toNat), (1, 0), (32, imm.toNat)]
  | .dadd g x y k ii imm => [(2, 2), (10, 0x07C), (4, g.toNat), (2, k.toNat), (1, ii.toNat), (3, 0), (5, y.toNat), (4, x.toNat), (1, 0), (32, imm.toNat)]
  | .dshp g x rows cols => [(2, 2), (10, 0x07D), (4, g.toNat), (11, 0), (4, x.toNat), (1, 0), (7, rows.toNat), (1, 0), (7, cols.toNat), (17, 0)]
  | .dpad g x clr imm lit => [(2, 3), (10, 0x07E), (4, g.toNat), (1, clr.toNat), (10, 0), (4, x.toNat), (1, 0), (32, imm.toNat), (32, lit.toNat)]
  | .lde g x y h str rd => [(2, 2), (10, 0x100), (4, g.toNat), (4, h.toNat), (2, str.toNat), (5, y.toNat), (5, x.toNat), (3, rd.toNat), (29, 0)]
  | .ste g x y h str => [(2, 2), (10, 0x101), (4, g.toNat), (4, h.toNat), (2, str.toNat), (5, y.toNat), (5, x.toNat), (32, 0)]
  | .atom g x y h w v opc => [(2, 2), (10, 0x102), (4, g.toNat), (4, h.toNat), (1, w.toNat), (1, 0), (5, y.toNat), (5, x.toNat), (5, v.toNat), (4, opc.toNat), (23, 0)]
  | .fatom g x y h v fop => [(2, 2), (10, 0x104), (4, g.toNat), (4, h.toNat), (2, 0), (5, y.toNat), (5, x.toNat), (5, v.toNat), (2, fop.toNat), (25, 0)]
  | .atomnr g x y h w opc f => [(2, 2), (10, 0x105), (4, g.toNat), (4, h.toNat), (1, w.toNat), (1, 0), (5, y.toNat), (5, x.toNat), (5, 0), (4, opc.toNat), (1, f.toNat), (22, 0)]
  | .cas g x y h w e nv pd => [(2, 3), (10, 0x103), (4, g.toNat), (4, h.toNat), (1, w.toNat), (1, 0), (5, y.toNat), (5, x.toNat), (5, e.toNat), (5, nv.toNat), (22, 0), (3, pd.toNat), (29, 0)]
  | .casc g x y h w e nv t st => [(2, 3), (10, 0x106), (4, g.toNat), (4, h.toNat), (1, w.toNat), (1, 0), (5, y.toNat), (5, x.toNat), (5, e.toNat), (5, nv.toNat), (22, 0), (4, t.toNat), (5, st.toNat), (23, 0)]
  | .ldt tk g vd q d a rd => [(2, 2), (10, 0x110), (4, tk.toNat), (11, vd.toNat), (1, q.toNat), (4, g.toNat), (22, 0), (4, d.toNat), (3, a.toNat), (3, rd.toNat)]
  | .stt tk g vd q d a m => [(2, 2), (10, 0x111), (4, tk.toNat), (11, vd.toNat), (1, q.toNat), (4, g.toNat), (22, 0), (4, d.toNat), (3, a.toNat), (1, m.toNat), (2, 0)]
  | .pft tk g d rd => [(2, 2), (10, 0x112), (4, tk.toNat), (12, 0), (4, g.toNat), (22, 0), (4, d.toNat), (3, 0), (3, rd.toNat)]
  | .bmap tk g d all => [(2, 2), (10, 0x118), (4, tk.toNat), (4, d.toNat), (1, all.toNat), (7, 0), (4, g.toNat), (32, 0)]
  | .bflush tk g d all => [(2, 2), (10, 0x119), (4, tk.toNat), (4, d.toNat), (1, all.toNat), (7, 0), (4, g.toNat), (32, 0)]
  | .bdrop tk g d all => [(2, 2), (10, 0x11A), (4, tk.toNat), (4, d.toNat), (1, all.toNat), (7, 0), (4, g.toNat), (32, 0)]
  | .openv g h => [(2, 2), (10, 0x120), (4, g.toNat), (4, h.toNat), (44, 0)]
  | .pub g h => [(2, 2), (10, 0x121), (4, g.toNat), (4, h.toNat), (44, 0)]
  | .subv g x y h => [(2, 2), (10, 0x122), (4, g.toNat), (4, h.toNat), (2, 0), (5, y.toNat), (5, x.toNat), (32, 0)]
  | .pinv g x y h => [(2, 2), (10, 0x123), (4, g.toNat), (4, h.toNat), (2, 0), (5, y.toNat), (5, x.toNat), (32, 0)]
  | .unpv g h => [(2, 2), (10, 0x124), (4, g.toNat), (4, h.toNat), (44, 0)]
  | .verq g x h => [(2, 2), (10, 0x125), (4, g.toNat), (4, h.toNat), (7, 0), (5, x.toNat), (32, 0)]
  | .fenceP g s1 s2 => [(2, 1), (10, 0x128), (4, g.toNat), (8, s1.toNat), (8, s2.toNat)]
  | .nbfill tk g hd a imm lit => [(2, 3), (10, 0x130), (4, tk.toNat), (4, hd.toNat), (4, 0), (3, a.toNat), (1, 0), (4, g.toNat), (32, imm.toNat), (32, lit.toNat)]
  | .nbcopy tk g hd hs a => [(2, 3), (10, 0x131), (4, tk.toNat), (4, hd.toNat), (4, hs.toNat), (3, a.toNat), (1, 0), (4, g.toNat), (64, 0)]
  | .nbaxpy tk g hd hs a imm rnd sat => [(2, 3), (10, 0x132), (4, tk.toNat), (4, hd.toNat), (4, hs.toNat), (3, a.toNat), (1, 0), (4, g.toNat), (32, imm.toNat), (3, rnd.toNat), (1, sat.toNat), (28, 0)]
  | .nbscale tk g hd a imm rnd sat => [(2, 3), (10, 0x133), (4, tk.toNat), (4, hd.toNat), (4, 0), (3, a.toNat), (1, 0), (4, g.toNat), (32, imm.toNat), (3, rnd.toNat), (1, sat.toNat), (28, 0)]
  | .nbrelay tk g hd hs a => [(2, 3), (10, 0x134), (4, tk.toNat), (4, hd.toNat), (4, hs.toNat), (3, a.toNat), (1, 0), (4, g.toNat), (64, 0)]
  | .rrzero tk g hd a => [(2, 3), (10, 0x135), (4, tk.toNat), (4, hd.toNat), (4, 0), (3, a.toNat), (1, 0), (4, g.toNat), (64, 0)]
  | .rrcopy tk g hd hs a => [(2, 3), (10, 0x136), (4, tk.toNat), (4, hd.toNat), (4, hs.toNat), (3, a.toNat), (1, 0), (4, g.toNat), (64, 0)]
  | .fmtqReg g x => [(2, 2), (10, 0x180), (4, g.toNat), (11, 0), (5, x.toNat), (32, 0)]
  | .fmtqImm g imm lit => [(2, 3), (10, 0x180), (4, g.toNat), (16, 0), (32, imm.toNat), (32, lit.toNat)]
  | .mma64 tk g va vb acc z kl => [(2, 2), (10, 0x181), (4, tk.toNat), (12, 0), (4, g.toNat), (11, va.toNat), (11, vb.toNat), (3, acc.toNat), (1, z.toNat), (6, kl.toNat)]
  | .mma96 tk g va vb acc z kl ak bk al bl => [(2, 3), (10, 0x181), (4, tk.toNat), (12, 0), (4, g.toNat), (11, va.toNat), (11, vb.toNat), (3, acc.toNat), (1, z.toNat), (6, kl.toNat), (11, 0), (2, ak.toNat), (2, bk.toNat), (4, al.toNat), (4, bl.toNat), (9, 0)]
  | .mmam64 tk g va vb acc z kl => [(2, 2), (10, 0x182), (4, tk.toNat), (12, 0), (4, g.toNat), (11, va.toNat), (11, vb.toNat), (3, acc.toNat), (1, z.toNat), (6, kl.toNat)]
  | .mmam96 tk g va vb acc z kl ak bk al bl => [(2, 3), (10, 0x182), (4, tk.toNat), (12, 0), (4, g.toNat), (11, va.toNat), (11, vb.toNat), (3, acc.toNat), (1, z.toNat), (6, kl.toNat), (11, 0), (2, ak.toNat), (2, bk.toNat), (4, al.toNat), (4, bl.toNat), (9, 0)]
  | .mzero tk g acc => [(2, 1), (10, 0x183), (4, tk.toNat), (3, acc.toNat), (9, 0), (4, g.toNat)]
  | .mrd tk g vd acc rg ng => [(2, 2), (10, 0x184), (4, tk.toNat), (11, vd.toNat), (1, 0), (4, g.toNat), (22, 0), (3, acc.toNat), (2, rg.toNat), (2, ng.toNat), (3, 0)]
  | .mwr tk g va acc rg ng => [(2, 2), (10, 0x185), (4, tk.toNat), (12, 0), (4, g.toNat), (11, va.toNat), (11, 0), (3, acc.toNat), (2, rg.toNat), (2, ng.toNat), (3, 0)]
  | .mred tk g va acc z ax => [(2, 2), (10, 0x186), (4, tk.toNat), (12, 0), (4, g.toNat), (11, va.toNat), (11, 0), (3, acc.toNat), (1, z.toNat), (1, ax.toNat), (5, 0)]
  | .mscan tk g va acc z ax ex => [(2, 2), (10, 0x187), (4, tk.toNat), (12, 0), (4, g.toNat), (11, va.toNat), (11, 0), (3, acc.toNat), (1, z.toNat), (1, ax.toNat), (1, ex.toNat), (4, 0)]
  | .mtrn tk g va acc => [(2, 2), (10, 0x188), (4, tk.toNat), (12, 0), (4, g.toNat), (11, va.toNat), (11, 0), (3, acc.toNat), (7, 0)]
  | .vadd tk g vd q va vb ty nr x3 x1 => [(2, 2), (10, 0x200), (4, tk.toNat), (11, vd.toNat), (1, q.toNat), (4, g.toNat), (11, va.toNat), (11, vb.toNat), (4, ty.toNat), (2, nr.toNat), (3, x3.toNat), (1, x1.toNat)]
  | .vsub tk g vd q va vb ty nr x3 x1 => [(2, 2), (10, 0x201), (4, tk.toNat), (11, vd.toNat), (1, q.toNat), (4, g.toNat), (11, va.toNat), (11, vb.toNat), (4, ty.toNat), (2, nr.toNat), (3, x3.toNat), (1, x1.toNat)]
  | .vmul tk g vd q va vb ty nr x3 x1 => [(2, 2), (10, 0x202), (4, tk.toNat), (11, vd.toNat), (1, q.toNat), (4, g.toNat), (11, va.toNat), (11, vb.toNat), (4, ty.toNat), (2, nr.toNat), (3, x3.toNat), (1, x1.toNat)]
  | .vfma tk g vd q va vb ty nr x3 x1 vc => [(2, 3), (10, 0x203), (4, tk.toNat), (11, vd.toNat), (1, q.toNat), (4, g.toNat), (11, va.toNat), (11, vb.toNat), (4, ty.toNat), (2, nr.toNat), (3, x3.toNat), (1, x1.toNat), (11, vc.toNat), (21, 0)]
  | .vfms tk g vd q va vb ty nr x3 x1 vc => [(2, 3), (10, 0x204), (4, tk.toNat), (11, vd.toNat), (1, q.toNat), (4, g.toNat), (11, va.toNat), (11, vb.toNat), (4, ty.toNat), (2, nr.toNat), (3, x3.toNat), (1, x1.toNat), (11, vc.toNat), (21, 0)]
  | .vmin tk g vd q va vb ty nr x1 => [(2, 2), (10, 0x205), (4, tk.toNat), (11, vd.toNat), (1, q.toNat), (4, g.toNat), (11, va.toNat), (11, vb.toNat), (4, ty.toNat), (2, nr.toNat), (3, 0), (1, x1.toNat)]
  | .vmax tk g vd q va vb ty nr x1 => [(2, 2), (10, 0x206), (4, tk.toNat), (11, vd.toNat), (1, q.toNat), (4, g.toNat), (11, va.toNat), (11, vb.toNat), (4, ty.toNat), (2, nr.toNat), (3, 0), (1, x1.toNat)]
  | .vabs tk g vd va ty nr x1 => [(2, 2), (10, 0x207), (4, tk.toNat), (11, vd.toNat), (1, 0), (4, g.toNat), (11, va.toNat), (11, 0), (4, ty.toNat), (2, nr.toNat), (3, 0), (1, x1.toNat)]
  | .vneg tk g vd va ty nr x1 => [(2, 2), (10, 0x208), (4, tk.toNat), (11, vd.toNat), (1, 0), (4, g.toNat), (11, va.toNat), (11, 0), (4, ty.toNat), (2, nr.toNat), (3, 0), (1, x1.toNat)]
  | .vclamp tk g vd va vb ty nr x1 vc => [(2, 3), (10, 0x209), (4, tk.toNat), (11, vd.toNat), (1, 0), (4, g.toNat), (11, va.toNat), (11, vb.toNat), (4, ty.toNat), (2, nr.toNat), (3, 0), (1, x1.toNat), (11, vc.toNat), (21, 0)]
  | .vcvt tk g vd va dfmt rnd sfmt sat => [(2, 2), (10, 0x20A), (4, tk.toNat), (11, vd.toNat), (1, 0), (4, g.toNat), (11, va.toNat), (8, dfmt.toNat), (3, rnd.toNat), (8, sfmt.toNat), (1, sat.toNat), (1, 0)]
  | .vand tk g vd q va vb ty nr => [(2, 2), (10, 0x20B), (4, tk.toNat), (11, vd.toNat), (1, q.toNat), (4, g.toNat), (11, va.toNat), (11, vb.toNat), (4, ty.toNat), (2, nr.toNat), (4, 0)]
  | .vor tk g vd q va vb ty nr => [(2, 2), (10, 0x20C), (4, tk.toNat), (11, vd.toNat), (1, q.toNat), (4, g.toNat), (11, va.toNat), (11, vb.toNat), (4, ty.toNat), (2, nr.toNat), (4, 0)]
  | .vxor tk g vd q va vb ty nr => [(2, 2), (10, 0x20D), (4, tk.toNat), (11, vd.toNat), (1, q.toNat), (4, g.toNat), (11, va.toNat), (11, vb.toNat), (4, ty.toNat), (2, nr.toNat), (4, 0)]
  | .vnot tk g vd va ty nr => [(2, 2), (10, 0x20E), (4, tk.toNat), (11, vd.toNat), (1, 0), (4, g.toNat), (11, va.toNat), (11, 0), (4, ty.toNat), (2, nr.toNat), (4, 0)]
  | .vshl tk g vd q va vb ty nr => [(2, 2), (10, 0x20F), (4, tk.toNat), (11, vd.toNat), (1, q.toNat), (4, g.toNat), (11, va.toNat), (11, vb.toNat), (4, ty.toNat), (2, nr.toNat), (4, 0)]
  | .vshr tk g vd q va vb ty nr => [(2, 2), (10, 0x210), (4, tk.toNat), (11, vd.toNat), (1, q.toNat), (4, g.toNat), (11, va.toNat), (11, vb.toNat), (4, ty.toNat), (2, nr.toNat), (4, 0)]
  | .vsar tk g vd q va vb ty nr => [(2, 2), (10, 0x211), (4, tk.toNat), (11, vd.toNat), (1, q.toNat), (4, g.toNat), (11, va.toNat), (11, vb.toNat), (4, ty.toNat), (2, nr.toNat), (4, 0)]
  | .vcmp tk g vd q va vb ty nr x3 => [(2, 2), (10, 0x212), (4, tk.toNat), (11, vd.toNat), (1, q.toNat), (4, g.toNat), (11, va.toNat), (11, vb.toNat), (4, ty.toNat), (2, nr.toNat), (3, x3.toNat), (1, 0)]
  | .vsel tk g vd q va vb ty nr vc => [(2, 3), (10, 0x213), (4, tk.toNat), (11, vd.toNat), (1, q.toNat), (4, g.toNat), (11, va.toNat), (11, vb.toNat), (4, ty.toNat), (2, nr.toNat), (4, 0), (11, vc.toNat), (21, 0)]
  | .vmov tk g vd q va vb ty nr => [(2, 2), (10, 0x214), (4, tk.toNat), (11, vd.toNat), (1, q.toNat), (4, g.toNat), (11, va.toNat), (11, vb.toNat), (4, ty.toNat), (2, nr.toNat), (4, 0)]
  | .vmovi tk g vd ty nr lit => [(2, 3), (10, 0x215), (4, tk.toNat), (11, vd.toNat), (1, 0), (4, g.toNat), (22, 0), (4, ty.toNat), (2, nr.toNat), (4, 0), (32, lit.toNat)]
  | .vrotr tk g vd q va vb ty nr => [(2, 2), (10, 0x216), (4, tk.toNat), (11, vd.toNat), (1, q.toNat), (4, g.toNat), (11, va.toNat), (11, vb.toNat), (4, ty.toNat), (2, nr.toNat), (4, 0)]
  | .vrotc tk g vd q va vb ty nr => [(2, 2), (10, 0x217), (4, tk.toNat), (11, vd.toNat), (1, q.toNat), (4, g.toNat), (11, va.toNat), (11, vb.toNat), (4, ty.toNat), (2, nr.toNat), (4, 0)]
  | .vbcr tk g vd q va vb ty nr => [(2, 2), (10, 0x218), (4, tk.toNat), (11, vd.toNat), (1, q.toNat), (4, g.toNat), (11, va.toNat), (11, vb.toNat), (4, ty.toNat), (2, nr.toNat), (4, 0)]
  | .vbcc tk g vd q va vb ty nr => [(2, 2), (10, 0x219), (4, tk.toNat), (11, vd.toNat), (1, q.toNat), (4, g.toNat), (11, va.toNat), (11, vb.toNat), (4, ty.toNat), (2, nr.toNat), (4, 0)]
  | .vshuf tk g vd va vb ty nr => [(2, 2), (10, 0x21A), (4, tk.toNat), (11, vd.toNat), (1, 0), (4, g.toNat), (11, va.toNat), (11, vb.toNat), (4, ty.toNat), (2, nr.toNat), (4, 0)]
  | .vgath tk g vd vb ty nr x3 x1 => [(2, 2), (10, 0x21B), (4, tk.toNat), (11, vd.toNat), (1, 0), (4, g.toNat), (11, 0), (11, vb.toNat), (4, ty.toNat), (2, nr.toNat), (3, x3.toNat), (1, x1.toNat)]
  | .vscat tk g va vb ty nr x3 x1 => [(2, 2), (10, 0x21C), (4, tk.toNat), (12, 0), (4, g.toNat), (11, va.toNat), (11, vb.toNat), (4, ty.toNat), (2, nr.toNat), (3, x3.toNat), (1, x1.toNat)]
  | .vexp2 tk g vd va ty nr x3 x1 => [(2, 2), (10, 0x21D), (4, tk.toNat), (11, vd.toNat), (1, 0), (4, g.toNat), (11, va.toNat), (11, 0), (4, ty.toNat), (2, nr.toNat), (3, x3.toNat), (1, x1.toNat)]
  | .vlog2 tk g vd va ty nr x3 x1 => [(2, 2), (10, 0x21E), (4, tk.toNat), (11, vd.toNat), (1, 0), (4, g.toNat), (11, va.toNat), (11, 0), (4, ty.toNat), (2, nr.toNat), (3, x3.toNat), (1, x1.toNat)]
  | .vrcp tk g vd va ty nr x3 x1 => [(2, 2), (10, 0x21F), (4, tk.toNat), (11, vd.toNat), (1, 0), (4, g.toNat), (11, va.toNat), (11, 0), (4, ty.toNat), (2, nr.toNat), (3, x3.toNat), (1, x1.toNat)]
  | .vrsq tk g vd va ty nr x3 x1 => [(2, 2), (10, 0x220), (4, tk.toNat), (11, vd.toNat), (1, 0), (4, g.toNat), (11, va.toNat), (11, 0), (4, ty.toNat), (2, nr.toNat), (3, x3.toNat), (1, x1.toNat)]
  | .vsin tk g vd va ty nr x3 x1 => [(2, 2), (10, 0x221), (4, tk.toNat), (11, vd.toNat), (1, 0), (4, g.toNat), (11, va.toNat), (11, 0), (4, ty.toNat), (2, nr.toNat), (3, x3.toNat), (1, x1.toNat)]
  | .vcos tk g vd va ty nr x3 x1 => [(2, 2), (10, 0x222), (4, tk.toNat), (11, vd.toNat), (1, 0), (4, g.toNat), (11, va.toNat), (11, 0), (4, ty.toNat), (2, nr.toNat), (3, x3.toNat), (1, x1.toNat)]
  | .vtanh tk g vd va ty nr x3 x1 => [(2, 2), (10, 0x223), (4, tk.toNat), (11, vd.toNat), (1, 0), (4, g.toNat), (11, va.toNat), (11, 0), (4, ty.toNat), (2, nr.toNat), (3, x3.toNat), (1, x1.toNat)]
  | .vpack tk g vd va x1 => [(2, 2), (10, 0x224), (4, tk.toNat), (11, vd.toNat), (1, 0), (4, g.toNat), (11, va.toNat), (20, 0), (1, x1.toNat)]
  | .vunpk tk g vd va x1 => [(2, 2), (10, 0x225), (4, tk.toNat), (11, vd.toNat), (1, 0), (4, g.toNat), (11, va.toNat), (20, 0), (1, x1.toNat)]
  | .vqnt tk g vd va fmt rnd ty nr x1 => [(2, 2), (10, 0x226), (4, tk.toNat), (11, vd.toNat), (1, 0), (4, g.toNat), (11, va.toNat), (8, fmt.toNat), (3, rnd.toNat), (4, ty.toNat), (2, nr.toNat), (3, 0), (1, x1.toNat)]
  | .vseed tk g sa => [(2, 2), (10, 0x227), (4, tk.toNat), (12, 0), (4, g.toNat), (5, sa.toNat), (27, 0)]
  | .attn tk g h a dq dd => [(2, 2), (10, 0x280), (4, tk.toNat), (4, h.toNat), (3, a.toNat), (5, 0), (4, g.toNat), (4, dq.toNat), (4, dd.toNat), (24, 0)]
  | .kvapp tk g h a vk vv n => [(2, 2), (10, 0x281), (4, tk.toNat), (4, h.toNat), (3, a.toNat), (5, 0), (4, g.toNat), (11, vk.toNat), (11, vv.toNat), (6, n.toNat), (4, 0)]
  | .rope tk g vd va sb h pinc ng => [(2, 2), (10, 0x282), (4, tk.toNat), (11, vd.toNat), (1, 0), (4, g.toNat), (11, va.toNat), (5, sb.toNat), (6, 0), (4, h.toNat), (1, pinc.toNat), (2, ng.toNat), (3, 0)]
  | .spanopen tk g h tag => [(2, 2), (10, 0x283), (4, tk.toNat), (4, h.toNat), (3, tag.toNat), (5, 0), (4, g.toNat), (32, 0)]
  | .spanclose tk g h => [(2, 2), (10, 0x284), (4, tk.toNat), (4, h.toNat), (8, 0), (4, g.toNat), (32, 0)]
  | .retspan tk g h a mode mask => [(2, 2), (10, 0x285), (4, tk.toNat), (4, h.toNat), (3, a.toNat), (1, mode.toNat), (4, 0), (4, g.toNat), (8, mask.toNat), (24, 0)]
  | .kvpromo tk g h a mask => [(2, 2), (10, 0x287), (4, tk.toNat), (4, h.toNat), (3, a.toNat), (5, 0), (4, g.toNat), (8, mask.toNat), (24, 0)]
  | .seqq g x y h item => [(2, 2), (10, 0x286), (4, g.toNat), (4, h.toNat), (2, 0), (5, y.toNat), (5, x.toNat), (4, item.toNat), (28, 0)]
  | .spawn g x y a => [(2, 2), (10, 0x300), (4, g.toNat), (3, a.toNat), (3, 0), (5, y.toNat), (5, x.toNat), (32, 0)]
  | .spawnRec g x y a => [(2, 2), (10, 0x301), (4, g.toNat), (3, a.toNat), (3, 0), (5, y.toNat), (5, x.toNat), (32, 0)]
  | .depdec g x y ii k => [(2, 2), (10, 0x302), (4, g.toNat), (1, ii.toNat), (5, 0), (5, y.toNat), (5, x.toNat), (16, k.toNat), (16, 0)]
  | .taskq g x y item => [(2, 2), (10, 0x306), (4, g.toNat), (6, 0), (5, y.toNat), (5, x.toNat), (4, item.toNat), (28, 0)]
  | .commit g => [(2, 1), (10, 0x303), (4, g.toNat), (16, 0)]
  | .exit g => [(2, 1), (10, 0x304), (4, g.toNat), (16, 0)]
  | .arrive g slot p => [(2, 1), (10, 0x305), (4, g.toNat), (2, slot.toNat), (1, p.toNat), (13, 0)]
  | .racqP g a k => [(2, 1), (10, 0x308), (4, g.toNat), (3, a.toNat), (3, k.toNat), (1, 0), (9, 0)]
  | .racqC g a k => [(2, 1), (10, 0x308), (4, g.toNat), (3, a.toNat), (3, k.toNat), (1, 1), (9, 0)]
  | .rrelP g k => [(2, 1), (10, 0x309), (4, g.toNat), (3, 0), (3, k.toNat), (1, 0), (9, 0)]
  | .rrelC g k => [(2, 1), (10, 0x309), (4, g.toNat), (3, 0), (3, k.toNat), (1, 1), (9, 0)]
  | .tokq g x => [(2, 1), (10, 0x30A), (4, g.toNat), (11, 0), (5, x.toNat)]
  | .put g x y a k => [(2, 2), (10, 0x30B), (4, g.toNat), (3, a.toNat), (3, 0), (5, y.toNat), (5, x.toNat), (3, k.toNat), (29, 0)]
  | .intk tk g a imm => [(2, 2), (10, 0x310), (4, tk.toNat), (3, a.toNat), (9, 0), (4, g.toNat), (32, imm.toNat)]
  | .sumprd g x a ch => [(2, 2), (10, 0x311), (4, g.toNat), (3, a.toNat), (8, 0), (5, x.toNat), (4, ch.toNat), (28, 0)]
  | .xsend tk g hd hs a imm => [(2, 3), (10, 0x318), (4, tk.toNat), (4, hd.toNat), (4, hs.toNat), (3, a.toNat), (1, 0), (4, g.toNat), (32, imm.toNat), (32, 0)]
  | .xstep tk g sr a ld => [(2, 2), (10, 0x319), (4, tk.toNat), (5, sr.toNat), (3, a.toNat), (4, 0), (4, g.toNat), (28, ld.toNat), (4, 0)]
  | .xsync g x y w => [(2, 2), (10, 0x31A), (4, g.toNat), (1, w.toNat), (5, 0), (5, y.toNat), (5, x.toNat), (32, 0)]
  | .trap g w => [(2, 1), (10, 0x380), (4, g.toNat), (16, w.toNat)]
  | .omcall g x y => [(2, 1), (10, 0x381), (4, g.toNat), (6, 0), (3, y.toNat), (2, 0), (5, x.toNat)]
  | .sysrd g x y num => [(2, 2), (10, 0x382), (4, g.toNat), (6, 0), (5, y.toNat), (5, x.toNat), (12, num.toNat), (20, 0)]
  | .syswr g x y num => [(2, 2), (10, 0x383), (4, g.toNat), (6, 0), (5, y.toNat), (5, x.toNat), (12, num.toNat), (20, 0)]
  | .eret g => [(2, 1), (10, 0x384), (4, g.toNat), (16, 0)]
  | .waiti g x => [(2, 1), (10, 0x385), (4, g.toNat), (11, 0), (5, x.toNat)]
  | .halt g => [(2, 1), (10, 0x386), (4, g.toNat), (16, 0)]
  | .decmap g x y h slot => [(2, 2), (10, 0x387), (4, g.toNat), (4, h.toNat), (2, 0), (5, y.toNat), (5, x.toNat), (3, slot.toNat), (29, 0)]
  | .tlbinv g x y sc all => [(2, 2), (10, 0x388), (4, g.toNat), (2, sc.toNat), (1, all.toNat), (3, 0), (5, y.toNat), (5, x.toNat), (32, 0)]
  | .otinv g x y sc all => [(2, 2), (10, 0x389), (4, g.toNat), (2, sc.toNat), (1, all.toNat), (3, 0), (5, y.toNat), (5, x.toNat), (32, 0)]
  | .migr g x a => [(2, 2), (10, 0x38A), (4, g.toNat), (3, a.toNat), (8, 0), (5, x.toNat), (32, 0)]
  | .zerob g x y kind => [(2, 2), (10, 0x38B), (4, g.toNat), (3, kind.toNat), (3, 0), (5, y.toNat), (5, x.toNat), (32, 0)]
  | .keyset g x op wl => [(2, 2), (10, 0x38C), (4, g.toNat), (1, op.toNat), (10, 0), (5, x.toNat), (8, wl.toNat), (24, 0)]
  | .coldReset => []
  | .warmReset _ => []
  | .bringupStepComplete _ _ _ _ => []
  | .pwrCmdPs0 _ _ _ _ => []
  | .pwrCmdPs1 _ _ _ _ => []
  | .pwrCmdPs2 _ _ _ _ => []
  | .pwrCmdPs3 _ _ _ _ => []
  | .ps1DrainComplete => []
  | .ps1DrainTimeout => []
  | .powerTransitionComplete => []
  | .selfRefreshIdle _ => []
  | .powerSample _ => []
  | .powerThrottleStep _ => []
  | .thermalStep _ => []
  | .thermalStop _ => []
  | .thermalRestart _ => []
  | .hostLinkDown => []
  | .hostLinkUp => []
  | .pmcsrWrite _ => []
  | .launchSubmit _ _ => []
  | .hostQueueAccept _ => []
  | .cqcreate _ => []
  | .cqdestroy _ => []
  | .objcreate _ _ _ => []
  | .objdelete _ => []
  | .objdeleteComplete _ => []
  | .objwrite _ _ => []
  | .objread _ _ => []
  | .objmove _ _ => []
  | .flashreg _ _ _ => []
  | .objquery _ _ => []
  | .slotbind _ => []
  | .gang _ _ _ => []
  | .cqheadWrite _ _ => []
  | .cqtailRead _ => []
  | .completionModerationTimer _ => []
  | .errstatClear _ => []
  | .pwrstatClear _ => []
  | .tetherstatClear _ => []
  | .plstatClear _ _ => []
  | .slstatClear _ _ => []
  | .tetherctlWrite _ => []
  | .plctlDisable _ => []
  | .plctlEnable _ => []
  | .stepCounterWrite _ _ _ => []
  | .fqheadWrite _ => []
  | .fanswerResume _ _ => []
  | .fanswerSkip _ _ => []
  | .fanswerReplay _ _ => []
  | .fanswerKill _ _ _ => []
  | .registerWrite _ _ _ _ => []
  | .cxlPortDown _ _ => []
  | .cxlPortUp _ => []
  | .cxlDownTimeout _ => []
  | .cxlExtentAdd _ _ _ => []
  | .cxlExtentRelease _ _ => []
  | .nvmeCompletion _ _ => []
  | .nvmeTimeout _ _ => []
  | .peerPortTrained _ _ => []
  | .idle _ _ _ => []
  | .rdreq _ _ _ _ => []
  | .rdrsp _ _ _ _ _ => []
  | .wrreq _ _ _ _ => []
  | .wrack _ _ _ _ => []
  | .atreq _ _ _ _ => []
  | .atrsp _ _ _ _ _ _ => []
  | .xfer _ _ _ _ => []
  | .tsync _ _ _ _ _ => []
  | .tsyncTimer => []
  | .lctlNak _ _ _ _ => []
  | .lctlCredit _ _ _ _ _ => []
  | .portRxTimeout _ => []
  | .requestTimeout _ => []
  | .gangPrepare _ _ _ _ _ => []
  | .gangPrepared _ _ _ _ => []
  | .gangRefused _ _ _ _ _ => []
  | .gangCommit _ _ _ _ _ => []
  | .gangAbort _ _ _ _ => []
  | .gangAlive _ _ _ _ => []
  | .gangDone _ _ _ _ _ _ _ => []
  | .gangPrepareDeadline _ => []
  | .gangStartT _ _ => []
  | .gangCommitWaitTimeout _ _ => []
  | .gangAliveTimer => []
  | .gangMemberSilent _ _ => []
  | .gangCoordinatorSilent _ _ => []
  | .gangAbortCollect _ _ => []
  | .hopplanSendSlot _ => []
  | .hopplanRecvStep _ => []
  | .hopplanRecvDeadline _ => []
  | .objectCacheFill _ _ => []
  | .pageWalkComplete _ _ => []
  | .memoryRequestComplete _ _ => []
  | .sliceStrongAccess _ => []
  | .migrationBusyZero _ => []
  | .migrationCopyDone _ => []
  | .eviction _ _ => []
  | .accessBitSample => []
  | .memoryScrub _ => []
  | .handoverKeyxferAnswer _ _ => []
  | .handoverDataok _ => []
  | .handoverRebind _ _ _ => []
  | .handoverConfirm _ => []
  | .handoverStepTimeout _ => []
  | .handoverTimeout _ => []
  | .attest => []
  | .wcreate => []
  | .wdestroy => []
  | .keygen => []
  | .certset => []
  | .keyxfer => []
  | .securityLockstepMismatch => []
  | .dependenceDecrement _ => []
  | .paramImageLoaded _ _ => []
  | .stepDispatch _ _ => []
  | .agingStep _ => []
  | .preemptGrace _ => []
  | .preemptDiscardDone _ => []
  | .gatherRelease => []
  | .pipelineGathered => []
  | .localGangGathered _ => []
  | .pipelineRebalance _ => []
  | .taskEnd _ => []
  | .parkedStepResume _ _ => []
  | .cascArrival _ => []
  | .spoutGrant _ => []
  | .cascHoldTimeout _ => []
  | .spoutLaunchTaken _ => []
  | .spoutNoRecord _ => []
  | .chainMessageStart _ _ => []
  | .chainStageFault _ => []
  | .batchDeliver _ => []
  | .consumerGone _ _ => []
  | .engineCommandIssue _ _ => []
  | .engineCommandRetire _ _ _ _ => []
  | .sfuWriteback _ => []
  | .stepBoundaryRelease _ _ => []
  | .tokenStall _ => []
  | .faultFrameWrite _ _ _ _ _ _ _ => []
  | .ueEngine _ _ => []
  | .ueMem _ _ => []
  | .ueBasin _ _ => []
  | .ueCacheEntry _ _ _ => []
  | .ueSliceBuffer _ _ => []
  | .pubEffect _ => []
  | .draftOpen _ => []
  | .spawnArrival _ => []
  | .nearbankStart _ _ _ => []
  | .nearbankComplete _ _ _ => []
  | .seqCommandExecute _ _ _ => []
  | .attnRequestStart _ _ => []
  | .pinReleaseFree _ _ => []
  | .ringTransfer _ _ => []
  | .tetherMsTick => []
  | .commandSlotSubmit _ _ => []
  | .xsyncWaitRelease _ _ => []

/-- Length in words of an encoding (0 for an event). -/
def Instr.size (i : Instr) : Nat := (segments i).headD (0, 0) |>.2

/-- The encoding as one number, bit 0 being bit 0 of the first word. -/
def encodeNat (i : Instr) : Nat := Decode.pack (segments i)

/-- The words of x, lowest first. -/
def splitWords : Nat → Nat → List U32
  | 0, _ => []
  | k + 1, x => BitVec.ofNat 32 x :: splitWords k (x / 2 ^ 32)

/-- The words of a well-formed instruction, the first at the lowest address. -/
def encode (i : Instr) : List U32 := splitWords i.size (encodeNat i)

/-- The instruction that the decoder reads from bits numbered as spec/opcode_table.json numbers them. -/
def decodeTableWord (_nbits w : Nat) : Option Instr :=
  match Decode.words (splitWords 3 w) with
  | .ok i => some i
  | .error _ => none

end Sys2Proof
end

