-- ==== Sys2Proof/Machine/Ops.lean ====
section
/-!
DEFINITION. The named operations over the state: units and registers, who issues, positions in a code image, the issue
of a control-core instruction, taking an exception, returning from one, and the clock.
-/

namespace Sys2Proof.Machine

open Sys2Proof

/-! ### Units of the package -/

def State.core (s : State) (f : Nat) : Core := tget s.cores .initial f
def State.setCore (s : State) (f : Nat) (c : Core) : State := { s with cores := tset s.cores f c }
def State.sysCore (s : State) (n : Nat) : SysCore := tget s.sys .initial n
def State.setSys (s : State) (n : Nat) (c : SysCore) : State := { s with sys := tset s.sys n c }
def State.slice (s : State) (n : Nat) : Slice := tget s.slices .initial n
def State.setSlice (s : State) (n : Nat) (x : Slice) : State := { s with slices := tset s.slices n x }
def State.cluster (s : State) (n : Nat) : Cluster := tget s.clusters .initial n
def State.setCluster (s : State) (n : Nat) (x : Cluster) : State := { s with clusters := tset s.clusters n x }
def State.chain (s : State) (n : Nat) : Chain := tget s.chains .initial n
def State.setChain (s : State) (n : Nat) (x : Chain) : State := { s with chains := tset s.chains n x }
def State.unit (s : State) (n : Nat) : SchedUnit := tget s.sched.units .initial n
def State.setUnit (s : State) (n : Nat) (x : SchedUnit) : State :=
  { s with sched := { s.sched with units := tset s.sched.units n x } }
def State.hunit (s : State) (n : Nat) : HandleUnit := tget s.objs.units .initial n
def State.setHunit (s : State) (n : Nat) (x : HandleUnit) : State :=
  { s with objs := { s.objs with units := tset s.objs.units n x } }
def State.peer (s : State) (n : Nat) : PeerPort := tget s.links.peers .initial n
def State.setPeer (s : State) (n : Nat) (x : PeerPort) : State :=
  { s with links := { s.links with peers := tset s.links.peers n x } }

def Core.bank (c : Core) (b : BitVec 1) : Bank := c.banks[b.toNat]'(b.isLt)
def Core.setBank (c : Core) (b : BitVec 1) (k : Bank) : Core := { c with banks := c.banks.set b.toNat k b.isLt }
def State.bank (s : State) (f : Nat) (b : BitVec 1) : Bank := (s.core f).bank b
def State.setBank (s : State) (f : Nat) (b : BitVec 1) (k : Bank) : State := s.setCore f ((s.core f).setBank b k)

def Bank.ctx (k : Bank) : CtxId → Ctx
  | .L => k.L
  | .C => k.C
  | .S => k.S
def Bank.setCtx (k : Bank) (c : CtxId) (x : Ctx) : Bank :=
  match c with
  | .L => { k with L := x }
  | .C => { k with C := x }
  | .S => { k with S := x }

/-! ### Registers of a context (Table 12-7) -/

/-- An s register; s0 reads as 0 (R290). -/
def Ctx.getS (x : Ctx) (r : BitVec 5) : Word := if r = 0 then 0 else x.s[r.toNat]'(r.isLt)
/-- Write an s register; a write to s0 is discarded (R290). -/
def Ctx.setS (x : Ctx) (r : BitVec 5) (v : Word) : Ctx :=
  if r = 0 then x else { x with s := x.s.set r.toNat v r.isLt }
/-- A predicate; p0 reads as 1 (R290). -/
def Ctx.getP (x : Ctx) (r : BitVec 3) : Bool := if r = 0 then true else x.p.getLsbD r.toNat
/-- Write a predicate; a write to p0 is discarded (R290). -/
def Ctx.setP (x : Ctx) (r : BitVec 3) (v : Bool) : Ctx :=
  if r = 0 then x
  else { x with p := if v then x.p ||| (1#8 <<< r.toNat) else x.p &&& ~~~(1#8 <<< r.toNat) }
def Ctx.getA (x : Ctx) (r : BitVec 3) : U32 := x.a[r.toNat]'(r.isLt)
def Ctx.setA (x : Ctx) (r : BitVec 3) (v : U32) : Ctx := { x with a := x.a.set r.toNat v r.isLt }
def Ctx.getLc (x : Ctx) (r : BitVec 2) : U32 := x.lc[r.toNat]'(r.isLt)
def Ctx.setLc (x : Ctx) (r : BitVec 2) (v : U32) : Ctx := { x with lc := x.lc.set r.toNat v r.isLt }

/-! ### The agent that issues (R175, R442) -/

/-- The context whose instruction issues: of the active bank of a core, or of a system core. -/
def State.ctx (s : State) : Ctx :=
  match s.turn with
  | .core f c => ((s.core f.toNat).bank (s.core f.toNat).active).ctx c
  | .sys n => (s.sysCore n.toNat).ctx

def State.setCtx (s : State) (x : Ctx) : State :=
  match s.turn with
  | .core f c =>
    let k := s.core f.toNat
    s.setCore f.toNat (k.setBank k.active ((k.bank k.active).setCtx c x))
  | .sys n => s.setSys n.toNat { s.sysCore n.toNat with ctx := x }

/-- R442: system mode is running on a system core. -/
def State.isSys (s : State) : Bool :=
  match s.turn with
  | .core _ _ => false
  | .sys _ => true

/-- Flat number of the issuing core (0 for a system core). -/
def State.coreNo (s : State) : Nat :=
  match s.turn with
  | .core f _ => f.toNat
  | .sys _ => 0
def State.ctxNo (s : State) : CtxId :=
  match s.turn with
  | .core _ c => c
  | .sys _ => .C
def State.bankNo (s : State) : BitVec 1 := (s.core s.coreNo).active
/-- The bank in which the issuing context runs. -/
def State.curBank (s : State) : Bank := s.bank s.coreNo s.bankNo
def State.setCurBank (s : State) (k : Bank) : State := s.setBank s.coreNo s.bankNo k

def State.getS (s : State) (r : BitVec 5) : Word := s.ctx.getS r
def State.setS (s : State) (r : BitVec 5) (v : Word) : State := s.setCtx (s.ctx.setS r v)
def State.getP (s : State) (r : BitVec 3) : Bool := s.ctx.getP r
def State.setP (s : State) (r : BitVec 3) (v : Bool) : State := s.setCtx (s.ctx.setP r v)
def State.getA (s : State) (r : BitVec 3) : U32 := s.ctx.getA r
def State.setA (s : State) (r : BitVec 3) (v : U32) : State := s.setCtx (s.ctx.setA r v)

/-- What a shared register of a step shows to a context: in the cycle in which another context has written it, the value
before (R177). -/
def sharedRead {α : Type} (old : List (Nat × Nat × CtxId × α)) (cycle : Nat) (c : CtxId) (r : Nat) (now : α) : α :=
  ((old.find? fun x => x.1 == r && x.2.1 == cycle && x.2.2.1 != c).map fun x => x.2.2.2).getD now
/-- A context writes a shared register: the value before this cycle is kept for the others. -/
def sharedWrite {α : Type} (old : List (Nat × Nat × CtxId × α)) (cycle : Nat) (c : CtxId) (r : Nat) (now : α) : List (Nat × Nat × CtxId × α) :=
  let before := ((old.find? fun x => x.1 == r && x.2.1 == cycle).map fun x => x.2.2.2).getD now
  (r, cycle, c, before) :: old.filter fun x => x.2.1 == cycle && x.1 != r

/-- A handle register: of the step, or of the system core (R443). -/
def State.getH (s : State) (r : BitVec 4) : Word :=
  match s.turn with
  | .core _ c => sharedRead s.curBank.hOld s.cycle c r.toNat (s.curBank.h[r.toNat]'(r.isLt))
  | .sys n => (s.sysCore n.toNat).h[r.toNat]'(r.isLt)
def State.setH (s : State) (r : BitVec 4) (v : Word) : State :=
  match s.turn with
  | .core _ c =>
    let k := s.curBank
    s.setCurBank { k with h := k.h.set r.toNat v r.isLt, hOld := sharedWrite k.hOld s.cycle c r.toNat (k.h[r.toNat]'(r.isLt)) }
  | .sys n => let c := s.sysCore n.toNat; s.setSys n.toNat { c with h := c.h.set r.toNat v r.isLt }
/-- A descriptor register of the step. -/
def State.getD (s : State) (r : BitVec 4) : DescW :=
  sharedRead s.curBank.dOld s.cycle s.ctxNo r.toNat (s.curBank.d[r.toNat]'(r.isLt))
def State.setD (s : State) (r : BitVec 4) (v : DescW) : State :=
  let k := s.curBank
  s.setCurBank { k with d := k.d.set r.toNat v r.isLt, dOld := sharedWrite k.dOld s.cycle s.ctxNo r.toNat (k.d[r.toNat]'(r.isLt)) }
/-- The 16 handle registers as the issuing context reads them. -/
def State.handles (s : State) : List Word := (List.range 16).map fun r => s.getH (BitVec.ofNat 4 r)

/-- World of the issuing task; a system core acts with the rights of world 0 (R443). -/
def State.world (s : State) : Byte :=
  if s.isSys then 0 else
  match s.curBank.run with
  | some r => r.world
  | none => 0
/-- Identifier of the issuing task, 0 on a system core. -/
def State.taskId (s : State) : Word :=
  if s.isSys then 0 else
  match s.curBank.run with
  | some r => r.task
  | none => 0
/-- The handle unit of the issuing agent: of its cluster, or number 40 on the I/O dies (log entry 16). -/
def State.unitNo (s : State) : Nat := if s.isSys then 40 else s.coreNo / 8

/-! ### Positions (R179 to R181, R279) -/

/-- Where the code cache keeps a line of a template. -/
def codeKey (template : Word) (line : BitVec 24) : Nat :=
  template.toNat * 2 ^ 24 + line.toNat

/-- The 64 bytes of a line of the issuing agent's code, as its code cache or firmware memory holds them. -/
def State.lineBytes (s : State) (line : BitVec 24) : List Byte :=
  match s.turn with
  | .core f _ =>
    match s.curBank.run with
    | some r => (tfind (s.core f.toNat).codeCache (codeKey r.template line)).getD []
    | none => []
  | .sys _ => mread s.firmware (64 * line.toNat) 64

/-- A link word (Table 8-1). -/
structure Link where
  stream : Nat
  e : Bool
  t : Bool
  dist : Int
deriving DecidableEq, Repr

def linkOf (bs : List Byte) : Link :=
  let w := ofBytes (bs.take 4)
  { stream := bits w 31 30, e := bit w 29, t := bit w 28, dist := signExt w 28 }

/-- The line at a signed distance. -/
def lineAt (line : BitVec 24) (dist : Int) : Int := line.toNat + dist

/-- The position n words after slot k of a line (R279). Past the last instruction of a line with E = 1, or where the next
line would lie outside the 2^24 lines of an image, the position is slot 15 of that line, where the next fetch traps
(R181). -/
def State.after (s : State) (p : Pos) (n : Nat) : Pos :=
  let k := p.slot.toNat + n
  if k < 15 then { p with slot := BitVec.ofNat 4 k }
  else
    let l := linkOf (s.lineBytes p.line)
    if l.e || lineAt p.line l.dist < 0 || 2 ^ 24 ≤ lineAt p.line l.dist then { p with slot := 15 }
    else { line := BitVec.ofInt 24 (lineAt p.line l.dist), slot := 0 }

def Ctx.pos (x : Ctx) : Pos := { line := x.line, slot := x.slot }
def Ctx.at_ (x : Ctx) (p : Pos) : Ctx := { x with line := p.line, slot := p.slot }
def State.pos (s : State) : Pos := s.ctx.pos
def State.goto (s : State) (p : Pos) : State := s.setCtx (s.ctx.at_ p)
/-- The issuing context continues after an instruction of n words. -/
def State.advance (s : State) (n : Nat) : State := s.goto (s.after s.pos n)

/-- A position as one number (R245). -/
def posNat (p : Pos) : Nat := p.line.toNat * 16 + p.slot.toNat
def posOfNat (n : Nat) : Pos := { line := BitVec.ofNat 24 (n / 16), slot := BitVec.ofNat 4 n }

/-! ### Cause codes (Table 10-1) -/

namespace Cause
def handleInvalid : U16 := 0x0001
def objRights : U16 := 0x0002
def objRange : U16 := 0x0003
def objMissing : U16 := 0x0004
def objLost : U16 := 0x0005
def objRo : U16 := 0x0006
def objNoSpace : U16 := 0x0007
def verNoDraft : U16 := 0x0008
def illegalOp : U16 := 0x0010
def priv : U16 := 0x0011
def codeBad : U16 := 0x0012
def streamEnd : U16 := 0x0013
def regBound : U16 := 0x0018
def scratchBound : U16 := 0x0019
def barrierBound : U16 := 0x001A
def scratchAlign : U16 := 0x001B
def commitOrder : U16 := 0x0020
def fmtqEmpty : U16 := 0x0021
def tokenStall : U16 := 0x0022
def nbCross : U16 := 0x0028
def nbAttr : U16 := 0x0029
def spanOrder : U16 := 0x0030
def posRange : U16 := 0x0031
def posOvf : U16 := 0x0032
def trap : U16 := 0x0038
def ueEngine : U16 := 0x0040
def ueMem : U16 := 0x0041
def ueBasin : U16 := 0x0042
def linkTimeout : U16 := 0x0043
def operBad : U16 := 0x0048
def pipeBad : U16 := 0x0049
def gangBad : U16 := 0x004A
def pwrDrain : U16 := 0x004B
end Cause

/-- PATH of a fault frame (Table 10-2). -/
def pathCode : Path → BitVec 4
  | .L => 1 | .S => 2 | .M => 3 | .A => 4 | .N => 5 | .X => 6 | .I => 7 | .C => 8

/-- What a frame names beside the cause (Table 10-2). -/
structure TrapInfo where
  cause : U16
  path : BitVec 4 := 0
  level : BitVec 4 := 0
  handle : Word := 0
  idx : List U32 := []
  va : BitVec 52 := 0
  code : U16 := 0
deriving DecidableEq, Repr

def trapOf (c : U16) : TrapInfo := { cause := c }

/-! ### Taking an exception (R242, R243, R466) -/

/-- A cause arises in bank b of core f: the bank stops and drains. The first cause is the one recorded; a later one
only sets MULTI (R243). -/
def State.raise (s : State) (f : Nat) (b : BitVec 1) (source : BitVec 3) (fpc : Pos) (task : Word) (x : TrapInfo) : State :=
  let k := s.bank f b
  match k.fault with
  | some fi => s.setBank f b { k with fault := some { fi with multi := true } }
  | none => s.setBank f b { k with
      st := .draining,
      fault := some { cause := x.cause, source, path := x.path, level := x.level, handle := x.handle, idx := x.idx,
                      va := x.va, fpc, task, multi := false, code := x.code, cycle := s.cycle } }

/-- A cause on a system core (R466): ECAUSE and EPC are loaded, and control goes to SVEC. -/
def State.raiseSys (s : State) (n : Nat) (cause code : U16) (epc : Pos) : State :=
  let c := s.sysCore n
  s.setSys n { c with
    ecause := code ++ cause
    epc := BitVec.ofNat 28 (posNat epc)
    ctx := { c.ctx.at_ (posOfNat c.svec.toNat) with fence := none } }

def ctxSource : CtxId → BitVec 3
  | .L => 0 | .C => 1 | .S => 2

/-- A cause of the issuing context: on a compute core the core stops (R242), on a system core control goes to SVEC.
The instruction has no effect (class P). -/
def State.trap (s : State) (x : TrapInfo) : State :=
  match s.turn with
  | .core f c => s.raise f.toNat (s.core f.toNat).active (ctxSource c) s.pos s.taskId x
  | .sys n => s.raiseSys n.toNat x.cause x.code s.pos

/-- ERET continues at EPC (R466). -/
def State.eret (s : State) (n : Nat) : State :=
  let c := s.sysCore n
  s.setSys n { c with ctx := c.ctx.at_ (posOfNat c.epc.toNat) }

/-! ### Issue of a control-core instruction (R282, Table 12-6 rows 6 to 10) -/

/-- What an instruction does once it has issued. -/
inductive Res where
  /-- the effect is made; the context continues after the instruction -/
  | done (s : State)
  /-- the effect is made; the context continues at a position -/
  | goto (s : State) (p : Pos)
  /-- the instruction waits; it issues again later -/
  | stall (s : State)
  /-- a cause: the instruction has no effect -/
  | trap (x : TrapInfo)
  /-- the model stops -/
  | fault (r : Fault)
deriving DecidableEq, Repr

/-- The class of an instruction, for the checks before its own: its length in words; whether only system mode may
issue it (R288); whether a system core refuses it (R443); whether it needs COMMIT (Table 10-6). -/
structure Form where
  size : Nat
  sys : Bool := false
  compute : Bool := false
  commit : Bool := false
deriving DecidableEq, Repr

/-- The registers an instruction names: it waits while one of them awaits a result (R176). -/
structure Uses where
  s : List (BitVec 5) := []
  p : List (BitVec 3) := []
deriving DecidableEq, Repr

/-- R282: the guard holds when p(PRED) xor N is 1. -/
def State.guardHolds (s : State) (g : BitVec 4) : Bool :=
  (s.getP (BitVec.ofNat 3 g.toNat)) != g.getLsbD 3

def State.committed (s : State) : Bool :=
  match s.curBank.run with
  | some r => r.committed
  | none => false

/-- A named register, or the guard's predicate, awaits a result (R176). -/
def State.awaits (s : State) (g : BitVec 4) (u : Uses) : Bool :=
  let x := s.ctx
  u.s.any (fun r => x.pendS.getLsbD r.toNat)
    || (BitVec.ofNat 3 g.toNat :: u.p).any (fun r => x.pendP.getLsbD r.toNat)

/-- A context of the core has issued: the count of R191 starts again. -/
def State.noteIssue (s : State) : State :=
  if s.isSys || s.curBank.stall.isNone then s else s.setCurBank { s.curBank with stall := none }

/-- Complete the issue of an instruction of n words. -/
def finish (s : State) (n : Nat) : Res → Host.Outcome State Fault Refusal
  | .done t => .next (t.noteIssue.advance n)
  | .goto t p => .next (t.noteIssue.goto p)
  | .stall t => .next t
  | .trap x => .next (s.trap x)
  | .fault r => .fault r

/-- Issue a control-core instruction: the checks of Table 12-6 from row 6 in order, then its own effect. -/
def control (F : Form) (g : BitVec 4) (u : Uses) (s : State) (body : State → Res) : Host.Outcome State Fault Refusal :=
  if F.compute && s.isSys then .next (s.trap (trapOf Cause.illegalOp))
  else if F.sys && !s.isSys then .next (s.trap (trapOf Cause.priv))
  else if s.awaits g u then .next s
  else if !s.guardHolds g then .next (s.noteIssue.advance F.size)
  else if F.commit && !s.isSys && !s.committed then .next (s.trap (trapOf Cause.commitOrder))
  else finish s F.size (body s)

/-! ### Clock and time (R2, R17, R23) -/

/-- FREQ_ACT: 0 while the compute-die clock does not run, else the lower of the clocks called for (R18). -/
def Power.freqAct (p : Power) : U16 :=
  if p.pstate = .ps0 ∧ p.thermStopped = false then
    let point := match p.trans with
      | some t => t.was
      | none => p.freqCmd
    BitVec.ofNat 16 (min point.toNat (min p.powerCap.toNat p.thermCap.toNat))
  else 0

/-- n nanoseconds pass: TETHERCNT counts them, and the core clock counts its cycles (log entry 2). -/
def State.elapse (s : State) (n : Nat) : State :=
  let c := s.phase + n * s.power.freqAct.toNat
  { s with now := s.now + n, tether := s.tether + BitVec.ofNat 64 n, cycle := s.cycle + c / 1000, phase := c % 1000 }

def State.ready (s : State) : Bool := s.power.bootStep == 9

/-! ### Wake events of the system cores (R468) -/

/-- Latch an event in every system core; a sleeping core wakes. -/
def State.wake (s : State) (k : Nat) : State :=
  (List.range 16).foldl (fun s n =>
    let c := s.sysCore n
    s.setSys n { c with latched := c.latched ||| (1#6 <<< k), sleeping := false }) s

/-! ### Package numbers -/

def State.pkgNo (s : State) : Nat := s.pkg.toNat

end Sys2Proof.Machine
end

