-- ==== Sys2Proof/Machine/HostOps.lean ====
section
/-!
DEFINITION. Completion objects, interrupts and the error summary (03_host_interface.md): the one way in which the
device writes a record, signals a vector and sets an error bit.
-/

namespace Sys2Proof.Machine

open Sys2Proof

/-! ### Status codes (Table 3-8) -/

namespace Status
def ok : U16 := 0x0000
def lrBad : U16 := 0x0001
def lrPartial : U16 := 0x0002
def lrPrio : U16 := 0x0003
def lrWorld : U16 := 0x0004
def lrTemplate : U16 := 0x0005
def lrCq : U16 := 0x0006
def lrCqFull : U16 := 0x0007
def lrFull : U16 := 0x0008
def pwrState : U16 := 0x0009
def lrParam : U16 := 0x000A
def omBadOp : U16 := 0x0010
def omNoObj : U16 := 0x0011
def omRights : U16 := 0x0012
def omNoSpace : U16 := 0x0013
def omDma : U16 := 0x0014
def objLost : U16 := 0x0015
def omBusy : U16 := 0x0016
def killed : U16 := 0x0020
def poison : U16 := 0x0021
def linkTimeout : U16 := 0x0022
def replayFail : U16 := 0x0023
def gangAborted : U16 := 0x0030
def gangIncomplete : U16 := 0x0031
def tetherUnlocked : U16 := 0x0032
def pwrBadCmd : U16 := 0x0040
def pwrBusy : U16 := 0x0041
def pwrOk : U16 := 0x0042
def pwrDone : U16 := 0x0043
end Status

/-! ### MSI-X (R29, R64) -/

/-- A vector is masked: by MSI-X Enable or Function Mask, which hold for every vector, or by the Mask bit of its table
entry. With MSI-X not enabled a vector stays pending, as under Function Mask (log entry 15). -/
def State.msixMasked (s : State) (v : Nat) : Bool :=
  !s.links.msixEnable || s.links.msixFuncMask || (mget s.links.msixTable (16 * v + 12)).getLsbD 0

/-- Signal a vector: held while the link is down (R29), pending while it is masked, else sent. -/
def State.signal (s : State) (v : Nat) : State :=
  let l := s.links
  if !l.hostUp then
    { s with links := { l with heldMsix := if l.heldMsix.contains v then l.heldMsix else l.heldMsix ++ [v] } }
  else if s.msixMasked v then
    { s with links := { l with pba := if l.pba.contains v then l.pba else l.pba ++ [v] } }
  else { s with links := { l with msixSent := v :: l.msixSent } }

/-! ### Self-refresh (R22) -/

/-- The stack, or the half of LPDDR6, of a physical address. -/
def stackOf (pa : Nat) : Nat := if pa < 2 ^ 40 then pa / 2 ^ 36 else if pa < 2 ^ 52 + 2 ^ 39 then 12 else 13
/-- An access of the object manager in PS2: its stack or half leaves self-refresh. -/
def State.touchStack (s : State) (pa : Nat) : State :=
  if s.power.pstate = .ps2 ∧ pa < 2 ^ 53 then
    let u := stackOf pa
    { s with power := { s.power with selfRefresh := s.power.selfRefresh &&& ~~~(1#14 <<< u), lastAccess := tset s.power.lastAccess u s.now } }
  else s

/-! ### Completion objects (R62 to R64) -/

def CompletionObj.size (c : CompletionObj) : Nat := 64 * 2 ^ c.log2.toNat

/-- Free credits of completion object n; object 0 keeps 64 aside for EVENT records (R62). -/
def CompletionObj.freeCredits (c : CompletionObj) (n : Nat) : Nat :=
  if n = 0 then c.size - 64 - c.held - (c.count - c.events) else c.size - c.held - c.count

def State.cq (s : State) (n : Nat) : Option CompletionObj := tfind s.host.cqs n
def State.setCq (s : State) (n : Nat) (c : CompletionObj) : State :=
  { s with host := { s.host with cqs := tset s.host.cqs n c } }
def State.cqFree (s : State) (n : Nat) : Nat :=
  match s.cq n with
  | some c => c.freeCredits n
  | none => 0

/-- Take k credits of completion object n (R62). -/
def State.takeCredits (s : State) (n k : Nat) : State :=
  match s.cq n with
  | some c => s.setCq n { c with held := c.held + k }
  | none => s
/-- Give back k credits that no record will use. -/
def State.dropCredits (s : State) (n k : Nat) : State :=
  match s.cq n with
  | some c => s.setCq n { c with held := c.held - k }
  | none => s

/-- A completion record (Table 3-10), but for PHASE and WHEN. -/
structure Record where
  kind : Nat
  status : U16
  tag : U32
  result : Word
  replays : Nat := 0
  preempts : Nat := 0
  detail : U32 := 0
  data4 : Word := 0
  data5 : Word := 0
  irq : Bool := true
deriving DecidableEq, Repr

def Record.words (r : Record) (phase : Bool) (when_ : Word) : List Word :=
  [BitVec.ofNat 64 (b2n phase * 2 ^ 63 + r.kind % 128 * 2 ^ 56 + r.status.toNat * 2 ^ 32 + r.tag.toNat),
   r.result,
   BitVec.ofNat 64 (min r.replays 0xFFFF * 2 ^ 48 + min r.preempts 0xFFFF * 2 ^ 32 + r.detail.toNat),
   when_, r.data4, r.data5, 0, 0]

/-- Write a record at CQTAILn and count it towards the interrupt (R63, R64). -/
def State.cqWrite (s : State) (n : Nat) (r : Record) : State :=
  match s.cq n with
  | none => s
  | some c =>
    let t := c.tail.toNat
    let wraps := t + 1 = c.size
    let irq := c.irqCount + b2n r.irq
    let fires := r.irq && c.modcnt.toNat ≤ irq
    let a := c.base + 64 * t
    let s : State := { s.touchStack a with mem := mwrite (mzero s.mem a 64) a (bytesOfWords (r.words c.phase s.tether)) }
    let s' := s.setCq n { c with
      tail := if wraps then 0 else BitVec.ofNat 14 (t + 1)
      phase := if wraps then !c.phase else c.phase
      count := c.count + 1
      held := if r.kind = 5 then c.held else c.held - 1
      events := if r.kind = 5 then c.events + 1 else c.events
      kinds := c.kinds ++ [r.kind == 5]
      irqCount := if fires then 0 else irq
      irqFirst := if fires then none else if r.irq then some (c.irqFirst.getD s.now) else c.irqFirst }
    if fires then s'.signal c.vector.toNat else s'

/-! ### Device errors (R66) -/

/-- Set bit k of ERRSTAT and write its EVENT record to completion object 0; where its 64 credits are in use, EVTLOST
is set instead (R62). -/
def State.setErr (s : State) (k : Nat) (d4 d5 : Word) : State :=
  let e := { s with host := { s.host with errstat := s.host.errstat ||| (1#64 <<< k) } }
  let lost := fun (t : State) =>
    ({ t with host := { t.host with errstat := t.host.errstat ||| (1#64 <<< 7) } } : State).signal 0
  match e.cq 0 with
  | none => lost e
  | some c =>
    if c.events < 64 then
      (e.cqWrite 0 { kind := 5, status := 0, tag := 0, result := BitVec.ofNat 64 k, data4 := d4, data5 := d5 }).signal 0
    else lost e

/-- PWRSTAT (Table 1-8). -/
def Power.pwrstat (p : Power) : Word :=
  BitVec.ofNat 64 (p.freqAct.toNat * 2 ^ 32 + p.freqCmd.toNat * 2 ^ 16
    + b2n (decide (p.powerCap.toNat < p.freqCmd.toNat)) * 2 ^ 11
    + b2n (p.thermStopped || decide (p.thermCap.toNat < p.freqCmd.toNat)) * 2 ^ 10
    + b2n p.thermSeen * 2 ^ 9 + b2n p.pwrlimSeen * 2 ^ 8 + b2n p.trans.isSome * 4
    + (match p.pstate with | .ps0 => 0 | .ps1 => 1 | .ps2 => 2 | .ps3 => 3))

/-- Change PWRRES (R69); each change signals vector 2. A result equal to the value that PWRRES holds counts as a change: DESIGN
CHOICE (log entry 82). -/
def State.setPwrres (s : State) (seq status : U16) : State :=
  ({ s with power := { s.power with pwrres := BitVec.ofNat 64 (seq.toNat * 65536 + status.toNat) } } : State).signal 2

/-- TETHERSTAT (Table 2-7). -/
def Links.tetherstat (l : Links) : Word :=
  BitVec.ofNat 64 (l.master.toNat * 2 ^ 22 + l.skew.toNat * 256 + b2n l.lostLock * 2 + b2n l.lock)

/-- PLSTATn (Table 2-5). -/
def PeerPort.plstat (p : PeerPort) : Word :=
  BitVec.ofNat 64 (p.replays.toNat * 2 ^ 32 + p.nbr.toNat * 2 ^ 22 + p.crcerr.toNat * 256 + b2n p.timeout * 8 + p.st.toNat)

/-- CXSTATn and FLSTATn (Table 3-4). -/
def TierPort.stat (p : TierPort) : Word := BitVec.ofNat 64 (p.why.toNat * 16 + p.st.toNat)

/-- Every hop plan that runs takes note that lock has been lost (R48). -/
def State.losePlans (s : State) : State :=
  let note := fun (k : Bank) => { k with plan := k.plan.map fun p => { p with lost := true } }
  { s with cores := s.cores.map fun c => (c.1, { c.2 with banks := c.2.banks.map note }) }

/-- LOCK falls without a write to TETHERCTL (R49). -/
def State.loseLock (s : State) : State :=
  if s.links.lock then
    let t : State := { s.losePlans with links := { s.links with lock := false, lostLock := true } }
    t.setErr 3 t.links.tetherstat 0
  else s

end Sys2Proof.Machine
end

