-- ==== Sys2Proof/Machine/PeerOps.lean ====
section
/-!
DEFINITION. Sending on a peer port: flit headers (Table 2-3), credits, the replay buffer and the port that leads to a
package (R38 to R42).
-/

namespace Sys2Proof.Machine

open Sys2Proof

/-- The VC of a flit type (Table 2-4); none for a reserved type. -/
def vcOf (ty : Nat) : Option Nat :=
  match ty with
  | 0 => some 3 | 1 => some 0 | 2 => some 1 | 3 => some 0 | 4 => some 1 | 5 => some 0 | 6 => some 1 | 7 => some 2
  | 8 => some 3 | 9 => some 3 | 10 => some 3
  | _ => none

/-- A header with its CRC field zero (log entry 12). -/
def flitHdr (ty dst src vc seq ack : Nat) : Word :=
  BitVec.ofNat 64 (ty % 16 * 2 ^ 60 + dst % 1024 * 2 ^ 50 + src % 1024 * 2 ^ 40 + vc % 4 * 2 ^ 38
    + seq % 1024 * 2 ^ 28 + ack % 1024 * 2 ^ 18)

def hdrType (h : Word) : Nat := bits h.toNat 63 60
def hdrDst (h : Word) : Nat := bits h.toNat 59 50
def hdrSrc (h : Word) : Nat := bits h.toNat 49 40
def hdrVc (h : Word) : Nat := bits h.toNat 39 38
def hdrSeq (h : Word) : BitVec 10 := BitVec.ofNat 10 (bits h.toNat 37 28)
def hdrAck (h : Word) : BitVec 10 := BitVec.ofNat 10 (bits h.toNat 27 18)

/-- R39: the header of a flit of type ty is one that the receiving port accepts. -/
def hdrOk (ty : Nat) (h : Word) : Bool :=
  hdrType h == ty && vcOf ty == some (hdrVc h) && hdrDst h < 576 && hdrSrc h < 576 && bits h.toNat 17 16 == 0

/-- The header with the link fields of this transmission. -/
def relink (h : Word) (seq ack : BitVec 10) : Word :=
  BitVec.ofNat 64 (putBits (putBits h.toNat 37 28 seq.toNat) 27 18 ack.toNat)

/-- Send a flit that has a credit and a place in the replay buffer (R40). -/
def PeerPort.transmit (p : PeerPort) (vc : Nat) (f : Flit) : PeerPort :=
  let g : Flit := { f with hdr := relink f.hdr p.txSeq (p.rxSeq - 1) }
  { p with
    txSeq := p.txSeq + 1
    replay := p.replay ++ [g]
    sent := g :: p.sent
    credits := .ofFn fun (k : Fin 4) => if k.val = vc ∧ hdrType f.hdr ≠ 10 then p.credits[k] - 1 else p.credits[k] }

/-- A credit of the flit's VC is held, and the replay buffer of 512 flits has room (R40). An LCTL flit takes no credit
(log entry 32). -/
def PeerPort.canSend (p : PeerPort) (f : Flit) : Bool :=
  (0 < (p.credits.toList.getD (hdrVc f.hdr) 0) || hdrType f.hdr == 10) && p.replay.length < 512

/-- Send what waits, in order on each VC, as credits allow. -/
def PeerPort.flush : List Flit → PeerPort → PeerPort
  | [], p => p
  | f :: fs, p =>
    let vc := hdrVc f.hdr
    if p.canSend f && !(p.txq.any fun g => hdrVc g.hdr == vc) then PeerPort.flush fs (p.transmit vc f)
    else PeerPort.flush fs { p with txq := p.txq ++ [f] }

def PeerPort.drainTx (p : PeerPort) : PeerPort := PeerPort.flush p.txq { p with txq := [] }

/-- Put one flit on a port: a sender never sends without a credit (R40). -/
def State.sendFlit (s : State) (port ty dst : Nat) (pay : Payload) : State :=
  let p := s.peer port
  let vc := (vcOf ty).getD 3
  let f : Flit := { hdr := flitHdr ty dst s.pkgNo vc 0 0, pay }
  s.setPeer port (PeerPort.flush [f] p)

/-- The port that leads to a package is fixed for the pair (R41): the one that the first flit took, namely (log entry 24)
the lowest-numbered port that was up and had it as its neighbour, else the lowest-numbered port that was up. Nothing leaves
while that port is not up. -/
def State.portTo (s : State) (dst : Nat) : Option Nat :=
  let up := (List.range 18).filter fun n => (s.peer n).st == 2
  match tfind s.links.routes dst with
  | some n => if up.contains n then some n else none
  | none =>
    match up.find? fun n => (s.peer n).nbr.toNat == dst with
    | some n => some n
    | none => up.head?

/-- Send towards a package; with its port not up nothing leaves, and a request times out (R42). -/
def State.sendTo (s : State) (dst ty : Nat) (pay : Payload) : State :=
  match s.portTo dst with
  | some n => ({ s with links := { s.links with routes := tset s.links.routes dst n } } : State).sendFlit n ty dst pay
  | none => s

/-- The flit type of a request (Table 2-4). -/
def reqType : RemoteOp → Nat
  | .entry _ | .load _ _ | .query _ | .walk _ => 1
  | .store _ _ _ | .line _ _ | .recall _ _ | .invalidateTlb _ _ | .invalidateEntry _ _ | .guest _ _ => 3
  | _ => 5

/-- The flit type of a request: a store of a peer transfer crosses in an XFER flit (Table 2-4, R44). -/
def flitTypeOf (q : RemoteReq) : Nat :=
  match q.op with
  | .store _ _ _ | .line _ _ => if q.path = .X then 7 else 3
  | op => reqType op

/-- The bytes of a request that may not fit one flit of 120 bytes (R37). -/
def opBody : RemoteOp → List Byte
  | .nearbank args data | .sequence _ _ args data | .handover _ args data => toBytes 8 args.length ++ bytesOfWords args ++ data
  | .guest _ ws => bytesOfWords ws
  | _ => []
/-- A request with other bytes in place of its body. -/
def opWithBody (bs : List Byte) : RemoteOp → RemoteOp :=
  let n := (wordAt bs 0).toNat
  let args := (List.range n).map fun k => wordAt bs (k + 1)
  fun op => match op with
  | .nearbank _ _ => .nearbank args (bs.drop (8 * (n + 1)))
  | .sequence ix op _ _ => .sequence ix op args (bs.drop (8 * (n + 1)))
  | .handover step _ _ => .handover step args (bs.drop (8 * (n + 1)))
  | .guest gone _ => .guest gone ((List.range (bs.length / 8)).map (wordAt bs))
  | op => op

/-- Bytes in pieces of n. -/
def piecesOf (n : Nat) (bs : List Byte) : List (List Byte) := (List.range (ceilDiv bs.length n)).map fun j => (bs.drop (n * j)).take n

/-- Send a request: a body of more than 80 bytes leaves ahead of it, in flits of its own (R37; log entry 83), which the
order of R41 keeps before it. -/
def State.sendReq (s : State) (dst : Nat) (q : RemoteReq) : State :=
  let body := opBody q.op
  if body.length ≤ 80 then s.sendTo dst (flitTypeOf q) (.request q)
  else
    let t := (piecesOf 64 body).foldl (fun (s : State) bs => s.sendTo dst 5 (.request { q with op := .part bs })) s
    t.sendTo dst (flitTypeOf q) (.request { q with op := opWithBody [] q.op })

/-- Answer a read with RDRSP flits of at most 112 bytes of data (R37): all but the last say that more come. -/
def State.sendData (s : State) (dst : Nat) (tag : U32) (data : List Byte) : State :=
  if data.length ≤ 112 then s.sendTo dst 2 (.response tag 0 data 0)
  else
    let ps := piecesOf 64 data
    (ps.mapIdx fun j bs => (j, bs)).foldl (fun (s : State) p =>
      s.sendTo dst 2 (.response tag (if p.1 + 1 = ps.length then 0 else 1) p.2 0)) s

/-- A request that awaits no answer. -/
def plainReq (path : Path) (op : RemoteOp) : RemoteReq := { tag := 0, path, handle := 0, run := 0, task := 0, world := 0, op }

end Sys2Proof.Machine
end

