-- ==== Sys2Proof/Machine/MemOps.lean ====
section
/-!
DEFINITION. Objects and memory: handles and entries, layouts, page tables, the handle unit (R206), protected lines, the
values that a weak load may return (R216), the Basin and the L2 tags, and requests.
-/

namespace Sys2Proof.Machine

open Sys2Proof

/-! ### Handles (Table 4-1) -/

def hWorld (h : Word) : Nat := bits h.toNat 63 56
def hGen (h : Word) : Nat := bits h.toNat 55 40
def hHome (h : Word) : Nat := bits h.toNat 39 30
def hIndex (h : Word) : Nat := bits h.toNat 29 0
/-- Home and index of a handle as one number. -/
def objKey (h : Word) : Nat := bits h.toNat 39 0
def handleOf (world gen home index : Nat) : Word :=
  BitVec.ofNat 64 (world % 256 * 2 ^ 56 + gen % 65536 * 2 ^ 40 + home % 1024 * 2 ^ 30 + index % 2 ^ 30)

/-! ### Object-table entries (Table 4-3) -/

abbrev Entry := Vector Word 16

/-- Bits [hi:lo] of word w of an entry. -/
def efield (e : Entry) (w hi lo : Nat) : Nat := bits (e.toList.getD w 0).toNat hi lo

def eOwner (e : Entry) : Nat := efield e 0 63 56
def eGen (e : Entry) : Nat := efield e 0 55 40
def eKind (e : Entry) : Nat := efield e 0 39 36
def eState (e : Entry) : Nat := efield e 0 35 34
def eTier (e : Entry) : Nat := efield e 0 33 32
def eFmt (e : Entry) : Byte := BitVec.ofNat 8 (efield e 0 31 24)
def eLayout (e : Entry) : Nat := efield e 0 23 22
def eNdim (e : Entry) : Nat := efield e 0 21 20
/-- The number k of buffers. -/
def eBufs (e : Entry) : Nat := 2 ^ efield e 0 19 18
def eLarge (e : Entry) : Bool := efield e 0 17 17 == 1
def eMemside (e : Entry) : Bool := efield e 0 15 15 == 1
def eCompute (e : Entry) : Bool := efield e 0 14 14 == 1
def ePinned (e : Entry) : Bool := efield e 0 13 13 == 1
def eNocomp (e : Entry) : Bool := efield e 0 12 12 == 1
def eWrap (e : Entry) : Bool := efield e 0 11 11 == 1
def ePad (e : Entry) : Word := e.toList.getD 2 0
/-- Extent of dimension k. -/
def eExt (e : Entry) (k : Nat) : Nat :=
  match k with
  | 0 => efield e 4 63 32
  | 1 => efield e 4 31 0
  | 2 => efield e 3 63 32
  | _ => efield e 3 31 0
def eVbase (e : Entry) : Nat := efield e 5 51 0
def eSdim (e : Entry) : Nat := efield e 6 63 62
def eShards (e : Entry) : Nat := efield e 6 61 52 + 1
def eReps (e : Entry) : Nat := efield e 6 51 50 + 1
def eSmap (e : Entry) : Word := e.toList.getD 7 0
def eWidth (e : Entry) : Nat := fmtWidth (eFmt e)
def ePage (e : Entry) : Nat := if eLarge e then 2097152 else 65536
/-- KSPEC word k of 9 to 13. -/
def eSpec (e : Entry) (k : Nat) : Nat := (e.toList.getD k 0).toNat

/-- Rights bits (R74). -/
def rightR : Nat := 8
def rightW : Nat := 4
def rightA : Nat := 2
def rightL : Nat := 1

/-- Rights of a world on an object (R74); none of W and A on a template (R183). -/
def rightsOf (e : Entry) (world : Nat) : Nat :=
  let own := if eOwner e = world then efield e 8 3 0
    else (List.range 4).foldl (fun r k =>
      let slot := efield e 8 (27 + 12 * k) (16 + 12 * k)
      if slot / 16 = world then r ||| (slot % 16) else r) 0
  if eKind e = 2 then own &&& 9 else own

def hasRight (e : Entry) (world need : Nat) : Bool := rightsOf e world &&& need == need

/-- CRC-32C of bytes 0 to 7 and 16 to 119 (R72). -/
def entryCrc (e : Entry) : U32 :=
  let b := bytesOfWords e.toList
  crc32c (b.take 8 ++ (b.drop 16).take 104)
def entryCrcOk (e : Entry) : Bool := (entryCrc e).toNat == efield e 15 31 0
/-- The entry with word 15 rewritten. -/
def sealEntry (e : Entry) : Entry := e.set 15 ((entryCrc e).setWidth 64)
/-- The entry with bits [hi:lo] of word w replaced. -/
def eput (e : Entry) (w hi lo v : Nat) : Entry :=
  .ofFn fun k => if k.val = w then BitVec.ofNat 64 (putBits e[k].toNat hi lo v) else e[k]

/-- Address of the object-table entry of an index (R72). -/
def State.objAddr (s : State) (index : Nat) : Nat := s.objs.otBase + 128 * index
def State.entryInMem (s : State) (index : Nat) : Entry :=
  .ofFn fun k => mword s.mem (s.objAddr index + 8 * k.val)
/-- Write words 0 and 2 to 15 of an entry with a fresh CRC; word 1 is left alone. -/
def State.putEntry (s : State) (index : Nat) (e : Entry) : State :=
  let f := sealEntry e
  { s with mem := (List.range 16).foldl (fun m k =>
      if k = 1 then m else mputWord m (s.objAddr index + 8 * k) (f.toList.getD k 0)) s.mem }
/-- VERSION of a local object, at the slice that holds its entry (R72). -/
def State.versionAt (s : State) (index : Nat) : U32 :=
  BitVec.ofNat 32 (bits (mword s.mem (s.objAddr index + 8)).toNat 63 32)
def State.putVersion (s : State) (index : Nat) (v : U32) : State :=
  let a := s.objAddr index + 8
  { s with mem := mputWord s.mem a (BitVec.ofNat 64 (putBits (mword s.mem a).toNat 63 32 v.toNat)) }
/-- CFAIL rises by 1 and saturates (R148). -/
def State.bumpCfail (s : State) (index : Nat) : State :=
  let a := s.objAddr index + 8
  let w := (mword s.mem a).toNat
  { s with mem := mputWord s.mem a (BitVec.ofNat 64 (putBits w 31 0 (min 0xFFFFFFFF (bits w 31 0 + 1)))) }

/-! ### Layouts (R76, R77, R80) -/

def pitchOf (layout b nc : Nat) : Nat :=
  if layout = 3 then roundUp (ceilDiv nc 32 * (4 * b + 1)) 64 else roundUp (ceilDiv (nc * b) 8) 64

/-- LayoutOffset: byte offset, and offset of the scale byte for MXS. -/
def layoutOffset (layout b nc r c : Nat) : Nat × Option Nat :=
  match layout with
  | 0 => (r * pitchOf 0 b nc + c * b / 8, none)
  | 1 => ((r / 64 * ceilDiv nc 64 + c / 64) * (512 * b) + (r % 64 * 64 + c % 64) * b / 8, none)
  | 2 =>
    let pitch := pitchOf 2 b nc
    let q := r / 16
    let rows := 131072 / pitch
    (q / rows * 2097152 + r % 16 * 131072 + q % rows * pitch + c * b / 8, none)
  | _ =>
    let bs := 4 * b + 1
    let blk := r * pitchOf 3 b nc + c / 32 * bs
    (blk + c % 32 * b / 8, some (blk + 4 * b))

/-- Bytes of storage of one shard. -/
def storageOf (layout b nr nc : Nat) : Nat :=
  match layout with
  | 1 => ceilDiv nr 64 * ceilDiv nc 64 * (512 * b)
  | 2 => ceilDiv (ceilDiv nr 16) (131072 / pitchOf 2 b nc) * 2097152
  | l => nr * pitchOf l b nc

/-- The shard extent SE of the split dimension. -/
def shardExt (e : Entry) : Nat := ceilDiv (eExt e (eSdim e)) (eShards e)
/-- Extent of dimension k within one shard. -/
def eLocal (e : Entry) (k : Nat) : Nat := if k = eSdim e ∧ 1 < eShards e then shardExt e else eExt e k
def eRows (e : Entry) : Nat := eLocal e 0 * eLocal e 1 * eLocal e 2
def eCols (e : Entry) : Nat := eLocal e 3
def eStorage (e : Entry) : Nat := storageOf (eLayout e) (eWidth e) (eRows e) (eCols e)
/-- SPAN: the shard's storage rounded up to the page size (R77). -/
def eSpan (e : Entry) : Nat := roundUp (eStorage e) (ePage e)

/-- The tuple of a linear index (R334). -/
def tupleOf (e : Entry) (i : Nat) : List Nat :=
  let d3 := eExt e 3
  let d2 := eExt e 2
  let d1 := eExt e 1
  [i / (d3 * d2 * d1), i / (d3 * d2) % d1, i / d3 % d2, i % d3]

/-- R79: a component is at or beyond its extent. -/
def outside (e : Entry) (t : List Nat) : Bool := (List.range 4).any fun k => eExt e k ≤ t.getD k 0

/-- Shard, row and column of an element inside the object (R76, R80). -/
def locate (e : Entry) (t : List Nat) : Nat × Nat × Nat :=
  let se := shardExt e
  let x := t.getD (eSdim e) 0
  let s := if 1 < eShards e then x / se else 0
  let l := fun k => if k = eSdim e then x - s * (if 1 < eShards e then se else 0) else t.getD k 0
  (s, (l 0 * eLocal e 1 + l 1) * eLocal e 2 + l 2, l 3)

/-- Virtual address of byte off of buffer j. -/
def bufVa (e : Entry) (j off : Nat) : Nat := eVbase e + j * eSpan e + off

/-! ### Page tables (R84 to R87) -/

def ptIndex (va : Nat) : Nat → Nat × Nat
  | 1 => (bits va 51 42, 8192)
  | 2 => (bits va 41 33, 4096)
  | _ => (bits va 32 23, 8192)

/-- A directory entry that a walk may follow (Table 4-7). -/
def dirOk (w level : Nat) : Bool :=
  bit w 63 && bits w 61 40 == 0 && bits w 4 0 == 0 && (level == 3 || !bit w 62)

/-- A leaf entry that maps its segment (Table 4-8). -/
def leafOk (w : Nat) (large : Bool) : Bool :=
  bit w 63 && bits w 57 56 == 0 && bits w 39 35 == 0 && (!large || bits w 31 0 % 32 == 0)

/-- Walk the tables of this package: the address of the leaf, the leaf and whether it is large, or the level at which
the walk stops (Table 10-2 LEVEL). -/
def State.walkTables (s : State) (va : Nat) : Except Nat (Nat × Word × Bool) :=
  let rd := fun a => (mword s.mem a).toNat
  let d1 := rd (s.objs.ptRoot.toNat + 8 * (ptIndex va 1).1)
  let p1 := bits d1 39 5 * 32
  if !dirOk d1 1 || p1 % 4096 ≠ 0 then .error 1
  else
    let d2 := rd (p1 + 8 * (ptIndex va 2).1)
    let p2 := bits d2 39 5 * 32
    if !dirOk d2 2 || p2 % 8192 ≠ 0 then .error 2
    else
      let d3 := rd (p2 + 8 * (ptIndex va 3).1)
      let p3 := bits d3 39 5 * 32
      let large := bit d3 62
      if !dirOk d3 3 || p3 % (if large then 32 else 1024) ≠ 0 then .error 3
      else
        let a := p3 + 8 * (if large then bits va 22 21 else bits va 22 16)
        let l := rd a
        if leafOk l large then .ok (a, BitVec.ofNat 64 l, large) else .error 4

/-- Fields of a leaf (Table 4-8). -/
def leafTier (l : Word) : Nat := bits l.toNat 62 61
def leafHold (l : Word) : Bool := bit l.toNat 60
def leafLost (l : Word) : Bool := bit l.toNat 59
def leafUnav (l : Word) : Bool := bit l.toNat 58
def leafBusy (l : Word) : Nat := bits l.toNat 55 40
def leafPort (l : Word) : Nat := bits l.toNat 34 32
def leafPfn (l : Word) : Nat := bits l.toNat 31 0

/-- First byte of a frame in the one physical space of log entry 5. -/
def frameBase (tier port pfn : Nat) : Nat :=
  match tier with
  | 0 => pfn * 65536
  | 1 => 2 ^ 52 + pfn * 65536
  | 2 => 2 ^ 53 + pfn * 65536
  | _ => 2 ^ 54 + port * 2 ^ 48 + pfn * 65536

/-- Physical address of va under a leaf. -/
def leafPaOf (l : Word) (large : Bool) (va : Nat) : Nat :=
  frameBase (leafTier l) (leafPort l) (leafPfn l) + va % (if large then 2097152 else 65536)

/-- The package has storage at a physical address: HBM has the 192 slices of R12. -/
def hasStorage (pa : Nat) : Bool := 2 ^ 40 ≤ pa || pa / 2 ^ 32 < 192

/-- Home slice of an HBM address (R82). -/
def sliceOf (pa : Nat) : Nat := pa / 2 ^ 32

/-- Rewrite the leaf at an address. -/
def State.setLeaf (s : State) (a : Nat) (f : Nat → Nat) : State :=
  { s with mem := mputWord s.mem a (BitVec.ofNat 64 (f (mword s.mem a).toNat)) }
def State.leafNow (s : State) (a : Nat) : Word := mword s.mem a
/-- BUSY of the leaf at an address rises by n or falls (R90). -/
def State.busyUp (s : State) (a n : Nat) : State := s.setLeaf a fun l => putBits l 55 40 (bits l 55 40 + n)
def State.busyDown (s : State) (a n : Nat) : State := s.setLeaf a fun l => putBits l 55 40 (bits l 55 40 - n)

/-- Where a byte of HBM lies in its slice (Table 4-5). -/
structure DramPlace where
  pch : Nat
  bank : Nat
  row : Nat
  column : Nat
deriving DecidableEq, Repr

/-- Table 4-5: byte o of frame f, in an interleaved or a striped frame. -/
def dramPlace (striped : Bool) (f o : Nat) : DramPlace :=
  if striped then
    let n := 16 * (f % 64) + bits o 20 17
    { pch := n / 32, bank := n % 32, row := 128 * (f / 64) + bits o 16 10, column := bits o 9 0 }
  else { pch := bits o 10 6, bank := bits o 15 11, row := 2 * f + bits o 20 20, column := bits o 19 16 * 64 + bits o 5 0 }
/-- A subarray is 512 rows of one bank (R82). -/
def DramPlace.subarray (d : DramPlace) : Nat := d.row / 512
/-- The pseudo-channel of a stack: slice j of its 16 has 32 j to 32 j + 31 (R82). -/
def stackChannel (pa : Nat) (d : DramPlace) : Nat := sliceOf pa % 16 * 32 + d.pch
/-- The group of frames of an HBM PFN (R82). -/
def groupOf (pfn : Nat) : Nat := pfn / 65536 * 32 + pfn % 65536 / 32 / 64
/-- Where a physical address of HBM lies, in the mode of its group of frames. -/
def State.dramOf (s : State) (pa : Nat) : DramPlace :=
  dramPlace (s.objs.striped.contains (groupOf (pa / 65536))) (pa % 2 ^ 32 / 2097152) (pa % 2097152)

/-! ### CXL ports (R30, R32) -/

def CxlRange.holds (x : CxlRange) (pfn : Nat) : Bool := x.base ≤ pfn && pfn < x.base + x.len
def TierPort.covers (t : TierPort) (pfn : Nat) : Bool := t.extents.any fun x => x.holds pfn

/-- The CXL port through which a physical address of the tier is reached: a range over several ports is interleaved at
4 KiB (Table 2-2). -/
def State.cxlPortOf (s : State) (pa : Nat) : Option Nat :=
  let off := pa - 2 ^ 53
  if pa < 2 ^ 53 || 2 ^ 54 ≤ pa then none
  else (s.links.cxl.find? fun p => p.2.extents.any fun x =>
    x.holds (off / 65536) && (off - x.base * 65536) / 4096 % x.ways == x.way).map fun p => p.1

/-! ### Protected lines (R104, R105) -/

/-- What stands for a line whose owner's key is not in the key engines: free bytes (log entry 89). -/
def freeLine (w n : Nat) : List Byte := (List.range 64).map fun k => BitVec.ofNat 8 (Config.undecided w n k).toNat

/-- The line of va as plaintext, from what is stored: the ciphertext of a protected object, under its owner's key. -/
def State.openLine (s : State) (h : Word) (va : Nat) (raw : List Byte) : List Byte :=
  if hWorld h = 0 then raw
  else
    match tfind s.sec.engineKeys (hWorld h) with
    | some kw => decLine kw (tweakOf (hGen h) (hHome h) va) raw
    | none => freeLine (hWorld h) (va / 64)
/-- A plaintext line of va as it is stored. -/
def State.sealLine (s : State) (h : Word) (va : Nat) (x : List Byte) : List Byte :=
  if hWorld h = 0 then x
  else
    match tfind s.sec.engineKeys (hWorld h) with
    | some kw => encLine kw (tweakOf (hGen h) (hHome h) va) x
    | none => freeLine (256 + hWorld h) (va / 64 + s.objs.seq * 2 ^ 46)

/-- The line of va as plaintext. -/
def State.lineNow (s : State) (h : Word) (va pa : Nat) : List Byte := s.openLine h va (mread s.mem (pa / 64 * 64) 64)
/-- Store a plaintext line. -/
def State.putLine (s : State) (h : Word) (va pa : Nat) (x : List Byte) : State :=
  { s with mem := mwrite s.mem (pa / 64 * 64) (s.sealLine h va x) }

/-- Bytes at va in the form in which part of a line crosses the links: those of a protected object are combined with the
encryption of a line of zeros, DESIGN CHOICE (R104; log entry 89). The same combination takes them back. -/
def State.linkBytes (s : State) (h : Word) (va : Nat) (bs : List Byte) : List Byte :=
  if hWorld h = 0 then bs
  else
    let stream := (List.range (ceilDiv (va % 64 + bs.length) 64)).flatMap fun j => s.sealLine h ((va / 64 + j) * 64) (List.replicate 64 0)
    xorBytes bs (stream.drop (va % 64))
/-- An operand or a result for an element at va in that form. -/
def State.linkWord (s : State) (h : Word) (va : Nat) (w : Word) : Word :=
  if hWorld h = 0 then w else BitVec.ofNat 64 (ofBytes (s.linkBytes h va (toBytes 8 w.toNat)))
/-- An operation on an object with its data in that form; the same function takes it back. -/
def State.linkOp (s : State) (h : Word) : RemoteOp → RemoteOp
  | .store va data mask => .store va (s.linkBytes h va.toNat data) mask
  | .strongStore va data => .strongStore va (s.linkBytes h va.toNat data)
  | .atomic va w op v => .atomic va w op (s.linkWord h va.toNat v)
  | .fatomic va op v => .fatomic va op ((s.linkWord h va.toNat (v.setWidth 64)).setWidth 32)
  | .cas va w x n => .cas va w (s.linkWord h va.toNat x) (s.linkWord h va.toNat n)
  | .casc va w x n t ix wd => .casc va w (s.linkWord h va.toNat x) (s.linkWord h va.toNat n) t ix wd
  | .sequence ix op args data => .sequence ix op args (s.linkBytes h 0 data)
  | op => op

def State.plainByte (s : State) (h : Word) (va pa : Nat) : Byte :=
  if hWorld h = 0 then mget s.mem pa else byteAt (s.lineNow h va pa) (pa % 64)
def State.plainRead (s : State) (h : Word) (va pa n : Nat) : List Byte :=
  if hWorld h = 0 then mread s.mem pa n else (List.range n).map fun k => s.plainByte h (va + k) (pa + k)

/-- Who writes (R213). -/
structure Writer where
  run : Nat
  task : Word
  path : Path
  ord : Nat
deriving DecidableEq, Repr

/-- Write one byte under a mask and keep what it replaced, for the coherence order. -/
def State.putByte (s : State) (h : Word) (w : Writer) (seq : Nat) (va pa : Nat) (v mask : Byte) : State :=
  let old := s.plainByte h va pa
  let new := (old &&& ~~~mask) ||| (v &&& mask)
  let t : State :=
    if hWorld h = 0 then { s with mem := mset s.mem pa new }
    else s.putLine h va pa ((s.lineNow h va pa).set (pa % 64) new)
  { t with objs := { t.objs with wlog := { va, old, seq, run := w.run, task := w.task, path := w.path, ord := w.ord } :: t.objs.wlog } }

/-- One write performs: bytes (virtual address, value, mask), at physical addresses va + shift (R213, R214). -/
def State.perform (s : State) (h : Word) (w : Writer) (shift : Int) (bs : List (Nat × Byte × Byte)) : State :=
  let seq := s.objs.seq + 1
  let t : State := { s with objs := { s.objs with seq } }
  bs.foldl (fun t b => t.putByte h w seq b.1 (b.1 + shift).toNat b.2.1 b.2.2) t

/-- One write of a whole line performs, as it is stored (R104, R107). -/
def State.performRaw (s : State) (h : Word) (w : Writer) (va pa : Nat) (raw : List Byte) : State :=
  let seq := s.objs.seq + 1
  let old := s.lineNow h va pa
  let recs := (List.range raw.length).map fun j =>
    ({ va := va + j, old := byteAt old j, seq, run := w.run, task := w.task, path := w.path, ord := w.ord } : WRec)
  { s with mem := mwrite s.mem pa raw, objs := { s.objs with seq, wlog := recs ++ s.objs.wlog } }

/-- The bytes of a plain value at va. -/
def bytesAt (va : Nat) (bs : List Byte) : List (Nat × Byte × Byte) :=
  (List.range bs.length).map fun k => (va + k, byteAt bs k, 0xFF)

/-! ### The coherence order (R214, R216; log entry 8) -/

/-- The byte at va as it stood at place t, from what it holds now: newest writes are undone first. -/
def undoByte (t va : Nat) (now : Byte) : List WRec → Byte
  | [] => now
  | r :: rest => if r.seq ≤ t then now else undoByte t va (if r.va = va then r.old else now) rest

def State.bytesAtPlace (s : State) (h : Word) (va pa n t : Nat) : List Byte :=
  let now := s.plainRead h va pa n
  (List.range n).map fun k => undoByte t (va + k) (byteAt now k) s.objs.wlog

/-- Places of writes to the n bytes at va. -/
def State.writesTo (s : State) (va n : Nat) : List WRec :=
  s.objs.wlog.filter fun r => va ≤ r.va && r.va < va + n

/-- Who asks the handle unit, and for what the frame of a fault would name (Table 10-2). -/
structure Asker where
  who : Agent
  bank : BitVec 1
  source : BitVec 3
  unit : Nat
  task : Word
  world : Byte
  run : Nat
  path : Path
  fpc : Pos
  ord : Nat
deriving DecidableEq, Repr

/-- The run that a system core counts as. -/
def sysRun (n : BitVec 4) : Nat := 2 ^ 64 + n.toNat

def isSysAgent : Agent → Bool
  | .core _ _ => false
  | .sys _ => true

/-! ### Task identifiers (Table 6-1) -/

def tidSeq (t : Word) : Nat := bits t.toNat 63 48
def tidPkg (t : Word) : Nat := bits t.toNat 47 38
/-- Flat number of the home scheduler unit: die × 10 + cluster. -/
def tidUnit (t : Word) : Nat := bits t.toNat 37 36 * 10 + bits t.toNat 35 32
def tidIndex (t : Word) : Nat := bits t.toNat 15 0
def taskIdOf (seq pkg unit index : Nat) : Word :=
  BitVec.ofNat 64 (seq % 65536 * 2 ^ 48 + pkg % 1024 * 2 ^ 38 + unit / 10 * 2 ^ 36 + unit % 10 * 2 ^ 32 + index % 65536)

/-- The task record that an identifier of this package names: its SEQ must be that of the record. -/
def State.task? (s : State) (t : Word) : Option Task :=
  if tidPkg t = s.pkgNo ∧ bits t.toNat 31 16 = 0 then
    match tfind (s.unit (tidUnit t)).tasks (tidIndex t) with
    | some k => if k.seq.toNat = tidSeq t then some k else none
    | none => none
  else none
def State.putTask (s : State) (t : Word) (k : Task) : State :=
  let u := s.unit (tidUnit t)
  s.setUnit (tidUnit t) { u with tasks := tset u.tasks (tidIndex t) k }

/-! ### Who asks -/

/-- The step run that an asker belongs to, if its bank still runs it. -/
def State.runOf (s : State) (k : Asker) : Option StepRun :=
  match k.who with
  | .core f _ => (s.bank f.toNat k.bank).run.bind fun r => if r.id = k.run then some r else none
  | .sys _ => none

/-- The step whose Basin an asker uses: its own, or, for a command that runs on, a later step of its task in the same
bank (R199). -/
def State.homeRun (s : State) (k : Asker) : Option StepRun :=
  match k.who with
  | .core f _ => (s.bank f.toNat k.bank).run.bind fun r => if r.id = k.run ∨ r.task = k.task then some r else none
  | .sys _ => none

/-- The next place in the step order of the issuing context (R212). -/
def State.nextOrd (s : State) : Nat :=
  match s.turn with
  | .core _ _ => (s.curBank.run.map fun r => r.ord).getD 0 + 1
  | .sys n => (s.sysCore n.toNat).ord + 1
def State.bumpOrd (s : State) : State :=
  match s.turn with
  | .core _ _ => let k := s.curBank; s.setCurBank { k with run := k.run.map fun r => { r with ord := r.ord + 1 } }
  | .sys n => let c := s.sysCore n.toNat; s.setSys n.toNat { c with ord := c.ord + 1 }

/-- The issuing context as an asker on a path. -/
def State.asker (s : State) (p : Path) : Asker where
  who := s.turn
  bank := if s.isSys then 0 else s.bankNo
  source := match s.turn with
    | .core _ c => ctxSource c
    | .sys _ => 1
  unit := s.unitNo
  task := s.taskId
  world := s.world
  run := match s.turn with
    | .core _ _ => (s.curBank.run.map fun r => r.id).getD 0
    | .sys n => sysRun n
  path := p
  fpc := s.pos
  ord := s.nextOrd

def Asker.writer (k : Asker) : Writer := { run := k.run, task := k.task, path := k.path, ord := k.ord }

/-! ### Floors (Table 9-2) -/

def pathBit : Path → Nat
  | .L => 0 | .S => 1 | .M => 2 | .A => 3 | .N => 4 | .X => 5 | .I => 6 | .C => 7
/-- A path of a set of FENCE.P (R359). -/
def inSet (s : Byte) (p : Path) : Bool := s.getLsbD (pathBit p)

def State.acqsOf (s : State) (k : Asker) : List (Word × Path × Nat × Nat) :=
  match k.who with
  | .core _ _ => ((s.runOf k).map fun r => r.acqs).getD []
  | .sys n => (s.sysCore n.toNat).acqs
def State.fencesOf (s : State) (k : Asker) : List (Byte × Byte × Nat × Nat) :=
  match k.who with
  | .core _ _ => ((s.runOf k).map fun r => r.fences).getD []
  | .sys n => (s.sysCore n.toNat).fences

def maxOf (l : List Nat) : Nat := l.foldl max 0

/-- A step's pin on an object (R229). -/
def State.pinOf (s : State) (h : Word) (run : Nat) : Option Pin := s.objs.pins.find? fun p => p.index = objKey h ∧ p.run = run
/-- The place in the coherence order at which VERSION of an object reached v. -/
def State.versionPlace (s : State) (h : Word) (v : U32) : Nat :=
  (((tget s.objs.versions [] (objKey h)).find? fun p => p.1 = v).map fun p => p.2).getD 0
/-- R218: the last publication of a replicated object no later than a place. -/
def State.lastPub (s : State) (h : Word) (t : Nat) : Nat :=
  maxOf (((tget s.objs.versions [] (objKey h)).filter fun p => p.2 ≤ t).map fun p => p.2)
def State.draftOf (s : State) (h : Word) : Option Draft := tfind s.objs.drafts (objKey h)

/-- The place of the floor of an access to n bytes at va of object h (Table 9-2). -/
def State.floorOf (s : State) (k : Asker) (h : Word) (e : Entry) (va n : Nat) : Nat :=
  let ws := s.writesTo va n
  let own := ws.filter fun r => r.run = k.run
  let same := (own.filter fun r => r.path = k.path ∧ r.ord < k.ord).map fun r => r.seq
  let fences := (s.fencesOf k).filter fun f => inSet f.2.1 k.path && f.2.2.2 < k.ord
  let fenced := (own.filter fun r => fences.any fun f => inSet f.1 r.path && r.ord < f.2.2.1).map fun r => r.seq
  let draft := match s.draftOf h with
    | some d => if d.task = k.task ∧ k.task ≠ 0 then (ws.filter fun r => r.task = k.task ∧ d.since ≤ r.seq).map fun r => r.seq else []
    | none => []
  let ready := ((s.task? k.task).map fun t => t.readySeq).getD 0
  let acq := ((s.acqsOf k).filter fun a => a.1 = h ∧ a.2.1 = k.path ∧ a.2.2.1 < k.ord).map fun a => a.2.2.2
  let pin := match s.pinOf h k.run with
    | some p => s.versionPlace h p.version
    | none => 0
  let named := maxOf (ready :: pin :: acq)
  let named := if 1 < eReps e ∧ !(s.objs.stored.contains (k.task, objKey h)) then s.lastPub h named else named
  maxOf (tget s.objs.born 0 (objKey h) :: named :: same ++ fenced ++ draft)

/-! ### What a weak load may return (R216) -/

/-- Stores of the step that are on their way to these bytes, whole. -/
def State.pendingValues (s : State) (k : Asker) (va n : Nat) : List (List Byte) :=
  s.objs.reqs.filterMap fun r =>
    if r.run = k.run ∧ r.ord < k.ord then
      match r.kind with
      | .wstore bs =>
        let at_ := fun j => bs.find? fun b => b.1 = va + j ∧ b.2.2 = 0xFF
        if (List.range n).all fun j => (at_ j).isSome then
          some ((List.range n).map fun j => ((at_ j).map fun b => b.2.1).getD 0)
        else none
      | _ => none
    else none

/-- The values of n bytes from a floor on, the newest first, then those of the step's own stores on their way. -/
def State.valuesFrom (s : State) (k : Asker) (h : Word) (va pa n floor : Nat) : List (List Byte) :=
  let places := ((s.writesTo va n).filter fun r => floor < r.seq).map fun r => r.seq
  let vals := (places ++ [floor]).map fun t => s.bytesAtPlace h va pa n t
  (vals ++ s.pendingValues k va n).eraseDups

/-- Every value that a weak load of n bytes may return. -/
def State.weakValues (s : State) (k : Asker) (h : Word) (e : Entry) (va pa n : Nat) : List (List Byte) :=
  s.valuesFrom k h va pa n (s.floorOf k h e va n)

/-- Take one choice (log entry 7): 0 is the newest value. -/
def choose (vals : List (List Byte)) (ch : Choices) : List Byte × Choices :=
  (vals.getD (ch.headD 0 % max 1 vals.length) [], ch.drop 1)

/-! ### Cache tags (R201, R202) -/

/-- The way that a fill of a set takes, and the prediction values after it: a free way, else the lowest with 7. -/
def rripVictim (ways : Nat) (set : List (Nat × Nat)) : Nat × Nat :=
  match (List.range ways).find? fun w => !(set.any fun x => x.1 == w) with
  | some w => (w, 0)
  | none =>
    let top := maxOf (set.map fun x => x.2)
    let rise := 7 - top
    ((((List.range ways).find? fun w => set.any fun x => x.1 == w && x.2 + rise == 7).getD 0), rise)

def l2Set (pa : Nat) : Nat := pa / 64 % 32768

/-- The copy of a line of an object in the L2 of a cluster (R201); the handle unit of the I/O dies has no L2. -/
def State.l2Line? (s : State) (cl : Nat) (pkg : BitVec 10) (pa : Nat) (h : Word) : Option L2Line :=
  if 40 ≤ cl then none else (s.cluster cl).l2.find? fun l => l.pkg == pkg && l.pa == pa / 64 * 64 && l.handle == h

/-- A request with reuse distance rd (2 without a field) meets the L2 of a cluster (R202): a copy that was filled no earlier
than floor is a hit, any other is filled anew, and a line that is absent is filled. l is the line that a fill brings. -/
def State.l2Meet (s : State) (cl : Nat) (rd floor : Nat) (l : L2Line) : State :=
  if 40 ≤ cl || rd = 7 then s
  else
    let c := s.cluster cl
    let l := { l with rrpv := BitVec.ofNat 3 rd }
    let here := fun (x : L2Line) => x.pkg == l.pkg && x.pa == l.pa
    match c.l2.find? here with
    | some x =>
      let y := if x.handle == l.handle && floor ≤ x.stamp then { x with rrpv := 0 } else { l with way := x.way }
      s.setCluster cl { c with l2 := c.l2.map fun z => if here z then y else z }
    | none =>
      let inSet := fun (x : L2Line) => l2Set x.pa == l2Set l.pa
      let v := rripVictim 16 ((c.l2.filter inSet).map fun x => (x.way, x.rrpv.toNat))
      let kept := (c.l2.filter fun x => !(inSet x && x.way == v.1)).map fun x =>
        if inSet x then { x with rrpv := x.rrpv + BitVec.ofNat 3 v.2 } else x
      s.setCluster cl { c with l2 := { l with way := v.1 } :: kept }

/-- The copies of a line in one cluster's L2 are invalidated (R204). -/
def State.l2Drop (s : State) (cl : Nat) (pkg : BitVec 10) (pa : Nat) : State :=
  if 40 ≤ cl then s
  else
    let c := s.cluster cl
    s.setCluster cl { c with l2 := c.l2.filter fun l => !(l.pkg == pkg && l.pa == pa / 64 * 64) }
/-- Every L2 of the package drops the lines that p names. -/
def State.l2DropAll (s : State) (p : L2Line → Bool) : State :=
  { s with clusters := s.clusters.map fun c => (c.1, { c.2 with l2 := c.2.l2.filter fun l => !p l }) }

/-! ### Places -/

/-- Bytes that an element of a place occupies. -/
def Place.bytes (p : Place) : Nat := if p.width < 8 then 1 else p.width / 8

/-- The code of an element from its bytes. -/
def codeOfBytes (p : Place) (bs : List Byte) : Nat :=
  let x := ofBytes bs
  if p.width = 4 then (if p.nib then x / 16 % 16 else x % 16) else x % 2 ^ p.width

/-- The masked bytes that store a code at a place. -/
def storeBytes (p : Place) (v : Nat) : List (Nat × Byte × Byte) :=
  if p.width = 4 then [(p.va.toNat, BitVec.ofNat 8 (if p.nib then v % 16 * 16 else v % 16), if p.nib then 0xF0 else 0x0F)]
  else (toBytes (p.width / 8) v).mapIdx fun j b => (p.va.toNat + j, b, 0xFF)

/-- The line of a place as the L2 of a cluster would fill it, from what is stored. -/
def Place.l2Line (p : Place) (world : Byte) (raw : List Byte) (stamp : Nat) : L2Line where
  way := 0
  pkg := p.pkg
  pa := p.pa / 64 * 64
  handle := p.handle
  va := p.va.toNat / 64 * 64
  data := raw
  rrpv := 0
  stamp := stamp
  world := world

/-- Masked bytes over the line at la. -/
def putMasked (la : Nat) (x : List Byte) (bs : List (Nat × Byte × Byte)) : List Byte :=
  bs.foldl (fun x b => let old := byteAt x (b.1 - la); x.set (b.1 - la) ((old &&& ~~~b.2.2) ||| (b.2.1 &&& b.2.2))) x

/-- A weak store that has performed, or a write-back, updates the line if the L2 of its cluster has it; nothing is allocated
(R201). -/
def State.l2Store (s : State) (cl : Nat) (p : Place) (bs : List (Nat × Byte × Byte)) : State :=
  match s.l2Line? cl p.pkg p.pa p.handle with
  | none => s
  | some l =>
    let c := s.cluster cl
    let data := s.sealLine p.handle l.va (putMasked l.va (s.openLine p.handle l.va l.data) bs)
    s.setCluster cl { c with l2 := c.l2.map fun x => if x == l then { x with data } else x }

/-! ### Requests -/

/-- The number of the next request: 32 bits, and not 0. -/
def State.reqId (s : State) : Nat := if s.objs.nextReq % 2 ^ 32 = 0 then 1 else s.objs.nextReq % 2 ^ 32

/-- A segment can count n more transfers (R90). -/
def State.busyRoom (s : State) (a n : Nat) : Bool := leafBusy (s.leafNow a) + n ≤ 0xFFFF

/-- Queue a request: it takes its number, and raises BUSY of its segment (R90). Where BUSY is at 0xFFFF it stands without a
leaf, and waits until it can be counted. -/
def State.pushReq (s : State) (r : Req) : State :=
  let id := s.reqId
  let r := { r with id }
  let counted := r.place.leafPa ≠ 0 && s.busyRoom r.place.leafPa 1
  let r := if counted then r else { r with place := { r.place with leafPa := 0 } }
  let t : State := { s with objs := { s.objs with nextReq := id + 1, reqs := s.objs.reqs ++ [r] } }
  if counted then t.busyUp r.place.leafPa 1 else t

def State.dropReq (s : State) (r : Req) : State :=
  let t : State := { s with objs := { s.objs with reqs := s.objs.reqs.filter fun q => q.id ≠ r.id } }
  if r.place.leafPa = 0 then t else t.busyDown r.place.leafPa 1

def noPlace (h : Word) (pkg : BitVec 10) : Place :=
  { handle := h, pkg, va := 0, pa := 0, width := 64, nib := false, leafPa := 0, idx := 0 }

/-- A request of an asker. -/
def State.reqOf (s : State) (k : Asker) (p : Place) (kind : ReqKind) : Req where
  id := 0
  unit := k.unit
  who := k.who
  bank := k.bank
  run := k.run
  task := k.task
  world := k.world
  path := k.path
  ord := k.ord
  issued := s.now
  place := p
  floor := 0
  fences := []
  kind := kind
  remote := p.pkg ≠ s.pkg

/-- The run under which the accesses of a run of another package stand here. -/
def farRun (src run : Nat) : Nat := 2 ^ 70 + run * 1024 + src % 1024
/-- A request that came from another package: it answers over the links. Its place in step order ends in its tag. -/
def Req.far (r : Req) : Bool := 2 ^ 70 ≤ r.run
def Req.farSrc (r : Req) : Nat := r.run % 1024
def Req.farTag (r : Req) : U32 := BitVec.ofNat 32 r.ord

/-- The operation that a request asks of its home package. -/
def remoteOp (r : Req) : Option RemoteOp :=
  let p := r.place
  let ix := BitVec.ofNat 30 (hIndex p.handle)
  let ver := fun (op : Nat) (v : U32) (t : Word) => some (.version ix (BitVec.ofNat 3 op) v t)
  match r.kind with
  | .wload _ _ _ => some (.load (BitVec.ofNat 52 (p.va.toNat / 64 * 64)) 64)
  | .rawLine data => some (.line p.va data)
  | .wstore bs =>
    let lo := (bs.headD (0, 0, 0)).1
    let n := (bs.getLastD (0, 0, 0)).1 + 1 - lo
    let at_ := fun j => (bs.find? fun b => b.1 == lo + j).map fun b => b.2
    some (.store (BitVec.ofNat 52 lo) ((List.range n).map fun j => ((at_ j).map fun b => b.1).getD 0)
      ((List.range n).map fun j => ((at_ j).map fun b => b.2).getD 0))
  | .sload _ _ _ => some (.strongLoad p.va (BitVec.ofNat 7 p.bytes))
  | .sstore v _ => some (.strongStore p.va (toBytes p.bytes v.toNat))
  | .atomic w op v _ => some (.atomic p.va w op v)
  | .fatomic op v _ => some (.fatomic p.va op v)
  | .cas w x n _ _ => some (.cas p.va w x n)
  | .casc w x n _ _ t => some (.casc p.va w x n t p.idx r.world)
  | .verq _ => ver 0 0 r.task
  | .openv => ver 1 0 r.task
  | .pub => ver 2 0 r.task
  | .subv v t => ver 3 v t
  | .pinv v _ => ver 4 v r.task
  | .unpv => ver 5 0 r.task
  | .seqq item e _ => some (.sequence ix 7 [BitVec.ofNat 64 item.toNat, e] [])
  | .decrement t k sys poison => some (.decrement t (BitVec.ofNat 16 k) r.world sys poison)
  | .lineFill _ | .entryFill => some (.load p.va 64)
  | .versionRead _ => ver 0 0 r.task
  | .objEntry => some (.entry ix)
  | .walkRead => some (.walk p.va)
  | .taskq item t _ => some (.taskq t item r.world (isSysAgent r.who))
  | .inval _ op => some op
  | .command _ op => some op
  | _ => none

/-- Kinds that wait for their release point here before they leave (Table 9-3). -/
def Req.waits (r : Req) : Bool :=
  match r.kind with
  | .pub | .sstore _ true | .casc _ _ _ _ _ _ => true
  | .decrement _ _ _ _ => r.run ≠ 0
  | _ => false

/-- A request as it crosses the links, under its number. -/
def Req.wire (r : Req) (id : Nat) (op : RemoteOp) : RemoteReq :=
  { tag := BitVec.ofNat 32 id, path := r.path, handle := r.place.handle, run := r.run, task := r.task, world := r.world, op }

/-- The operation as it crosses the links (R104): a store of a whole line of a protected object crosses as it will be stored. -/
def State.crossing (s : State) (h : Word) (op : RemoteOp) : RemoteOp :=
  match op with
  | .store va data mask =>
    if hWorld h ≠ 0 && va.toNat % 64 == 0 && data.length == 64 && mask.all (· == 0xFF) then .line va (s.sealLine h va.toNat data)
    else s.linkOp h op
  | op => s.linkOp h op

/-- Accesses that execute at a slice in the strong order (Table 9-1, R215). -/
def ReqKind.isSlice : ReqKind → Bool
  | .sload _ _ _ | .sstore _ _ | .atomic _ _ _ _ | .fatomic _ _ _ | .cas _ _ _ _ _ | .casc _ _ _ _ _ _ | .openv | .pub | .subv _ _
  | .pinv _ _ | .unpv | .verq _ | .seqq _ _ _ => true
  | _ => false

/-- A write-back of the line of a strong request by its core that came before it has not performed (R204). -/
def State.writeBackBefore (s : State) (r : Req) : Bool :=
  let sameCore := fun (a b : Agent) => match a, b with
    | .core f _, .core g _ => f == g
    | _, _ => false
  (s.objs.reqs.takeWhile fun q => q.id ≠ r.id).any fun q =>
    q.place.width == 512 && sameCore q.who r.who && q.place.handle == r.place.handle && q.place.va.toNat / 64 == r.place.va.toNat / 64
      && (match q.kind with
        | .wstore _ => true
        | _ => false)

/-- A strong request may leave for its home package: those of its path before it have been accepted, or are on their way to
the same home (R215), and so have the write-backs that it follows (R204). -/
def State.mayLeave (s : State) (r : Req) : Bool :=
  !r.kind.isSlice
    || !(s.objs.reqs.any (fun q => q.run == r.run && q.path == r.path && q.kind.isSlice && !(q.remote && q.place.pkg == r.place.pkg))
      || s.writeBackBefore r)

/-- A request that brings a line for the caches. -/
def ReqKind.fills : ReqKind → Bool
  | .wload _ _ _ | .lineFill _ | .entryFill => true
  | _ => false

/-- Queue a request, and send it if its home is another package; one for a line notes the place of its issue (R218). -/
def State.issueReq (s : State) (r : Req) : State :=
  if r.remote && !r.waits && s.mayLeave r then
    match remoteOp r with
    | some op =>
      let s : State := if r.kind.fills then { s with objs := { s.objs with seq := s.objs.seq + 1 } } else s
      (s.pushReq (if r.kind.fills then { r with floor := s.objs.seq } else r)).sendReq r.place.pkg.toNat
        (r.wire s.reqId (s.crossing r.place.handle op))
    | none => s.pushReq r
  else s.pushReq { r with remote := false }

/-- Keep what a request has become. -/
def State.putReq (s : State) (r : Req) : State :=
  { s with objs := { s.objs with reqs := s.objs.reqs.map fun q => if q.id = r.id then r else q } }

/-- A request with its place: one that could not be counted in BUSY is counted now, at the place that its page has by now;
none while it waits (R90). -/
def State.countReq (s : State) (r : Req) : Option (State × Req) :=
  if r.place.leafPa ≠ 0 then some (s, r)
  else
    match s.walkTables r.place.va.toNat with
    | .ok (a, l, large) =>
      if leafHold l || !s.busyRoom a 1 then none
      else
        let r := { r with place := { r.place with pa := leafPaOf l large r.place.va.toNat, leafPa := a } }
        some ((s.putReq r).busyUp a 1, r)
    | .error _ => none

/-- A request that has reached its release point leaves for its home package. -/
def State.sendWaiting (s : State) (r : Req) : State :=
  match remoteOp r with
  | some op =>
    let reqs := s.objs.reqs.map fun q => if q.id = r.id then { q with remote := true, issued := s.now } else q
    ({ s with objs := { s.objs with reqs } } : State).sendReq r.place.pkg.toNat (r.wire r.id (s.crossing r.place.handle op))
  | none => s

/-! ### The handle unit (R206 to R210) -/

/-- What a step of resolution gives. -/
inductive Got (α : Type) where
  | ok (s : State) (v : α)
  | wait (s : State)
  | trap (x : TrapInfo)
  | fault (r : Fault)

def Got.bind {α β : Type} (g : Got α) (f : State → α → Got β) : Got β :=
  match g with
  | .ok s v => f s v
  | .wait s => .wait s
  | .trap x => .trap x
  | .fault r => .fault r

def u32s (t : List Nat) : List U32 := t.map fun n => BitVec.ofNat 32 n

/-- A cause of an access, as its frame names it. -/
def Asker.cause (k : Asker) (c : U16) (h : Word) (idx : List U32 := []) (va : Nat := 0) (level : Nat := 0) : TrapInfo :=
  { cause := c, path := pathCode k.path, level := BitVec.ofNat 4 level, handle := h, idx, va := BitVec.ofNat 52 va }

def Asker.waiter (k : Asker) (h : Word) (idx : List U32) (va : Nat) : Waiter :=
  { who := k.who, bank := k.bank, source := k.source, path := k.path, handle := h, idx, va := BitVec.ofNat 52 va,
    fpc := k.fpc, ord := k.ord, run := k.run }

/-- Two waiters are the same request, sent again. -/
def sameWaiter (a b : Waiter) : Bool := a.who == b.who && a.bank == b.bank && a.path == b.path && a.ord == b.ord

def addWaiter (l : List Waiter) (w : Waiter) : List Waiter := if l.any (sameWaiter w) then l else l ++ [w]

/-- Requests that wait for a walk or a fill of a handle unit: its miss queue (R207). -/
def HandleUnit.misses (u : HandleUnit) : Nat := sumBy (fun x => x.joined.length) u.fills + sumBy (fun x => x.joined.length) u.walks
def missRoom : Nat := 2048
def heldRoom : Nat := 4096

/-- A request enters a structure that has room, unless one that came before it still waits for room (R207). -/
def HandleUnit.enter (u : HandleUnit) (w : Waiter) (room : Bool) (f : HandleUnit → HandleUnit) : HandleUnit :=
  -- what a system core no longer asks for, as it has trapped, does not wait
  let old := fun (x : Waiter) => isSysAgent w.who && x.who == w.who && x.source == w.source && x.path == w.path && x.ord ≠ w.ord
  let u := { u with waiting := u.waiting.filter fun x => !old x }
  if room && u.waiting.head?.all (sameWaiter w) then f { u with waiting := u.waiting.filter fun x => !sameWaiter w x }
  else { u with waiting := addWaiter u.waiting w }

/-- Start, or join, the fill of an entry (R206). -/
def State.startFill (s : State) (k : Asker) (h : Word) (w : Waiter) : State :=
  let u := s.hunit k.unit
  let mine := fun (f : Fill) => objKey f.handle == objKey h
  let join := fun (u : HandleUnit) => { u with fills := u.fills.map fun f => if mine f then { f with joined := addWaiter f.joined w } else f }
  let room := u.misses < missRoom
  match u.fills.find? mine with
  | some f => if f.joined.any (sameWaiter w) then s else s.setHunit k.unit (u.enter w room join)
  | none =>
    let v := u.enter w room fun u => { u with fills := u.fills ++ [{ handle := h, stale := false, retried := false, remote := none, joined := [w] }] }
    let t := s.setHunit k.unit v
    if hHome h = s.pkgNo || !(v.fills.any mine) then t
    else t.issueReq (t.reqOf k (noPlace h (BitVec.ofNat 10 (hHome h))) .objEntry)

/-- Start, or join, a walk of the tables of this package, or of another (log entry 86). -/
def State.startWalk (s : State) (k : Asker) (h : Word) (page : Nat) (far : Option (BitVec 10)) (w : Waiter) : State :=
  let u := s.hunit k.unit
  let mine := fun (x : Walk) => x.va.toNat == page && x.far == far
  let join := fun (u : HandleUnit) => { u with walks := u.walks.map fun x => if mine x then { x with joined := addWaiter x.joined w } else x }
  let room := u.misses < missRoom
  match u.walks.find? mine with
  | some x => if x.joined.any (sameWaiter w) then s else s.setHunit k.unit (u.enter w room join)
  | none =>
    let v := u.enter w (room && u.walks.length < 512) fun u => { u with walks := u.walks ++ [{ va := BitVec.ofNat 52 page, stale := false, joined := [w], far }] }
    let t := s.setHunit k.unit v
    match far with
    | none => t
    | some d => if v.walks.any mine then t.issueReq (t.reqOf k { noPlace h d with va := BitVec.ofNat 52 page } .walkRead) else t

/-- Checks 1 to 3 of Table 4-2: the entry of a handle, from the object cache or after a fill. -/
def State.getEntry (s : State) (k : Asker) (h : Word) (idx : List U32 := []) : Got Entry :=
  if h = 0 ∨ 576 ≤ hHome h ∨ (hHome h = s.pkgNo ∧ s.objs.otCap ≤ hIndex h) then .trap (k.cause Cause.handleInvalid h idx)
  else
    let u := s.hunit k.unit
    let here := fun (c : CacheEntry) => c.index.toNat == hIndex h && c.home.toNat == hHome h
    match u.cache.find? here with
    | none => .wait (s.startFill k h (k.waiter h idx 0))
    | some c =>
      let e := c.words
      if (eState e ≠ 1 ∧ eState e ≠ 2) ∨ eGen e ≠ hGen h ∨ eOwner e ≠ hWorld h then .trap (k.cause Cause.handleInvalid h idx)
      else if eState e = 2 then .trap (k.cause Cause.objLost h idx)
      else
        let n := u.clockLru + 1
        let w := k.waiter h idx 0
        .ok (s.setHunit k.unit { u with clockLru := n, waiting := u.waiting.filter (fun x => !sameWaiter w x)
                                        cache := u.cache.map fun c => if here c then { c with used := n } else c }) e

/-- How a path uses a segment (Table 4-9). -/
inductive Use where
  | tileLoad | tileStore | hbm | peer | intake
deriving DecidableEq, Repr

/-- Table 4-9: the cause of a use in a tier, if it is not allowed. -/
def tierCause (u : Use) (tier : Nat) : Option U16 :=
  match u with
  | .tileLoad => if tier ≤ 2 then none else some Cause.objMissing
  | .tileStore => if tier ≤ 2 then none else some Cause.objRo
  | .hbm => if tier = 0 then none else some Cause.objMissing
  | .peer => if tier ≤ 1 then none else some Cause.objMissing
  | .intake => none

/-- A translation (R206 step 5). -/
structure Hit where
  leafPa : Nat
  pa : Nat
  tier : Nat
deriving DecidableEq, Repr

/-- A unit of the package that reads for a task (R134, R325): it is no context, and takes the cause of its own walk. -/
def Asker.isUnit (k : Asker) : Bool := 2 ^ 66 ≤ k.run && k.run < 2 ^ 68

/-- Translate va for a use by the tables of a package; the request waits on a walk, on HOLD or on a full busy count. HOLD
and BUSY of a segment on another package are kept where it is (log entry 86). -/
def State.translate (s : State) (k : Asker) (h : Word) (e : Entry) (idx : List U32) (va : Nat) (use : Use) (pkg : Nat := s.pkgNo) : Got Hit :=
  let u := s.hunit k.unit
  let far : Option (BitVec 10) := if pkg = s.pkgNo then none else some (BitVec.ofNat 10 pkg)
  let page := fun (big : Bool) => va / (if big then 2097152 else 65536) * (if big then 2097152 else 65536)
  let here := fun (t : TlbEntry) => t.va.toNat == page t.large && t.far == far
  let w := k.waiter h idx va
  match u.tlb.find? here with
  | none =>
    match (if k.isUnit && far.isNone then s.walkTables va else .ok (0, 0, false)) with
    | .error level => .trap (k.cause Cause.objMissing h idx va level)
    | .ok _ => .wait (s.startWalk k h (page (eLarge e)) far w)
  | some t =>
    let now := if far.isNone then s.leafNow t.leafPa else t.leaf
    let tier := leafTier t.leaf
    let pa := leafPaOf t.leaf t.large va
    let held := u.held.filter fun x => !sameWaiter w x
    -- held requests for the page that came before this one leave first (R207)
    let first := !((u.held.takeWhile fun x => !sameWaiter w x).any fun x => x.va.toNat / (if t.large then 2097152 else 65536) == va / (if t.large then 2097152 else 65536))
      || !u.held.any (sameWaiter w)
    if leafLost now then .trap (k.cause Cause.objLost h idx va)
    else if far.isNone && leafHold now then
      .wait (if u.held.any (sameWaiter w) then s
             else s.setHunit k.unit (u.enter w (u.held.length < heldRoom) fun u => { u with held := u.held ++ [w] }))
    else if leafUnav now then .trap (k.cause Cause.objMissing h idx va)
    else
      match tierCause use tier with
      | some c => .trap (k.cause c h idx va)
      | none =>
        if far.isNone && (leafBusy now = 0xFFFF || !first) then .wait s
        else if far.isNone && !hasStorage pa then .fault (.noStorage pa)
        else
          let n := u.clockLru + 1
          .ok (s.setHunit k.unit { u with
                 clockLru := n, held
                 waiting := u.waiting.filter fun x => !sameWaiter w x
                 tlb := u.tlb.map fun t => if here t then { t with used := n, access := true } else t })
            { leafPa := if far.isNone then t.leafPa else 0, pa, tier }

/-- A structure of sets of 8 ways: beyond them, the least recently used entry of the set leaves (R207). -/
def trimSet {α : Type} (used set : α → Nat) (x : α) (l : List α) : List α :=
  let mine := l.filter fun y => set y = set x
  if mine.length ≤ 8 then l
  else
    match leastBy used mine with
    | none => l
    | some v => l.filter fun y => !(set y = set x && used y = used v)

/-- The 512 sets of the object cache and the 1,024 of the TLB (log entry 22). -/
def CacheEntry.set (c : CacheEntry) : Nat := (c.index.toNat ^^^ c.home.toNat) % 512
def TlbEntry.set (t : TlbEntry) : Nat := t.va.toNat / (if t.large then 2097152 else 65536) % 1024

def State.installEntry (s : State) (unit : Nat) (h : Word) (e : Entry) : State :=
  let u := s.hunit unit
  let n := u.clockLru + 1
  let c : CacheEntry := { index := BitVec.ofNat 30 (hIndex h), home := BitVec.ofNat 10 (hHome h), words := e, used := n }
  let rest := u.cache.filter fun x => !(x.index == c.index && x.home == c.home)
  s.setHunit unit { u with clockLru := n, cache := trimSet (fun x => x.used) CacheEntry.set c (c :: rest) }
def State.installTlb (s : State) (unit : Nat) (va leafPa : Nat) (leaf : Word) (large : Bool) (far : Option (BitVec 10) := none) : State :=
  let u := s.hunit unit
  let n := u.clockLru + 1
  let size := if large then 2097152 else 65536
  let c : TlbEntry := { va := BitVec.ofNat 52 (va / size * size), large, leafPa, leaf, access := false, used := n, far }
  let rest := u.tlb.filter fun x => !(x.va == c.va && x.large == c.large && x.far == far)
  s.setHunit unit { u with clockLru := n, tlb := trimSet (fun x => x.used) TlbEntry.set c (c :: rest) }

/-! ### Invalidation (R87, R209, R470) -/

/-- The other packages of the domain: the neighbours of the ports that are up (log entry 34). -/
def State.domain (s : State) : List Nat :=
  (((List.range 18).filterMap fun n => let p := s.peer n; if p.st = 2 then some p.nbr.toNat else none).filter fun d => d ≠ s.pkgNo).eraseDups

/-- A handle unit drops the TLB entries whose pages meet [va, va + n); walks of such pages under way become stale. -/
def HandleUnit.dropTlb (u : HandleUnit) (va n : Nat) (all : Bool) : HandleUnit :=
  let meets := fun (p size : Nat) => all || (p < va + n && va < p + size)
  { u with
    tlb := u.tlb.filter fun t => !meets t.va.toNat (if t.large then 2097152 else 65536)
    walks := u.walks.map fun w => if meets w.va.toNat 2097152 then { w with stale := true } else w }
def State.dropTlb (s : State) (va n : Nat) (all : Bool) : State :=
  { s with objs := { s.objs with units := s.objs.units.map fun u => (u.1, u.2.dropTlb va n all) } }

/-- A handle unit drops the object-cache entries of an index and home; fills of them under way become stale. -/
def HandleUnit.dropEntry (u : HandleUnit) (h : Word) (all : Bool) : HandleUnit :=
  { u with
    cache := u.cache.filter fun c => !(all || (c.index.toNat == hIndex h && c.home.toNat == hHome h))
    fills := u.fills.map fun f => if all || objKey f.handle == objKey h then { f with stale := true } else f }
def State.dropEntry (s : State) (h : Word) (all : Bool) : State :=
  { s with objs := { s.objs with
      units := s.objs.units.map fun u => (u.1, u.2.dropEntry h all)
      lines := s.objs.lines.filter fun l => !(l.1 == 2 ^ 83 && (all || objKey l.2.1 == objKey h)) } }

/-- Tell every other package of the domain; the object manager waits for no answer of its own. -/
def State.tellDomain (s : State) (op : RemoteOp) : State := s.domain.foldl (fun s d => s.sendReq d (plainReq .C op)) s

/-- The object manager has changed the leaf of the page at va: TLBINV across the domain (R87). -/
def State.leafChanged (s : State) (va n : Nat) : State :=
  (s.dropTlb va n false).tellDomain (.invalidateTlb (BitVec.ofNat 52 va) false)
/-- The object manager has changed the entry of an object: OTINV across the domain (R87). -/
def State.entryChanged (s : State) (h : Word) : State := (s.dropEntry h false).tellDomain (.invalidateEntry h false)

/-- Every other package of the domain is asked to write back and invalidate its copies of lines [va, va + n) of an object
(R91, R363). -/
def State.recallFar (s : State) (h : Word) (va n : Nat) : State :=
  s.domain.foldl (fun s d =>
    s.issueReq { id := 0, unit := 40, who := .sys 0, bank := 0, run := 0, task := 0, world := 0, path := .C, ord := 0, issued := s.now,
                 place := { noPlace h (BitVec.ofNat 10 d) with va := BitVec.ofNat 52 va }, floor := 0, fences := [], remote := true
                 kind := .command 0 (.recall (BitVec.ofNat 52 va) (BitVec.ofNat 32 n)) }) s
/-- A package has not answered that yet. -/
def State.recallOpen (s : State) (va n : Nat) : Bool :=
  s.objs.reqs.any fun q => q.remote && q.kind == .command 0 (.recall (BitVec.ofNat 52 va) (BitVec.ofNat 32 n))

/-! ### Shards, replicas and buffers (R80, R81, R225) -/

/-- A byte of an object of this package by a direct walk of the tables, as the object manager reads it. -/
def State.directRead (s : State) (h : Word) (va n : Nat) : Option (List Byte) :=
  match s.walkTables va with
  | .ok (_, l, large) => some (s.plainRead h va (leafPaOf l large va) n)
  | .error _ => none

/-- The line of a remote place that a reader has in hand. -/
def State.lineInHand (s : State) (key : Nat) (p : Place) : Option (List Byte) :=
  (s.objs.lines.find? fun l => l.1 == key && l.2.1 == p.handle && l.2.2.1 == p.va.toNat / 64 * 64).map fun l => l.2.2.2

/-- The line of a remote place, or the wait for it. key names the reader, rd how the line enters the caches: 7, not at all. -/
def State.remoteLine (s : State) (k : Asker) (key : Nat) (p : Place) (rd : Nat := 7) : Got (List Byte) :=
  match s.lineInHand key p with
  | some l => .ok s l
  | none =>
    let q : Place := { p with va := BitVec.ofNat 52 (p.va.toNat / 64 * 64), width := 512, nib := false, leafPa := 0, idx := BitVec.ofNat 64 rd }
    if s.objs.reqs.any fun r => r.kind == .lineFill key && r.place.va == q.va && r.place.handle == p.handle then .wait s
    else .wait (s.issueReq (s.reqOf k q (.lineFill key)))

/-- Lines of shard maps of other packages are kept under this key, for every unit of the package. -/
def mapKey : Nat := 2 ^ 83
/-- Address of entry k of a shard map. -/
def mapVa (me : Entry) (k : Nat) : Nat :=
  let l := locate me (tupleOf me k)
  bufVa me 0 (layoutOffset (eLayout me) 16 (eCols me) l.2.1 l.2.2).1
/-- The entry of a handle in some object cache. -/
def State.cached (s : State) (h : Word) : Option Entry :=
  (s.objs.units.findSome? fun u => u.2.cache.find? fun c => c.index.toNat == hIndex h && c.home.toNat == hHome h).map fun c => c.words

/-- Entry k of a shard map: the package of a replica; the home package where the map cannot be read (log entry 23). -/
def State.smapAt (s : State) (h : Word) (e : Entry) (k : Nat) : Nat :=
  let m := eSmap e
  if hHome m = s.pkgNo then
    match s.directRead m (mapVa (s.entryInMem (hIndex m)) k) 2 with
    | some b => ofBytes b
    | none => hHome h
  else
    match s.cached m with
    | none => hHome h
    | some me =>
      let va := mapVa me k
      match s.objs.lines.find? fun l => l.1 == mapKey && l.2.1 == m && l.2.2.1 == va / 64 * 64 with
      | some l => ofBytes ((l.2.2.2.drop (va % 64)).take 2)
      | none => hHome h

/-- Entries i to i + n − 1 of the shard map of an object are at hand: those of a map of another package come over the links. -/
def State.fetchMap (s : State) (k : Asker) (e : Entry) (i n : Nat) : Got Unit :=
  let m := eSmap e
  if (eShards e = 1 ∧ eReps e = 1) ∨ hHome m = s.pkgNo then .ok s ()
  else
    (s.getEntry k m).bind fun s me =>
      (List.range n).foldl (fun (g : Got Unit) j => g.bind fun s _ =>
        (s.remoteLine k mapKey { noPlace m (BitVec.ofNat 10 (hHome m)) with va := BitVec.ofNat 52 (mapVa me (i + j)) }).bind fun s _ => .ok s ()) (.ok s ())

/-- The package that serves an access to a shard: the primary, or for a read the replica here (R81). -/
def State.packageOf (s : State) (k : Asker) (h : Word) (e : Entry) (shard : Nat) (read : Bool) : Nat :=
  -- until CONFIRM, requests are held here (R118)
  if s.objs.migrations.any fun m => m.handle == h && m.phase == 5 && m.leafPa != 0 then s.pkgNo
  else if eShards e = 1 ∧ eReps e = 1 then (tfind s.objs.away (objKey h)).getD (hHome h)
  else
    let r := eReps e
    let pk := fun j => s.smapAt h e (shard * r + j)
    if read && !(s.objs.stored.contains (k.task, objKey h)) && ((List.range r).any fun j => pk j == s.pkgNo) then s.pkgNo
    else pk 0

/-- Where a reader keeps VERSION of an object of another package, which its place in step order follows. -/
def versionLine : Nat := 2 ^ 60
/-- VERSION as a reader has it: that of an object of this package as it stands. -/
def State.versionHeld (s : State) (key : Nat) (h : Word) (ord : Nat := 0) : Option U32 :=
  if hHome h = s.pkgNo then some (s.versionAt (hIndex h))
  else (s.objs.lines.find? fun l => l.1 == key && l.2.1 == h && l.2.2.1 == versionLine + ord).map fun l => BitVec.ofNat 32 (ofBytes l.2.2.2)
/-- VERSION as read at the home slice (R72, R158): at once here, else by a version request, which the request at a place in
step order makes once. key names the reader. -/
def State.versionRead (s : State) (k : Asker) (key : Nat) (h : Word) (ord : Nat := 0) : Got U32 :=
  match s.versionHeld key h ord with
  | some v => .ok s v
  | none =>
    if s.objs.reqs.any fun r => r.kind == .versionRead key && r.place.handle == h && r.place.idx.toNat == ord then .wait s
    else
      let t : State := { s with objs := { s.objs with lines := s.objs.lines.filter fun l => !(l.1 == key && l.2.1 == h && versionLine ≤ l.2.2.1) } }
      .wait (t.issueReq (t.reqOf k { noPlace h (BitVec.ofNat 10 (hHome h)) with idx := BitVec.ofNat 64 ord } (.versionRead key)))

/-- The versions that a run reads on a path are kept under this key. -/
def verKey (run : Nat) (p : Path) : Nat := 2 ^ 84 + run * 8 + pathBit p

/-- The buffer that Table 9-4 selects where VERSION is v, or the cause VER_NODRAFT. -/
def State.bufferBy (s : State) (task : Word) (run : Nat) (h : Word) (e : Entry) (store : Bool) (v : Nat) : Option Nat :=
  let k := eBufs e
  if k = 1 then some 0
  else if (s.draftOf h).any fun d => d.task == task && task != 0 then some ((v + 1) % k)
  else if store then none
  else
    match s.pinOf h run with
    | some p => some (p.version.toNat % k)
    | none => some (v % k)

/-- Table 9-4: the buffer of an access; VERSION is read where the entry is, once for each request (R225; log entry 82). -/
def State.bufferGot (s : State) (k : Asker) (h : Word) (e : Entry) (store : Bool) : Got (Option Nat) :=
  let drafted := (s.draftOf h).any fun d => d.task == k.task && k.task != 0
  if eBufs e = 1 || (!drafted && (store || (s.pinOf h k.run).isSome)) then .ok s (s.bufferBy k.task k.run h e store 0)
  else (s.versionRead k (verKey k.run k.path) h k.ord).bind fun s v => .ok s (s.bufferBy k.task k.run h e store v.toNat)

/-- The buffer that holds the current version, as a unit of the package reads it. -/
def State.currentBuffer (s : State) (k : Asker) (h : Word) (e : Entry) : Got Nat :=
  if eBufs e = 1 then .ok s 0
  else (s.versionRead k (verKey k.run k.path) h k.ord).bind fun s v => .ok s (v.toNat % eBufs e)

/-- An OPENV of the step on the object that has not completed (R226). -/
def State.openPending (s : State) (k : Asker) (h : Word) : Bool :=
  s.objs.reqs.any fun r => r.kind == .openv && r.run == k.run && r.place.handle == h && r.ord < k.ord

/-- Where an element is, or that it is outside the object. -/
structure Elem where
  entry : Entry
  place : Option Place
deriving DecidableEq, Repr

/-- What an access needs (R74, R79, R88). strong: an element outside raises OBJ_RANGE. -/
structure Need where
  right : Nat
  store : Bool
  strong : Bool
  use : Use
  width : Nat := 0
deriving DecidableEq, Repr

/-- Table 4-2 and translation for one element given by its tuple (R206); a store to a sequence lacks the right (R420). scale asks for the scale byte of an MXS
element instead of its code. -/
def State.resolve (s : State) (k : Asker) (h : Word) (t : List Nat) (i : Nat) (n : Need) (scale : Bool := false) : Got Elem :=
  let idx := u32s t
  (s.getEntry k h idx).bind fun s e =>
    if !hasRight e k.world.toNat n.right || (n.store && eKind e = 1) then .trap (k.cause Cause.objRights h idx)
    else if n.strong && (outside e t || (n.width ≠ 0 && eWidth e ≠ n.width)) then .trap (k.cause Cause.objRange h idx)
    else if (n.store || n.strong) && s.openPending k h then .wait s
    else if outside e t then .ok s { entry := e, place := none }
    else
      (s.bufferGot k h e (n.store || n.strong)).bind fun s j =>
      match j with
      | none => .trap (k.cause Cause.verNoDraft h idx)
      | some j =>
        let l := locate e t
        let lo := layoutOffset (eLayout e) (eWidth e) (eCols e) l.2.1 l.2.2
        let va := bufVa e j (if scale then lo.2.getD lo.1 else lo.1)
        (s.fetchMap k e (l.1 * eReps e) (eReps e)).bind fun s _ =>
        let pkg := s.packageOf k h e l.1 (!(n.store || n.strong))
        let p : Place := { handle := h, pkg := BitVec.ofNat 10 pkg, va := BitVec.ofNat 52 va, pa := 0,
                           width := if scale then 8 else eWidth e, nib := !scale && eWidth e = 4 && l.2.2 % 2 = 1,
                           leafPa := 0, idx := BitVec.ofNat 64 i }
        (s.translate k h e idx va n.use pkg).bind fun s hit =>
          .ok s { entry := e, place := some { p with pa := hit.pa, leafPa := hit.leafPa } }

/-! ### The Basin (R199 to R203, R231, R232) -/

/-- Line offset of va in an object (R199). -/
def lineOff (e : Entry) (va : Nat) : Nat := (va - eVbase e) / 64
/-- Sets of the Basin of a step, 0 for none. -/
def basinSets (r : StepRun) : Nat := r.basin / 512
def basinSet (sets : Nat) (h : Word) (off : Nat) : Nat := (off ^^^ (h.toNat % 2 ^ 32)) % max 1 sets

/-- The line of va lies in a range that the step of a run has mapped. -/
def Bank.maps (k : Bank) (run : Nat) (h : Word) (va : Nat) : Bool :=
  k.bmap.any fun m => m.run == run && m.handle == h && ((m.lo ≤ va && va < m.hi) || m.lines.any fun l => l.toNat == va / 64 * 64)
def sameLine (h : Word) (va : Nat) (l : BasinLine) : Bool := l.handle == h && l.va.toNat == va / 64 * 64

/-- Where the line of the Basin lies: none for one of this package whose page is not mapped. -/
def State.basinPlace (s : State) (l : BasinLine) : Option Place :=
  let p : Place := { handle := l.handle, pkg := l.pkg, va := l.va, pa := l.pa, width := 512, nib := false, leafPa := 0, idx := 0 }
  if l.pkg ≠ s.pkg then some p
  else
    match s.walkTables l.va.toNat with
    | .error _ => none
    | .ok (leafPa, leaf, large) => some { p with pa := leafPaOf leaf large l.va.toNat, leafPa }

/-- Queue the write-back of the dirty bytes of a line: one request for each store that dirtied it. -/
def State.writeBack (s : State) (f : Nat) (b : BitVec 1) (l : BasinLine) : State :=
  match s.basinPlace l with
  | none => s
  | some place =>
    let groups := (l.dirty.map fun d => d.2).eraseDups
    groups.foldl (fun s g =>
      let bs := (l.dirty.filter fun d => d.2 = g).map fun d => (l.va.toNat + d.1, byteAt l.data d.1, (0xFF : Byte))
      s.issueReq { id := 0, unit := f / 8, who := .core (BitVec.ofNat 9 f) .C, bank := b, run := l.run, task := l.task,
                   world := l.world, path := g.2, ord := g.1, issued := s.now, place, floor := 0, fences := [], kind := .wstore bs,
                   remote := l.pkg ≠ s.pkg }) s

/-- Write back the dirty lines of a bank that p names; they stay valid and clean (R200). -/
def State.flushBasin (s : State) (f : Nat) (b : BitVec 1) (p : BasinLine → Bool) : State :=
  let k := s.bank f b
  let t := (k.basin.filter fun l => p l && !l.dirty.isEmpty).foldl (fun s l => s.writeBack f b l) s
  let k := t.bank f b
  t.setBank f b { k with basin := k.basin.map fun l => if p l then { l with dirty := [] } else l }
/-- Lines of a bank are invalidated. -/
def State.dropBasin (s : State) (f : Nat) (b : BitVec 1) (p : BasinLine → Bool) : State :=
  let k := s.bank f b
  s.setBank f b { k with basin := k.basin.filter fun l => !p l }

/-- Make room in a set and add a line (R202). -/
def State.basinInsert (s : State) (f : Nat) (b : BitVec 1) (sets : Nat) (l : BasinLine) : State :=
  let k := s.bank f b
  let inSet := fun (x : BasinLine) => basinSet sets x.handle x.off == basinSet sets l.handle l.off
  let v := rripVictim 8 ((k.basin.filter inSet).map fun x => (x.way, x.rrpv.toNat))
  let out := fun (x : BasinLine) => inSet x && x.way == v.1
  let t := (s.flushBasin f b out).dropBasin f b out
  let k := t.bank f b
  let aged := k.basin.map fun x => if inSet x then { x with rrpv := x.rrpv + BitVec.ofNat 3 v.2 } else x
  t.setBank f b { k with basin := { l with way := v.1 } :: aged }

/-- The values of n bytes that a weak load may return, that of the L2's copy first if it is one of them (R201, R216, R218). -/
def State.loadValues (s : State) (k : Asker) (h : Word) (e : Entry) (va pa n : Nat) : List (List Byte) :=
  let vals := s.weakValues k h e va pa n
  match s.l2Line? k.unit s.pkg pa h with
  | none => vals
  | some l =>
    let v := ((s.openLine h va l.data).drop (va % 64)).take n
    if !eMemside e && s.floorOf k h e va n ≤ l.stamp && vals.contains v then v :: vals.filter (· ≠ v) else vals

/-- One choice for each unit of n bytes of a line. -/
def lineChoices (vals : Nat → List (List Byte)) (n : Nat) : Nat → Nat → Choices → List Byte × Choices
  | 0, _, ch => ([], ch)
  | c + 1, j, ch =>
    let r := choose (vals j) ch
    let rest := lineChoices vals n c (j + n) r.2
    (r.1 ++ rest.1, rest.2)

/-- The core of an asker. -/
def Asker.coreNo (k : Asker) : Nat :=
  match k.who with
  | .core f _ => f.toNat
  | .sys _ => 0

/-- A range of the step's Basin covers the line, and its attributes allow it (Table 8-10). -/
def State.inBasin (s : State) (k : Asker) (h : Word) (e : Entry) (va : Nat) : Bool :=
  !isSysAgent k.who && !eMemside e &&
    match s.homeRun k with
    | some r => 0 < basinSets r && (s.bank k.coreNo k.bank).maps k.run h va
    | none => false

/-- The line of a place in the asker's Basin. -/
def State.basinLine? (s : State) (k : Asker) (p : Place) : Option BasinLine :=
  (s.bank k.coreNo k.bank).basin.find? (sameLine p.handle p.va.toNat)
/-- Change that line. -/
def State.basinMap (s : State) (k : Asker) (p : Place) (f : BasinLine → BasinLine) : State :=
  let b := s.bank k.coreNo k.bank
  s.setBank k.coreNo k.bank { b with basin := b.basin.map fun l => if sameLine p.handle p.va.toNat l then f l else l }

/-- A Basin line holds dirty bytes at all n bytes at va. -/
def BasinLine.owns (l : BasinLine) (va n : Nat) : Bool := (List.range n).all fun j => l.dirty.any fun d => d.1 == va % 64 + j

/-- The Basin takes a line, filled at a place of the coherence order: around the dirty bytes of one that it holds (R199,
R232). -/
def State.basinFill (s : State) (k : Asker) (e : Entry) (p : Place) (rd : Nat) (line : List Byte) (stamp : Nat) : State :=
  let va := p.va.toNat
  match s.basinLine? k p with
  | some _ => s.basinMap k p fun l =>
      { l with data := line.mapIdx fun j b => if l.dirty.any fun d => d.1 == j then byteAt l.data j else b
               stamp, pkg := p.pkg, pa := p.pa / 64 * 64 }
  | none =>
    s.basinInsert k.coreNo k.bank (basinSets ((s.homeRun k).getD default))
      { handle := p.handle, off := lineOff e va, way := 0, va := BitVec.ofNat 52 (va / 64 * 64), pkg := p.pkg, pa := p.pa / 64 * 64,
        data := line, dirty := [], task := k.task, world := k.world, run := k.run, rrpv := BitVec.ofNat 3 rd, stamp }

/-- The line of a place of this package as a Basin fill brings it: a weak load of each of its elements (R232). -/
def State.basinLoad (s : State) (k : Asker) (e : Entry) (p : Place) (ch : Choices) : List Byte × Choices :=
  let u := max 1 (eWidth e / 8)
  let la := p.va.toNat / 64 * 64
  lineChoices (fun j => s.loadValues k p.handle e (la + j) (p.pa / 64 * 64 + j) u) u (64 / u) 0 ch

/-- A load at a place of this package meets the L2 (R202): MEMSIDE objects do not (R203). -/
def State.meetL2 (s : State) (k : Asker) (e : Entry) (p : Place) (rd floor : Nat) : State :=
  if eMemside e then s else s.l2Meet k.unit rd floor (p.l2Line (BitVec.ofNat 8 (hWorld p.handle)) (mread s.mem (p.pa / 64 * 64) 64) s.objs.seq)

/-- A weak load at a place of this package: from the Basin where the range is mapped, else any value that R216 allows, with
its line in the L2 (R202, R203). -/
def State.weakLoad (s : State) (k : Asker) (e : Entry) (p : Place) (rd : Nat) (ch : Choices) : State × List Byte × Choices :=
  let h := p.handle
  let va := p.va.toNat
  let n := p.bytes
  let take := fun (line : List Byte) => (line.drop (va % 64)).take n
  let floor := s.floorOf k h e va n
  if s.inBasin k h e va then
    let fill := fun (_ : Unit) =>
      let r := s.basinLoad k e p ch
      let t := s.meetL2 k e p rd floor
      (if rd = 7 && (s.basinLine? k p).isNone then t else t.basinFill k e p rd r.1 s.objs.seq, take r.1, r.2)
    match s.basinLine? k p with
    | some l =>
      if l.owns va n || (floor ≤ l.stamp && (s.weakValues k h e va p.pa n).contains (take l.data)) then
        (if rd = 7 then s else s.basinMap k p fun l => { l with rrpv := 0 }, take l.data, ch)
      else
        let t := fill ()
        (t.1, ((t.1.basinLine? k p).map fun l => take l.data).getD t.2.1, t.2.2)
    | none => fill ()
  else
    let r := choose (s.loadValues k h e va p.pa n) ch
    (s.meetL2 k e p rd floor, r.1, r.2)

/-- A weak store into a mapped range writes the Basin line and marks it dirty (R199); one that the Basin does not hold is
filled first. -/
def State.basinStore (s : State) (k : Asker) (e : Entry) (p : Place) (bs : List (Nat × Byte × Byte)) (ch : Choices) : State :=
  let la := p.va.toNat / 64 * 64
  let hit := (s.basinLine? k p).isSome
  let s := if hit then s else s.basinFill k e p 2 (s.basinLoad k e p ch).1 s.objs.seq
  s.basinMap k p fun l => { l with
    data := putMasked la l.data bs
    dirty := bs.foldl (fun d b => (b.1 - la, k.ord, k.path) :: d.filter fun x => x.1 ≠ b.1 - la) l.dirty
    task := k.task, world := k.world, run := k.run, rrpv := if hit then 0 else l.rrpv }

/-! ### Copies of lines of other packages (R201 to R203, R218; log entry 88) -/

/-- The place that the fill of a copy must not come before, for an access to an object of another package (Table 9-2): none
while its task holds the draft. Its own stores have updated the copies. -/
def State.farFloor (s : State) (k : Asker) (h : Word) : Option Nat :=
  if (s.draftOf h).any fun d => d.task == k.task && k.task != 0 then none
  else
    let ready := ((s.task? k.task).map fun t => t.readySeq).getD 0
    let acq := ((s.acqsOf k).filter fun a => a.1 = h ∧ a.2.1 = k.path ∧ a.2.2.1 < k.ord).map fun a => a.2.2.2
    let pin := ((s.pinOf h k.run).map fun p => p.since).getD 0
    some (maxOf (ready :: pin :: acq))

/-- A copy that serves a weak load at a place of another package, and the whole line: the Basin's where the range is mapped,
else the L2's. -/
def State.farCopy (s : State) (k : Asker) (e : Entry) (p : Place) (rd : Nat) : Option (State × List Byte) :=
  let h := p.handle
  let fresh := fun (stamp : Nat) => (s.farFloor k h).any fun f => f ≤ stamp
  let mapped := s.inBasin k h e p.va.toNat
  match (if mapped then s.basinLine? k p else none) with
  | some l =>
    if l.owns p.va.toNat p.bytes || fresh l.stamp then
      some (if rd = 7 then s else s.basinMap k p fun l => { l with rrpv := 0 }, l.data)
    else none
  | none =>
    match s.l2Line? k.unit p.pkg p.pa h with
    | none => none
    | some l =>
      if eMemside e || !fresh l.stamp then none
      else
        let line := s.openLine h p.va.toNat l.data
        let t := s.l2Meet k.unit rd 0 l
        some (if mapped && rd ≠ 7 then t.basinFill k e p rd line l.stamp else t, line)

/-- The caches take a line of another package that has come, raw as it is stored there, from a fill issued at a place. -/
def State.farFill (s : State) (k : Asker) (e : Entry) (p : Place) (rd : Nat) (raw : List Byte) (stamp : Nat) : State :=
  if rd = 7 then s
  else
    let t := if eMemside e then s else s.l2Meet k.unit rd stamp (p.l2Line (BitVec.ofNat 8 (hWorld p.handle)) raw stamp)
    if s.inBasin k p.handle e p.va.toNat then t.basinFill k e p rd (s.openLine p.handle p.va.toNat raw) stamp else t

/-- A line of another package has been written: fills of it under way in the unit's cluster fill no cache. -/
def State.spoilFills (s : State) (unit : Nat) (h : Word) (va n : Nat) : State :=
  { s with objs := { s.objs with reqs := s.objs.reqs.map fun q =>
      if q.remote && q.kind.fills && q.unit == unit && q.place.handle == h && va / 64 * 64 < q.place.va.toNat + 64 && q.place.va.toNat < va + n
      then { q with spoiled := true } else q } }

/-- R204: before a strong access leaves, the issuing core's dirty copy of the line is written back, and its copies go. -/
def State.purgeLine (s : State) (k : Asker) (h : Word) (va : Nat) : State :=
  match k.who with
  | .core f _ => ([0, 1] : List (BitVec 1)).foldl (fun s b => (s.flushBasin f.toNat b (sameLine h va)).dropBasin f.toNat b (sameLine h va)) s
  | .sys _ => s

/-- A store to a replicated object is noted until the task's next PUB (R81). -/
def State.noteStore (s : State) (task : Word) (h : Word) (e : Entry) : State :=
  if 1 < eReps e ∧ !(s.objs.stored.contains (task, objKey h)) then
    { s with objs := { s.objs with stored := (task, objKey h) :: s.objs.stored } }
  else s

/-- Split masked bytes by 64-byte line. -/
def byLine (bs : List (Nat × Byte × Byte)) : List (List (Nat × Byte × Byte)) :=
  ((bs.map fun b => b.1 / 64).eraseDups).map fun l => bs.filter fun b => b.1 / 64 = l

/-- A request of the step for the line is still on its way: a later access to the line waits behind it (R208). -/
def State.lineInFlight (s : State) (k : Asker) (p : Place) : Bool :=
  s.objs.reqs.any fun q => q.run == k.run && q.path == k.path && q.place.handle == p.handle && q.place.va.toNat / 64 == p.va.toNat / 64
    && (q.place.leafPa ≠ 0 || q.place.pkg ≠ s.pkg)

/-- A weak load that a copy in the core or its cluster serves at once. -/
def State.loadNow (s : State) (k : Asker) (e : Entry) (p : Place) (rd : Nat) : Option (State × List Byte) :=
  if s.lineInFlight k p then none
  else if p.pkg ≠ s.pkg then (s.farCopy k e p rd).map fun x => (x.1, (x.2.drop (p.va.toNat % 64)).take p.bytes)
  else if s.inBasin k p.handle e p.va.toNat && (s.basinLine? k p).isSome then
    let r := s.weakLoad k e p rd []
    some (r.1, r.2.1)
  else none

/-- A weak store of bytes of one line at a place: into the Basin line if it is held, else as a request, which goes on to
the Basin or to the home slice. -/
def State.weakStore (s : State) (k : Asker) (e : Entry) (p : Place) (bs : List (Nat × Byte × Byte)) : State :=
  let s := s.noteStore k.task p.handle e
  let mapped := s.inBasin k p.handle e p.va.toNat
  if mapped && (s.basinLine? k p).isSome && !s.lineInFlight k p then s.basinStore k e p bs []
  else if mapped then s.pushReq { s.reqOf k p (.wstore bs) with remote := false }
  else s.issueReq (s.reqOf k p (.wstore bs))

/-! ### Near-bank locks (R363) -/

/-- A running near-bank command holds the line: (destination, source, length) stand in its snapshot. -/
def State.nearbankHolds (s : State) (pa : Nat) (write : Bool) : Bool :=
  (s.slice (sliceOf pa)).nearbank.any fun x =>
    match (s.bank x.1 x.2.1).xq.find? fun c => c.ser == x.2.2 with
    | some c =>
      let at_ := fun j => (c.snap.getD j 0).toNat
      c.started && ((at_ 0 ≤ pa && pa < at_ 0 + at_ 2) || (write && at_ 3 ≠ 0 && at_ 1 ≤ pa && pa < at_ 1 + at_ 3))
    | none => false

/-- The entry of an object as the package knows it: in its own table, or in the object cache of a unit. -/
def State.entryAny (s : State) (unit : Nat) (h : Word) : Entry :=
  if hHome h = s.pkgNo then s.entryInMem (hIndex h)
  else (((s.hunit unit).cache.find? fun c => c.index.toNat == hIndex h && c.home.toNat == hHome h).map fun c => c.words).getD default

/-- The asker behind a request. -/
def Req.asker (r : Req) : Asker where
  who := r.who
  bank := r.bank
  source := match r.who with
    | .core _ c => ctxSource c
    | .sys _ => 1
  unit := r.unit
  task := r.task
  world := r.world
  run := r.run
  path := r.path
  fpc := { line := 0, slot := 0 }
  ord := r.ord

/-! ### Results (R242 step 4) -/

/-- Write a register of the context that issued a request, if its run still stands in its bank. -/
def State.deliver (s : State) (r : Req) (f : Ctx → Ctx) : State :=
  if r.far then s
  else match r.who with
  | .core c x =>
    let k := s.bank c.toNat r.bank
    if k.run.any fun q => q.id == r.run then s.setBank c.toNat r.bank (k.setCtx x (f (k.ctx x))) else s
  | .sys n => let c := s.sysCore n.toNat; s.setSys n.toNat { c with ctx := f c.ctx }

/-- An s register receives its result and is no longer awaited (R176). -/
def Ctx.landS (r : BitVec 5) (v : Word) (x : Ctx) : Ctx :=
  { x.setS r v with pendS := x.pendS &&& ~~~(1#32 <<< r.toNat) }
def Ctx.landP (r : BitVec 3) (v : Bool) (x : Ctx) : Ctx :=
  { x.setP r v with pendP := x.pendP &&& ~~~(1#8 <<< r.toNat) }
/-- An s register, or a predicate, awaits a result. -/
def State.awaitS (s : State) (r : BitVec 5) : State :=
  if r = 0 then s else s.setCtx { s.ctx with pendS := s.ctx.pendS ||| (1#32 <<< r.toNat) }
def State.awaitP (s : State) (r : BitVec 3) : State :=
  if r = 0 then s else s.setCtx { s.ctx with pendP := s.ctx.pendP ||| (1#8 <<< r.toNat) }

/-- Requests of the same run that a request must follow: on its path to its line (R208), on its path when both are
strong (R215), and after an acquire of its object (R220). -/
def ReqKind.isStrong : ReqKind → Bool
  | .wload _ _ _ | .wstore _ | .rawLine _ => false
  | _ => true

/-- The kinds that are memory accesses of their step (R211); the others are release-point actions and fills. -/
def ReqKind.isAccess : ReqKind → Bool
  | .openv | .spawn _ _ _ _ | .decrement _ _ _ _ | .arrive _ _ | .taskq _ _ _ | .entryFill | .objEntry | .walkRead
  | .inval _ _ | .lineFill _ | .versionRead _ | .command _ _ => false
  | _ => true

def State.blocked (s : State) (r : Req) : Bool :=
  s.objs.reqs.any fun q => q.id ≠ r.id && q.run == r.run && q.path == r.path && q.ord < r.ord &&
    ((q.place.handle == r.place.handle && q.place.va.toNat / 64 == r.place.va.toNat / 64 && q.place.leafPa ≠ 0)
      || (q.kind.isStrong && r.kind.isStrong)
      || (match q.kind with
          | .sload _ _ true => q.place.handle == r.place.handle
          | _ => false))
    || (r.kind.isSlice && s.writeBackBefore r)

/-- A weak request that has reached its CXL port leaves it (R32): no other for its line came to the port before it, and
fewer than 2,048 reads, or 1,024 writes, are before it. Requests come to the port in the order of their issue (log
entry 84). -/
def State.cxlGoes (s : State) (r : Req) : Bool :=
  let isLoad := fun (k : ReqKind) => match k with
    | .wstore _ | .rawLine _ => false
    | _ => true
  match s.cxlPortOf r.place.pa with
  | none => true
  | some p =>
    let before := (s.objs.reqs.takeWhile fun q => q.id ≠ r.id).filter fun q =>
      q.place.pkg == s.pkg && s.cxlPortOf q.place.pa == some p && !s.blocked q
    !(before.any fun q => q.place.pa / 64 == r.place.pa / 64)
      && (before.filter fun q => isLoad q.kind == isLoad r.kind).length < (if isLoad r.kind then 2048 else 1024)

/-- Accesses of a run on paths of a set, and on one object if it is named, that have not performed before a place in
step order: requests, dirty Basin lines, and engine commands (R219, R223). -/
def cmdPath : Instr → Option Path
  | .ldt .. | .pft .. => some .L
  | .stt .. => some .S
  | .mma96 .. | .mmam96 .. => some .M
  | .attn .. | .kvapp .. | .rope .. | .spanopen .. | .spanclose .. | .retspan .. | .kvpromo .. => some .A
  | .nbfill .. | .nbcopy .. | .nbaxpy .. | .nbscale .. | .nbrelay .. | .rrzero .. | .rrcopy .. => some .N
  | .xsend .. | .xstep .. => some .X
  | .intk .. => some .I
  | _ => none

def Bank.cmds (k : Bank) : List Cmd := k.lq ++ k.mq ++ k.vq ++ k.sq ++ k.xq

def State.unperformed (s : State) (f : Nat) (b : BitVec 1) (run ord : Nat) (p : Path → Bool) (obj : Option Word) : Bool :=
  let k := s.bank f b
  let named := fun (h : Word) => match obj with
    | some o => h == o
    | none => true
  (s.objs.reqs.any fun q => q.run == run && q.ord < ord && p q.path && named q.place.handle && q.kind.isAccess)
    || (k.basin.any fun l => l.run == run && named l.handle && l.dirty.any fun d => d.2.1 < ord && p d.2.2)
    || (k.cmds.any fun c => c.run == run && c.ord < ord && (match cmdPath c.instr with
          | some q => p q && (match obj with
              | some o => c.hs.contains o
              | none => true)
          | none => false))

end Sys2Proof.Machine
end

