-- ==== Sys2Proof/Machine/Fetch.lean ====
section
/-!
DEFINITION. Fetching an instruction: who may issue, the code cache, the checks of R181, the decode map (R285) and rows 1
to 5 of Table 12-6.
-/

namespace Sys2Proof.Machine

open Sys2Proof

/-- What a context fetches. -/
inductive Fetched where
  /-- an instruction to execute -/
  | run (i : Instr)
  /-- a state without an instruction: a trap, a pad word, or a line that is not there yet -/
  | next (s : State)
  | fault (r : Fault)

/-- The agent whose turn it is may issue: the clock runs and its bank runs a step whose contexts have been released
(R131, R184, R242), or it is a system core that neither sleeps nor has halted (R468). -/
def State.runnable (s : State) : Bool :=
  match s.turn with
  | .core f c =>
    let k := s.curBank
    f.toNat < 320 && s.ready && s.power.freqAct != 0 && k.st == .running && k.fault.isNone && (k.ctx c).xsync.isNone &&
      match k.run with
      | some r => !r.held && !r.ended && !r.discarding
      | none => false
  | .sys n => 5 ≤ s.power.bootStep.toNat && !(s.ready && s.power.pstate == .ps3) && !(s.sysCore n.toNat).sleeping && !(s.sysCore n.toNat).halted

def ctxStream : CtxId → Nat
  | .L => 0 | .C => 1 | .S => 2

/-- R181: what makes a fetched line bad for the issuing context. A system core has one context, and takes a line of any
stream that holds instructions (log entry 6). -/
def State.lineBad (s : State) (l : Link) : Bool :=
  (if s.isSys then l.stream == 3 else l.stream != ctxStream s.ctxNo) || l.t || (!l.e && l.dist == 0)

/-- The number of lines of the issuing agent's image. -/
def State.nLines (s : State) : Nat :=
  if s.isSys then 2 ^ 24 else (s.curBank.run.map fun r => r.nlines).getD 0

/-- The line is held. -/
def State.lineHeld (s : State) (line : BitVec 24) : Bool :=
  match s.turn with
  | .core f _ => ((s.curBank.run).bind fun r => tfind (s.core f.toNat).codeCache (codeKey r.template line)).isSome
  | .sys _ => true

/-- Put a line into the 64 KiB code cache of a core (R183): 1,024 lines. -/
def State.cacheCode (s : State) (f : Nat) (template : Word) (line : BitVec 24) (bs : List Byte) : State :=
  let c := s.core f
  let old := if c.codeCache.length < 1024 then c.codeCache else c.codeCache.drop 1
  s.setCore f { c with codeCache := tset old (codeKey template line) bs }

/-- Bring a line of the running step's template into the code cache (R183). The fill is no path, and any tier serves it
(log entry 25). -/
def State.fillCode (s : State) (line : BitVec 24) : Got Unit :=
  match s.curBank.run with
  | none => .wait s
  | some r =>
    let k := { s.asker .C with world := 0 }
    (s.getEntry k r.template).bind fun s e =>
      let i := 64 * line.toNat
      let l := locate e (tupleOf e i)
      (s.currentBuffer k r.template e).bind fun s j =>
      let va := bufVa e j (layoutOffset (eLayout e) 8 (eCols e) l.2.1 l.2.2).1
      let pkg := s.packageOf k r.template e l.1 true
      (s.translate k r.template e [] va .intake pkg).bind fun s hit =>
      let place : Place := { noPlace r.template (BitVec.ofNat 10 pkg) with va := BitVec.ofNat 52 va, pa := hit.pa, width := 512, idx := BitVec.ofNat 64 line.toNat }
      if pkg ≠ s.pkgNo then
        match s.farCopy k e place 2 with
        | some x => .ok (x.1.cacheCode s.coreNo r.template line x.2) ()
        | none =>
          if s.objs.reqs.any fun q => q.kind == .entryFill && q.place == place && q.who == s.turn then .wait s
          else .wait (s.issueReq (s.reqOf k place .entryFill))
      else
        -- through the cluster's L2, with prediction value 2 (R183, R202)
        let floor := s.floorOf k r.template e va 64
        let copy := (s.l2Line? k.unit s.pkg hit.pa r.template).filter fun l => !eMemside e && floor ≤ l.stamp
        let bs := match copy with
          | some l => s.openLine r.template va l.data
          | none => s.lineNow r.template va hit.pa
        .ok ((s.meetL2 k e place 2 floor).cacheCode s.coreNo r.template line bs) ()

/-- A trap of the code fill names no path. -/
def pathless (x : TrapInfo) : TrapInfo := { x with path := 0 }

/-- The opcode's operation in the map of the issuing context (R285, R286): slot 1 is map 1; a slot that holds no map
leaves every opcode unmapped; a system core decodes with map 1. -/
def State.iop (s : State) (op : Nat) : Option Nat :=
  match s.turn with
  | .sys _ => some op
  | .core f c =>
    let sel := ((s.curBank.run.map fun (r : StepRun) => r.maps).getD 0).toNat / 8 ^ ctxStream c % 8
    if sel = 1 then some op
    else if sel = 0 then none
    else
      match tfind (s.core f.toNat).maps sel with
      | none => none
      | some m => let e := (m.getD op 0).toNat; if bit e 15 then some (e % 1024) else none

/-- The word at a slot of a line. -/
def slotWord (bs : List Byte) (k : Nat) : Nat := ofBytes ((bs.drop (4 + 4 * k)).take 4)

/-- Rows 1 to 5 of Table 12-6 for the instruction at a slot of a line. -/
def State.decodeAt (s : State) (bs : List Byte) (slot : Nat) : Except DecodeError Instr :=
  let w := slotWord bs slot
  let n := Decode.lenOf w
  if slot + n > 15 then .error (.badLength (Decode.opOf w) n)
  else
    match s.iop (Decode.opOf w) with
    | none => .error (.unmapped (Decode.opOf w))
    | some op =>
      let x := ofBytes ((bs.drop (4 + 4 * slot)).take (4 * n))
      Decode.operation op n (putBits x 11 2 op)

/-- Fetch the next instruction of the agent whose turn it is. -/
def fetch (s : State) : Fetched :=
  if !s.runnable then .next s
  else
    let p := s.pos
    if s.nLines ≤ p.line.toNat then .next (s.trap (trapOf Cause.codeBad))
    else if !s.lineHeld p.line then
      match s.fillCode p.line with
      | .ok t _ => .next t
      | .wait t => .next t
      | .trap x => .next (s.trap (pathless x))
      | .fault r => .fault r
    else
      let bs := s.lineBytes p.line
      let l := linkOf bs
      if s.lineBad l then .next (s.trap (trapOf Cause.codeBad))
      else if p.slot = 15 then .next (s.trap (trapOf (if l.e then Cause.streamEnd else Cause.codeBad)))
      else
        let w := slotWord bs p.slot.toNat
        -- an answer SKIP: the instruction retires with no effect (R248)
        if s.ctx.skip then .next ((s.setCtx { s.ctx with skip := false }).advance (max 1 (Decode.lenOf w)))
        else if Decode.lenOf w = 0 then
          if w / 4 = 0 then .next (s.goto (s.after { p with slot := 14 } 1)) else .next (s.trap (trapOf Cause.illegalOp))
        else
          match s.decodeAt bs p.slot.toNat with
          | .ok i => .run i
          | .error _ => .next (s.trap (trapOf Cause.illegalOp))

/-! ### Branch targets (R181, R283) -/

/-- Slot t of a line holds the first word of an instruction, counting lengths from slot k. -/
def startsInstr (bs : List Byte) (t : Nat) : Nat → Nat → Bool
  | 0, _ => false
  | fuel + 1, k =>
    let n := Decode.lenOf (slotWord bs k)
    if n = 0 then false
    else if k = t then k + n ≤ 15
    else if k < t then startsInstr bs t fuel (k + n)
    else false

/-- Continue at line + ldist, slot: CODE_BAD where the line lies outside the image or the slot starts no instruction. -/
def State.branchTo (s : State) (ldist : BitVec 28) (slot : BitVec 4) : Res :=
  let l := lineAt s.pos.line (signExt ldist.toNat 28)
  if l < 0 ∨ (s.nLines : Int) ≤ l then .trap (trapOf Cause.codeBad)
  else
    let line := BitVec.ofInt 24 l
    if !s.lineHeld line then
      match s.fillCode line with
      | .ok t _ => .stall t
      | .wait t => .stall t
      | .trap x => .trap (pathless x)
      | .fault r => .fault r
    else
      let bs := s.lineBytes line
      if s.lineBad (linkOf bs) || !startsInstr bs slot.toNat 15 0 then .trap (trapOf Cause.codeBad)
      else .goto s { line, slot }

end Sys2Proof.Machine
end

