-- ==== Sys2Proof/Machine/Operands.lean ====
section
/-!
DEFINITION. Operand forms: scratchpad bytes (R197), the parameter image (R325), descriptors (Table 8-9), and the
extension of a value to a register (R335).
-/

namespace Sys2Proof.Machine

open Sys2Proof

/-! ### Scratchpad (R197, R443) -/

/-- Bytes of scratchpad that the issuing agent addresses. -/
def State.scrSize (s : State) : Nat :=
  if s.isSys then 262144 else (s.curBank.run.map fun (r : StepRun) => r.scratch).getD 0
def State.scrRead (s : State) (off n : Nat) : List Byte :=
  match s.turn with
  | .core _ _ => mread s.curBank.scratch off n
  | .sys k => mread (s.sysCore k.toNat).scratch off n
def State.scrWrite (s : State) (off : Nat) (bs : List Byte) : State :=
  match s.turn with
  | .core _ _ => let k := s.curBank; s.setCurBank { k with scratch := mwrite k.scratch off bs }
  | .sys n => let c := s.sysCore n.toNat; s.setSys n.toNat { c with scratch := mwrite c.scratch off bs }

/-- The cause of an access to n bytes of scratchpad at an offset that must be a multiple of al (R250). -/
def State.scrCause (s : State) (off n al : Nat) : Option U16 :=
  if off % al ≠ 0 then some Cause.scratchAlign
  else if s.scrSize < off + n then some Cause.scratchBound
  else none

/-- A 64-byte block that an instruction reads at an a register (R360, R444, R467). -/
def State.withBlock (s : State) (a : BitVec 3) (f : List Byte → Res) : Res :=
  let off := (s.getA a).toNat
  match s.scrCause off 64 64 with
  | some c => .trap (trapOf c)
  | none => f (s.scrRead off 64)

/-! ### Parameter image (R325) -/

/-- The parameter image of the issuing task and its length N. -/
def State.paramOf (s : State) : Memory × Nat :=
  match s.task? s.taskId with
  | some t => if s.isSys then ([], 0) else (t.param, t.paramLen)
  | none => ([], 0)

/-! ### Extension (R326, R335) -/

/-- The n-bit pattern x in a register, sign- or zero-extended. -/
def extend (signed : Bool) (x n : Nat) : Word := if signed then wordOfInt (signExt x n) else BitVec.ofNat 64 (x % 2 ^ n)
/-- FMT is a signed integer format. -/
def fmtSigned (f : Byte) : Bool :=
  match fmtOf f with
  | .int s _ => s
  | _ => false

/-! ### Descriptors (Table 8-9) -/

def dField (d : DescW) (hi lo : Nat) : Nat := bits d.toNat hi lo
def dPut (d : DescW) (hi lo v : Nat) : DescW := BitVec.ofNat 256 (putBits d.toNat hi lo v)
def dIdx (d : DescW) (k : Nat) : Nat := dField d (32 * k + 31) (32 * k)
def dSetIdx (d : DescW) (k v : Nat) : DescW := dPut d (32 * k + 31) (32 * k) v
def dPad (d : DescW) : Nat := dField d 191 128
def dRows (d : DescW) : Nat := dField d 199 192
def dCols (d : DescW) : Nat := dField d 207 200
def dHreg (d : DescW) : BitVec 4 := BitVec.ofNat 4 (dField d 211 208)
def dValid (d : DescW) : Bool := bit d.toNat 216
def dPadOvr (d : DescW) : Bool := bit d.toNat 217

/-- The descriptor that DSET writes (Table 13-9). -/
def dMake (h rows cols row0 col0 : Nat) : DescW :=
  BitVec.ofNat 256 (2 ^ 216 + h % 16 * 2 ^ 208 + cols % 256 * 2 ^ 200 + rows % 256 * 2 ^ 192 + col0 % 2 ^ 32 * 2 ^ 96
    + row0 % 2 ^ 32 * 2 ^ 64)

/-- PadOf(d): the low b bits of the descriptor's PAD, or the object's PAD (R196, R332). -/
def padOf (d : DescW) (e : Entry) : Nat := (if dPadOvr d then dPad d else (ePad e).toNat) % 2 ^ eWidth e

/-! ### From resolution to issue -/

/-- Go on with what the handle unit found: the instruction waits, or traps, or stops the model. -/
def Got.res {α : Type} (g : Got α) (f : State → α → Res) : Res :=
  match g with
  | .ok s v => f s v
  | .wait s => .stall s
  | .trap x => .trap x
  | .fault r => .fault r

end Sys2Proof.Machine
end

