-- ==== Sys2Proof/Machine/Reads.lean ====
section
/-!
DEFINITION. Reads of elements by a unit that is no control core: an engine, a scheduler unit or a chain. An element of
another package comes in the line that a remote read brings (R44).
-/

namespace Sys2Proof.Machine

open Sys2Proof

/-- A reader has taken its lines. -/
def State.dropLines (s : State) (key : Nat) : State :=
  { s with objs := { s.objs with lines := s.objs.lines.filter fun l => l.1 ≠ key } }

/-- The bytes of an element at its place, by a weak load. -/
def State.readAt (s : State) (k : Asker) (key : Nat) (e : Entry) (p : Place) (rd : Nat) (ch : Choices) : Got (List Byte × Choices) :=
  if p.pkg ≠ s.pkg then
    let take := fun (b : List Byte) => (b.drop (p.va.toNat % 64)).take p.bytes
    match (if (s.lineInHand key p).isSome then none else s.farCopy k e p rd) with
    | some x => .ok x.1 (take x.2, ch)
    | none => (s.remoteLine k key p rd).bind fun s b => .ok s (take b, ch)
  else
    let x := s.weakLoad k e p rd ch
    .ok x.1 (x.2.1, x.2.2)

/-- The code of one element by its tuple; none where the tuple is outside the object. -/
def State.readElem (s : State) (k : Asker) (key : Nat) (h : Word) (t : List Nat) (n : Need) (rd : Nat) (ch : Choices)
    (scale : Bool := false) : Got (Entry × Option Nat × Choices) :=
  (s.resolve k h t 0 n scale).bind fun s x =>
    match x.place with
    | none => .ok s (x.entry, none, ch)
    | some p => (s.readAt k key x.entry p rd ch).bind fun s r => .ok s (x.entry, some (codeOfBytes p r.1), r.2)

/-- A weak load by the units of the package that read for a task (R134, R325). -/
def needUnit : Need := { right := rightR, store := false, strong := false, use := .tileLoad }

/-- The asker for a unit that reads for a task on a path: it is no context, and a failed walk asks again. -/
def unitAsker (unit : Nat) (task : Word) (world : Byte) (p : Path) : Asker where
  who := .sys 0
  bank := 0
  source := 0
  unit := unit
  task := task
  world := world
  run := 2 ^ 66 + task.toNat
  path := p
  fpc := { line := 0, slot := 0 }
  ord := 0

/-- Codes of n elements from linear index i. -/
def State.readCodes (s : State) (k : Asker) (key : Nat) (h : Word) (e : Entry) (need : Need) : Nat → Nat → Choices → Got (List Nat × Choices)
  | 0, _, ch => .ok s ([], ch)
  | n + 1, i, ch =>
    (s.readElem k key h (tupleOf e i) need 2 ch).bind fun s r =>
      (s.readCodes k key h e need n (i + 1) r.2.2).bind fun s q => .ok s ((r.2.1.getD (ePad e).toNat) :: q.1, q.2)

/-- Codes of b bits each, packed as a row (R76). -/
def packCodes (b : Nat) (cs : List Nat) : List Byte :=
  if b = 4 then
    (List.range (ceilDiv cs.length 2)).map fun j => BitVec.ofNat 8 (cs.getD (2 * j) 0 % 16 + cs.getD (2 * j + 1) 0 % 16 * 16)
  else cs.flatMap fun c => toBytes (b / 8) c

/-- Code j of a row of b-bit codes packed as R76 packs one. -/
def unpackCode (b : Nat) (row : List Byte) (j : Nat) : Nat :=
  if b = 4 then bits (byteAt row (j / 2)).toNat (4 * (j % 2) + 3) (4 * (j % 2))
  else ofBytes ((row.drop (j * (b / 8))).take (b / 8))

end Sys2Proof.Machine
end

