-- ==== Sys2Proof/Machine/Slices.lean ====
section
/-!
DEFINITION. What requests do at their home: weak loads and stores, strong accesses and atomics (R215, R339), versions
(R224 to R230), the Spout (R345), and the end of fills and walks (R206, R208).
-/

namespace Sys2Proof.Machine

open Sys2Proof

def State.req? (s : State) (id : Nat) : Option Req := s.objs.reqs.find? fun r => r.id == id

/-! ### Objects lost (R95) -/

/-- An object's STATE becomes LOST at its home, with its event once per object (R95), and the domain forgets the entry
(R87). -/
def State.loseObject (s : State) (h : Word) : State :=
  let i := hIndex h
  let e := s.entryInMem i
  if hHome h ≠ s.pkgNo then s.sendReq (hHome h) (plainReq .C (.lost (BitVec.ofNat 30 i)))
  else if eState e ≠ 1 ∨ eGen e ≠ hGen h then s
  else (((s.putEntry i (eput e 0 35 34 2)).entryChanged h).setErr 6 h 0)

/-! ### Atomics (R341, R342, R277) -/

/-- Table 14-3, at width w. -/
def atomResult (w op : Nat) (old v : Nat) : Nat :=
  let so := signExt old w
  let sv := signExt v w
  match op with
  | 0 => (old + v) % 2 ^ w
  | 1 => (old + 2 ^ w - v % 2 ^ w) % 2 ^ w
  | 2 => old &&& v
  | 3 => old ||| v
  | 4 => old ^^^ v
  | 5 => if so ≤ sv then old else v
  | 6 => if so ≤ sv then v else old
  | 7 => min old v
  | 8 => max old v
  | _ => v

/-- FATOM (R277): the code stored, and whether INV is set. -/
def fatomResult (op old v : Nat) : Nat × Bool :=
  let a := decFlt fp32 old
  let b := decFlt fp32 v
  let snan := isSNan fp32 old || isSNan fp32 v
  match op with
  | 0 => (roundFlt fp32 .rne true 0 (a.add false b), snan || (a.isInf && b.isInf && a.isNeg != b.isNeg))
  | 1 => (fminCode fp32 false old v, snan)
  | _ => (fminCode fp32 true old v, snan)

/-! ### Performing at the slice -/

def Req.writer (r : Req) : Writer := { run := r.run, task := r.task, path := r.path, ord := r.ord }

/-- The code of the element of a place as it stands at its slice. -/
def State.codeAt (s : State) (p : Place) : Nat := codeOfBytes p (s.plainRead p.handle p.va.toNat p.pa p.bytes)
/-- Write a code to the element of a place. -/
def State.writeCode (s : State) (w : Writer) (p : Place) (v : Nat) : State :=
  s.perform p.handle w ((p.pa : Int) - p.va.toNat) (storeBytes p v)

/-- INV of a slice (R278). -/
def State.setInv (s : State) (n : Nat) (b : Bool) : State := if b then s.setSlice n { s.slice n with inv := true } else s

/-- The end of a strong access: the issuing cluster's copy of the line is invalidated, and the request is gone (R204). -/
def State.strongDone (s : State) (r : Req) : State := if r.far then s.dropReq r else (s.l2Drop r.unit s.pkg r.place.pa).dropReq r

/-- Answer a request of another package with an ATRSP: a status, or cause, and a value. -/
def State.answerFar (s : State) (r : Req) (status : Nat) (old : Word) : State :=
  s.sendTo r.farSrc 6 (.response r.farTag (BitVec.ofNat 8 status) [] old)
/-- The value of an element as the answer of r carries it (R104). -/
def State.answerWord (s : State) (r : Req) (v : Nat) : Word := s.linkWord r.place.handle r.place.va.toNat (BitVec.ofNat 64 v)
/-- A request has performed: one of another package is answered. -/
def State.served (s : State) (r : Req) (status : Nat) (old : Word) : State := (if r.far then s.answerFar r status old else s).dropReq r

/-- An acquire places the floor of later accesses of its path to its object (R220). -/
def State.addAcquire (s : State) (r : Req) : State :=
  if r.far then s
  else
  let a := (r.place.handle, r.path, r.ord, s.objs.seq)
  match r.who with
  | .core f _ =>
    let k := s.bank f.toNat r.bank
    s.setBank f.toNat r.bank { k with run := k.run.map fun q => if q.id = r.run then { q with acqs := a :: q.acqs } else q }
  | .sys n => let c := s.sysCore n.toNat; s.setSys n.toNat { c with acqs := a :: c.acqs }

/-- The core and bank of a request. -/
def Req.coreNo (r : Req) : Nat :=
  match r.who with
  | .core f _ => f.toNat
  | .sys _ => 0

/-- Every earlier access of the step on path C to the object has performed (Table 9-3, STE.rel and CASC). -/
def State.released (s : State) (r : Req) : Bool :=
  !s.unperformed r.coreNo r.bank r.run r.ord (fun p => p == .C) (some r.place.handle)

/-- The effect of a strong element access or atomic at its slice (R215). -/
def State.strongEffect (s : State) (r : Req) : State :=
  let p := r.place
  let old := s.codeAt p
  let s := if r.far then s.answerFar r 0 (s.answerWord r old) else s
  match r.kind with
  | .sload dst sg acq =>
    let t := s.deliver r (Ctx.landS dst (extend sg old p.width))
    (if acq then t.addAcquire r else t).strongDone r
  | .sstore v _ => (s.writeCode r.writer p v.toNat).strongDone r
  | .atomic _ op v dst =>
    let t := s.writeCode r.writer p (atomResult p.width op.toNat old (v.toNat % 2 ^ p.width))
    (match dst with
      | some d => t.deliver r (Ctx.landS d (BitVec.ofNat 64 old))
      | none => t).strongDone r
  | .fatomic op v dst =>
    let x := fatomResult op.toNat old v.toNat
    let t := (s.writeCode r.writer p x.1).setInv (sliceOf p.pa) x.2
    (match dst with
      | some d => t.deliver r (Ctx.landS d (BitVec.ofNat 64 old))
      | none => t).strongDone r
  | .cas _ x n dst pd =>
    let eq := old = x.toNat % 2 ^ p.width
    let t := if eq then s.writeCode r.writer p n.toNat else s
    (t.deliver r fun c => Ctx.landP pd (decide eq) (Ctx.landS dst (BitVec.ofNat 64 old) c)).strongDone r
  | _ => s

/-! ### Versions (R224 to R230) -/

/-- Version a is at least b (R224). -/
def verGe (a b : U32) : Bool := (a - b).toNat < 2 ^ 31

/-- Queue a decrement of k for task t on its way to the scheduler unit. -/
def State.queueDecrement (s : State) (t : Word) (k : Nat) (world : Byte) (system : Bool) : State :=
  let p := noPlace 0 (BitVec.ofNat 10 (tidPkg t))
  s.issueReq { id := 0, unit := 0, who := .sys 0, bank := 0, run := 0, task := 0, world, path := .C, ord := 0,
               issued := s.now, place := p, floor := 0, fences := [], kind := .decrement t k system false,
               remote := p.pkg ≠ s.pkg }

/-- The version operations at the slice of the entry work on these: the object's key, its buffers and VERSION. -/
structure Ver where
  key : Nat
  index : Nat
  bufs : Nat
  now : U32
deriving DecidableEq, Repr

def State.verOf (s : State) (h : Word) : Ver :=
  let e := s.entryInMem (hIndex h)
  { key := objKey h, index := hIndex h, bufs := eBufs e, now := s.versionAt (hIndex h) }

/-- OPENV opens the draft: no other task holds it, and no pin is held on VERSION + 1 − k (R226). -/
def State.canOpen (s : State) (v : Ver) (task : Word) : Bool :=
  match tfind s.objs.drafts v.key with
  | some d => d.task == task
  | none => !s.objs.pins.any fun p => p.index == v.key && p.version == v.now + 1 - BitVec.ofNat 32 v.bufs
def State.openDraft (s : State) (v : Ver) (task : Word) : State :=
  match tfind s.objs.drafts v.key with
  | some _ => s
  | none => { s with objs := { s.objs with drafts := tset s.objs.drafts v.key { task, since := s.objs.seq } } }

/-- PINV (R229): the status, and the state with the pin when it is OK. -/
def State.pinVersion (s : State) (v : Ver) (want : U32) (run : Nat) : Nat × State :=
  let drafted := (tfind s.objs.drafts v.key).isSome && (v.now + 1).toNat % v.bufs == want.toNat % v.bufs
  if !verGe v.now want then (2, s)
  else if !verGe want (v.now + 1 - BitVec.ofNat 32 v.bufs) || drafted then (1, s)
  else if 65535 ≤ (s.objs.pins.filter fun p => p.index == v.key && p.version == want).length then (3, s)
  else
    let rest := s.objs.pins.filter fun p => !(p.index == v.key && p.run == run)
    (0, { s with objs := { s.objs with pins := { index := v.key, version := want, run, since := s.objs.seq } :: rest } })
def State.unpin (s : State) (key run : Nat) : State :=
  { s with objs := { s.objs with pins := s.objs.pins.filter fun p => !(p.index == key && p.run == run) } }

/-- SUBV (R228, R358). -/
def State.subscribe (s : State) (v : Ver) (want : U32) (t : Word) (world : Byte) : State :=
  let mine := fun (x : Sub) => x.index == v.key && x.task == t
  match s.objs.subs.find? mine with
  | some x =>
    if x.delivered then s
    else if verGe v.now want then
      ({ s with objs := { s.objs with subs := s.objs.subs.map fun y => if mine y then { y with version := want, delivered := true } else y } } : State).queueDecrement t 1 world true
    else { s with objs := { s.objs with subs := s.objs.subs.map fun y => if mine y then { y with version := want } else y } }
  | none =>
    let hit := verGe v.now want
    let t' : State := { s with objs := { s.objs with subs := s.objs.subs ++ [{ index := v.key, version := want, task := t, delivered := hit }] } }
    if hit then t'.queueDecrement t 1 world true else t'

/-- VERSION advances by 1 (R227): the task's draft closes, and subscriptions that it reaches deliver (R228). -/
def State.advanceVersion (s : State) (v : Ver) (task : Word) : State :=
  let new := v.now + 1
  let t := s.putVersion v.index new
  let drafts := match tfind t.objs.drafts v.key with
    | some d => if d.task = task then tdel t.objs.drafts v.key else t.objs.drafts
    | none => t.objs.drafts
  let due := fun (x : Sub) => x.index == v.key && !x.delivered && verGe new x.version
  let t : State := { t with objs := { t.objs with
    drafts
    versions := tset t.objs.versions v.key ((new, t.objs.seq) :: tget t.objs.versions [] v.key)
    stored := t.objs.stored.filter fun x => !(x.1 == task && x.2 == v.key)
    subs := t.objs.subs.map fun x => if due x then { x with delivered := true } else x } }
  (s.objs.subs.filter due).foldl (fun t x => t.queueDecrement x.task 1 0 true) t

/-- A version request at the slice of the entry: none while an OPENV has to wait. -/
def State.versionEffect (s : State) (r : Req) : Option State :=
  let v := s.verOf r.place.handle
  match r.kind with
  | .openv => if s.canOpen v r.task then some ((s.openDraft v r.task).served r 0 0) else none
  | .subv w t => some ((s.subscribe v w t r.world).served r 0 0)
  | .pinv w dst =>
    let x := s.pinVersion v w r.run
    some ((x.2.deliver r (Ctx.landS dst (BitVec.ofNat 64 x.1))).served r 0 (BitVec.ofNat 64 x.1))
  | .unpv => some ((s.unpin v.key r.run).served r 0 0)
  | .verq dst => some ((s.deliver r (Ctx.landS dst (v.now.setWidth 64))).served r 0 (v.now.setWidth 64))
  | _ => none

/-! ### Publishing (R219, R227) -/

/-- What PUB waits for: weak stores of the step to the object issued before it, on any path, and the issuing core's
dirty Basin lines of the object (Table 9-3). -/
def State.pubReady (s : State) (r : Req) : Bool :=
  let o := r.place.handle
  let k := s.bank r.coreNo r.bank
  !(s.objs.reqs.any fun q => q.id ≠ r.id && q.place.handle == o && (match q.kind with
      | .wstore _ | .rawLine _ => (q.run == r.run && q.ord < r.ord) || q.path == .X && q.run == r.run
      | .command _ .replicate => q.run == r.run
      | _ => false))
    && (isSysAgent r.who || !(k.basin.any fun l => l.handle == o && !l.dirty.isEmpty))
    && (isSysAgent r.who || !(k.cmds.any fun c => c.run == r.run && c.ord < r.ord && c.hs.contains o && (match cmdPath c.instr with
          | some p => p == .S || p == .N || p == .A
          | none => false)))

/-- Lines of the object's buffers here that have changed since its last publication, by address (R81). -/
def State.changedLines (s : State) (e : Entry) (since : Nat) : List Nat :=
  ((s.objs.wlog.filter fun w => since < w.seq && eVbase e ≤ w.va && w.va < eVbase e + eBufs e * eSpan e).map
    fun w => w.va / 64 * 64).eraseDups

/-- The packages of a shard: its primary first (R80). -/
def State.shardPkgs (s : State) (h : Word) (e : Entry) (k : Nat) : List Nat := (List.range (eReps e)).map fun j => s.smapAt h e (k * eReps e + j)

/-- Copies of the changed lines of the shards whose primary is here leave for their other replicas over the X path (R81). -/
def State.sendCopies (s : State) (r : Req) (e : Entry) : State :=
  let h := r.place.handle
  let lines := s.changedLines e (s.lastPub h s.objs.seq)
  let replicas := ((List.range (eShards e)).flatMap fun k =>
    let l := s.shardPkgs h e k
    if l.headD 0 = s.pkgNo then l.drop 1 else []).eraseDups
  replicas.foldl (fun s pk =>
    lines.foldl (fun s va =>
      match s.walkTables va with
      | .ok (_, l, large) =>
        s.issueReq { r with id := 0, path := .X, issued := s.now, remote := true, kind := .rawLine (mread s.mem (leafPaOf l large va) 64)
                            place := { noPlace h (BitVec.ofNat 10 pk) with va := BitVec.ofNat 52 va, width := 512 } }
      | .error _ => s) s) s

/-- A PUB brings every other replica level: the home of the entry copies the shards whose primary it is, and asks the
primaries of the others (R81). -/
def State.sendReplicas (s : State) (r : Req) (e : Entry) : State :=
  let h := r.place.handle
  let far := (((List.range (eShards e)).map fun k => (s.shardPkgs h e k).headD 0).filter fun p => p ≠ s.pkgNo).eraseDups
  far.foldl (fun s p => s.issueReq { r with id := 0, issued := s.now, remote := true, kind := .command 0 .replicate, place := noPlace h (BitVec.ofNat 10 p) })
    (s.sendCopies r e)

/-! ### The Spout (R345) -/

/-- Answer a CASC: to its registers, or to the package that sent it. -/
def State.answerCasc (s : State) (r : Req) (old : Option Nat) (status : Nat) : State :=
  match r.kind with
  | .casc _ _ _ dst st _ =>
    if r.far then s.answerFar r status (s.answerWord r (old.getD 0))
    else
      s.deliver r fun c =>
        let c := match old with
          | some v => Ctx.landS dst (BitVec.ofNat 64 v) c
          | none => { c with pendS := c.pendS &&& ~~~(1#32 <<< dst.toNat) }
        Ctx.landS st (BitVec.ofNat 64 status) c
  | _ => s

/-- A CASC reaches its slice: it joins the waiting list of 512, or returns NOSPOUT. -/
def State.cascArrive (s : State) (r : Req) : State :=
  let n := sliceOf r.place.pa
  let x := s.slice n
  if 512 ≤ x.waiting.length then (s.answerCasc r none 2).strongDone r
  else s.setSlice n { x with waiting := x.waiting ++ [{ req := r.id, arrived := s.cycle }] }

/-- A free entry goes to the oldest waiting CASC, which compares and swaps in one action. -/
def State.grantSpout (s : State) (n : Nat) : State :=
  let x := s.slice n
  match x.waiting with
  | [] => s
  | w :: rest =>
    match s.req? w.req with
    | none => s.setSlice n { x with waiting := rest }
    | some r =>
      if 64 ≤ x.spout.length || w.arrived + 4096 < s.cycle || s.nearbankHolds r.place.pa true then s
      else
        match r.kind with
        | .casc _ want new _ _ t =>
          let p := r.place
          let old := s.codeAt p
          let s := s.setSlice n { x with waiting := rest }
          if old = want.toNat % 2 ^ p.width then
            let s := s.writeCode r.writer p new.toNat
            let y := s.slice n
            let e : SpoutEntry := { object := p.handle, index := p.idx, old := BitVec.ofNat 64 old, template := t,
                                    world := r.world, pkg := s.pkg, forwarded := s.cycle }
            ((s.setSlice n { y with spout := y.spout ++ [e] }).answerCasc r (some old) 0).strongDone r
          else (s.answerCasc r (some old) 1).strongDone r
        | _ => s

/-- The hold bound of the oldest waiting CASC has ended. -/
def State.expireCasc (s : State) (n : Nat) : State :=
  let x := s.slice n
  match x.waiting with
  | [] => s
  | w :: rest =>
    if w.arrived + 4096 ≤ s.cycle then
      let t := s.setSlice n { x with waiting := rest }
      match s.req? w.req with
      | some r => (t.answerCasc r none 2).strongDone r
      | none => t
    else s

/-! ### Events -/

/-- A store into a mapped range whose line lies on another package: the line comes first (R199). Its place is not kept, so
that a load with a floor fetches it anew. -/
def State.farStore (s : State) (r : Req) (bs : List (Nat × Byte × Byte)) : State :=
  let k := r.asker
  let p := r.place
  let e := s.entryAny r.unit p.handle
  let key := 2 ^ 87 + r.id
  let into := fun (s : State) (line : List Byte) =>
    ((s.basinFill k e p 2 line 0).basinStore k e p bs []).dropReq r
  if (s.basinLine? k p).isSome then (s.basinStore k e p bs []).dropReq r
  else if !s.inBasin k p.handle e p.va.toNat then (s.dropReq r).issueReq { r with remote := true }
  else
    match s.farCopy k e { p with width := 512 } 7 with
    | some x => into x.1 x.2
    | none =>
      match s.remoteLine k key p with
      | .ok s line => into { s with objs := { s.objs with lines := s.objs.lines.filter fun l => l.1 ≠ key } } line
      | .wait s => s
      | _ => s

/-- A weak request of this package completes at its segment (R90, R213). -/
def State.weakDone (s : State) (r : Req) (ch : Choices) : Host.Outcome State Fault Refusal :=
  if r.remote || s.blocked r then .next s
  else if r.place.pkg ≠ s.pkg then
    match r.kind with
    | .wstore bs => .next (s.farStore r bs)
    | _ => .next s
  else
    match s.countReq r with
    | none => .next s
    | some (s, r) =>
      let p := r.place
      let k := r.asker
      let e := s.entryAny r.unit p.handle
      if !s.cxlGoes r then .next s
      else match r.kind with
      | .wload dst sg rd =>
        if s.nearbankHolds p.pa false then .next s
        else
          let x := s.weakLoad k e p rd.toNat ch
          .next ((x.1.deliver r (Ctx.landS dst (extend sg (codeOfBytes p x.2.1) p.width))).dropReq r)
      | .wstore bs =>
        if s.nearbankHolds p.pa true then .next s
        else if p.width < 512 && s.inBasin k p.handle e p.va.toNat then
          .next ((s.basinStore k e p bs ch).dropReq r)
        else .next (((s.perform p.handle r.writer ((p.pa : Int) - p.va.toNat) bs).l2Store r.unit p bs).dropReq r)
      | _ => .next s

/-- A PUB reaches its release point: the copies of R81 leave first, then VERSION advances. -/
def execPubEffect (id : U32) (s : State) : Host.Outcome State Fault Refusal :=
  match s.req? id.toNat with
  | none => .next s
  | some r =>
    if r.kind ≠ .pub || r.remote || s.blocked r || !s.pubReady r then .next s
    else if r.place.pkg ≠ s.pkg then .next (s.sendWaiting r)
    else
      let e := s.entryInMem (hIndex r.place.handle)
      if r.floor = 0 && eReps e ≠ 1 then
        let reqs := s.objs.reqs.map fun q => if q.id = r.id then { q with floor := 1 } else q
        .next (({ s with objs := { s.objs with reqs } } : State).sendReplicas r e)
      else .next ((s.advanceVersion (s.verOf r.place.handle) r.task).served r 0 0)

/-- A waiting OPENV's conflict has ended (R226). -/
def execDraftOpen (id : U32) (s : State) : Host.Outcome State Fault Refusal :=
  match s.req? id.toNat with
  | none => .next s
  | some r =>
    if r.kind ≠ .openv || r.remote || r.place.pkg ≠ s.pkg || s.blocked r then .next s
    else .next ((s.versionEffect r).getD s)

def execSpoutGrant (slice : Byte) (s : State) : Host.Outcome State Fault Refusal := .next (s.grantSpout slice.toNat)
def execCascHoldTimeout (slice : Byte) (s : State) : Host.Outcome State Fault Refusal := .next (s.expireCasc slice.toNat)

/-! ### Fills and walks (R72, R206 to R209, R255) -/

/-- An entry that has never been written: the object manager has given every unused entry its CRC (log entry 26). -/
def entryBlank (e : Entry) : Bool := e.toList.all (· == 0)

/-- A handle unit asks another package for itself. -/
def State.askHome (s : State) (unit : Nat) (p : Place) (kind : ReqKind) : State :=
  s.issueReq { id := 0, unit, who := .sys 0, bank := 0, run := 0, task := 0, world := 0, path := .C, ord := 0,
               issued := s.now, place := p, floor := 0, fences := [], kind, remote := true }
/-- Ask the home package for an entry again. -/
def State.refetch (s : State) (unit : Nat) (h : Word) : State := s.askHome unit (noPlace h (BitVec.ofNat 10 (hHome h))) .objEntry

/-- An object-table entry fill arrives. -/
def execObjectCacheFill (unit : BitVec 6) (handle : Word) (s : State) : Host.Outcome State Fault Refusal :=
  let u := s.hunit unit.toNat
  match u.fills.find? fun f => objKey f.handle == objKey handle with
  | none => .next s
  | some f =>
    let put := fun (g : Option Fill) =>
      { u with fills := u.fills.filterMap fun x => if objKey x.handle == objKey handle then g else some x }
    let local_ := hHome handle = s.pkgNo
    let words : Option Entry := if local_ then some (s.entryInMem (hIndex handle)) else f.remote
    match words with
    | none => .next s
    | some e =>
      if f.stale then
        let t := s.setHunit unit.toNat (put (some { f with stale := false, remote := none }))
        .next (if local_ then t else t.refetch unit.toNat handle)
      else
        let kept : Entry := if local_ then e.set 1 0 else e
        if entryCrcOk e || entryBlank e then .next ((s.setHunit unit.toNat (put none)).installEntry unit.toNat handle kept)
        else if !f.retried then
          let t := s.setHunit unit.toNat (put (some { f with retried := true, remote := none }))
          .next (if local_ then t else t.refetch unit.toNat handle)
        else
          -- a second mismatch: the object is lost, at its home, and UEMEM is reported (R72, R95)
          let bad := eput e 0 35 34 2
          let t := (s.setHunit unit.toNat (put none)).setErr 1 (BitVec.ofNat 64 (sliceOf (s.objAddr (hIndex handle)))) handle
          let t := if local_ then ((t.putEntry (hIndex handle) bad).entryChanged handle).setErr 6 handle 0 else t.loseObject handle
          .next (t.installEntry unit.toNat handle (bad.set 1 0))

/-- A request that a failed walk has joined takes its cause: its bank stops, or its system core traps. A unit that
reads for itself (source 0 of no core) asks again. -/
def State.failWaiter (s : State) (w : Waiter) (cause : U16) (level : Nat) (task : Word) : State :=
  let x : TrapInfo := { cause, path := pathCode w.path, level := BitVec.ofNat 4 level, handle := w.handle, idx := w.idx, va := w.va }
  match w.who with
  | .core f _ =>
    -- a prefetch raises no cause (R351)
    if (s.bank f.toNat w.bank).lq.any fun c => c.ord == w.ord && (match c.instr with
        | .pft .. => true
        | _ => false) then s
    else s.raise f.toNat w.bank w.source w.fpc task x
  | .sys n => if w.source = 1 then s.raiseSys n.toNat cause 0 w.fpc else s

/-- The task of a waiter's bank. -/
def State.waiterTask (s : State) (w : Waiter) : Word :=
  match w.who with
  | .core f _ => ((s.bank f.toNat w.bank).run.map fun r => r.task).getD 0
  | .sys _ => 0

/-- One request issued before another: by its run, then by its place in step order. -/
def Waiter.before (a b : Waiter) : Bool := a.run < b.run || (a.run == b.run && a.ord < b.ord)

/-- For each bank, only the request that issued earliest (R208). -/
def firstPerBank : List Waiter → List Waiter
  | [] => []
  | w :: ws =>
    let coreOf := fun (a : Agent) => match a with
      | .core f _ => f.toNat
      | .sys n => 1000 + n.toNat
    let same := fun (v : Waiter) => coreOf v.who == coreOf w.who && v.bank == w.bank
    let rest := firstPerBank ws
    if rest.any fun v => same v && v.before w then rest
    else w :: rest.filter fun v => !same v

/-- A page-table walk ends: one of the tables of another package with that package's answer (log entry 86). A stale one
starts again (R209). -/
def execPageWalkComplete (unit : BitVec 6) (va : BitVec 52) (s : State) : Host.Outcome State Fault Refusal :=
  let u := s.hunit unit.toNat
  match u.walks.find? fun w => w.va == va && (w.far.isNone || w.answer.isSome) with
  | none => .next s
  | some w =>
    let put := fun (g : Option Walk) => { u with walks := u.walks.filterMap fun x => if x.va == va && x.far == w.far then g else some x }
    if w.stale then
      let t := s.setHunit unit.toNat (put (some { w with stale := false, answer := none }))
      .next (match w.far with
        | none => t
        | some d => t.askHome unit.toNat { noPlace ((w.joined.map fun x => x.handle).headD 0) d with va } .walkRead)
    else
      let t := s.setHunit unit.toNat (put none)
      let found : Except Nat (Nat × Word × Bool) := match w.answer with
        | some (0, l, large) => .ok (0, l, large)
        | some (level, _, _) => .error level
        | none => s.walkTables va.toNat
      match found with
      | .ok (a, l, large) => .next (t.installTlb unit.toNat va.toNat a l large w.far)
      | .error level =>
        .next ((firstPerBank w.joined).foldl (fun t x => t.failWaiter x Cause.objMissing level (t.waiterTask x)) t)

end Sys2Proof.Machine
end

