-- ==== Sys2Proof/Machine/NearOps.lean ====
section
/-!
DEFINITION. What a near-bank or row-to-row command does at its slice (14_isa_memory.md, R360 to R364, R233).
-/

namespace Sys2Proof.Machine

open Sys2Proof

/-- The operation of a near-bank command: kind 0 fill, 1 copy, 2 axpy, 3 scale; the pattern or alpha; RND and SAT. -/
structure NbOp where
  kind : Nat
  imm : Word := 0
  rnd : Nat := 0
  sat : Bool := false
  src : Bool := false
  rows : Bool := false
deriving DecidableEq, Repr

def nbOp : Instr → Option NbOp
  | .nbfill _ _ _ _ imm lit => some { kind := 0, imm := lit ++ imm }
  | .nbcopy .. => some { kind := 1, src := true }
  | .nbaxpy _ _ _ _ _ imm rnd sat => some { kind := 2, imm := imm.setWidth 64, rnd := rnd.toNat, sat := sat == 1, src := true }
  | .nbscale _ _ _ _ imm rnd sat => some { kind := 3, imm := imm.setWidth 64, rnd := rnd.toNat, sat := sat == 1 }
  | .nbrelay .. => some { kind := 1, src := true }
  | .rrzero .. => some { kind := 0, rows := true }
  | .rrcopy .. => some { kind := 1, src := true, rows := true }
  | _ => none

/-- A command with its ranges: objects, virtual and physical first bytes, lengths in bytes and formats. data: the source
range, where another package holds it. -/
structure NbJob where
  op : NbOp
  dst : Word
  src : Word
  dva : Nat
  sva : Nat
  dpa : Nat
  spa : Nat
  dlen : Nat
  slen : Nat
  dfmt : Byte
  sfmt : Byte
  data : List Byte
deriving DecidableEq, Repr

/-- The bytes that the command leaves in its destination range (Table 14-7, R362). -/
def NbJob.result (j : NbJob) (old src : List Byte) : List Byte :=
  let alpha := decFlt fp32 j.op.imm.toNat
  let b := fmtWidth j.dfmt
  let c := fmtWidth j.sfmt
  let r := rndOf j.op.rnd
  let each := fun (f : Nat → Val → Val) =>
    packCodes b ((List.range (j.dlen * 8 / b)).map fun n => roundTo (f n (dec (unpackCode b old n) j.dfmt)) j.dfmt r j.op.sat 0)
  match j.op.kind with
  | 0 => (List.range j.dlen).map fun k => byteAt (toBytes 8 j.op.imm.toNat) (k % 8)
  | 1 => src
  | 2 => each fun n y => (alpha.mul (dec (unpackCode c src n) j.sfmt)).add (r == .rdn) y
  | _ => each fun _ y => alpha.mul y

/-- The dirty bytes of a Basin line perform at once. -/
def State.landDirty (s : State) (l : BasinLine) : State :=
  match s.walkTables l.va.toNat with
  | .error _ => s
  | .ok (_, leaf, large) =>
    let shift := (leafPaOf leaf large l.va.toNat : Int) - l.va.toNat
    ((l.dirty.map fun d => d.2).eraseDups).foldl (fun s g =>
      s.perform l.handle { run := l.run, task := l.task, path := g.2, ord := g.1 } shift
        ((l.dirty.filter fun d => d.2 = g).map fun d => (l.va.toNat + d.1, byteAt l.data d.1, 0xFF))) s

/-- Every dirty Basin copy of a line of a range is written back, and every copy is invalidated (R363). -/
def State.recall (s : State) (h : Word) (va n : Nat) : State :=
  let in_ := fun (l : BasinLine) => l.handle == h && va / 64 * 64 ≤ l.va.toNat && l.va.toNat < va + n
  let lines := s.cores.flatMap fun c => ([0, 1] : List (BitVec 1)).flatMap fun b => (c.2.bank b).basin.filter fun l => in_ l && !l.dirty.isEmpty
  let s := lines.foldl State.landDirty s
  let s := s.cores.foldl (fun s c => (s.dropBasin c.1 0 in_).dropBasin c.1 1 in_) s
  s.l2DropAll fun l => l.handle == h && va / 64 * 64 ≤ l.va && l.va < va + n

/-- The effect of a command: all its writes perform (R233). -/
def State.nearbank (s : State) (w : Writer) (j : NbJob) : State :=
  let s := s.recall j.dst j.dva j.dlen
  let src := if j.data.isEmpty then s.plainRead j.src j.sva j.spa j.slen else j.data
  let old := s.plainRead j.dst j.dva j.dpa j.dlen
  s.perform j.dst w ((j.dpa : Int) - j.dva) (bytesAt j.dva (j.result old src))

/-- The job of an accepted command. Its snapshot holds the physical ranges (destination, source), their lengths, the
leaves, the virtual ranges and the two formats. -/
def Cmd.nbJob (c : Cmd) : Option NbJob :=
  (nbOp c.instr).map fun op =>
    let at_ := fun n => (c.snap.getD n 0).toNat
    { op, dst := c.hs.headD 0, src := c.hs.getD 1 0, dva := at_ 6, sva := at_ 7, dpa := at_ 0, spa := at_ 1, dlen := at_ 2,
      slen := at_ 3, dfmt := BitVec.ofNat 8 (at_ 8), sfmt := BitVec.ofNat 8 (at_ 9), data := c.opA.map fun x => x.2 }

/-- The command has been accepted by a slice of this package and has not completed. -/
def Cmd.nbOpen (c : Cmd) : Bool := c.accepted && c.status == 0 && (nbOp c.instr).isSome && !c.snap.isEmpty

/-- The leaves of a command's ranges: they count in BUSY while it runs. -/
def Cmd.nbLeaves (c : Cmd) : List Nat := ([4, 5].map fun n => (c.snap.getD n 0).toNat).filter (· ≠ 0)

/-- An accepted command completes: its writes perform, and its slices and segments are released. -/
def State.nbFinish (s : State) (f : Nat) (b : BitVec 1) (c : Cmd) : State :=
  match c.nbJob with
  | none => s
  | some j =>
    let s := s.nearbank { run := c.run, task := c.task, path := .N, ord := c.ord } j
    let s := if c.started then c.nbLeaves.foldl (fun s a => s.busyDown a 1) s else s
    let mine := fun (x : Nat × BitVec 1 × Nat) => x.1 == f && x.2.1 == b && x.2.2 == c.ser
    let s : State := { s with slices := s.slices.map fun x => (x.1, { x.2 with nearbank := x.2.nearbank.filter fun y => !mine y }) }
    let k := s.bank f b
    s.setBank f b { k with xq := lmap1 (fun x => x.ser == c.ser) (fun x => { x with status := 1 }) k.xq }

/-- Every accepted command of a bank that p names completes. -/
def State.nbFinishAll (s : State) (f : Nat) (b : BitVec 1) (p : Cmd → Bool) : State :=
  ((s.bank f b).xq.filter fun c => p c && c.nbOpen).foldl (fun s c => s.nbFinish f b c) s

end Sys2Proof.Machine
end

