-- ==== Sys2Proof/Machine/TaskOps.lean ====
section
/-!
DEFINITION. Tasks (06_scheduler.md): launch records and their checks, task records, decrements, becoming ready, the
discard, replay and kill of steps, and barrier arrivals.
-/

namespace Sys2Proof.Machine

open Sys2Proof

/-! ### Launch records (Table 3-5) -/

abbrev LaunchRec := Vector Word 8

def lrField (r : LaunchRec) (w hi lo : Nat) : Nat := bits (r.toList.getD w 0).toNat hi lo
def lrTemplate (r : LaunchRec) : Word := r[0]
def lrParam (r : LaunchRec) : Word := r[1]
def lrTag (r : LaunchRec) : U32 := BitVec.ofNat 32 (lrField r 2 63 32)
def lrWorld (r : LaunchRec) : Nat := lrField r 2 31 24
def lrPrio (r : LaunchRec) : Nat := lrField r 2 22 20
def lrDepcnt (r : LaunchRec) : Nat := lrField r 2 15 0
def lrDie (r : LaunchRec) : Nat := lrField r 3 63 60
def lrCl (r : LaunchRec) : Nat := lrField r 3 59 50
def lrAck (r : LaunchRec) : Bool := lrField r 3 39 39 == 1
def lrNocmpl (r : LaunchRec) : Bool := lrField r 3 38 38 == 1
def lrIrq (r : LaunchRec) : Bool := lrField r 3 37 37 == 1
def lrCq (r : LaunchRec) : Nat := lrField r 3 31 26
def lrPipe (r : LaunchRec) : Word := r[4]
def lrGid (r : LaunchRec) : Nat := lrField r 5 63 48
def lrGsize (r : LaunchRec) : Nat := lrField r 5 47 32
def lrGang (r : LaunchRec) : Nat := lrField r 5 63 32
def lrMpkg (r : LaunchRec) : Bool := lrField r 5 31 31 == 1
def lrArg0 (r : LaunchRec) : Word := r[6]
def lrArg1 (r : LaunchRec) : Word := r[7]

/-- A reserved bit of a launch record is set. -/
def lrReserved (r : LaunchRec) : Bool :=
  lrField r 2 23 23 != 0 || lrField r 2 19 16 != 0 || lrField r 3 49 40 != 0 || lrField r 3 36 32 != 0
    || lrField r 3 25 0 != 0 || lrField r 5 30 0 != 0

/-- The credits that an accepted launch holds (R62). -/
def lrNeeds (r : LaunchRec) : Nat := 1 + b2n (lrAck r) - b2n (lrNocmpl r)

/-- A scheduler unit, flat number u, is allowed by the masks (R122). -/
def lrAllows (r : LaunchRec) (u : Nat) : Bool := bit (lrDie r) (u / 10) && bit (lrCl r) (u % 10)
/-- A core is allowed by the masks. -/
def lrCore (r : LaunchRec) (f : Nat) : Bool := f < 320 && lrAllows r (f / 8)

/-! ### Objects named by records -/

/-- The entry of a handle that passes checks 1 and 2 of Table 4-2, as the package knows it: from its own table, or from
an object cache (log entry 29). -/
def State.known (s : State) (h : Word) : Option Entry :=
  if h = 0 ∨ 576 ≤ hHome h then none
  else
    let e : Option Entry :=
      if hHome h = s.pkgNo then (if s.objs.otCap ≤ hIndex h then none else some (s.entryInMem (hIndex h)))
      else
        (s.objs.units.findSome? fun u => u.2.cache.find? fun c => c.index.toNat == hIndex h && c.home.toNat == hHome h).map
          fun c => c.words
    e.filter fun e => (eState e = 1 || eState e = 2) && eGen e == hGen h && eOwner e == hWorld h

/-- The package asks for the entries of handles of other packages that no object cache of it holds: true once all are here
(log entry 29). -/
def State.askEntries (s : State) (hs : List Word) : State × Bool :=
  hs.foldl (fun x h =>
    if h = 0 ∨ hHome h = s.pkgNo ∨ 576 ≤ hHome h ∨ (x.1.cached h).isSome then x
    else
      match x.1.getEntry (unitAsker 40 0 0 .C) h with
      | .wait t => (t, false)
      | _ => x) (s, true)

/-- The entry, if a world holds a right on the object. -/
def State.usable (s : State) (h : Word) (world need : Nat) : Option Entry := (s.known h).filter fun e => hasRight e world need

/-! ### Templates (Table 6-4) -/

def tLentry (e : Entry) : Nat := bits (eSpec e 9) 31 0
def tCentry (e : Entry) : Nat := bits (eSpec e 9) 63 32
def tSentry (e : Entry) : Nat := bits (eSpec e 10) 31 0
def tOper (e : Entry) : Bool := bit (eSpec e 11) 20
def tAuto (e : Entry) : Nat := bits (eSpec e 11) 19 16
def tBars (e : Entry) : Nat := bits (eSpec e 11) 14 12
def tRegs (e : Entry) : Nat := bits (eSpec e 11) 10 0
def tBasin (e : Entry) : Nat := bits (eSpec e 12) 63 32
def tScratch (e : Entry) : Nat := bits (eSpec e 12) 31 0
def tDefparam (e : Entry) : Word := BitVec.ofNat 64 (eSpec e 13)
/-! ### Bytes of templates and declarations (log entries 29 and 30) -/

/-- Lines of templates and pipeline declarations of other packages are kept under this key until their record is taken. -/
def declKey : Nat := 2 ^ 86
def declAsker : Asker := unitAsker 40 0 0 .C
/-- Where byte i of a ROW object of bytes lies, of which j is the buffer: the package and the address. -/
def State.declPlace (s : State) (h : Word) (e : Entry) (j i : Nat) : Nat × Nat :=
  let l := locate e (tupleOf e i)
  (s.packageOf declAsker h e l.1 true, bufVa e j (layoutOffset 0 8 (eCols e) l.2.1 l.2.2).1)
/-- The buffer of the current version, once the package knows it. -/
def State.declBuffer (s : State) (h : Word) (e : Entry) : Option Nat :=
  if eBufs e = 1 then some 0 else (s.versionHeld declKey h).map fun v => v.toNat % eBufs e
/-- A byte of a line that is here. -/
def State.byteHere (s : State) (h : Word) (p : Nat × Nat) : Option Byte :=
  if p.1 = s.pkgNo then (s.directRead h p.2 1).bind List.head?
  else (s.objs.lines.find? fun l => l.1 == declKey && l.2.1 == h && l.2.2.1 == p.2 / 64 * 64).map fun l => byteAt l.2.2.2 (p.2 % 64)
/-- n bytes from byte i, if they are here. -/
def State.objBytes (s : State) (h : Word) (e : Entry) (i n : Nat) : Option (List Byte) :=
  (s.declBuffer h e).bind fun j =>
    if eShards e = 1 ∧ eReps e = 1 ∧ s.packageOf declAsker h e 0 true = s.pkgNo then s.directRead h (bufVa e j i) n
    else (List.range n).foldr (fun o r => r.bind fun bs => (s.byteHere h (s.declPlace h e j (i + o))).map fun b => b :: bs) (some [])
/-- The package asks for n bytes from byte i: true once they are here. -/
def State.askBytes (s : State) (h : Word) (e : Entry) (i n : Nat) : State × Bool :=
  if hHome h = s.pkgNo ∧ eShards e = 1 ∧ eReps e = 1 ∧ s.packageOf declAsker h e 0 true = s.pkgNo then (s, true)
  else
    let got : Got Unit :=
      (s.fetchMap declAsker e 0 (eShards e * eReps e)).bind fun s _ =>
        (if eBufs e = 1 then Got.ok s 0 else (s.versionRead declAsker declKey h).bind fun s v => .ok s (v.toNat % eBufs e)).bind fun s j =>
          let lines := (((List.range n).map fun o => s.declPlace h e j (i + o)).filter fun p => p.1 ≠ s.pkgNo).map fun p => (p.1, p.2 / 64 * 64)
          lines.eraseDups.foldl (fun (g : Got Unit) p => g.bind fun s _ =>
            (s.remoteLine declAsker declKey { noPlace h (BitVec.ofNat 10 p.1) with va := BitVec.ofNat 52 p.2 }).bind fun s _ => .ok s ()) (.ok s ())
    match got with
    | .ok t _ => (t, true)
    | .wait t => (t, false)
    | _ => (s, true)
/-- What the package has asked for of an object goes. -/
def State.dropBytes (s : State) (h : Word) : State :=
  { s with objs := { s.objs with lines := s.objs.lines.filter fun l => !(l.1 == declKey && l.2.1 == h) } }

/-- Storage bytes of a template's image. -/
def State.imageBytes (s : State) (h : Word) (e : Entry) (off n : Nat) : Option (List Byte) := s.objBytes h e off n
/-- NLINES: the lines of the image. -/
def tLines (e : Entry) : Nat := eExt e 3 * eExt e 2 * eExt e 1 * eExt e 0 / 64
/-- QMASK of a template (Table 8-2), which State.askTemplate brings here. -/
def State.qmaskOf (s : State) (h : Word) (e : Entry) : BitVec 5 :=
  match s.imageBytes h e (64 * (tLines e - 1)) 8 with
  | some b => BitVec.ofNat 5 (ofBytes ((b.drop 4).take 4))
  | none => 0x1F

/-! ### Pipeline declarations (Table 6-10) -/

/-- The entry and the trailer of a template are at hand: of another package, they are asked for. -/
def State.askTemplate (s : State) (h : Word) : State × Bool :=
  let x := s.askEntries [h]
  if !x.2 then x
  else
    match x.1.known h with
    | some e => if eKind e = 2 then x.1.askBytes h e (64 * (tLines e - 1)) 8 else x
    | none => x

/-- The bytes of a pipeline declaration, an object of KIND 4, ROW of .z8 (R136), if they are here. -/
def State.declBytes (s : State) (h : Word) : Option (List Byte) :=
  match s.known h with
  | some e => if eKind e = 4 ∧ eLayout e = 0 ∧ eFmt e = 0x00 then s.objBytes h e 0 (min 576 (eExt e 0 * eExt e 1 * eExt e 2 * eExt e 3)) else none
  | none => none

def declWord (d : List Byte) (off : Nat) : Nat := ofBytes ((d.drop off).take 8)
def declStages (d : List Byte) : Nat := bits (declWord d 0) 3 0
def declRings (d : List Byte) : Nat := bits (declWord d 0) 8 4
def declCores (d : List Byte) : Nat := bits (declWord d 0) 25 17

def stageOf (d : List Byte) (param : Word) (k : Nat) : StageInfo :=
  let o := 64 + 32 * k
  let p := BitVec.ofNat 64 (declWord d (o + 8))
  { template := BitVec.ofNat 64 (declWord d o)
    param := if p = 0 then param else p
    minCores := bits (declWord d (o + 16)) 8 0
    maxCores := bits (declWord d (o + 16)) 24 16
    index := 0 }
def ringOf (d : List Byte) (k : Nat) : RingDecl :=
  let o := 320 + 16 * k
  let w := declWord d o
  { slots := bits w 63 48, size := bits (declWord d (o + 8)) 31 0, prod := bits w 2 0, cons := bits w 6 4,
    pring := bits w 10 8, cring := bits w 14 12, occ := 0, samples := 0 }

/-- The declaration keeps to Table 6-10. -/
def declOk (d : List Byte) : Bool :=
  let ns := declStages d
  let nr := declRings d
  let w := declWord d 0
  d.length == 576 && bits w 63 26 == 0 && bits w 16 9 == 0 && 1 ≤ ns && ns ≤ 8 && nr ≤ 16
    && 1 ≤ declCores d && declCores d ≤ 320
    && ((List.range 7).all fun k => declWord d (8 + 8 * k) == 0)
    && ((List.range 8).all fun k =>
        let st := stageOf d 0 k
        let m := declWord d (80 + 32 * k)
        if k < ns then 1 ≤ st.maxCores && st.maxCores ≤ 320 && 1 ≤ st.minCores && st.minCores ≤ st.maxCores
            && bits m 63 25 == 0 && bits m 15 9 == 0 && declWord d (88 + 32 * k) == 0
        else (List.range 4).all fun j => declWord d (64 + 32 * k + 8 * j) == 0)
    && ((List.range 16).all fun k =>
        let r := ringOf d k
        let a := declWord d (320 + 16 * k)
        let b := declWord d (328 + 16 * k)
        if k < nr then 2 ≤ r.slots && r.slots ≤ 256 && r.prod < r.cons && r.cons < ns && r.size % 64 == 0 && 0 < r.size
            && bits a 47 15 == 0 && !bit a 11 && !bit a 7 && !bit a 3 && bits b 63 32 == 0
        else a == 0 && b == 0)
    && (let st := (List.range ns).map (stageOf d 0)
        sumBy (fun x => x.minCores) st ≤ declCores d && declCores d ≤ sumBy (fun x => x.maxCores) st)

/-! ### Task records (R120 to R122) -/

/-- The lowest free index of a unit. -/
def firstGap {α : Type} : Nat → List (Nat × α) → Nat
  | k, [] => k
  | k, (j, _) :: t => if j = k then firstGap (k + 1) t else k

def State.freeRecords (s : State) (u : Nat) : Nat := 65536 - (s.unit u).tasks.length

/-- The home unit of a record: among the allowed clusters the one with most free records, the lowest on a tie (R122). -/
def State.homeUnit (s : State) (r : LaunchRec) : Option Nat :=
  leastBy (fun u => (s.unit u).tasks.length) ((List.range 40).filter (lrAllows r))

/-- A task record as accepted. -/
def blankTask (r : LaunchRec) (seq : U16) (role : TaskRole) : Task where
  lr := r
  seq := seq
  count := BitVec.ofNat 16 (lrDepcnt r)
  st := .waiting
  eprio := BitVec.ofNat 3 (lrPrio r)
  arrived := 0
  running := 0
  nextStep := 0
  done := 0
  waitStart := 0
  status := 0
  bars := .replicate 4 0
  role := role
  viaRec := false
  viaCasc := false
  readySeq := 0
  readyNs := 0
  loaded := false
  param := []
  paramLen := 0
  walker := none
  requeued := []
  killed := none
  pipe := none

/-- Take a record of a unit for a launch; the identifier of the task. -/
def State.addTask (s : State) (u : Nat) (r : LaunchRec) (role : TaskRole) (f : Task → Task) : State × Word :=
  let x := s.unit u
  let i := firstGap 0 x.tasks
  let seq := tget x.seqs 0 i + 1
  (s.setUnit u { x with tasks := tset x.tasks i (f (blankTask r seq role)), seqs := tset x.seqs i seq },
   taskIdOf seq.toNat s.pkgNo u i)

/-- Change the record of a task, if it stands. -/
def State.mapTask (s : State) (t : Word) (f : Task → Task) : State :=
  match s.task? t with
  | some k => s.putTask t (f k)
  | none => s

/-- Every task of the package, with its identifier. -/
def State.allTasks (s : State) : List (Word × Task) :=
  s.sched.units.flatMap fun u => u.2.tasks.map fun x => (taskIdOf x.2.seq.toNat s.pkgNo u.1 x.1, x.2)

/-- EPRIO at this cycle (R129). -/
def State.eprioNow (s : State) (t : Task) : Nat :=
  let base := lrPrio t.lr
  if base = 7 then 7 else min 6 (base + (s.cycle - t.waitStart.toNat) / 65536)

/-- Word 8 of a record (Table 6-3). A task that still waits has no WAITSTART, and its EPRIO is shown as if its wait clock ran from
cycle 0; between two steps of a task STATE is ready again: DESIGN CHOICE (log entry 82). -/
def State.taskWord8 (s : State) (t : Task) : Word :=
  let st := match t.st with
    | .waiting => 0
    | .ready => 1
    | .running => 2
    | .ended => 3
  BitVec.ofNat 64 (t.seq.toNat * 2 ^ 48 + t.count.toNat * 2 ^ 32 + st * 2 ^ 30 + s.eprioNow t * 2 ^ 27
    + t.arrived.toNat * 2 ^ 20 + t.running.toNat)

/-! ### The task status word (Table 6-6) -/

def bumpField (w : Word) (hi lo : Nat) : Word :=
  let v := bits w.toNat hi lo
  BitVec.ofNat 64 (putBits w.toNat hi lo (min (2 ^ (hi + 1 - lo) - 1) (v + 1)))
def Task.addReplay (t : Task) : Task := { t with status := bumpField t.status 63 48 }
def Task.addPreempt (t : Task) : Task := { t with status := bumpField t.status 47 32 }
def Task.addPoison (t : Task) : Task := { t with status := bumpField t.status 31 16 ||| 1 }
def Task.setDeperr (t : Task) : Task := { t with status := t.status ||| 8 }
def Task.setRecbad (t : Task) : Task := { t with status := t.status ||| 16 }
def Task.poisoned (t : Task) : Bool := t.status.getLsbD 0

/-! ### Rings (R452, R453, R455) -/

/-- When a step ends or commits, its RETIRING slots become FREE (R453). -/
def RingEnd.retire (e : RingEnd) : RingEnd :=
  { e with slots := e.slots.map fun x => if x = .retiring then .free else x }

/-- Slots of an end that a release of an earlier step has still to finish. -/
def RingEnd.owed (e : RingEnd) : List Nat := e.pend.map (fun x => x.1) ++ e.xfer ++ e.puts.map fun p => p.slot

/-- An end as a step finds it: what is full was filled from outside the step. -/
def RingEnd.dispatched (e : RingEnd) : RingEnd :=
  { e with outside := (List.range e.slots.length).filter fun i => e.slots.getD i .free = .full || (e.pend.any fun x => x.1 == i) }

/-- The end after the step that began at old is dropped (R455): slots filled from outside are FULL again, what it
acquired or filled itself is FREE, and its own releases are dropped; releases of earlier steps go on. -/
def RingEnd.restore (now old : RingEnd) : RingEnd :=
  let fills := now.outside.any fun i => !(old.outside.contains i)
  { now with
    slots := (List.range now.slots.length).map fun i =>
      if old.owed.contains i then now.slots.getD i .free
      else if now.outside.contains i then .full
      else old.slots.getD i .free
    pptr := if now.kind = .consumer || fills then now.pptr else old.pptr
    cptr := old.cptr
    heldP := old.heldP
    heldC := old.heldC
    pend := now.pend.filter fun x => old.pend.any fun y => y.1 == x.1
    xfer := now.xfer.filter fun x => old.owed.contains x
    puts := now.puts.filter fun x => old.puts.any fun y => y.slot == x.slot }

/-! ### Discard of a step (R150, R151, R455) -/

/-- The commands of a bank that p keeps. -/
def Bank.keepCmds (k : Bank) (p : Cmd → Bool) : Bank :=
  { k with lq := k.lq.filter p, mq := k.mq.filter p, vq := k.vq.filter p, sq := k.sq.filter p, xq := k.xq.filter p }

/-- The version pins of a run are released (R229), those at other packages by a message to the home. -/
def State.releasePins (s : State) (run : Nat) : State :=
  let far := (s.objs.pins.filter fun p => p.run = run).map (fun p => p.index) ++ (s.objs.reqs.filterMap fun q => match q.kind with
    | .pinv _ _ => if q.run = run ∧ q.remote then some (objKey q.place.handle) else none
    | _ => none)
  let s := (far.eraseDups.filter fun i => i / 2 ^ 30 ≠ s.pkgNo).foldl (fun s i =>
    s.sendReq (i / 2 ^ 30) { plainReq .C (.version (BitVec.ofNat 30 i) 5 0 0) with run }) s
  { s with objs := { s.objs with
      pins := s.objs.pins.filter fun p => p.run ≠ run
      lines := s.objs.lines.filter fun l => l.1 / 8 ≠ verKey run .L / 8 } }
/-- Pins of ATTN that p names are released (R431). -/
def State.releaseSpans (s : State) (p : SpanPin → Bool) : State :=
  { s with objs := { s.objs with spans := s.objs.spans.map fun x => (x.1, x.2.filter fun y => !p y) } }
/-- The home package of a sequence releases the pins of an ATTN of this package. -/
def State.releaseFar (s : State) (c : Cmd) : State :=
  match c.instr with
  | .attn .. =>
    let h := c.hs.headD 0
    if c.started && hHome h ≠ s.pkgNo then
      s.sendReq (hHome h) (plainReq .A (.sequence (BitVec.ofNat 30 (hIndex h)) 6 [c.vs.getD 1 0] []))
    else s
  | _ => s

/-- Segments that a peer transfer counts in BUSY are released (R90). -/
def State.releaseBusy (s : State) (c : Cmd) : State :=
  match c.instr with
  | .xsend .. => c.snap.foldl (fun s a => s.busyDown a.toNat 1) s
  | _ => s

/-- The XSTEP command of a running plan. -/
def Bank.planCmd (k : Bank) : Option Cmd := k.xq.find? fun c => c.started && match c.instr with
  | .xstep .. => true
  | _ => false

/-- A hop plan stops: nothing more is sent, and its partial is dropped (R463). Its command retires without a status. -/
def State.dropPlan (s : State) (f : Nat) (b : BitVec 1) : State :=
  let k := s.bank f b
  match k.plan with
  | none => s
  | some p =>
    let xq := k.xq.map fun c => match c.instr with
      | .xstep .. => if c.started then { c with accepted := true } else c
      | _ => c
    p.leaves.foldl (fun s a => s.busyDown a 1) (s.setBank f b { k with plan := none, xq })
/-- The hop plan of a bank stops if its command is one that p names. -/
def State.dropPlanOf (s : State) (f : Nat) (b : BitVec 1) (p : Cmd → Bool) : State :=
  if (s.bank f b).planCmd.all p then s.dropPlan f b else s

/-- Requests at sequencers and attention engines of commands that p no longer names leave. -/
def State.dropServed (s : State) (f : Nat) (b : BitVec 1) (gone : Nat → Bool) : State :=
  let mine := fun (x : Nat × BitVec 1 × Nat) => x.1 == f && x.2.1 == b && gone x.2.2
  { s with
    slices := s.slices.map fun x => (x.1, { x.2 with nearbank := x.2.nearbank.filter fun y => !mine y })
    clusters := s.clusters.map fun x => (x.1, { x.2 with attn := { x.2.attn with queue := x.2.attn.queue.filter fun y => !mine y } }) }

/-- The requests of a bank that wait in handle units leave them (R242). -/
def State.withdraw (s : State) (f : Nat) (b : BitVec 1) : State :=
  let mine := fun (w : Waiter) => w.bank == b && (match w.who with
    | .core c _ => c.toNat == f
    | .sys _ => false)
  let units := s.objs.units.map fun u => (u.1, ({ u.2 with
    held := u.2.held.filter fun w => !mine w
    waiting := u.2.waiting.filter fun w => !mine w
    fills := u.2.fills.map fun x => { x with joined := x.joined.filter fun w => !mine w }
    walks := u.2.walks.map fun x => { x with joined := x.joined.filter fun w => !mine w } } : HandleUnit))
  { s with objs := { s.objs with units } }

/-- The step of a bank is dropped: its queued commands, format words and results in flight go; commands that run on from
an earlier step stay (R185); its ring ends return to their state at dispatch; the bank is idle. -/
def State.discardStep (s : State) (f : Nat) (b : BitVec 1) : State :=
  let k := s.bank f b
  match k.run with
  | none => s
  | some r =>
    let gone := (k.cmds.filter fun c => c.run = r.id).map fun c => c.ser
    -- a near-bank command that its slice has accepted runs to completion (R363)
    let s := s.nbFinishAll f b fun c => c.run = r.id
    let k := s.bank f b
    let s := (k.xq.filter fun c => c.run = r.id).foldl (fun s c => (s.releaseFar c).releaseBusy c) (s.dropPlanOf f b fun c => c.run == r.id)
    let k := s.bank f b
    let t := ((s.releasePins r.id).releaseSpans fun p => p.run == r.id).dropServed f b fun n => gone.contains n
    let t := t.withdraw f b
    let t := t.setBank f b { (k.keepCmds fun c => c.run ≠ r.id) with
      st := .idle, run := none, fault := none, record := false, skip := false, stall := none
      fmtq := k.fmtq.filter fun x => x.2.1 ≠ r.id
      landings := k.landings.filter fun l => !gone.contains l.ser
      owner := if r.held then k.owner else (r.task, r.world) }
    let c := t.core f
    t.setCore f { c with rings := c.rings.map fun e =>
      if e.task = r.task then (match r.ringsAt.find? fun o => o.k == e.k with
        | some o => e.restore o
        | none => e)
      else e }

/-! ### Free cores (R130, R131, R138, R139, R144) -/

/-- The task has steps left to hand out. -/
def Task.hasMore (k : Task) : Bool :=
  !k.requeued.isEmpty || match k.walker with
    | some w => !w.ended
    | none => k.nextStep == 0

/-- A task that is ready, loaded and not killed, and has steps to hand out. -/
def Task.isItem (k : Task) : Bool := (k.st == .ready || k.st == .running) && k.loaded && k.killed.isNone && k.hasMore

/-- The bank in which a core is free (R130, R131). Of two idle banks a step gets the one that ran last: DESIGN CHOICE
(log entry 79). -/
def State.freeBank (s : State) (f : Nat) : Option (BitVec 1) :=
  let c := s.core f
  let a := c.bank 0
  let b := c.bank 1
  if a.st = .idle ∧ b.st = .idle then some c.active
  else if a.st = .idle ∧ b.st = .parked then some 0
  else if b.st = .idle ∧ a.st = .parked then some 1
  else none

/-- What holds a core: an item that gathers, a started pipeline with a stage, or a reservation for a member of a
multi-package gang. -/
inductive Holder where
  | none
  | gather
  | stage (unit parent s : Nat)
  | member
deriving DecidableEq, Repr

/-- A core that moves to another stage of a pipeline leaves its stage once its consumer ends hold no FULL slot (R140). -/
def State.stageHeld (s : State) (f : Nat) (p : PipeInfo) (j : Nat) : Nat :=
  let old := (s.core f).rings.find? fun r => r.kind == .consumer && r.slots.contains .full
  match old with
  | none => j
  | some r => (((List.range p.stages.length).zip p.stages).find? fun x => x.2.index == tidIndex r.task).elim j fun x => x.1

def State.holder (s : State) (f : Nat) : Holder :=
  if s.sched.gather.any fun g => g.held.any fun x => x.1 == f then .gather
  else if s.host.members.any fun g => g.core == f && g.task.isNone then .member
  else
    (s.allTasks.findSome? fun x => x.2.pipe.bind fun p => (p.held.find? fun y => y.1 == f).map fun y =>
      Holder.stage (tidUnit x.1) (tidIndex x.1) (s.stageHeld f p y.2)).getD .none

/-- Core f is free for an item: a bank of it is free, and nobody else holds it (R130, R131). -/
def State.freeFor (s : State) (f : Nat) (x : Word × Task) : Bool :=
  lrCore x.2.lr f && (s.freeBank f).isSome && (match s.holder f, x.2.role with
    | .none, .stage _ _ => false
    | .none, _ => true
    | .stage u p j, .stage parent i => tidUnit x.1 == u && p == parent && i == j
    | _, _ => false)

/-- Core f is free now: for the items that may run on it the 8,192 cycles of R149 start again. It is called when a core
becomes free, and again before one that is free is taken. -/
def State.noteFree (s : State) (f : Nat) : State :=
  let units := s.sched.units.map fun u => (u.1, ({ u.2 with tasks := u.2.tasks.map fun x =>
    (x.1, if x.2.isItem && s.freeFor f (taskIdOf x.2.seq.toNat s.pkgNo u.1 x.1, x.2) then { x.2 with readyNs := s.cycle } else x.2) } : SchedUnit))
  { s with sched := { s.sched with units } }

/-- The step of a bank is dropped, and its task hands out nothing in its place. -/
def State.dropStepOf (s : State) (f : Nat) (b : BitVec 1) (t : Word) : State :=
  ((s.discardStep f b).noteFree f).mapTask t fun k => { k with running := k.running - 1 }

/-- The fault of a bank that a run-on command of an ended step raised (R185). -/
def Bank.runOnFault (k : Bank) : Bool := k.run.all fun r => r.ended

/-- The commands of a killed task leave a bank in which a run-on command had stopped; the bank goes on. -/
def State.dropRunOn (s : State) (f : Nat) (b : BitVec 1) (t : Word) : State :=
  let k := s.bank f b
  let gone := (k.cmds.filter fun c => c.task = t).map fun c => c.ser
  let s := s.nbFinishAll f b fun c => c.task = t
  let k := s.bank f b
  let s := (k.xq.filter fun c => c.task = t).foldl (fun s c => (s.releaseFar c).releaseBusy c) (s.dropPlanOf f b fun c => c.task == t)
  let s := (s.dropServed f b fun n => gone.contains n).withdraw f b
  let k := s.bank f b
  s.setBank f b { (k.keepCmds fun c => c.task ≠ t) with
    st := .idle, fault := none, record := false, skip := false, landings := k.landings.filter fun l => !gone.contains l.ser }

/-- What a killed task still has in a parked bank goes: its step, which no longer runs, or its run-on commands. -/
def State.dropParked (s : State) (f : Nat) (b : BitVec 1) (t : Word) : State :=
  if (s.bank f b).run.any fun r => r.task == t && !r.ended then s.dropStepOf f b t else s.dropRunOn f b t

/-! ### Kill (R151, R153, R143) -/

/-- The banks that hold a step of a task. -/
def State.banksOf (s : State) (t : Word) : List (Nat × BitVec 1) :=
  s.cores.flatMap fun c => ([0, 1] : List (BitVec 1)).filterMap fun b =>
    let k := c.2.bank b
    if k.st ≠ .idle && k.run.any (fun r => r.task == t && !r.ended) then some (c.1, b) else none

/-- The task is killed: its steps before COMMIT are discarded, those past it run to their ends; nothing more is handed
out. The first kill stands. -/
def State.killOne (s : State) (t : Word) (status detail : U16) : State :=
  match s.task? t with
  | none => s
  | some k =>
    if k.killed.isSome then s
    else
      let s := s.putTask t { k with killed := some (status, detail), requeued := [] }
      (s.banksOf t).foldl (fun s x =>
        match (s.bank x.1 x.2).run with
        | some r =>
          if r.committed && (s.bank x.1 x.2).st ≠ .parked && (s.bank x.1 x.2).st ≠ .resumable then s.dropPlanOf x.1 x.2 fun c => c.task == t
          else s.dropStepOf x.1 x.2 t
        | none => s) s

/-- Kill a task and, if it belongs to a local gang, every other member with the same DETAIL (R143). -/
def State.killTask (s : State) (t : Word) (status detail : U16) : State :=
  let g := s.sched.gangs.find? fun g => g.members.contains t
  let s := s.killOne t status detail
  match g with
  | some g => g.members.foldl (fun s m => s.killOne m status detail) s
  | none => s

/-- The task whose fault parks a bank is killed, and what it still has there goes. -/
def State.killParked (s : State) (f : Nat) (b : BitVec 1) (fi : FaultInfo) (detail : U16) : State :=
  let t := s.killTask fi.task (if fi.cause = Cause.objLost then Status.objLost else Status.killed) detail
  if (t.bank f b).st = .parked then t.dropParked f b fi.task else t

/-- Return a discarded step to its task, ahead of every step not yet handed out. -/
def State.requeue (s : State) (r : StepRun) (preempt : Bool) : State :=
  s.mapTask r.task fun k =>
    let q : Requeued := { step := r.step, idx := r.idx, tileRec := r.tileRec, rowlim := r.rowlim,
                          replays := if preempt then r.replays.toNat else r.replays.toNat + 1
                          preempted := r.preempted || preempt, replay := !preempt }
    let k := { k with requeued := k.requeued ++ [q], running := k.running - 1, st := if k.running = 1 then .ready else k.st
                      readyNs := if k.isItem then k.readyNs else s.cycle }
    if preempt then { k.addPreempt with waitStart := r.waitStart } else k.addReplay

/-- Discard the step of a bank and replay it, or kill its task (Table 6-14). -/
def State.replayStep (s : State) (f : Nat) (b : BitVec 1) (cause : U16) (link : Bool) : State :=
  match (s.bank f b).run with
  | none => s
  | some r =>
    if r.committed || r.ended then s.killTask r.task (if link then Status.linkTimeout else Status.killed) cause
    else if 2 ≤ r.replays.toNat then s.killTask r.task Status.replayFail cause
    else
      let t := ((s.discardStep f b).noteFree f).requeue r false
      { t with host := { t.host with replaycnt := t.host.replaycnt + 1 } }

/-! ### Becoming ready (R127, R132, R133, R145, R325) -/

/-- Item k of the image, 0 beyond N. -/
def imageWord (t : Task) (off : Nat) : Word := if off + 8 ≤ t.paramLen then mword t.param off else 0

/-- The operator descriptor of an image, by R133 and R445: the walker, or none where it is bad. -/
def operOf (param : Memory) (n : Nat) (viaRec : Bool) (records : Nat) : Option Walker :=
  if n < 96 then none
  else
    let w := fun k => (mword param (64 + 8 * k)).toNat
    let nl := bits (w 0) 2 0
    let isRec := bit (w 0) 3
    let ext := (List.range 6).map fun k => bits (w (1 + k / 2)) (if k % 2 = 1 then 63 else 31) (if k % 2 = 1 then 32 else 0)
    let bad := bits (w 0) 63 4 ≠ 0 || nl = 0 || nl = 7 || (ext.any fun e => e = 0 || 2 ^ 24 < e)
      || ((List.range 6).any fun k => nl ≤ k && ext.getD k 1 ≠ 1)
    let steps := (ext.foldl (· * ·) 1) * (if isRec then records else 1)
    if bad || isRec ≠ viaRec || (isRec && ext.getD 0 1 ≠ 1) || 2 ^ 32 - 1 < steps then none
    else
      let ext := if isRec then records :: ext.drop 1 else ext
      some { ext := .ofFn fun k => BitVec.ofNat 32 (ext.getD k.val 1), isRec, at_ := .replicate 6 0, ended := false, tileRec := 0,
             recRead := false }

/-- A stage of a pipeline by its template and image: it passes R133. -/
def State.stageOk (s : State) (world : Nat) (st : StageInfo) (param : Memory) (n : Nat) : Bool :=
  match s.usable st.template world rightL with
  | some e => eKind e == 2 && tOper e && (operOf param n false 0).isSome
  | none => false

/-- The image is loaded: barriers are read, an operator's descriptor is read, and a bad one kills the task. -/
def State.afterLoad (s : State) (t : Word) : State :=
  match s.task? t with
  | none => s
  | some k =>
    match k.role with
    | .pipeline => s.putTask t { k with loaded := true }
    | _ =>
      match s.known (lrTemplate k.lr) with
      | none => s.putTask t { k with loaded := true }
      | some e =>
        let bars : Vector Word 4 := .ofFn fun j => if j.val < tBars e then imageWord k (8 * j.val) else 0
        let k := { k with loaded := true, bars }
        if !tOper e then s.putTask t k
        else
          match operOf k.param k.paramLen k.viaRec (lrArg1 k.lr).toNat with
          | some w => s.putTask t { k with walker := some w }
          | none => (s.putTask t k).killTask t Status.killed Cause.operBad

/-- COUNT is 0: the task is ready (R127, R234); its wait clock starts. -/
def State.becomeReady (s : State) (t : Word) : State :=
  match s.task? t with
  | none => s
  | some k =>
    let s := s.putTask t { k with count := 0, st := .ready, waitStart := BitVec.ofNat 64 s.cycle, readySeq := s.objs.seq, readyNs := s.cycle }
    match k.role with
    | .pipeline => s
    | _ => if lrParam k.lr = 0 ∧ (hHome (lrTemplate k.lr) = s.pkgNo ∨ (s.cached (lrTemplate k.lr)).isSome) then s.afterLoad t else s

/-- A stale decrement is counted (R128). -/
def State.staleAt (s : State) (u : Nat) : State :=
  let x := s.unit u
  s.setUnit u { x with depstale := if x.depstale = 0xFFFFFFFF then x.depstale else x.depstale + 1 }

/-- A decrement of n reaches the home unit of task t (R127, R128, R145, R446). -/
def State.decrement (s : State) (t : Word) (n : Nat) (world : Byte) (system poison : Bool) : State :=
  let u := tidUnit t
  if 40 ≤ u then s
  else
    match s.task? t with
    | none => s.staleAt u
    | some k =>
      if k.st = .ended ∨ (!system ∧ lrWorld k.lr ≠ world.toNat) then s.staleAt u
      else
        if k.count = 0 then s.putTask t k.setDeperr
        else
        let k := if poison then k.addPoison else k
        if k.count.toNat ≤ n then (s.putTask t (if k.count.toNat < n then k.setDeperr else k)).becomeReady t
        else s.putTask t { k with count := k.count - BitVec.ofNat 16 n }

/-! ### Acceptance (R57, R121, R122, R137, R138, R143) -/

/-- The stage records of a pipeline. -/
def State.addStages (s : State) (u : Nat) (r : LaunchRec) (parent : Nat) : List (Nat × StageInfo) → State × List StageInfo
  | [] => (s, [])
  | (j, st) :: rest =>
    let lr : LaunchRec := (((r.set 0 st.template).set 1 st.param).set 4 0).set 2 (BitVec.ofNat 64 (putBits r[2].toNat 15 0 1))
    let x := s.addTask u lr (.stage parent j) id
    let y := x.1.addStages u r parent rest
    (y.1, { st with index := tidIndex x.2 } :: y.2)

/-- Join local gang GID of the record's world; a size that differs kills the member, and with it every other one (R143). -/
def State.joinGang (s : State) (t : Word) (r : LaunchRec) : State :=
  let mine := fun (g : LocalGang) => g.world.toNat == lrWorld r && g.gid.toNat == lrGid r
  match s.sched.gangs.find? mine with
  | none =>
    let g : LocalGang := { world := BitVec.ofNat 8 (lrWorld r), gid := BitVec.ofNat 16 (lrGid r), size := BitVec.ofNat 16 (lrGsize r),
                           members := [t], started := false, detail := none }
    { s with sched := { s.sched with gangs := s.sched.gangs ++ [g] } }
  | some g =>
    if g.size.toNat ≠ lrGsize r then
      g.members.foldl (fun s m => s.killOne m Status.killed Cause.gangBad) (s.killOne t Status.killed Cause.gangBad)
    else { s with sched := { s.sched with gangs := lmap1 mine (fun g => { g with members := g.members ++ [t] }) s.sched.gangs } }

/-- A record for which a unit has room, taken by unit u: the task, its TASK_ACCEPT record, its stages or gang, and
readiness when DEPCNT is 0. -/
def State.accept (s : State) (u : Nat) (r : LaunchRec) (f : Task → Task) (kill : Option U16) : State × Word :=
  let pipe := lrPipe r ≠ 0
  let gang := lrGang r ≠ 0 && !lrMpkg r
  let role : TaskRole := if pipe then .pipeline
    else if gang then .gang (BitVec.ofNat 16 (lrGid r)) (BitVec.ofNat 16 (lrGsize r)) else .plain
  let x := s.addTask u r role f
  let t := x.2
  let s := x.1
  let s := if pipe then
      match s.declBytes (lrPipe r) with
      | some d =>
        let y := s.addStages u r (tidIndex t) ((List.range (min 8 (declStages d))).map fun k => (k, stageOf d (lrParam r) k))
        let p : PipeInfo := { cores := declCores d, stages := y.2, rings := (List.range (min 16 (declRings d))).map (ringOf d),
                              held := [], started := false, lastBalance := 0, worst := none }
        y.1.mapTask t fun k => { k with pipe := some p }
      | none => s
    else s
  let s := if lrAck r then s.cqWrite (lrCq r) { kind := 2, status := 0, tag := lrTag r, result := t, irq := lrIrq r } else s
  let s := if gang then s.joinGang t r else s
  let s := if lrDepcnt r = 0 then s.becomeReady t else s
  let s := match kill with
    | some c => s.killTask t Status.killed c
    | none => s
  (s, t)

/-- Everything that a record names is at hand: entries and declarations of other packages are asked for (log entries 29
and 30). -/
def State.askHandles (s : State) (r : LaunchRec) (viaRec : Bool) : State × Bool :=
  s.askEntries ([lrTemplate r, lrParam r, lrPipe r] ++ if viaRec then [lrArg0 r] else [])
def State.askRecord (s : State) (r : LaunchRec) (viaRec : Bool) : State × Bool :=
  let x := s.askHandles r viaRec
  if !x.2 || lrPipe r = 0 then x
  else
    match x.1.known (lrPipe r) with
    | some e => if eKind e = 4 then x.1.askBytes (lrPipe r) e 0 (min 576 (eExt e 0 * eExt e 1 * eExt e 2 * eExt e 3)) else x
    | none => x

/-- Records that a launch takes: one, or NSTAGE + 1 for a pipeline (R138). -/
def State.recordsFor (s : State) (r : LaunchRec) : Nat :=
  if lrPipe r = 0 then 1
  else ((s.declBytes (lrPipe r)).map fun d => min 8 (declStages d)).getD 0 + 1

/-- The objects and the completion object of a record, in the order of Tables 3-6 and 18-1 from TEMPLATE on. -/
def State.launchObjects (s : State) (r : LaunchRec) (viaRec : Bool) : U16 :=
  let w := lrWorld r
  match s.usable (lrTemplate r) w rightL with
  | none => Status.lrTemplate
  | some te =>
    if eKind te ≠ 2 || (viaRec && !tOper te) then Status.lrTemplate
    else if lrParam r ≠ 0 && (s.usable (lrParam r) w rightR).isNone then Status.lrParam
    else if lrPipe r ≠ 0 && !((s.known (lrPipe r)).any fun e => eKind e == 4 && eOwner e == w) then Status.lrParam
    else if viaRec && (lrArg1 r = 0 || 2 ^ 24 < (lrArg1 r).toNat
        || !((s.usable (lrArg0 r) w rightR).any fun e => eLayout e == 0 && eFmt e == 0x03)) then Status.lrParam
    else if (s.cq (lrCq r)).isNone then Status.lrCq
    else if s.cqFree (lrCq r) < lrNeeds r then Status.lrCqFull
    else Status.ok

/-- The second check, at acceptance (R57): the cause that kills the task. -/
def State.recheck (s : State) (r : LaunchRec) : Option U16 :=
  let w := lrWorld r
  let one := fun (h : Word) (kind : Option Nat) (need : Nat) =>
    match s.known h with
    | none => some Cause.handleInvalid
    | some e =>
      if kind.any fun k => eKind e ≠ k then some Cause.handleInvalid
      else if !hasRight e w need then some Cause.objRights else none
  (one (lrTemplate r) (some 2) rightL).or
    ((if lrParam r = 0 then none else one (lrParam r) none rightR).or
      (if lrPipe r = 0 then none else one (lrPipe r) (some 4) 0))

/-! ### Arrivals at barriers (R145) -/

/-- The task's arrival at a slot: nothing for a slot that holds 0 or has arrived. -/
def State.arriveSlot (s : State) (t : Word) (slot : Nat) (poison : Bool) : State :=
  match s.task? t with
  | none => s
  | some k =>
    let b := k.bars.toList.getD slot 0
    if b = 0 || k.arrived.getLsbD slot then s
    else
      let s := s.putTask t { k with arrived := k.arrived ||| (1#4 <<< slot) }
      let p := noPlace 0 (BitVec.ofNat 10 (tidPkg b))
      s.issueReq { id := 0, unit := 0, who := .sys 0, bank := 0, run := 0, task := 0, world := 0, path := .C, ord := 0,
                   issued := s.now, place := p, floor := 0, fences := [], kind := .decrement b 1 true poison,
                   remote := p.pkg ≠ s.pkg }

/-! ### EXIT (R448, R185, R453) -/

/-- A step ends at its EXIT: its contexts issue nothing more, its queued commands count as committed, its pins go, and
the bank is idle; commands run on. -/
def State.endStep (s : State) (f : Nat) (b : BitVec 1) : State :=
  let k := s.bank f b
  match k.run with
  | none => s
  | some r =>
    let s := s.releasePins r.id
    let s := s.setBank f b { k with st := .idle, run := some { r with ended := true, committed := true }, owner := (r.task, r.world) }
    let c := s.core f
    let s := s.setCore f { c with rings := c.rings.map fun e => if e.task = r.task then e.retire else e }
    let s := s.mapTask r.task fun t => { t with running := t.running - 1, done := t.done + 1
                                                st := if t.running = 1 ∧ t.st = .running then .ready else t.st }
    s.noteFree f

end Sys2Proof.Machine
end

