-- ==== Sys2Proof/Machine/FaultOps.lean ====
section
/-!
DEFINITION. The fault queue (R246), and what members and the coordinator of a multi-package gang send (R67).
-/

namespace Sys2Proof.Machine

open Sys2Proof

/-- Records that the fault queue holds; FQTAIL and FQHEAD count on, and read modulo 16,384 (log entry 31). -/
def FaultRegs.count (r : FaultRegs) : Nat := (r.fqTail - r.fqHead).toNat
def State.fqFull (s : State) : Bool := 16384 ≤ s.faults.count

/-- Append a record: its bytes perform, FQTAIL advances, and the system cores wake. -/
def State.appendFault (s : State) (ws : List Word) : State :=
  let a := s.faults.fqBase.toNat + 64 * (s.faults.fqTail.toNat % 16384)
  let t : State := { s with mem := mwrite s.mem a (bytesOfWords ws), faults := { s.faults with fqTail := s.faults.fqTail + 1 } }
  t.wake 0

/-- Frame of core f, bank b (R245). -/
def State.frameAddr (s : State) (f : Nat) (b : BitVec 1) : Nat := s.faults.frameBase.toNat + (2 * f + b.toNat) * 256

/-- The record of a frame (Table 10-3). -/
def State.coreRecord (s : State) (f : Nat) (b : BitVec 1) : List Word :=
  let w := fun k => mword s.mem (s.frameAddr f b + 8 * k)
  [w 0, w 1, w 3, w 6, BitVec.ofNat 64 (b.toNat * 512 + f), s.tether, 0, 1]

/-- A parked bank appends its record, or keeps it pending while the queue is full (R246). -/
def State.appendRecord (s : State) (f : Nat) (b : BitVec 1) : State :=
  let k := s.bank f b
  if s.fqFull then s.setBank f b { k with record := true }
  else (s.setBank f b { k with record := false }).appendFault (s.coreRecord f b)

/-- FQHEAD := v: it advances by the distance to index v, if that many records are held (log entry 31); pending records
then find room, in the order of the cores. -/
def State.writeFqhead (s : State) (v : Word) : State :=
  let d := (v - s.faults.fqHead).toNat % 16384
  let s : State := if d ≤ s.faults.count then { s with faults := { s.faults with fqHead := s.faults.fqHead + BitVec.ofNat 64 d } } else s
  s.cores.foldl (fun s c => ([0, 1] : List (BitVec 1)).foldl (fun s b => if (s.bank c.1 b).record then s.appendRecord c.1 b else s) s) s

/-! ### Gang messages (R67, R68)

Kinds: 0 prepare, 1 prepared, 2 refused, 3 commit, 4 abort, 5 alive, 6 done. A message of the package to itself is
delivered through the agenda (log entry 35). -/

def State.sendGang (s : State) (dst kind : Nat) (gid : U16) (status replays preempts : U16) (t : Word) (lr : List Word) : State :=
  let m : Payload := .gang (BitVec.ofNat 4 kind) gid status replays preempts t lr
  if dst = s.pkgNo then { s with agenda := s.agenda ++ [.toSelf m] } else s.sendTo dst 9 m

/-- The membership of this package in a gang of a coordinator. -/
def State.member? (s : State) (src : BitVec 10) (gid : U16) : Option GangHere :=
  s.host.members.find? fun g => g.src == src && g.gid == gid
def State.dropMember (s : State) (src : BitVec 10) (gid : U16) : State :=
  { s with host := { s.host with members := s.host.members.filter fun g => !(g.src == src && g.gid == gid) } }
def State.mapMember (s : State) (src : BitVec 10) (gid : U16) (f : GangHere → GangHere) : State :=
  { s with host := { s.host with members := s.host.members.map fun g => if g.src == src && g.gid == gid then f g else g } }

/-! ### Ring ends (R451, R452) -/

/-- Entry k of the ring table of an image: slots, slot bytes and base. -/
def Task.ringEntry (t : Task) (k : Nat) : Option (Nat × Nat × Nat) :=
  if t.paramLen < 144 + 16 * k then none
  else
    let w := (mword t.param (128 + 16 * k)).toNat
    if bits w 63 48 = 0 then none else some (bits w 63 48, bits w 31 0, bits (mword t.param (136 + 16 * k)).toNat 31 0)

/-- The pipeline record of a stage, and its stage number. -/
def State.pipeOf (s : State) (t : Word) (k : Task) : Option (PipeInfo × Nat) :=
  match k.role with
  | .stage parent j => ((tfind (s.unit (tidUnit t)).tasks parent).bind fun p => p.pipe).map fun p => (p, j)
  | _ => none

/-- A fresh end of ring k of a task, if it declares one. -/
def State.ringEnd (s : State) (t : Word) (k : Task) (n : Nat) : Option RingEnd :=
  (k.ringEntry n).map fun e =>
    let p := s.pipeOf t k
    let prod := p.bind fun p => p.1.rings.find? fun r => r.prod == p.2 && r.pring == n
    let cons := p.bind fun p => p.1.rings.find? fun r => r.cons == p.2 && r.cring == n
    let kind : RingKind := if prod.isSome then .producer else if cons.isSome then .consumer else .loc
    let d := (prod.or cons).map fun r => (r.slots, r.size)
    let slots := (d.map fun x => x.1).getD e.1
    { task := t, k := n, kind, size := (d.map fun x => x.2).getD e.2.1, base := e.2.2, slots := List.replicate slots .free,
      pptr := 0, cptr := 0, heldP := [], heldC := [], outside := [], pend := [], puts := [], xfer := [] }

/-- The ring ends of a task's first step on a core. -/
def State.ringEnds (s : State) (t : Word) (k : Task) : List RingEnd := (List.range 8).filterMap (s.ringEnd t k)

end Sys2Proof.Machine
end

