-- ==== Sys2Proof/Machine/Sched.lean ====
section
/-!
DEFINITION. The scheduler's events (06_scheduler.md): parameter images, dispatch, the loop-nest walker, gathering,
pre-emption, launches from steps, the host and the Spout, and the end of a task.
-/

namespace Sys2Proof.Machine

open Sys2Proof

/-! ### Parameter images (R325) -/

/-- A task is killed with a cause of Table 4-2 (R95, R325). -/
def State.killCause (s : State) (t : Word) (cause : U16) : State :=
  s.killTask t (if cause = Cause.objLost then Status.objLost else Status.killed) cause

/-- The lines of other packages that a scheduler unit reads for a task are kept under this key. -/
def unitKey (t : Word) : Nat := 2 ^ 80 + t.toNat

/-- The image of a parameter block: its elements in linear order, packed. -/
def State.readImage (s : State) (k : Asker) (key : Nat) (h : Word) (ch : Choices) : Got (List Byte × Choices) :=
  if h = 0 then .ok s ([], ch)
  else
    (s.getEntry k h).bind fun s e =>
      let b := eWidth e
      let total := eExt e 0 * eExt e 1 * eExt e 2 * eExt e 3
      let n := min 4096 (ceilDiv (total * b) 8)
      (s.readCodes k key h e needUnit (min total (ceilDiv (8 * n) b)) 0 ch).bind fun s r =>
        .ok s ((packCodes b r.1).take n, r.2)

/-- The stages of a pipeline one after another: each passes R133 with its own parameter block. -/
def State.checkStages (s : State) (k : Asker) (key world : Nat) : List StageInfo → Choices → Got Bool
  | [], _ => .ok s true
  | st :: rest, ch =>
    (s.readImage k key st.param ch).bind fun s r =>
      if s.stageOk world st (mwrite [] 0 r.1) r.1.length then s.checkStages k key world rest r.2 else .ok s false

/-- PARAM_IMAGE_LOADED: the parameter image of a ready task is copied; a pipeline's declaration is checked (R137). -/
def execParamImageLoaded (task : Word) (ch : Choices) (s : State) : Host.Outcome State Fault Refusal :=
  match s.task? task with
  | none => .next s
  | some k =>
    if k.st ≠ .ready || k.loaded || k.killed.isSome then .next s
    else
      let a := unitAsker (tidUnit task) task (BitVec.ofNat 8 (lrWorld k.lr)) .L
      let key := unitKey task
      let x := s.askEntries (lrTemplate k.lr :: match k.pipe with
        | some p => p.stages.map fun st => st.template
        | none => [])
      let y := x.1.askRecord k.lr false
      if !x.2 || !y.2 then .next y.1
      else
      let s := y.1
      match k.role with
      | .pipeline =>
        match s.declBytes (lrPipe k.lr), k.pipe with
        | some d, some p =>
          if !declOk d || p.stages.isEmpty || (p.stages.headD default).template ≠ lrTemplate k.lr then
            .next (s.killTask task Status.killed Cause.pipeBad)
          else
            match s.checkStages a key (lrWorld k.lr) p.stages ch with
            | .ok t ok => 
              let t := (t.dropLines key).dropBytes (lrPipe k.lr)
              .next (if ok then t.afterLoad task else t.killTask task Status.killed Cause.pipeBad)
            | .wait t => .next t
            | .trap x => .next (if x.cause = Cause.objMissing then s else s.killTask task Status.killed Cause.pipeBad)
            | .fault r => .fault r
        | _, _ => .next (s.killTask task Status.killed Cause.pipeBad)
      | _ =>
        match s.readImage a key (lrParam k.lr) ch with
        | .ok t r =>
          .next (((t.dropLines key).mapTask task fun k => { k with param := mwrite [] 0 r.1, paramLen := r.1.length }).afterLoad task)
        | .wait t => .next t
        | .trap x => .next (if x.cause = Cause.objMissing then s else s.killCause task x.cause)
        | .fault r => .fault r

/-! ### The walker (R132 to R135) -/

/-- The next index tuple, innermost first. -/
def odoRev : List Nat → List Nat → Option (List Nat)
  | e :: es, a :: as => if a + 1 < e then some ((a + 1) :: as) else (odoRev es as).map (0 :: ·)
  | _, _ => none

def vec6 (l : List Nat) : Vector U32 6 := .ofFn fun k => BitVec.ofNat 32 (l.getD k.val 0)
def list6 (v : Vector U32 6) : List Nat := v.toList.map BitVec.toNat

def Walker.next (w : Walker) : Walker :=
  match odoRev (list6 w.ext).reverse (list6 w.at_).reverse with
  | none => { w with ended := true }
  | some r => { w with at_ := vec6 r.reverse, recRead := w.recRead && r.reverse.headD 0 == (list6 w.at_).headD 0 }
/-- The record at hand yields no step. -/
def Walker.skip (w : Walker) : Walker :=
  if w.at_[0].toNat + 1 < w.ext[0].toNat then { w with at_ := (w.at_.set 0 (w.at_[0] + 1)), recRead := false } else { w with ended := true }

/-- What a task hands out. -/
inductive Hand where
  | step (s : State) (q : Requeued)
  | no (s : State)
  | fault (r : Fault)

/-- The next step of a task: one returned to it, step 0 of a task that is no operator, or the walker's (R132, R135). A
tile record that yields no step is passed over. -/
def State.handOut (s : State) (t : Word) (k : Task) (ch : Choices) : Hand :=
  let fresh : Requeued := { step := k.nextStep, idx := .replicate 6 0, tileRec := 0, rowlim := 0x40, replays := 0, preempted := false, replay := false }
  match k.requeued with
  | q :: rest => .step (s.putTask t { k with requeued := rest }) q
  | [] =>
    match k.walker with
    | none => if k.nextStep = 0 then .step (s.putTask t { k with nextStep := 1 }) fresh else .no s
    | some w =>
      if w.ended then .no s
      else if !w.isRec then
        .step (s.putTask t { k with nextStep := k.nextStep + 1, walker := some w.next }) { fresh with idx := w.at_ }
      else if w.recRead then
        .step (s.putTask t { k with nextStep := k.nextStep + 1, walker := some w.next })
          { fresh with idx := w.at_, tileRec := w.tileRec, rowlim := BitVec.ofNat 7 (bits w.tileRec.toNat 6 0) }
      else
        let a := { unitAsker (tidUnit t) t (BitVec.ofNat 8 (lrWorld k.lr)) .L with ord := w.at_[0].toNat + 1 }
        let h := lrArg0 k.lr
        let got := (s.getEntry a h).bind fun s e => s.readElem a (unitKey t) h (tupleOf e w.at_[0].toNat) needUnit 2 ch
        match got with
        | .fault r => .fault r
        | .wait s => .no s
        | .trap x => .no (s.killCause t x.cause)
        | .ok s r =>
          let v := (r.2.1.getD (ePad r.1).toNat)
          let s := s.dropLines (unitKey t)
          let n := bits v 6 0
          if 64 < n || bits v 15 7 ≠ 0 then .no (s.putTask t { k.setRecbad with walker := some w.skip })
          else if n = 0 then .no (s.putTask t { k with walker := some w.skip })
          else
            let w := { w with recRead := true, tileRec := BitVec.ofNat 64 v }
            .step (s.putTask t { k with nextStep := k.nextStep + 1, walker := some w.next })
              { fresh with idx := w.at_, tileRec := w.tileRec, rowlim := BitVec.ofNat 7 n }

/-! ### Dispatch (R124, R130, R131, R184) -/

/-- Steps may be handed to cores: Ready, PS0, the clock runs, and no transition out of PS0 is under way (R20). -/
def State.dispatches (s : State) : Bool :=
  s.ready && s.power.pstate == .ps0 && s.power.freqAct != 0 && (s.power.trans.all fun t => t.target == .ps0)

/-- The footprint of a template fits beside the parked step of the other bank (R197). -/
def State.fits (s : State) (f : Nat) (b : BitVec 1) (e : Entry) : Bool :=
  let o := s.bank f (1 - b)
  let used := if o.st = .idle then 0 else (o.run.map fun r => r.scratch + r.basin).getD 0
  tScratch e + tBasin e + used ≤ 4194304

/-- The order of items: highest EPRIO, then earliest WAITSTART, then lowest identifier (R130). -/
def State.itemKey (s : State) (x : Word × Task) : Nat := (7 - s.eprioNow x.2) * 2 ^ 130 + x.2.waitStart.toNat * 2 ^ 65 + x.1.toNat

/-- A local gang all of whose members are ready. -/
def State.gangReady (s : State) (g : LocalGang) : Bool :=
  !g.started && g.members.length == g.size.toNat && g.members.all fun m => (s.task? m).any Task.isItem
def State.gangOf (s : State) (t : Word) : Option LocalGang := s.sched.gangs.find? fun g => g.members.contains t

/-- The item gathers cores before it starts (R139). -/
def State.gathers (s : State) (x : Word × Task) : Bool :=
  match x.2.role with
  | .pipeline => !(x.2.pipe.any fun p => p.started)
  | .gang _ _ => (s.gangOf x.1).any fun g => !g.started
  | _ => false

/-- Member i of a gang may start on core f: its masks and its footprint allow it (R143, R197). -/
def State.memberFits (s : State) (g : LocalGang) (f i : Nat) : Bool :=
  ((g.members[i]?).bind s.task?).any fun k => lrCore k.lr f && (match s.freeBank f with
    | some b => (s.known (lrTemplate k.lr)).any (s.fits f b)
    | none => false)

/-- Give core f to a member that may have it; a member that holds another core may move to make room. held pairs cores
with members. -/
def reseat (ok : Nat → Nat → Bool) (ms : List Nat) : Nat → List Nat → List (Nat × Nat) → Nat → Option (List (Nat × Nat))
  | 0, _, _, _ => none
  | n + 1, seen, held, f =>
    (ms.filter fun m => ok f m && !seen.contains m).findSome? fun m =>
      match held.find? fun x => x.2 == m with
      | none => some (held ++ [(f, m)])
      | some x => (reseat ok ms n (m :: seen) (held.filter fun y => y.2 ≠ m) x.1).map fun l => l ++ [(f, m)]

/-- What an item that gathers holds once it has core f: none where it needs no more cores, or not this one (R139). -/
def State.gatherCore (s : State) (x : Word × Task) (held : List (Nat × Nat)) (f : Nat) : Option (List (Nat × Nat)) :=
  match x.2.pipe, s.gangOf x.1 with
  | some p, _ => if held.length < p.cores && lrCore x.2.lr f then some (held ++ [(f, 0)]) else none
  | none, some g =>
    if held.length < g.size.toNat then reseat (s.memberFits g) (List.range g.members.length) (g.members.length + 1) [] held f else none
  | none, none => none
/-- The cores that an item holds as it gathers. -/
def State.heldBy (s : State) (t : Word) : List (Nat × Nat) := ((s.sched.gather.filter fun g => g.task == t).map fun g => g.held).getD []

/-- The item may have core f, bank b, which h holds. -/
def State.mayRun (s : State) (f : Nat) (b : BitVec 1) (h : Holder) (x : Word × Task) : Bool :=
  let k := x.2
  let e := s.known (lrTemplate k.lr)
  (lrCore k.lr f || s.gathers x) && (match h, k.role with
    | .stage u p j, .stage parent i => tidUnit x.1 == u && p == parent && i == j && k.isItem && e.any (s.fits f b)
    | .none, .plain => k.isItem && e.any (s.fits f b)
    | .none, .member _ _ => k.isItem && k.nextStep ≠ 0 && e.any (s.fits f b)
    | .none, .gang _ _ =>
      match s.gangOf x.1 with
      | some g => if g.started then k.isItem && e.any (s.fits f b) else s.gangReady g && g.members.head? == some x.1 && (s.gatherCore x (s.heldBy x.1) f).isSome
      | none => false
    | .none, .pipeline => k.st == .ready && k.loaded && k.killed.isNone && s.gathers x && (s.gatherCore x (s.heldBy x.1) f).isSome
    | _, _ => false)

/-- A context at the start of a step (R124). -/
def startCtx (line : Nat) (k : Task) (q : Requeued) : Ctx :=
  { Ctx.initial with
    line := BitVec.ofNat 24 line
    s := .ofFn fun j =>
      match j.val with
      | 22 => lrArg0 k.lr
      | 23 => lrArg1 k.lr
      | 30 => q.step.setWidth 64
      | 31 => q.tileRec
      | n => if 24 ≤ n ∧ n < 30 then ((list6 q.idx).getD (n - 24) 0 : Nat) else 0 }

/-- Begin a step of a task in bank b of core f: the contexts wait at the step boundary (R184). -/
def State.beginStep (s : State) (f : Nat) (b : BitVec 1) (t : Word) (q : Requeued) : State :=
  let s := s.noteFree f
  match s.task? t with
  | none => s
  | some k =>
    let h := lrTemplate k.lr
    let e := (s.known h).getD default
    let world := BitVec.ofNat 8 (lrWorld k.lr)
    let c := s.core f
    let o := c.bank b
    let same := o.owner == (t, world)
    let ends := c.rings.filter fun r => r.task ≠ o.owner.1 || same || (c.bank (1 - b)).owner.1 == r.task
    let ends := if ends.any fun r => r.task == t then ends else ends ++ s.ringEnds t k
    let ends := ends.map fun r => if r.task = t then r.dispatched else r
    let run : StepRun := {
      id := s.runs + 1, task := t, world, system := lrPrio k.lr == 7, step := q.step, prio := BitVec.ofNat 3 (s.eprioNow k),
      committed := false, replay := q.replay, replays := BitVec.ofNat 8 q.replays, preempted := q.preempted, skips := 0, cause := 0,
      rowlim := q.rowlim, tileRec := q.tileRec, idx := q.idx, maps := c.dmapsel, template := h, nlines := tLines e, regs := tRegs e,
      nbars := tBars e, scratch := tScratch e, basin := tBasin e, qmask := s.qmaskOf h e, ord := 0, acqs := [], fences := [],
      waitStart := k.waitStart, dispatched := s.cycle, held := true,
      boundary := if same then (o.run.map fun r => r.qmask).getD 0x1F else 0x1F, fresh := true,
      ringsAt := ends.filter fun r => r.task == t, ended := false, discarding := false }
    let bank : Bank := { o with
      st := .running, run := some run, L := startCtx (tLentry e) k q, C := startCtx (tCentry e) k q, S := startCtx (tSentry e) k q,
      h := .replicate 16 0, d := .replicate 16 0, hOld := [], dOld := [], bmap := o.bmap.filter (fun m => o.cmds.any fun c => c.run == m.run), fault := none, record := false, skip := false, plan := none, stall := none }
    let s := s.setCore f { (c.setBank b bank) with active := b, rings := ends }
    let s := { s.dropBytes h with runs := s.runs + 1 }
    s.mapTask t fun k => { k with st := .running, running := k.running + 1, readyNs := s.cycle
                                  waitStart := if k.hasMore then BitVec.ofNat 64 s.cycle else k.waitStart }

/-- Give core f, bank b, the next step of an item. -/
def State.giveStep (s : State) (f : Nat) (b : BitVec 1) (x : Word × Task) (ch : Choices) : Host.Outcome State Fault Refusal :=
  match s.handOut x.1 x.2 ch with
  | .step s q => .next (s.beginStep f b x.1 q)
  | .no s => .next s
  | .fault r => .fault r

/-- The items that may have core f, bank b, in dispatch order, but for those that wait while another item gathers. -/
def State.bestItem (s : State) (f : Nat) (b : BitVec 1) : Option (Word × Task) :=
  let h := s.holder f
  let items := s.allTasks.filter fun x =>
    s.mayRun f b h x && (!s.gathers x || (s.sched.gather.all fun g => g.task == x.1))
  leastBy s.itemKey items

/-- A core joins those that an item gathers. -/
def State.holdCore (s : State) (f : Nat) (x : Word × Task) : State :=
  let s := s.noteFree f
  let held := (s.gatherCore x (s.heldBy x.1) f).getD (s.heldBy x.1)
  { s with sched := { s.sched with gather := some { task := x.1, held, higherSince := none } } }

/-- The templates of the items that may run on core f are at hand (log entry 29). -/
def State.askTemplates (s : State) (f : Nat) : State × Bool :=
  s.askEntries ((s.allTasks.filter fun x => (x.2.isItem && lrCore x.2.lr f) || s.gathers x).map fun x => lrTemplate x.2.lr)

/-- STEP_DISPATCH: a free core receives the next step of the first item, or is held by the item that gathers. -/
def execStepDispatch (core : BitVec 9) (ch : Choices) (s : State) : Host.Outcome State Fault Refusal :=
  let f := core.toNat
  match s.freeBank f with
  | none => .next s
  | some b =>
    if 320 ≤ f || !s.dispatches || s.sched.grants.any (fun g => g.1 == f) then .next s
    else
      let y := s.askTemplates f
      if !y.2 then .next y.1
      else
        let s := y.1
        match s.bestItem f b with
        | none => .next s
        | some x =>
          let z := s.askTemplate (lrTemplate x.2.lr)
          if s.gathers x then .next (s.holdCore f x) else if z.2 then z.1.giveStep f b x ch else .next z.1

/-- AGING_STEP: EPRIO of a waiting task (R129). -/
def execAgingStep (task : Word) (s : State) : Host.Outcome State Fault Refusal :=
  .next (s.mapTask task fun k => if k.isItem then { k with eprio := BitVec.ofNat 3 (s.eprioNow k) } else k)

/-- The outgoing step's token counters and format words go once no command of an earlier run is queued (R190). -/
def Bank.settle (k : Bank) : Bank :=
  match k.run with
  | some r =>
    if r.fresh && !(k.cmds.any fun c => c.run ≠ r.id) then
      { k with tokens := .replicate 10 0, tokMark := none, fmtq := k.fmtq.filter fun x => x.2.1 = r.id, run := some { r with fresh := false } }
    else k
  | none => k

/-- The queues of a set are empty. -/
def Bank.queuesEmpty (k : Bank) (q : BitVec 5) : Bool :=
  (!q.getLsbD 0 || k.lq.isEmpty) && (!q.getLsbD 1 || k.mq.isEmpty) && (!q.getLsbD 2 || k.vq.isEmpty)
    && (!q.getLsbD 3 || k.sq.isEmpty) && (!q.getLsbD 4 || k.xq.isEmpty)

/-- STEP_BOUNDARY_RELEASE (R184): a bank that changes owner is zeroed first (R97); the generators start (R272). -/
def execStepBoundaryRelease (core : BitVec 9) (bank : BitVec 1) (s : State) : Host.Outcome State Fault Refusal :=
  let f := core.toNat
  let k := s.bank f bank
  match k.run with
  | none => .next s
  | some r =>
    if k.st ≠ .running || !r.held || !k.queuesEmpty r.boundary then .next s
    else
      let same := k.owner == (r.task, r.world)
      let s := if same then s else (s.flushBasin f bank fun _ => true).dropBasin f bank fun _ => true
      let k := s.bank f bank
      let k := if same then k else { k with
        vregs := [], accs := [], scratch := [], fmtq := [], tokens := .replicate 10 0, tokMark := none, landings := [], nextV := 0
        escl := 0, mrow := 0, escv := 0, escs := 0, escx := 0 }
      let base := srBaseOf r.task r.step
      .next (s.setBank f bank { k with
        run := some { r with held := false }, owner := (r.task, r.world), srbase := base
        srV := srState base 1, srM := srState base 2, srH := srState base 3 }.settle)

/-! ### Pre-emption (R149, R150) -/

/-- No core allowed to the item is free. -/
def State.noneFree (s : State) (x : Word × Task) : Bool := !((List.range 320).any fun f => s.freeFor f x)

/-- Core f would suit the item if it were free: its masks, its footprint (R197), and nobody else holds it (R138). -/
def State.suits (s : State) (x : Word × Task) (f : Nat) (b : BitVec 1) : Bool :=
  s.holder f == .none && (match x.2.role with
    | .stage _ _ => false
    | _ => if s.gathers x then (s.gatherCore x (s.heldBy x.1) f).isSome
           else lrCore x.2.lr f && (s.known (lrTemplate x.2.lr)).any (s.fits f b))

/-- The steps that an item of EPRIO q may pre-empt. -/
def State.victims (s : State) (x : Word × Task) : List (Nat × StepRun) :=
  (List.range 320).filterMap fun f =>
    let c := s.core f
    let k := c.bank c.active
    match k.run with
    | some r =>
      let role := (s.task? r.task).map fun t => t.role
      if k.st = .running ∧ s.suits x f c.active ∧ r.prio.toNat + 2 ≤ s.eprioNow x.2 ∧ !r.committed ∧ !r.ended ∧ !r.discarding
          ∧ role = some .plain ∧ k.fault.isNone then some (f, r) else none
    | none => none

/-- The victim: lowest run priority, then dispatched last, then the lowest core. -/
def victimKey (x : Nat × StepRun) : Nat := (8 - x.2.prio.toNat) * 2 ^ 100 + x.2.dispatched

def execPreemptGrace (task : Word) (s : State) : Host.Outcome State Fault Refusal :=
  match s.task? task with
  | none => .next s
  | some k =>
    let x := (task, k)
    if !s.dispatches || !k.isItem || (s.gathers x && s.sched.gather.any fun g => g.task ≠ task) || s.cycle < k.readyNs + 8192 || !s.noneFree x || s.sched.grants.any (fun g => g.2 == task) then .next s
    else
      match greatestBy victimKey (s.victims x) with
      | none => .next s
      | some v =>
        let c := s.core v.1
        let b := c.active
        let t := s.setBank v.1 b { c.bank b with run := some { v.2 with discarding := true } }
        .next { t with sched := { t.sched with grants := t.sched.grants ++ [(v.1, task)] } }

/-- PREEMPT_DISCARD_DONE: the step returns to its task, and the core goes to the item that pre-empted it. -/
def execPreemptDiscardDone (core : BitVec 9) (s : State) : Host.Outcome State Fault Refusal :=
  let f := core.toNat
  let b := (s.core f).active
  match s.sched.grants.find? (fun g => g.1 == f), (s.bank f b).run with
  | some g, some r =>
    if !r.discarding || s.power.freqAct = 0 then .next s
    else
      let t : State := { s with sched := { s.sched with grants := s.sched.grants.filter fun x => x.1 ≠ f } }
      let t := (t.discardStep f b).requeue r true
      match t.task? g.2 with
      | some k =>
        let y := t.askTemplate (lrTemplate k.lr)
        let t := y.1
        if !y.2 || !t.dispatches || !t.mayRun f b (t.holder f) (g.2, k) then .next (t.noteFree f)
        else if t.gathers (g.2, k) then .next (t.holdCore f (g.2, k))
        else t.giveStep f b (g.2, k) []
      | none => .next (t.noteFree f)
  | some g, none => .next { s with sched := { s.sched with grants := s.sched.grants.filter fun x => x ≠ g } }
  | none, _ => .next s

/-! ### Gathering (R138, R139, R143) -/

/-- GATHER_RELEASE: an item of higher EPRIO has waited 8,192 cycles with no allowed core free. -/
def execGatherRelease (s : State) : Host.Outcome State Fault Refusal :=
  match s.sched.gather with
  | none => .next s
  | some g =>
    let mine := ((s.task? g.task).map s.eprioNow).getD 0
    let pressed := s.allTasks.any fun x => x.2.isItem && x.1 ≠ g.task && mine < s.eprioNow x.2 && x.2.readyNs + 8192 ≤ s.cycle && s.noneFree x
    .next (if pressed || (s.task? g.task).isNone then { s with sched := { s.sched with gather := none } } else s)

/-- The stage that each gathered core is first held for: MINCORES each, then up to MAXCORES in stage order. -/
def stagesFor (p : PipeInfo) : List Nat :=
  let st := (List.range p.stages.length).zip p.stages
  (st.flatMap fun x => List.replicate x.2.minCores x.1) ++ (st.flatMap fun x => List.replicate (x.2.maxCores - x.2.minCores) x.1)

/-- PIPELINE_GATHERED: every stage is decremented in one cycle. -/
def execPipelineGathered (s : State) : Host.Outcome State Fault Refusal :=
  match s.sched.gather with
  | none => .next s
  | some g =>
    match s.task? g.task with
    | none => .next s
    | some k =>
      match k.pipe with
      | none => .next s
      | some p =>
        if !s.dispatches || g.held.length < p.cores || p.started || k.killed.isSome then .next s
        else
          let held := ((g.held.take p.cores).map fun x => x.1).zip (stagesFor p)
          let p := { p with started := true, held, lastBalance := s.tether.toNat / 16000 }
          let t := s.putTask g.task { k with st := .running, pipe := some p, nextStep := 1 }
          let t : State := { t with sched := { t.sched with gather := none } }
          let u := tidUnit g.task
          .next (p.stages.foldl (fun t st =>
            match tfind (t.unit u).tasks st.index with
            | some x => t.decrement (taskIdOf x.seq.toNat t.pkgNo u st.index) 1 0 true false
            | none => t) t)

/-- Dispatch step 0 of each member of a gang on the cores that it holds. -/
def State.startMembers (s : State) (ch : Choices) : List (Word × Nat) → Host.Outcome State Fault Refusal
  | [] => .next s
  | (t, f) :: rest =>
    match s.task? t, s.freeBank f with
    | some k, some b =>
      match s.handOut t k ch with
      | .step s q => (s.beginStep f b t q).startMembers ch rest
      | .no s => s.startMembers ch rest
      | .fault r => .fault r
    | _, _ => s.startMembers ch rest

def execLocalGangGathered (ch : Choices) (s : State) : Host.Outcome State Fault Refusal :=
  match s.sched.gather with
  | none => .next s
  | some g =>
    match s.gangOf g.task with
    | none => .next s
    | some x =>
      if !s.dispatches || g.held.length < x.size.toNat || !s.gangReady x then .next s
      else
        let gangs := s.sched.gangs.map fun y => if y = x then { y with started := true } else y
        let t : State := { s with sched := { s.sched with gather := none, gangs } }
        t.startMembers ch (g.held.map fun h => (x.members.getD h.2 0, h.1))

/-! ### Rebalancing (R140) -/

/-- press of a stage as a fraction: mean occupancy of the rings it consumes less that of those it produces. -/
def PipeInfo.press (p : PipeInfo) (j : Nat) : Int × Nat :=
  let occ := fun (r : RingDecl) => ((r.occ : Int), max 1 r.samples)
  let add := fun (a b : Int × Nat) => (a.1 * b.2 + b.1 * a.2, a.2 * b.2)
  let mean := fun (l : List RingDecl) => let t := (l.map occ).foldl add (0, 1); (t.1, t.2 * max 1 l.length)
  let i := mean (p.rings.filter fun r => r.cons == j)
  let o := mean (p.rings.filter fun r => r.prod == j)
  add i (-o.1, o.2)

def fracLt (a b : Int × Nat) : Bool := a.1 * b.2 < b.1 * a.2

/-- The stage with the highest press among some, the lowest number on a tie. -/
def bestStage (lt : Int × Nat → Int × Nat → Bool) : List (Nat × (Int × Nat)) → Option (Nat × (Int × Nat))
  | [] => none
  | x :: xs =>
    match bestStage lt xs with
    | none => some x
    | some y => if lt x.2 y.2 then some y else some x

/-- The core of stage d whose current step was dispatched last. -/
def State.lastCore (s : State) (p : PipeInfo) (d : Nat) : Option Nat :=
  greatestBy (fun f => let c := s.core f; ((c.bank c.active).run.map fun r => r.dispatched).getD 0)
    ((p.held.filter fun x => x.2 == d).map fun x => x.1)

def execPipelineRebalance (task : Word) (s : State) : Host.Outcome State Fault Refusal :=
  match s.task? task with
  | none => .next s
  | some k =>
    match k.pipe with
    | none => .next s
    | some p =>
      let w := s.tether.toNat / 16000
      if !p.started || w ≤ p.lastBalance || s.tether.toNat % 16000 ≠ 0 || s.power.thermStopped then .next s
      else
        let count := fun j => (p.held.filter fun x => x.2 == j).length
        let st := (List.range p.stages.length).zip p.stages
        let gs := (st.filter fun x => count x.1 < x.2.maxCores).map fun x => (x.1, p.press x.1)
        let ds := (st.filter fun x => x.2.minCores < count x.1).map fun x => (x.1, p.press x.1)
        let rings := p.rings.map fun r => { r with occ := 0, samples := 0 }
        let held := match bestStage fracLt gs, bestStage (fun a b => fracLt b a) ds with
          | some g, some d =>
            -- press(g) − press(d) ≥ 1/4
            if g.1 ≠ d.1 ∧ (d.2.2 * g.2.2 : Int) ≤ 4 * (g.2.1 * d.2.2 - d.2.1 * g.2.2) then
              match s.lastCore p d.1 with
              | some f => p.held.map fun x => if x.1 = f then (f, g.1) else x
              | none => p.held
            else p.held
          | _, _ => p.held
        .next (s.putTask task { k with pipe := some { p with lastBalance := w, rings, held } })

/-! ### Decrements and launches from steps (R127, R219, R444, R446) -/

/-- The release point of DEPDEC, ARRIVE and SPAWN (Table 9-3). -/
def State.releaseReady (s : State) (r : Req) : Bool :=
  !s.unperformed r.coreNo r.bank r.run r.ord (fun _ => true) none
    && !((s.bank r.coreNo r.bank).basin.any fun l => l.task == r.task && !l.dirty.isEmpty && !isSysAgent r.who)
    && !(s.objs.reqs.any fun q => q.task == r.task && q.run < r.run && q.coreNo == r.coreNo && r.task ≠ 0 && (match q.kind with
        | .wstore _ => true
        | _ => false))

/-- An earlier decrement of the same run to the same unit has not arrived. -/
def State.decBlocked (s : State) (r : Req) (t : Word) : Bool :=
  s.objs.reqs.any fun q => q.id ≠ r.id && q.run == r.run && q.ord < r.ord && (match q.kind with
    | .decrement u _ _ _ => tidPkg u == tidPkg t && tidUnit u == tidUnit t
    | _ => false)

/-- DEPENDENCE_DECREMENT: a decrement, or an arrival, that has passed its release point reaches its unit. -/
def execDependenceDecrement (id : U32) (s : State) : Host.Outcome State Fault Refusal :=
  match s.req? id.toNat with
  | none => .next s
  | some r =>
    match r.kind with
    | .decrement t k sys poison =>
      if r.remote || (r.run ≠ 0 && (!s.releaseReady r || s.decBlocked r t)) then .next s
      else if r.place.pkg ≠ s.pkg then .next (s.sendWaiting r)
      else .next ((s.decrement t k r.world sys poison).dropReq r)
    | .arrive slot poison => if s.releaseReady r then .next ((s.dropReq r).arriveSlot r.task slot poison) else .next s
    | _ => .next s

/-- Table 18-1. -/
def State.spawnStatus (s : State) (r : Req) (lr : LaunchRec) (viaRec : Bool) : U16 :=
  let sys := isSysAgent r.who
  if lrReserved lr || lrDie lr = 0 || lrCl lr = 0 || (lrPipe lr ≠ 0 && lrGang lr ≠ 0) || lrMpkg lr then Status.lrBad
  else if lrPrio lr = 7 && !sys then Status.lrPrio
  else if lrWorld lr ≠ r.world.toNat && !sys then Status.lrWorld
  else
    let st := s.launchObjects lr viaRec
    if st ≠ Status.ok then st
    else match s.homeUnit lr with
      | some u => if s.freeRecords u < s.recordsFor lr then Status.lrFull else Status.ok
      | none => Status.lrFull

/-- SPAWN_ARRIVAL. -/
def execSpawnArrival (id : U32) (s : State) : Host.Outcome State Fault Refusal :=
  match s.req? id.toNat with
  | none => .next s
  | some r =>
    match r.kind with
    | .spawn lr viaRec sd sst =>
      let y := s.askRecord lr viaRec
      if !s.releaseReady r then .next s
      else if !y.2 then .next y.1
      else
        let s := y.1
        let st := s.spawnStatus r lr viaRec
        let answer := fun (s : State) (t : Word) => (s.deliver r fun c => Ctx.landS sst (st.setWidth 64) (Ctx.landS sd t c)).dropReq r
        match s.homeUnit lr with
        | some u =>
          if st = Status.ok then
            let x := (s.takeCredits (lrCq lr) (lrNeeds lr)).accept u lr (fun k => { k with viaRec }) none
            .next (answer (x.1.dropBytes (lrPipe lr)) x.2)
          else .next (answer (s.dropBytes (lrPipe lr)) 0)
        | none => .next (answer s 0)
    | _ => .next s

/-- HOST_QUEUE_ACCEPT: a unit takes a record of the host launch queue, and checks its handles again (R57). -/
def execHostQueueAccept (pos : BitVec 12) (s : State) : Host.Outcome State Fault Refusal :=
  match s.host.hlq[pos.toNat]? with
  | none => .next s
  | some lr =>
    match s.homeUnit lr with
    | none => .next s
    | some u =>
      let y := s.askRecord lr false
      if !y.2 then .next y.1
      else
      let s := y.1
      if s.freeRecords u < s.recordsFor lr then .next s
      else
        let t : State := { s with host := { s.host with hlq := s.host.hlq.eraseIdx pos.toNat } }
        .next ((t.accept u lr id (t.recheck lr)).1.dropBytes (lrPipe lr))

/-! ### Spout launches (R146 to R148) -/

/-- The record that a Spout entry builds. -/
def spoutRecord (x : SpoutEntry) (e : Entry) : LaunchRec :=
  let k := eSpec e 11
  #v[x.template, tDefparam e, BitVec.ofNat 64 (x.world.toNat * 2 ^ 24 + bits k 23 21 * 2 ^ 20),
     BitVec.ofNat 64 (bits k 27 24 * 2 ^ 60 + bits k 37 28 * 2 ^ 50 + bits k 44 44 * 2 ^ 38 + bits k 45 45 * 2 ^ 37 + bits k 43 38 * 2 ^ 26),
     0, 0, x.old, x.index]

/-- A launch fault: its record is appended, CFAIL rises, and the entry is released; with the queue full the entry stays
(R246). -/
def State.launchFault (s : State) (n : Nat) (x : SpoutEntry) (reason : Nat) : State :=
  if s.fqFull then s
  else
    let y := s.slice n
    let t := s.setSlice n { y with spout := y.spout.drop 1 }
    let t := t.appendFault [x.object, x.index, x.old, x.template,
      BitVec.ofNat 64 (x.world.toNat * 2 ^ 32 + x.pkg.toNat * 2 ^ 16 + n * 256 + reason), s.tether, 0, 0]
    if hHome x.object = s.pkgNo then t.bumpCfail (hIndex x.object)
    else t.sendReq (hHome x.object) (plainReq .C (.version (BitVec.ofNat 30 (hIndex x.object)) 7 0 0))

/-- The template of an entry and its DEFPARAM are at hand (log entry 29). -/
def State.askSpout (s : State) (x : SpoutEntry) : State × Bool :=
  let y := s.askEntries [x.template]
  match y.1.known x.template with
  | some e => if y.2 then y.1.askEntries [tDefparam e] else y
  | none => y

def execSpoutLaunchTaken (slice : Byte) (s : State) : Host.Outcome State Fault Refusal :=
  let n := slice.toNat
  match (s.slice n).spout with
  | [] => .next s
  | x :: rest =>
    let y := s.askSpout x
    if !y.2 then .next y.1
    else
    let s := y.1
    match s.known x.template with
    | none => .next (s.launchFault n x 1)
    | some e =>
      let lr := spoutRecord x e
      let w := x.world.toNat
      if eKind e ≠ 2 then .next (s.launchFault n x 4)
      else if !hasRight e w rightL || (lrParam lr ≠ 0 && (s.usable (lrParam lr) w rightR).isNone) then .next (s.launchFault n x 2)
      else
        match s.homeUnit lr with
        | none => .next s
        | some u =>
          if s.freeRecords u = 0 then .next s
          else if (s.cq (lrCq lr)).isNone || s.cqFree (lrCq lr) < lrNeeds lr then .next (s.launchFault n x 5)
          else
            let t := s.setSlice n { s.slice n with spout := rest }
            .next ((t.takeCredits (lrCq lr) (lrNeeds lr)).accept u lr (fun k => { k with viaCasc := true }) none).1

def execSpoutNoRecord (slice : Byte) (s : State) : Host.Outcome State Fault Refusal :=
  let n := slice.toNat
  match (s.slice n).spout with
  | [] => .next s
  | x :: _ =>
    let y := s.askSpout x
    if !y.2 then .next y.1
    else
    let s := y.1
    match s.known x.template with
    | none => .next s
    | some e =>
      let full := (s.homeUnit (spoutRecord x e)).all fun u => s.freeRecords u == 0
      .next (if full && x.forwarded + 4096 ≤ s.cycle then s.launchFault n x 3 else s)

/-! ### The end of a task (R65, R133, R145, R153, R219) -/

/-- Rank of a STATUS for the worst of a pipeline's stages (R137). -/
def statusRank (st : U16) : Nat :=
  if st = Status.killed ∨ st = Status.objLost then 3
  else if st = Status.linkTimeout ∨ st = Status.replayFail then 2
  else if st = Status.poison then 1 else 0

/-- The worse of two ends: the second only where it ranks above the first. -/
def worseEnd (a b : U16 × U16) : U16 × U16 := if statusRank a.1 < statusRank b.1 then b else a

/-- STATUS and DETAIL of a task that ends; of a pipeline, the worst of its stages (R137). -/
def Task.ending (k : Task) : U16 × U16 :=
  match k.killed with
  | some x => x
  | none =>
    let own := if k.poisoned then (Status.poison, 0) else (Status.ok, 0)
    ((k.pipe.bind fun p => p.worst).map (worseEnd own)).getD own

/-- Every step that the task hands out has ended. -/
def Task.allEnded (k : Task) : Bool :=
  match k.pipe with
  | some p => (k.killed.isSome || p.started) && k.done.toNat == p.stages.length
  | none =>
    k.running == 0 && (k.killed.isSome || (k.st ≠ .waiting && k.loaded && !k.hasMore && k.done == k.nextStep))

/-- The banks whose Basin holds dirty lines of a task. -/
def State.dirtyBanks (s : State) (t : Word) : List (Nat × BitVec 1) :=
  s.cores.flatMap fun c => ([0, 1] : List (BitVec 1)).filterMap fun b =>
    if (c.2.bank b).basin.any fun l => l.task == t && !l.dirty.isEmpty then some (c.1, b) else none

/-- Run-on commands have retired, every access has performed, and no transfer of a ring is outstanding. -/
def State.quiet (s : State) (t : Word) : Bool :=
  !(s.cores.any fun c => ([0, 1] : List (BitVec 1)).any fun b => (c.2.bank b).cmds.any fun x => x.task == t)
    && !(s.objs.reqs.any fun q => q.task == t && (q.kind.isAccess || (match q.kind with
        | .decrement _ _ _ _ | .arrive _ _ | .spawn _ _ _ _ => true
        | _ => false)))
    && !(s.cores.any fun c => c.2.rings.any fun r => r.task == t && !(r.xfer.isEmpty && r.puts.isEmpty && r.pend.isEmpty))

/-- Drafts close, also at the homes of other packages; subscriptions and pins of ATTN go, and notes of stores to
replicated objects too (R226, R228). -/
def State.closeTask (s : State) (t : Word) : State :=
  let far := s.objs.drafts.filter fun d => d.2.task = t ∧ d.1 / 2 ^ 30 ≠ s.pkgNo
  let s := far.foldl (fun s d => s.sendReq (d.1 / 2 ^ 30) (plainReq .C (.version (BitVec.ofNat 30 d.1) 6 0 t))) s
  { s with objs := { s.objs with
      drafts := s.objs.drafts.filter fun d => d.2.task ≠ t
      subs := s.objs.subs.filter fun x => x.task ≠ t
      spans := s.objs.spans.map fun x => (x.1, x.2.filter fun y => y.task ≠ t)
      stored := s.objs.stored.filter fun x => x.1 ≠ t } }

/-- The record is free for another task (R120). -/
def State.freeTask (s : State) (t : Word) : State :=
  let u := s.unit (tidUnit t)
  s.setUnit (tidUnit t) { u with tasks := tdel u.tasks (tidIndex t) }

/-- Tell what ended: the host, the pipeline, or the coordinator of a gang. -/
def State.reportEnd (s : State) (t : Word) (k : Task) : State :=
  let e := k.ending
  let reps := bits k.status.toNat 63 48
  let pres := bits k.status.toNat 47 32
  let rec_ : Record := { kind := 1, status := e.1, tag := lrTag k.lr, result := t, replays := reps, preempts := pres,
                         detail := if e.1 = Status.killed ∨ e.1 = Status.replayFail then e.2.setWidth 32 else 0, irq := lrIrq k.lr }
  let s := if e.1 = Status.replayFail then s.setErr 5 t ((lrTag k.lr).setWidth 64) else s
  match k.role with
  | .stage parent j =>
    let u := tidUnit t
    match tfind (s.unit u).tasks parent with
    | none => s
    | some p =>
      let sum := fun hi lo (n : Nat) => min 0xFFFF (bits p.status.toNat hi lo + n)
      let st := putBits (putBits p.status.toNat 63 48 (sum 63 48 reps)) 47 32 (sum 47 32 pres)
      let x := s.unit u
      s.setUnit u { x with tasks := tset x.tasks parent { p with
        done := p.done + 1, status := BitVec.ofNat 64 st
        pipe := p.pipe.map fun q => { q with held := q.held.filter (fun h => h.2 ≠ j), worst := some ((q.worst.map fun w => worseEnd w e).getD e) } } }
  | .member src gid =>
    if (s.member? src gid).isNone then s
    else
    let silent := (s.member? src gid).any fun g => g.silent
    let s := if e.1 = Status.gangIncomplete then (s.cqWrite (lrCq k.lr) rec_).dropMember src gid
             else s.mapMember src gid fun g => { g with over_ := true }
    if silent then s else s.sendGang src.toNat 6 gid e.1 (BitVec.ofNat 16 reps) (BitVec.ofNat 16 pres) 0 []
  | _ => if lrNocmpl k.lr then s else s.cqWrite (lrCq k.lr) rec_

/-- A killed pipeline has stages that are not killed. -/
def State.stagesLive (s : State) (t : Word) (k : Task) : Bool :=
  k.killed.isSome && match k.pipe with
    | some p => p.stages.any fun st => (tfind (s.unit (tidUnit t)).tasks st.index).any fun x =>
        x.killed.isNone && (match x.role with
          | .stage parent _ => parent == tidIndex t
          | _ => false)
    | none => false

/-- A killed pipeline kills its stages, which then end. -/
def State.killStages (s : State) (t : Word) (k : Task) : State :=
  match k.pipe, k.killed with
  | some p, some e => p.stages.foldl (fun s st =>
      match tfind (s.unit (tidUnit t)).tasks st.index with
      | some x => s.killTask (taskIdOf x.seq.toNat s.pkgNo (tidUnit t) st.index) e.1 e.2
      | none => s) s
  | _, _ => s

/-- TASK_END: its dirty Basin lines are written back first; when nothing of it is outstanding it makes its arrivals,
reports its end, and its record is free. -/
def execTaskEnd (task : Word) (s : State) : Host.Outcome State Fault Refusal :=
  match s.task? task with
  | none => .next s
  | some k =>
    if s.stagesLive task k then .next (s.killStages task k)
    else if !k.allEnded then .next s
    else
      match s.dirtyBanks task with
      | x :: xs => .next ((x :: xs).foldl (fun s y => s.flushBasin y.1 y.2 fun l => l.task == task) s)
      | [] =>
        if !s.quiet task then .next s
        else
          let auto := ((s.known (lrTemplate k.lr)).map tAuto).getD 0
          let s := (List.range 4).foldl (fun s j => s.arriveSlot task j (k.killed.isSome || !bit auto j)) s
          let k := (s.task? task).getD k
          let s := (s.closeTask task).freeTask task
          let s : State := { s with sched := { s.sched with
            gather := s.sched.gather.filter fun g => g.task ≠ task
            gangs := (s.sched.gangs.map fun g => { g with members := g.members.filter fun m => m ≠ task }).filter fun g => !g.members.isEmpty } }
          .next (s.reportEnd task k)

end Sys2Proof.Machine
end

