-- ==== Sys2Proof/Machine/EngineOps.lean ====
section
/-!
DEFINITION. Engine queues, tokens and step counters (08_cores.md, R186 to R193), the issue of an engine command from its
context, and the register files that engines read and write (R194, R195).
-/

namespace Sys2Proof.Machine

open Sys2Proof

/-! ### Queues (Table 8-4) -/

def qNum : QueueId → Nat
  | .LQ => 0 | .MQ => 1 | .VQ => 2 | .SQ => 3 | .XQ => 4
def allQueues : List QueueId := [.LQ, .MQ, .VQ, .SQ, .XQ]
/-- SOURCE of an engine (Table 10-2). -/
def engineSource (q : QueueId) : BitVec 3 := BitVec.ofNat 3 (3 + qNum q)

def Bank.queue (k : Bank) : QueueId → List Cmd
  | .LQ => k.lq
  | .MQ => k.mq
  | .VQ => k.vq
  | .SQ => k.sq
  | .XQ => k.xq
def Bank.setQueue (k : Bank) (q : QueueId) (l : List Cmd) : Bank :=
  match q with
  | .LQ => { k with lq := l }
  | .MQ => { k with mq := l }
  | .VQ => { k with vq := l }
  | .SQ => { k with sq := l }
  | .XQ => { k with xq := l }

/-- The engine step counter (Table 8-8); MROW has 7 bits. -/
def Bank.counter (k : Bank) : QueueId → Nat
  | .LQ => k.escl.toNat
  | .MQ => k.mrow.toNat % 128
  | .VQ => k.escv.toNat
  | .SQ => k.escs.toNat
  | .XQ => k.escx.toNat
def Bank.setCounter (k : Bank) (q : QueueId) (n : Nat) : Bank :=
  match q with
  | .LQ => { k with escl := BitVec.ofNat 16 n }
  | .MQ => { k with mrow := BitVec.ofNat 16 (n % 128) }
  | .VQ => { k with escv := BitVec.ofNat 16 n }
  | .SQ => { k with escs := BitVec.ofNat 16 n }
  | .XQ => { k with escx := BitVec.ofNat 16 n }

/-- The command with a number, in a queue of a bank. -/
def Bank.mapCmd (k : Bank) (q : QueueId) (ser : Nat) (f : Cmd → Cmd) : Bank :=
  k.setQueue q (lmap1 (fun c => c.ser == ser) f (k.queue q))

/-! ### Tokens (R188, R189) -/

/-- The counters that a command pops: previous to this queue, next to this queue. -/
def popsOf (q : QueueId) (tok : BitVec 4) : List Nat :=
  (if tok.getLsbD 3 then [(qNum q + 4) % 5] else []) ++ (if tok.getLsbD 2 then [5 + qNum q] else [])
/-- The counters that a command pushes: this to previous queue, this to next queue. -/
def pushesOf (q : QueueId) (tok : BitVec 4) : List Nat :=
  (if tok.getLsbD 1 then [5 + (qNum q + 4) % 5] else []) ++ (if tok.getLsbD 0 then [qNum q] else [])

def Bank.token (k : Bank) (n : Nat) : Nat := k.tokens.toList.getD n 0
/-- What each counter can still give, and take, in a cycle: its count at the start of the cycle less the pops, and 15 less
that count and the pushes (R189). -/
def Bank.tokLeft (k : Bank) (now : Nat) : Vector Nat 10 × Vector Nat 10 :=
  match k.tokMark with
  | some (c, give, take) => if c = now then (give, take) else (k.tokens, k.tokens.map fun x => 15 - x)
  | none => (k.tokens, k.tokens.map fun x => 15 - x)
/-- A list of counters, each once, falls or rises by 1. -/
def tokStep (up : Bool) (l : List Nat) (v : Vector Nat 10) : Vector Nat 10 :=
  .ofFn fun n => if l.contains n.val then (if up then v[n] + 1 else v[n] - 1) else v[n]
def Bank.addTokens (k : Bank) (l : List Nat) (now : Nat) : Bank :=
  let x := k.tokLeft now
  { k with tokens := tokStep true l k.tokens, tokMark := some (now, x.1, tokStep false l x.2) }
def Bank.subTokens (k : Bank) (l : List Nat) (now : Nat) : Bank :=
  let x := k.tokLeft now
  { k with tokens := tokStep false l k.tokens, tokMark := some (now, tokStep false l x.1, x.2) }
/-- Every counter that a command pops held at least 1 at the start of the cycle. -/
def Bank.canPop (k : Bank) (q : QueueId) (c : Cmd) (now : Nat) : Bool :=
  (popsOf q c.tok).all fun n => 1 ≤ (k.tokLeft now).1.toList.getD n 0
/-- Every counter that a command pushes held at most 14 at the start of the cycle. -/
def Bank.canPush (k : Bank) (q : QueueId) (c : Cmd) (now : Nat) : Bool :=
  (pushesOf q c.tok).all fun n => 1 ≤ (k.tokLeft now).2.toList.getD n 0

/-! ### Issue from a context (R176, R186, R333) -/

/-- What a command carries. -/
structure Sample where
  hs : List Word := []
  ds : List DescW := []
  vs : List Word := []
  blk : List Byte := []
deriving DecidableEq, Repr

/-- Put a command behind the others of its queue, with its place in step order. -/
def State.pushCmd (s : State) (q : QueueId) (tok : BitVec 4) (i : Instr) (m : Sample) : State :=
  let f := s.coreNo
  let r := s.curBank.run.getD default
  let c : Cmd := {
    instr := i, ser := (s.core f).nextSer, tok, world := r.world, task := r.task, run := r.id, step := r.step, rowlim := r.rowlim,
    ord := s.nextOrd, pos := s.pos, hs := m.hs, ds := m.ds, vs := m.vs, blk := m.blk, word := none, issued := false, issueCycle := 0,
    accepted := false, started := false, snap := [], status := 0, opA := [], opB := [], skip := false }
  let s := s.bumpOrd
  let s := s.setCore f { s.core f with nextSer := (s.core f).nextSer + 1 }
  let k := s.curBank
  s.setCurBank (k.setQueue q (k.queue q ++ [c]))

/-- Issue an engine command of n words: it waits while its queue holds 32 commands, and samples its operands. -/
def engine (size : Nat) (commit : Bool) (q : QueueId) (tok g : BitVec 4) (u : Uses) (i : Instr) (s : State)
    (sample : State → Except TrapInfo Sample) : Host.Outcome State Fault Refusal :=
  control { size, compute := true, commit } g u s fun s =>
    if 32 ≤ (s.curBank.queue q).length then .stall s
    else
      match sample s with
      | .error x => .trap x
      | .ok m => .done (s.pushCmd q tok i m)

/-- A descriptor and the handle that it names, as a command samples them (R196). -/
def State.sampleDesc (s : State) (d : BitVec 4) : Except TrapInfo Sample :=
  let w := s.getD d
  let h := s.getH (dHreg w)
  if !dValid w || h == 0 then .error (trapOf Cause.handleInvalid) else .ok { hs := [h], ds := [w] }

/-- A 64-byte operand block (R360). -/
def State.sampleBlock (s : State) (a : BitVec 3) : Except TrapInfo (List Byte) :=
  let off := (s.getA a).toNat
  match s.scrCause off 64 64 with
  | some c => .error (trapOf c)
  | none => .ok (s.scrRead off 64)

/-- R195: registers v to v + n − 1 lie below REGS. -/
def State.regsOk (s : State) (v n : Nat) : Bool := v + n ≤ (s.curBank.run.map fun (r : StepRun) => r.regs).getD 0

/-! ### A command as an asker -/

def cmdAsker (f : Nat) (b : BitVec 1) (q : QueueId) (c : Cmd) (p : Path) : Asker where
  who := .core (BitVec.ofNat 9 f) .C
  bank := b
  source := engineSource q
  unit := f / 8
  task := c.task
  world := c.world
  run := c.run
  path := p
  fpc := c.pos
  ord := c.ord
/-- The lines of other packages that a command reads are kept under this key. -/
def cmdKey (f : Nat) (b : BitVec 1) (c : Cmd) : Nat := 2 ^ 100 + (2 * f + b.toNat) * 2 ^ 64 + c.ser

/-- The engines of a bank run: it is the active bank of its core, it has not stopped, and the clock runs. The commands of
a step that has ended run on (R185, R242). -/
def State.engineOn (s : State) (f : Nat) (b : BitVec 1) : Bool :=
  let k := s.bank f b
  s.ready && s.power.freqAct != 0 && (s.core f).active == b && (k.st == .running || k.st == .idle) && k.fault.isNone
    && !(k.run.any fun (r : StepRun) => r.discarding)

/-- Scratchpad and registers that the step of a command may use. The footprint is that of its template. -/
def State.runLimits (s : State) (f : Nat) (b : BitVec 1) : Nat × Nat :=
  match (s.bank f b).run with
  | some r => (r.regs, r.scratch)
  | none => (0, 0)

/-! ### Vector registers and accumulators (R194) -/

def vregAddr (v i j : Nat) : Nat := v * 2048 + 128 * i + 2 * j
/-- Container (i, j) of register v. -/
def Bank.vget (k : Bank) (v i j : Nat) : Nat := ofBytes (mread k.vregs (vregAddr v i j) 2)
def Bank.vput (k : Bank) (v i j x : Nat) : Bank := { k with vregs := mwrite k.vregs (vregAddr v i j) (toBytes 2 x) }
/-- Element (i, j) of a register of b-bit elements; a 32-bit element takes a pair (R194, R267). -/
def Bank.velem (k : Bank) (b v i j : Nat) : Nat :=
  if b = 32 then k.vget v i j + k.vget (v + 1) i j * 65536 else k.vget v i j % 2 ^ b
def accAddr (a i j : Nat) : Nat := a * 16384 + 256 * i + 4 * j
def Bank.aget (k : Bank) (a i j : Nat) : Nat := ofBytes (mread k.accs (accAddr a i j) 4)
/-- Write row i of an accumulator: 64 FP32 codes. -/
def Bank.aputRow (k : Bank) (a i : Nat) (row : List Nat) : Bank :=
  { k with accs := mwrite k.accs (accAddr a i 0) (row.flatMap (toBytes 4)) }

/-! ### Tiles (R78, R332, R348) -/

/-- The index tuple of tile element (t, j). -/
def tileAt (d : DescW) (t j : Nat) : List Nat :=
  [dIdx d 0, dIdx d 1, dIdx d 2 + t, dIdx d 3 + j]

/-- The line of an element within its object: its shard, and the line of its byte offset. -/
def elemLine (e : Entry) (t : List Nat) (scale : Bool := false) : Nat × Nat :=
  let l := locate e t
  let o := layoutOffset (eLayout e) (eWidth e) (eCols e) l.2.1 l.2.2
  (l.1, (if scale then o.2.getD o.1 else o.1) / 64)

/-- Codes of columns j to j + n − 1 of tile row t, after the element before, if its entry is given: one request asks for each
line (R206), so that only the first element of a line carries the reuse distance. -/
def State.readRowFrom (s : State) (k : Asker) (key : Nat) (h : Word) (d : DescW) (need : Need) (t rd : Nat) :
    Option Entry → Nat → Nat → Choices → Got (List Nat × Choices)
  | _, 0, _, ch => .ok s ([], ch)
  | prev, n + 1, j, ch =>
    let rd' := if prev.any fun e => elemLine e (tileAt d t (j - 1)) == elemLine e (tileAt d t j) then 7 else rd
    (s.readElem k key h (tileAt d t j) need rd' ch).bind fun s r =>
      (s.readRowFrom k key h d need t rd (some r.1) n (j + 1) r.2.2).bind fun s q => .ok s (r.2.1.getD (padOf d r.1) :: q.1, q.2)

/-- Codes of tile row t, columns j to j + n − 1: PAD where an element is outside the object. -/
def State.readRow (s : State) (k : Asker) (key : Nat) (h : Word) (d : DescW) (need : Need) (t rd : Nat) (n j : Nat) (ch : Choices) :
    Got (List Nat × Choices) := s.readRowFrom k key h d need t rd none n j ch

/-- Whether the block of 32 columns that holds a tuple lies wholly outside the object, and a column of it inside. -/
def blockColumn (e : Entry) (t : List Nat) : Option (List Nat) :=
  if !outside e t then some t
  else
    let u := t.set 3 (t.getD 3 0 / 32 * 32)
    if outside e u then none else some u

/-- The scale byte of the block that holds a tuple, read as the element is (R88): 0x7F where it lies wholly outside (R266, R349). -/
def State.readScale (s : State) (k : Asker) (key : Nat) (h : Word) (need : Need) (t : List Nat) (rd : Nat) (ch : Choices) : Got (Nat × Choices) :=
  (s.getEntry k h (u32s t)).bind fun s e =>
    match blockColumn e t with
    | none => .ok s (0x7F, ch)
    | some u => (s.readElem k key h u need (if elemLine e u == elemLine e u true then 7 else rd) ch true).bind fun s r => .ok s (r.2.1.getD 0x7F, r.2.2)

/-- Scale bytes j to j + n − 1 of tile row t. -/
def State.readScales (s : State) (k : Asker) (key : Nat) (h : Word) (d : DescW) (t rd : Nat) : Nat → Nat → Choices → Got (List Nat × Choices)
  | 0, _, ch => .ok s ([], ch)
  | n + 1, j, ch =>
    (s.readScale k key h needUnit (tileAt d t (32 * j)) rd ch).bind fun s r =>
      (s.readScales k key h d t rd n (j + 1) r.2).bind fun s q => .ok s (r.1 :: q.1, q.2)

/-- Scale bytes of a row in a scratchpad image, and its pitch (R349). -/
def imgScales (e : Entry) (cols : Nat) : Nat := if eLayout e = 3 then ceilDiv cols 32 else 0
def imgPitch (cols b scales : Nat) : Nat := roundUp (ceilDiv (cols * b) 8 + scales) 64
/-- The row limit of a masked command (R126, R350). -/
def Cmd.masks (c : Cmd) (t : Nat) : Bool := c.rowlim.toNat ≤ t

end Sys2Proof.Machine
end

