-- ==== Sys2Proof/Machine/Special.lean ====
section
/-!
DEFINITION. Special functions of the vector engine (R410): each result is the exact value, rounded once. An algebraic
result is computed exactly; for a transcendental one an interval of width 2^-259 around a series in fixed point gives
the rounding, and where its two ends round apart the result is a free value (log entry 21).
-/

namespace Sys2Proof.Machine

open Sys2Proof

/-! ### Fixed point with 320 fraction bits -/

def fixOne : Nat := 2 ^ 320
/-- Floor(π × 2^320) and Floor(ln 2 × 2^320). -/
def fixPi : Nat := 0x3243f6a8885a308d313198a2e03707344a4093822299f31d0082efa98ec4e6c89452821e638d01377
def fixLn2 : Nat := 0xb17217f7d1cf79abc9e3b39803f2f6af40f343267298b62d8a0d175b8baafa2be7b876206debac98
/-- Half the width of an interval. -/
def fixEps : Nat := 2 ^ 60

/-- e^y for 0 ≤ y < 1. -/
def fixExp (y : Nat) : Nat :=
  ((List.range 96).foldl (fun (a : Nat × Nat) k =>
    let t := a.2 * y / fixOne / (k + 1)
    (a.1 + t, t)) (fixOne, fixOne)).1

/-- sin y for 0 ≤ y ≤ π/2. -/
def fixSin (y : Nat) : Nat :=
  let q := y * y / fixOne
  let r := (List.range 48).foldl (fun (a : Int × Nat) k =>
    let t := a.2 * q / fixOne / ((2 * k + 2) * (2 * k + 3))
    (if k % 2 = 0 then a.1 - t else a.1 + t, t)) ((y : Int), y)
  r.1.toNat

/-- ln m for 1 ≤ m < 2, by 2 artanh((m - 1) / (m + 1)). -/
def fixLn (m : Nat) : Nat :=
  let z := (m - fixOne) * fixOne / (m + fixOne)
  let q := z * z / fixOne
  2 * ((List.range 110).foldl (fun (a : Nat × Nat) k =>
    let t := a.2 * q / fixOne
    (a.1 + t / (2 * k + 3), t)) (z, z)).1

/-- The value n / d with 320 fraction bits, rounded down. -/
def fixOf (n d : Nat) : Nat := n * fixOne / d

/-- An interval of values of one sign, or an exact value. -/
structure Range where
  lo : Val
  hi : Val
deriving DecidableEq, Repr

def exactly (x : Val) : Range := { lo := x, hi := x }
/-- The interval around x × 2^e, x in fixed point. -/
def around (neg : Bool) (x : Nat) (e : Int) : Range :=
  { lo := (Val.fin neg (x - fixEps) fixOne).scale e, hi := (Val.fin neg (x + fixEps) fixOne).scale e }

/-! ### The functions of Table 16-8 -/

def clampInt (lo hi x : Int) : Int := max lo (min hi x)

/-- 2^x: exact for an integer. Beyond 2^±4096 every rounding agrees. -/
def exp2Range : Val → Range
  | .nan => exactly .nan
  | .inf s => exactly (if s then .zero else .inf false)
  | .fin s n d =>
    let q := n / d
    let r := n % d
    if r = 0 then exactly ((Val.ofNat 1).scale (clampInt (-4096) 4096 (if s then -(q : Int) else q)))
    else
      let i : Int := if s then -(q : Int) - 1 else q
      let f := if s then d - r else r
      around false (fixExp (fixOf f d * fixLn2 / fixOne)) (clampInt (-4096) 4096 i)

/-- log2 x: exact for a power of two. -/
def log2Range : Val → Range
  | .nan => exactly .nan
  | .inf s => exactly (if s then .nan else .inf false)
  | .fin s n d =>
    if n = 0 then exactly (.inf true)
    else if s then exactly .nan
    else
      let e := log2Frac n d
      let num := if 0 ≤ e then n else n * 2 ^ (-e).toNat
      let den := if 0 ≤ e then d * 2 ^ e.toNat else d
      if num = den then exactly (.ofInt e)
      else
        let f : Int := (fixLn (fixOf num den) * fixOne / fixLn2 : Nat)
        let v : Int := e * fixOne + f
        around (v < 0) v.natAbs 0

def rcpVal (x : Val) : Val := (Val.ofNat 1).div x

def rsqVal : Val → Val
  | .nan => .nan
  | .inf s => if s then .nan else .zero
  | .fin s n d => if n = 0 then .inf s else if s then .nan else (Val.fin false d n).sqrt

/-- sin(π t) for 0 ≤ t = n / d ≤ 1/2; near 1/2 it lies just below 1. -/
def quarterRange (neg : Bool) (n d : Nat) : Range :=
  if 2 * n = d then exactly (.fin neg 1 1)
  else if n * 2 ^ 41 ≤ d * 2 ^ 40 ∧ d * 2 ^ 40 < n * 2 ^ 41 + 2 * d then
    { lo := .fin neg (2 ^ 70 - 1) (2 ^ 70), hi := .fin neg (2 ^ 320 - 1) (2 ^ 320) }
  else
    let e := (d / n).log2
    let y := n * 2 ^ e * fixOne / d * fixPi / fixOne
    if 40 < e then
      -- sin y = y − y³/6 + …, far below the rounding of y
      { lo := (Val.fin neg (y - y / 2 ^ 78 - fixEps) fixOne).scale (-(e : Int)), hi := (Val.fin neg (y + fixEps) fixOne).scale (-(e : Int)) }
    else around neg (fixSin (fixOf n d * fixPi / fixOne)) 0

/-- sin(π n / d). -/
def sinHalfTurns (neg : Bool) (n d : Nat) : Range :=
  let r := n % (2 * d)
  let flip := d ≤ r
  let t := if flip then r - d else r
  if t = 0 then exactly (.fin neg 0 1)
  else quarterRange (neg != flip) (if d < 2 * t then d - t else t) d

def sinRange : Val → Range
  | .fin s n d => sinHalfTurns s n d
  | _ => exactly .nan

/-- cos(π x) = sin(π (|x| + 1/2)); a zero is +0. -/
def cosRange : Val → Range
  | .fin _ n d => sinHalfTurns false (2 * n + d) (2 * d)
  | _ => exactly .nan

/-- tanh x; for a small x it lies between x − x³/3 and x − x³/3 + 2x⁵/15. -/
def tanhRange : Val → Range
  | .nan => exactly .nan
  | .inf s => exactly (.fin s 1 1)
  | .fin s n d =>
    if n = 0 then exactly (.fin s 0 1)
    else if n * 2 ^ 20 < d then
      let m := n * (3 * d * d - n * n)
      { lo := .fin s m (3 * d ^ 3), hi := .fin s (5 * d * d * m + 2 * n ^ 5) (15 * d ^ 5) }
    else
      let x := min (fixOf n d) (50 * fixOne)
      let i := 2 * x / fixLn2
      let e := fixExp (2 * x % fixLn2) * 2 ^ i
      around s ((e - fixOne) * fixOne / (e + fixOne)) 0

/-! ### Rounding once -/

/-- The code that both ends of an interval round to, or a free value. -/
def roundRange (fn code : Nat) (f : Flt) (r : Rnd) (ovf : Bool) (rnd8 : Nat) (x : Range) : Nat :=
  let a := roundFlt f r ovf rnd8 x.lo
  let b := roundFlt f r ovf rnd8 x.hi
  if a = b then a else (Config.undecided fn code f.width).toNat % 2 ^ f.width

end Sys2Proof.Machine
end

