-- ==== Sys2Proof/Machine/SeqOps.lean ====
section
/-!
DEFINITION. Sequence objects (17_isa_attention.md): their storage (R415 to R419), what the sequence commands do at the
home slice (R421 to R429, R437 to R441), the rotary angles (R425) and which slots an attention request uses (R432).
-/

namespace Sys2Proof.Machine

open Sys2Proof

/-! ### KSPEC of a sequence (Table 17-1) -/

def qBase (e : Entry) : Nat := bits (eSpec e 9) 63 32
def qFmt (e : Entry) : Byte := BitVec.ofNat 8 (bits (eSpec e 9) 23 16)
def qHeads (e : Entry) : Nat := 2 ^ bits (eSpec e 9) 9 8
def qBlocks (e : Entry) : Nat := bits (eSpec e 10) 63 32
def qMaxent (e : Entry) : Nat := bits (eSpec e 10) 31 0
def qPool (e : Entry) : Nat := eSpec e 11

/-- R415: an image of KIND 1 that OBJCREATE takes. -/
def seqImageOk (e : Entry) : Bool :=
  let base := decFlt fp32 (qBase e)
  eLayout e == 0 && (eFmt e).toNat == 0x00 && eNdim e == 0 && eBufs e == 1 && !eLarge e && !eMemside e && !eCompute e && !ePinned e
    && efield e 6 61 52 == 0 && efield e 6 51 50 == 0
    && bits (eSpec e 9) 31 24 == 0 && bits (eSpec e 9) 15 10 == 0 && bits (eSpec e 9) 7 0 == 0 && eSpec e 12 == 0 && eSpec e 13 == 0
    && (qFmt e == 0x40 || qFmt e == 0x41) && bits (eSpec e 9) 9 8 ≠ 3
    && (qBase e == 0 || (!base.isNan && !base.isInf && base.cmp (.ofNat 1) == 1))
    && 1 ≤ qBlocks e && qBlocks e ≤ 16384 && 1 ≤ qMaxent e && qMaxent e ≤ 65536
    && qPool e % 65536 == 0 && 4096 + 32 * qMaxent e ≤ qPool e && qPool e + qBlocks e * 65536 ≤ eExt e 3

/-! ### Storage at the home (Tables 17-2 to 17-4) -/

def State.seqRead (s : State) (h : Word) (e : Entry) (off n : Nat) : List Byte :=
  (s.directRead h (eVbase e + off) n).getD (List.replicate n 0)
def State.seqWord (s : State) (h : Word) (e : Entry) (off : Nat) : Nat := ofBytes (s.seqRead h e off 8)
/-- Bytes of the storage perform, on path A. -/
def State.seqPut (s : State) (h : Word) (e : Entry) (w : Writer) (off : Nat) (bs : List Byte) : State :=
  let va := eVbase e + off
  match s.walkTables va with
  | .ok (_, l, large) => s.perform h w ((leafPaOf l large va : Int) - va) (bytesAt va bs)
  | .error _ => s
def State.seqPutWord (s : State) (h : Word) (e : Entry) (w : Writer) (off v : Nat) : State := s.seqPut h e w off (toBytes 8 v)

/-- The state line. -/
structure SeqState where
  next : Nat
  nent : Nat
  tail : Bool
  ctag : Nat
  qcount : Nat
  free : Nat
deriving DecidableEq, Repr

def State.seqState (s : State) (h : Word) (e : Entry) : SeqState :=
  let a := s.seqWord h e 8
  let b := s.seqWord h e 16
  { next := s.seqWord h e 0, nent := bits a 63 32, tail := bit a 3, ctag := bits a 2 0, qcount := bits b 63 32, free := bits b 31 0 }
def State.putSeqState (s : State) (h : Word) (e : Entry) (w : Writer) (q : SeqState) : State :=
  s.seqPut h e w 0 (toBytes 8 q.next ++ toBytes 8 (q.nent % 2 ^ 32 * 2 ^ 32 + b2n q.tail * 8 + q.ctag % 8)
    ++ toBytes 8 (q.qcount % 2 ^ 32 * 2 ^ 32 + q.free % 2 ^ 32))

/-- Block-table entries. -/
def entOff (i : Nat) : Nat := 4096 + 32 * i
def State.seqEnt (s : State) (h : Word) (e : Entry) (i : Nat) : Nat := s.seqWord h e (entOff i)
def State.seqBlk (s : State) (h : Word) (e : Entry) (i : Nat) : Nat := bits (s.seqWord h e (entOff i + 8)) 13 0
def enBase (w : Nat) : Nat := bits w 63 32
def enTag (w : Nat) : Nat := bits w 31 29
def enValid (w : Nat) : Nat := bits w 22 16
def enQuar (w : Nat) : Bool := bit w 3
def enHole (w : Nat) : Bool := bit w 1
def enSealBit : Nat := 2
def enHoleBit : Nat := 1
def enNamed (w mask : Nat) : Bool := bit mask (enTag w)

def freeOff (j : Nat) : Nat := 2048 + j / 8
def State.seqUsed (s : State) (h : Word) (e : Entry) (j : Nat) : Bool := bit (byteAt (s.seqRead h e (freeOff j) 1) 0).toNat (j % 8)
def State.seqMark (s : State) (h : Word) (e : Entry) (w : Writer) (j : Nat) (on : Bool) : State :=
  let b := (byteAt (s.seqRead h e (freeOff j) 1) 0).toNat
  s.seqPut h e w (freeOff j) [BitVec.ofNat 8 (putBits b (j % 8) (j % 8) (b2n on))]

/-- Offset of slot t of head hd in the keys (part 0) or values (part 1) of a pool block. -/
def poolOff (e : Entry) (blk part hd t : Nat) : Nat := qPool e + blk * 65536 + (part * qHeads e + hd) * 8192 + 128 * t

/-- The leaf of a pool block, if it is mapped. -/
def State.blkLeaf (s : State) (e : Entry) (blk : Nat) : Option (Nat × Word) :=
  match s.walkTables (eVbase e + qPool e + blk * 65536) with
  | .ok (a, l, _) => some (a, l)
  | .error _ => none

/-! ### Rotary angles (R425) -/

/-- b^(-i/32) with 320 fraction bits, b = n / d above 1. -/
def ropeRate (n d i : Nat) : Nat :=
  let e := (log2Frac n d).toNat
  let lg := e * fixOne + fixLn (fixOf n (d * 2 ^ e)) * fixOne / fixLn2
  let y := i * lg / 32
  if i = 0 then fixOne else fixExp ((fixOne - y % fixOne) * fixLn2 / fixOne) / 2 ^ (y / fixOne + 1)

/-- Half the width of an angle's interval: the angle is exact to 2^-230. -/
def ropeEps : Nat := 2 ^ 95

/-- sin of an angle in fixed point: the interval around it. -/
def ropeSin (t : Nat) : Range :=
  let r := t % (2 * fixPi)
  let neg := fixPi ≤ r
  let u := if neg then r - fixPi else r
  let x := fixSin (if fixPi < 2 * u then fixPi - u else u)
  { lo := .fin neg (x - ropeEps) fixOne, hi := .fin neg (x + ropeEps) fixOne }

/-- c_i and s_i of position q: FP32 values. -/
def ropePair (base q i : Nat) : Val × Val :=
  if q = 0 then (.ofNat 1, .zero)
  else
    match decFlt fp32 base with
    | .fin _ n d =>
      let t := q * ropeRate n d i
      let code := fun (fn : Nat) (x : Range) => decFlt fp32 (roundRange fn (q * 64 + i) fp32 .rne false 0 x)
      (code 16 (ropeSin (t + fixPi / 2)), code 17 (ropeSin t))
    | _ => (.ofNat 1, .zero)

/-- The angle's position: p mod 2^26 with ROPE_WRAP. -/
def ropePos (e : Entry) (p : Nat) : Nat := if eWrap e then p % 2 ^ 26 else p
/-- A position that has no angle raises POS_RANGE. -/
def ropeBad (e : Entry) (p : Nat) : Bool := qBase e ≠ 0 && !eWrap e && 2 ^ 26 ≤ p

/-- One row of 64 codes rotated for a position; unchanged without rotary encoding. -/
def ropeRow (e : Entry) (p : Nat) (row : List Nat) : List Nat :=
  if qBase e = 0 then row
  else
    let f := qFmt e
    (List.range 32).flatMap fun i =>
      let a := dec (row.getD (2 * i) 0) f
      let b := dec (row.getD (2 * i + 1) 0) f
      let cs := ropePair (qBase e) (ropePos e p) i
      [roundTo ((a.mul cs.1).add false (b.mul cs.2).neg) f .rne false 0, roundTo ((a.mul cs.2).add false (b.mul cs.1)) f .rne false 0]

def codes16 (bs : List Byte) : List Nat := (List.range (bs.length / 2)).map fun j => ofBytes ((bs.drop (2 * j)).take 2)

/-! ### Answers of the home -/

/-- What a sequence command gets from the home: its status word, a cause, a block that is not in HBM, or a wait. -/
inductive SeqAns where
  | done (s : State) (status : Word)
  | trap (c : U16)
  | missing (va : Nat)
  | wait

/-- KVAPP (R424): n tokens; data holds, for each token and head, its key and its value. -/
def State.seqAppend (s : State) (h : Word) (e : Entry) (w : Writer) (n : Nat) (data : List Byte) : SeqAns :=
  let q := s.seqState h e
  let p0 := q.next
  let last := s.seqEnt h e (q.nent - 1)
  let room := if q.tail then 64 - enValid last else 0
  let need := if n ≤ room then 0 else 1
  if 2 ^ 32 - 1 < p0 + n - 1 then .trap Cause.posOvf
  else if ropeBad e (p0 + n - 1) then .trap Cause.posRange
  else if qMaxent e < q.nent + need || q.free < need then .done s (BitVec.ofNat 64 (p0 * 2 ^ 32 + 1))
  else
    match (List.range (qBlocks e)).find? fun j => need = 0 || !s.seqUsed h e j with
    | none => .done s (BitVec.ofNat 64 (p0 * 2 ^ 32 + 1))
    | some fresh =>
      -- pieces: entry, block, first slot, first token, tokens
      let first := min n room
      let pieces := (if first = 0 then [] else [(q.nent - 1, s.seqBlk h e (q.nent - 1), enValid last, 0, first)])
        ++ (if need = 0 then [] else [(q.nent, fresh, 0, first, n - first)])
      let leaves := pieces.map fun x => (x.2.1, s.blkLeaf e x.2.1)
      match leaves.find? fun x => x.2.all fun l => leafUnav l.2 || leafTier l.2 ≠ 0 with
      | some x => .missing (eVbase e + qPool e + x.1 * 65536)
      | none =>
        if leaves.any fun x => x.2.any fun l => leafHold l.2 then .wait
        else
          let s := if need = 0 then s
            else
              let s := s.seqMark h e w fresh true
              let s := s.seqPutWord h e w (entOff q.nent) ((p0 + first) * 2 ^ 32 + q.ctag * 2 ^ 29 + 1)
              s.seqPut h e w (entOff q.nent + 8) (toBytes 8 fresh ++ List.replicate 16 0)
          let heads := qHeads e
          let s := pieces.foldl (fun s x =>
            (List.range x.2.2.2.2).foldl (fun s j =>
              let t := x.2.2.2.1 + j
              (List.range heads).foldl (fun s hd =>
                let at_ := (t * heads + hd) * 256
                let key := ropeRow e (p0 + t) (codes16 ((data.drop at_).take 128))
                let s := s.seqPut h e w (poolOff e x.2.1 0 hd (x.2.2.1 + j)) (key.flatMap (toBytes 2))
                s.seqPut h e w (poolOff e x.2.1 1 hd (x.2.2.1 + j)) ((data.drop (at_ + 128)).take 128)) s) s) s
          let s := pieces.foldl (fun s x =>
            s.seqPutWord h e w (entOff x.1) (putBits (s.seqEnt h e x.1) 22 16 (x.2.2.1 + x.2.2.2.2))) s
          let nent := q.nent + need
          let full := enValid (s.seqEnt h e (nent - 1)) = 64
          let s := if full then s.seqPutWord h e w (entOff (nent - 1)) (putBits (s.seqEnt h e (nent - 1)) enSealBit enSealBit 1) else s
          .done (s.putSeqState h e w { q with next := p0 + n, nent, tail := !full, free := q.free - need }) (BitVec.ofNat 64 (p0 * 2 ^ 32))

/-- SPANOPEN with a tag, or SPANCLOSE (R427). -/
def State.seqSeal (s : State) (h : Word) (e : Entry) (w : Writer) (tag : Option Nat) : SeqAns :=
  let q := s.seqState h e
  let s := if q.tail then s.seqPutWord h e w (entOff (q.nent - 1)) (putBits (s.seqEnt h e (q.nent - 1)) enSealBit enSealBit 1) else s
  .done (s.putSeqState h e w { q with tail := false, ctag := tag.getD q.ctag }) 0

def State.spanPins (s : State) (h : Word) : List SpanPin := tget s.objs.spans [] (objKey h)

/-- A block is zeroed and freed. -/
def State.seqFree (s : State) (h : Word) (e : Entry) (w : Writer) (j : Nat) : State :=
  let s := (s.seqPut h e w (qPool e + j * 65536) (List.replicate 65536 0)).seqMark h e w j false
  let q := s.seqState h e
  s.putSeqState h e w { q with free := q.free + 1 }

/-- RETSPAN (R428): close is MODE. -/
def State.seqRetire (s : State) (h : Word) (e : Entry) (w : Writer) (close : Bool) (mask : Nat) (task : Word) : SeqAns :=
  let q := s.seqState h e
  let all := (List.range q.nent).map fun i => (i, s.seqEnt h e i)
  let gone := all.filter fun x => !enHole x.2 && enNamed x.2 mask
  let live := all.filter fun x => !enHole x.2 && !enNamed x.2 mask
  let pins := s.spanPins h
  let blocks := gone.map fun x => s.seqBlk h e x.1
  let pinned := fun (j : Nat) => pins.any fun p => p.blk == j
  if pins.any fun p => p.task == task then .wait
  else if close && gone.any fun x => live.any fun y => x.1 < y.1 then .trap Cause.spanOrder
  else if gone.isEmpty then .done s 0
  else if blocks.any fun j => (s.blkLeaf e j).any fun l => leafHold l.2 then .wait
  else
    let s := gone.foldl (fun s x => s.seqPutWord h e w (entOff x.1) (putBits (putBits x.2 enHoleBit enHoleBit 1) enSealBit enSealBit 1)) s
    let s := (blocks.filter fun j => !pinned j).foldl (fun s j => s.seqFree h e w j) s
    let held := blocks.filter pinned
    let s : State := { s with objs := { s.objs with attnFree := s.objs.attnFree ++ held.map fun j => (objKey h, j) } }
    let q2 := s.seqState h e
    let nent := ((List.range q.nent).filter fun i => !enHole (s.seqEnt h e i)).foldl (fun _ i => i + 1) 0
    let s := ((List.range (q.nent - nent)).map fun i => nent + i).foldl (fun s i => s.seqPut h e w (entOff i) (List.replicate 32 0)) s
    let next := if close then gone.foldl (fun m x => min m (enBase x.2)) q.next else q.next
    let tail := q.tail && !(gone.any fun x => x.1 + 1 == q.nent)
    .done (s.putSeqState h e w { q2 with next, nent, tail }) (BitVec.ofNat 64 (held.length * 2 ^ 48 + gone.length * 2 ^ 32))

/-- SEQQ (R441). -/
def State.seqQuery (s : State) (h : Word) (e : Entry) (item : Nat) (i : Nat) : Word :=
  let q := s.seqState h e
  BitVec.ofNat 64 (match item with
    | 0 => q.next
    | 1 => q.nent
    | 2 => q.free
    | 3 => b2n q.tail * 8 + q.ctag
    | 4 => q.qcount
    | 5 => if i < q.nent then s.seqEnt h e i else 0
    | _ => if i < q.nent then s.seqWord h e (entOff i + 8) else 0)

/-! ### Attention requests: slots, snapshot and pins (R430 to R432) -/

/-- A request block (Table 17-8). -/
structure AttnReq where
  scale : Nat
  mask : Nat
  qinc : Nat
  mode : Nat
  win : Nat
  qpos : Nat
  head : Nat
deriving DecidableEq, Repr

def attnReq (bs : List Byte) : AttnReq :=
  let w := fun k => (wordAt bs k).toNat
  { scale := bits (w 0) 63 32, mask := bits (w 0) 15 8, qinc := bits (w 0) 2 2, mode := bits (w 0) 1 0, win := bits (w 1) 63 32,
    qpos := bits (w 1) 31 0, head := bits (w 2) 1 0 }
def AttnReq.row (r : AttnReq) (t : Nat) : Nat := r.qpos + t * r.qinc

/-- The allowed slots of an entry (its word 0) for a query position (R432). -/
def AttnReq.allowed (r : AttnReq) (w0 qp : Nat) : List Nat :=
  if enHole w0 || !enNamed w0 r.mask then []
  else (List.range (enValid w0)).filter fun n =>
    let kp := enBase w0 + n
    match r.mode with
    | 0 => true
    | 1 => kp ≤ qp
    | _ => kp ≤ qp && qp < kp + r.win

/-- Some of the rows uses the entry. -/
def AttnReq.uses (r : AttnReq) (rows w0 : Nat) : Bool := (List.range rows).any fun t => !(r.allowed w0 (r.row t)).isEmpty

/-- The snapshot: words 0 and 1 of each entry in use. -/
def State.seqSnapshot (s : State) (h : Word) (e : Entry) : List Word :=
  (List.range (s.seqState h e).nent).flatMap fun i => [BitVec.ofNat 64 (s.seqEnt h e i), BitVec.ofNat 64 (s.seqWord h e (entOff i + 8))]
def snapEntries (ws : List Word) : List (Nat × Nat) :=
  (List.range (ws.length / 2)).map fun i => ((ws.getD (2 * i) 0).toNat, (ws.getD (2 * i + 1) 0).toNat % 16384)

/-- The blocks that a request uses are pinned. -/
def State.pinBlocks (s : State) (h : Word) (r : AttnReq) (rows : Nat) (snap : List Word) (run : Nat) (task : Word) (ser : Nat) : State :=
  let pins := ((snapEntries snap).filter fun x => r.uses rows x.1).map fun x => ({ blk := x.2, run, task, ser } : SpanPin)
  { s with objs := { s.objs with spans := tset s.objs.spans (objKey h) (s.spanPins h ++ pins) } }

/-! ### Integrity (R437 to R439) -/

/-- The integrity tag of a pool block over the bytes of its segment as stored. -/
def State.kvTag (s : State) (h : Word) (blk pa : Nat) : Word :=
  let raw := mread s.mem pa 65536
  if hWorld h = 0 then (crc32c raw).setWidth 64
  else
    match tfind s.sec.engineKeys (hWorld h) with
    | some kw =>
      let label := [0x58, 0x46, 0x34, 0x2D, 0x4B, 0x56, 0x4D, 0x41, 0x43]
      BitVec.ofNat 64 (ofBytes (shake256 (kw ++ label ++ toBytes 8 h.toNat ++ toBytes 4 blk ++ raw) 8))
    | none => Config.undecided (hWorld h) pa blk

/-- The live entry whose block is the segment at va of a sequence. -/
def State.entryOfSegment (s : State) (h : Word) (e : Entry) (va : Nat) : Option (Nat × Nat) :=
  let off := va - eVbase e
  if eKind e ≠ 1 || off < qPool e then none
  else
    let blk := (off - qPool e) / 65536
    ((List.range (s.seqState h e).nent).find? fun i => !enHole (s.seqEnt h e i) && s.seqBlk h e i == blk).map fun i => (i, blk)

/-- A pool segment leaves HBM: the ITAG of its entry is written (R437). -/
def State.tagBlock (s : State) (h : Word) (e : Entry) (va pa : Nat) : State :=
  match s.entryOfSegment h e va with
  | none => s
  | some (i, blk) =>
    s.seqPutWord h e { run := 0, task := 0, path := .A, ord := 0 } (entOff i + 16) (s.kvTag h blk pa).toNat

/-- A pool segment comes back into HBM: on a mismatch of its tag the block is poisoned (R438, R439). -/
def State.checkBlock (s : State) (h : Word) (e : Entry) (va pa tier : Nat) (task : Word) : State :=
  match s.entryOfSegment h e va with
  | none => s
  | some (i, blk) =>
    let tag := s.seqWord h e (entOff i + 16)
    if tag = (s.kvTag h blk pa).toNat then s
    else
      let w : Writer := { run := 0, task := 0, path := .A, ord := 0 }
      let q := s.seqState h e
      let e0 := putBits (putBits (s.seqEnt h e i) 3 3 1) enSealBit enSealBit 1
      let s := s.seqPutWord h e w (entOff i) e0
      let rec_ := [i * 2 ^ 32 + blk, e0, tag, tier, task.toNat, s.tether.toNat, 0, 0]
      let s := s.seqPut h e w (64 + 64 * (q.qcount % 16)) (rec_.flatMap (toBytes 8))
      s.putSeqState h e w { q with qcount := (q.qcount + 1) % 2 ^ 32, tail := q.tail && i + 1 ≠ q.nent }

end Sys2Proof.Machine
end

