-- ==== Sys2Proof/Machine/Tile.lean ====
section
/-!
DEFINITION. Tile loads, stores and prefetches (14_isa_memory.md, R347 to R351).
-/

namespace Sys2Proof.Machine

open Sys2Proof

/-! ### Issue (R347, R348) -/

/-- A tile command samples its descriptor, and the a register of a scratchpad image. -/
def tileSample (q : BitVec 1) (d : BitVec 4) (a : BitVec 3) (s : State) : Except TrapInfo Sample :=
  match s.sampleDesc d with
  | .error x => .error x
  | .ok m =>
    if q = 1 then .ok m
    else if (s.getA a).toNat % 64 ≠ 0 then .error (trapOf Cause.scratchAlign)
    else .ok { m with vs := [(s.getA a).setWidth 64] }

def execLdt (tk g : BitVec 4) (vd : BitVec 11) (q : BitVec 1) (d : BitVec 4) (a rd : BitVec 3) (s : State) :
    Host.Outcome State Fault Refusal :=
  engine 2 false .LQ tk g {} (.ldt tk g vd q d a rd) s (tileSample q d a)
def execStt (tk g : BitVec 4) (vd : BitVec 11) (q : BitVec 1) (d : BitVec 4) (a : BitVec 3) (m : BitVec 1) (s : State) :
    Host.Outcome State Fault Refusal :=
  engine 2 false .SQ tk g {} (.stt tk g vd q d a m) s (tileSample q d a)
def execPft (tk g d : BitVec 4) (rd : BitVec 3) (s : State) : Host.Outcome State Fault Refusal :=
  engine 2 false .LQ tk g {} (.pft tk g d rd) s fun s => s.sampleDesc d

/-! ### Images (R349) -/

/-- The sampled descriptor, handle and scratchpad offset of a tile command. -/
def Cmd.desc (c : Cmd) : DescW := c.ds.headD 0
def Cmd.handle (c : Cmd) : Word := c.hs.headD 0
def Cmd.off (c : Cmd) : Nat := (c.vs.headD 0).toNat

/-- Registers of one group of 16 rows for an element width. -/
def regsPerGroup (b : Nat) : Nat := max 1 (b / 16)

/-- The whole image lies within REGS or the footprint. -/
def imgCause (limits : Nat × Nat) (q : BitVec 1) (vd off : Nat) (d : DescW) (e : Entry) : Option U16 :=
  let b := eWidth e
  if q = 1 then (if limits.1 < vd + ceilDiv (dRows d) 16 * regsPerGroup b then some Cause.regBound else none)
  else if limits.2 < off + dRows d * imgPitch (dCols d) b (imgScales e (dCols d)) then some Cause.scratchBound else none

/-- Row i of register v: the containers given, zero beyond them. -/
def Bank.vputRow (k : Bank) (v i : Nat) (xs : List Nat) : Bank :=
  { k with vregs := mwrite k.vregs (vregAddr v i 0) ((List.range 64).flatMap fun j => toBytes 2 (xs.getD j 0)) }

/-- Write tile row t of a register image; the last row zeroes the rows of its group beyond ROWS. -/
def Bank.putTileRow (k : Bank) (vd b rows t : Nat) (codes : List Nat) : Bank :=
  let m := regsPerGroup b
  let g := t / 16
  let k := (List.range m).foldl (fun k j => k.vputRow (vd + g * m + j) (t % 16) (codes.map fun c => c / 2 ^ (16 * j) % 65536)) k
  if t + 1 = rows then
    (List.range (16 * (g + 1) - rows)).foldl (fun k i =>
      (List.range m).foldl (fun k j => k.vputRow (vd + g * m + j) (rows % 16 + i) []) k) k
  else k

/-- Code (t, j) of a register image. -/
def Bank.tileCode (k : Bank) (vd b t j : Nat) : Nat :=
  let m := regsPerGroup b
  (sumBy (fun i => k.vget (vd + t / 16 * m + i) (t % 16) j * 2 ^ (16 * i)) (List.range m)) % 2 ^ b

/-! ### Steps (R350, R351) -/

/-- One row of an LDT. -/
def ldtStep (f : Nat) (b : BitVec 1) (c : Cmd) (vd : BitVec 11) (q : BitVec 1) (rd : BitVec 3) (t : Nat) (ch : Choices) (s : State) : Got Choices :=
  let k := cmdAsker f b .LQ c .L
  let d := c.desc
  let h := c.handle
  let idx := u32s (tileAt d t 0)
  (s.getEntry k h idx).bind fun s e =>
    if !hasRight e k.world.toNat rightR then .trap (k.cause Cause.objRights h idx)
    else
      match imgCause (s.runLimits f b) q vd.toNat c.off d e with
      | some x => .trap (k.cause x h idx)
      | none =>
        let w := eWidth e
        let sc := imgScales e (dCols d)
        let key := cmdKey f b c
        (s.readRow k key h d needUnit t rd.toNat (dCols d) 0 ch).bind fun s r =>
          if q = 1 then .ok (s.setBank f b ((s.bank f b).putTileRow vd.toNat w (dRows d) t r.1)) r.2
          else
            (s.readScales k key h d t rd.toNat sc 0 r.2).bind fun s y =>
              let pitch := imgPitch (dCols d) w sc
              let row := packCodes w r.1 ++ y.1.map (BitVec.ofNat 8)
              let bank := s.bank f b
              let bytes := row ++ List.replicate (pitch - row.length) 0
              .ok (s.setBank f b { bank with scratch := mwrite bank.scratch (c.off + t * pitch) bytes }) y.2

/-- The places of tile row t, columns j to j + n − 1, that lie inside the object, with their codes. -/
def State.storePlaces (s : State) (k : Asker) (h : Word) (d : DescW) (use : Use) (t : Nat) (code : Nat → Nat) : Nat → Nat → Got (List (Place × Nat))
  | 0, _ => .ok s []
  | n + 1, j =>
    (s.resolve k h (tileAt d t j) 0 { right := rightW, store := true, strong := false, use }).bind fun s x =>
      (s.storePlaces k h d use t code n (j + 1)).bind fun s ps =>
        .ok s (match x.place with
          | some p => (p, code j) :: ps
          | none => ps)

/-- Queue the stores of a row: one request for each line. -/
def State.storeRow (s : State) (k : Asker) (e : Entry) (ps : List (Place × Nat)) : State :=
  let bs := ps.flatMap fun p => storeBytes p.1 p.2
  (byLine bs).foldl (fun s l =>
    match ps.find? fun p => p.1.va.toNat / 64 == (l.headD (0, 0, 0)).1 / 64 with
    | some p => s.weakStore k e p.1 l
    | none => s) s

/-- One row of an STT (log entry 38: scale bytes are not stored). -/
def sttStep (f : Nat) (b : BitVec 1) (c : Cmd) (vd : BitVec 11) (q m : BitVec 1) (t : Nat) (ch : Choices) (s : State) : Got Choices :=
  let k := cmdAsker f b .SQ c .S
  let d := c.desc
  let h := c.handle
  let idx := u32s (tileAt d t 0)
  (s.getEntry k h idx).bind fun s e =>
    if !hasRight e k.world.toNat rightW || eKind e = 1 then .trap (k.cause Cause.objRights h idx)
    else
      match imgCause (s.runLimits f b) q vd.toNat c.off d e with
      | some x => .trap (k.cause x h idx)
      | none =>
        if m = 1 && c.masks t then .ok s ch
        else
          let w := eWidth e
          let bank := s.bank f b
          let pitch := imgPitch (dCols d) w (imgScales e (dCols d))
          let row := mread bank.scratch (c.off + t * pitch) pitch
          let code := fun j => if q = 1 then bank.tileCode vd.toNat w t j else unpackCode w row j
          (s.storePlaces k h d .tileStore t code (dCols d) 0).bind fun s ps => .ok (s.storeRow k e ps) ch

/-- Bring the line of an element into the L2, and into the Basin for a mapped range; anything that is not resident is
dropped. -/
def State.prefetch (s : State) (k : Asker) (key : Nat) (h : Word) (e : Entry) (t : List Nat) (rd : Nat) (ch : Choices) : Got Choices :=
  let l := locate e t
  let lo := layoutOffset (eLayout e) (eWidth e) (eCols e) l.2.1 l.2.2
  (s.bufferGot k h e false).bind fun s j =>
  match j with
  | none => .ok s ch
  | some j =>
    let va := bufVa e j lo.1
    let local_ := s.packageOf k h e l.1 true = s.pkgNo
    let gone := match s.walkTables va with
      | .error _ => true
      | .ok (_, leaf, _) => leafLost leaf || leafUnav leaf || 2 < leafTier leaf
    if outside e t || !local_ || gone then .ok s ch
    else (s.readElem k key h t needUnit rd ch).bind fun s r => .ok s r.2.2

def State.prefetchAll (s : State) (k : Asker) (key : Nat) (h : Word) (e : Entry) (rd : Nat) : List (List Nat) → Choices → Got Choices
  | [], ch => .ok s ch
  | t :: ts, ch => (s.prefetch k key h e t rd ch).bind fun s ch => s.prefetchAll k key h e rd ts ch

/-- The one step of a PFT: a failed check drops it. -/
def pftStep (f : Nat) (b : BitVec 1) (c : Cmd) (rd : BitVec 3) (ch : Choices) (s : State) : Got Choices :=
  let k := cmdAsker f b .LQ c .L
  let d := c.desc
  let h := c.handle
  if rd = 7 then .ok s ch
  else
    match s.getEntry k h with
    | .ok s e =>
      if !hasRight e k.world.toNat rightR then .ok s ch
      else
        let ts := (List.range (dRows d)).flatMap fun t => (List.range (dCols d)).map fun j => tileAt d t j
        match s.prefetchAll k (cmdKey f b c) h e rd.toNat ts ch with
        | .trap _ => .ok s ch
        | g => g
    | .trap _ => .ok s ch
    | .wait s => .wait s
    | .fault r => .fault r

/-! ### Basin control (R352 to R354) -/

def execBmap (tk g d : BitVec 4) (all : BitVec 1) (s : State) : Host.Outcome State Fault Refusal :=
  engine 2 false .XQ tk g {} (.bmap tk g d all) s fun s => s.sampleDesc d
def execBflush (tk g d : BitVec 4) (all : BitVec 1) (s : State) : Host.Outcome State Fault Refusal :=
  engine 2 false .XQ tk g {} (.bflush tk g d all) s fun s => s.sampleDesc d
def execBdrop (tk g d : BitVec 4) (all : BitVec 1) (s : State) : Host.Outcome State Fault Refusal :=
  engine 2 false .XQ tk g {} (.bdrop tk g d all) s fun s => s.sampleDesc d

/-- The lines that hold an element of a tile, in one buffer: the line of its code and, for MXS, that of its scale byte. -/
def tileLines (e : Entry) (j : Nat) (d : DescW) : List (BitVec 52) :=
  let line := fun (off : Nat) => BitVec.ofNat 52 (bufVa e j off / 64 * 64)
  ((List.range (dRows d)).flatMap fun t => (List.range (dCols d)).flatMap fun c =>
    let x := tileAt d t c
    if outside e x then []
    else
      let l := locate e x
      let lo := layoutOffset (eLayout e) (eWidth e) (eCols e) l.2.1 l.2.2
      line lo.1 :: (match lo.2 with
        | some o => [line o]
        | none => [])).eraseDups

/-- A Basin line lies in a range. -/
def MapRange.has (m : MapRange) (l : BasinLine) : Bool :=
  l.handle == m.handle && ((m.lo ≤ l.va.toNat && l.va.toNat < m.hi) || m.lines.contains l.va)

/-- Resolve a Basin command: right A, and its range in the buffer of the load column. -/
def State.coverOf (s : State) (k : Asker) (c : Cmd) (all : BitVec 1) : Got (Entry × MapRange) :=
  let h := c.handle
  (s.getEntry k h).bind fun s e =>
    if !hasRight e k.world.toNat rightA then .trap (k.cause Cause.objRights h)
    else
      (s.bufferGot k h e false).bind fun s j =>
      let j := j.getD 0
      .ok s (e, if all = 1 then { run := c.run, handle := h, lines := [], lo := bufVa e j 0, hi := bufVa e j (eSpan e) }
                else { run := c.run, handle := h, lines := tileLines e j c.desc, lo := 0, hi := 0 })

/-- BMAP: the range is added to the map of its step; a full map gives up its oldest range, whose lines that no other range
covers leave. -/
def bmapStep (f : Nat) (b : BitVec 1) (c : Cmd) (all : BitVec 1) (s : State) : Got Choices :=
  (s.coverOf (cmdAsker f b .XQ c .C) c all).bind fun s x =>
    let k := s.bank f b
    let basin := (k.run.map basinSets).getD 0
    let m := x.2
    if eMemside x.1 || basin = 0 then .ok s []
    else
      let own := k.bmap.filter fun r => r.run == c.run
      if own.length < 16 then .ok (s.setBank f b { k with bmap := k.bmap ++ [m] }) []
      else
        let old := own.headD default
        let rest := k.bmap.erase old ++ [m]
        let out := fun (l : BasinLine) => old.has l && !(rest.any fun r => r.has l)
        let s := s.setBank f b { k with bmap := rest }
        .ok ((s.flushBasin f b out).dropBasin f b out) []

/-- BFLUSH: the dirty lines of its range leave; it retires when their writes have performed. -/
def bflushStep (f : Nat) (b : BitVec 1) (c : Cmd) (all : BitVec 1) (s : State) : Got Choices :=
  (s.coverOf (cmdAsker f b .XQ c .C) c all).bind fun s x =>
    let s := s.flushBasin f b x.2.has
    let busy := s.objs.reqs.any fun r => r.place.handle == x.2.handle && r.place.width == 512
      && (match r.kind with
        | .wstore _ => r.bank == b && (match r.who with
            | .core n _ => n.toNat == f
            | .sys _ => false)
        | _ => false)
      && ((x.2.lo ≤ r.place.va.toNat && r.place.va.toNat < x.2.hi) || x.2.lines.contains r.place.va)
    if busy then .wait s else .ok s []

/-- BDROP: the lines of its range are invalidated, and their writes never perform. -/
def bdropStep (f : Nat) (b : BitVec 1) (c : Cmd) (all : BitVec 1) (s : State) : Got Choices :=
  (s.coverOf (cmdAsker f b .XQ c .C) c all).bind fun s x => .ok (s.dropBasin f b x.2.has) []

end Sys2Proof.Machine
end

