-- ==== Sys2Proof/Machine/Attention.lean ====
section
/-!
DEFINITION. Attention and sequence instructions (17_isa_attention.md): issue, execution at the home, the attention
engine and ROPE.
-/

namespace Sys2Proof.Machine

open Sys2Proof

/-! ### Issue (R422, R426, R430) -/

/-- The offset of a status word or a request block. -/
def aSample (a : BitVec 3) (h : BitVec 4) (s : State) : Except TrapInfo Sample :=
  let off := (s.getA a).toNat
  match s.scrCause off 64 64 with
  | some c => .error (trapOf c)
  | none => .ok { hs := [s.getH h], vs := [(s.getA a).setWidth 64] }

def execKvapp (tk g h : BitVec 4) (a : BitVec 3) (vk vv : BitVec 11) (n : BitVec 6) (s : State) : Host.Outcome State Fault Refusal :=
  engine 2 true .XQ tk g {} (.kvapp tk g h a vk vv n) s (aSample a h)
def execSpanopen (tk g h : BitVec 4) (tag : BitVec 3) (s : State) : Host.Outcome State Fault Refusal :=
  engine 2 true .XQ tk g {} (.spanopen tk g h tag) s fun s => .ok { hs := [s.getH h] }
def execSpanclose (tk g h : BitVec 4) (s : State) : Host.Outcome State Fault Refusal :=
  engine 2 true .XQ tk g {} (.spanclose tk g h) s fun s => .ok { hs := [s.getH h] }
def execRetspan (tk g h : BitVec 4) (a : BitVec 3) (mode : BitVec 1) (mask : BitVec 8) (s : State) :
    Host.Outcome State Fault Refusal :=
  engine 2 true .XQ tk g {} (.retspan tk g h a mode mask) s (aSample a h)
def execKvpromo (tk g h : BitVec 4) (a : BitVec 3) (mask : BitVec 8) (s : State) : Host.Outcome State Fault Refusal :=
  engine 2 false .XQ tk g {} (.kvpromo tk g h a mask) s (aSample a h)

/-- R430: reserved bits and codes of a request block. -/
def attnBad (bs : List Byte) : Bool :=
  let w := fun k => (wordAt bs k).toNat
  bits (w 0) 31 16 ≠ 0 || bits (w 0) 7 3 ≠ 0 || bits (w 0) 1 0 = 3 || bits (w 2) 63 2 ≠ 0
    || w 3 ≠ 0 || w 4 ≠ 0 || w 5 ≠ 0 || w 6 ≠ 0

def execAttn (tk g h : BitVec 4) (a : BitVec 3) (dq dd : BitVec 4) (s : State) : Host.Outcome State Fault Refusal :=
  engine 2 false .XQ tk g {} (.attn tk g h a dq dd) s fun s =>
    match s.sampleBlock a with
    | .error x => .error x
    | .ok bs =>
      match s.sampleDesc dq, s.sampleDesc dd with
      | .ok q, .ok o =>
        let x := q.ds.headD 0
        let y := o.ds.headD 0
        if attnBad bs || dCols x ≠ 64 || dCols y ≠ 64 || dRows x ≠ dRows y then .error (trapOf Cause.illegalOp)
        else .ok { hs := s.getH h :: q.hs ++ o.hs, ds := [x, y], vs := [(s.getA a).setWidth 64], blk := bs }
      | .error x, _ => .error x
      | _, .error x => .error x

def execRope (tk g : BitVec 4) (vd va : BitVec 11) (sb : BitVec 5) (h : BitVec 4) (pinc : BitVec 1) (ng : BitVec 2) (s : State) :
    Host.Outcome State Fault Refusal :=
  engine 2 false .XQ tk g { s := [sb] } (.rope tk g vd va sb h pinc ng) s fun s =>
    let n := ng.toNat + 1
    let regs := (s.runLimits s.coreNo s.bankNo).1
    if regs < va.toNat + n || regs < vd.toNat + n then .error (trapOf Cause.regBound)
    else if vd ≠ va && vd.toNat < va.toNat + n && va.toNat < vd.toNat + n then .error (trapOf Cause.illegalOp)
    else .ok { hs := [s.getH h], vs := [s.getS sb] }

/-! ### The sequence of a command (R422) -/

/-- Table 4-2 and KIND 1 for the sequence of a command; its state line must be at hand. -/
def State.sequence (s : State) (k : Asker) (h : Word) (right : Nat) : Got Entry :=
  (s.getEntry k h).bind fun s e =>
    if !hasRight e k.world.toNat right then .trap (k.cause Cause.objRights h)
    else if eKind e ≠ 1 then .trap (k.cause Cause.handleInvalid h)
    else (s.translate k h e [] (eVbase e) .hbm (hHome h)).bind fun s _ => .ok s e

/-! ### ROPE (R426) -/

/-- Row group u of a ROPE, one step: a position without an angle stops the command at the row group that holds it. -/
def ropeStep (f : Nat) (b : BitVec 1) (c : Cmd) (vd va : BitVec 11) (pinc : BitVec 1) (u : Nat) (s : State) : Got Unit :=
  let k := cmdAsker f b .XQ c .A
  let h := c.handle
  let pos := fun r => (c.vs.headD 0).toNat % 2 ^ 32 + r * pinc.toNat
  (s.sequence k h rightR).bind fun s e =>
    if (List.range 16).any fun i => ropeBad e (pos (16 * u + i)) then .trap (k.cause Cause.posRange h)
    else
      let bank := s.bank f b
      .ok (s.setBank f b ((List.range 16).foldl (fun (x : Bank) i =>
        x.vputRow (vd.toNat + u) i (ropeRow e (pos (16 * u + i)) ((List.range 64).map fun j => bank.vget (va.toNat + u) i j))) bank)) ()

/-! ### Sequence commands at the home (R421) -/

/-- Keys and values of KVAPP from the vector registers, or the cause REG_BOUND (R424). -/
def kvData (k : Bank) (regs heads : Nat) (vk vv : BitVec 11) (n : Nat) : Option (List Byte) :=
  let broken := (List.range heads).any fun hd => (List.range ((n - 1) / 16 + 1)).any fun g =>
    regs ≤ vk.toNat + 4 * hd + g || regs ≤ vv.toNat + 4 * hd + g
  if broken then none
  else
    let row := fun (v t hd : Nat) => mread k.vregs (vregAddr (v + 4 * hd + t / 16) (t % 16) 0) 128
    some ((List.range n).flatMap fun t => (List.range heads).flatMap fun hd => row vk.toNat t hd ++ row vv.toNat t hd)

/-- The operation number of a sequence command and its arguments; none for another command. -/
def seqOp (c : Cmd) : Option (Nat × List Word) :=
  match c.instr with
  | .kvapp _ _ _ _ _ _ n => some (0, [BitVec.ofNat 64 (n.toNat + 1)])
  | .spanopen _ _ _ tag => some (1, [tag.setWidth 64])
  | .spanclose _ _ _ => some (2, [])
  | .retspan _ _ _ _ mode mask => some (3, [mode.setWidth 64, mask.setWidth 64, c.task])
  | _ => none

/-- A sequence command at its home. -/
def State.seqServe (s : State) (h : Word) (e : Entry) (w : Writer) (op : Nat) (args : List Word) (data : List Byte) : SeqAns :=
  let a := fun n => (args.getD n 0).toNat
  match op with
  | 0 => s.seqAppend h e w (a 0) data
  | 1 => s.seqSeal h e w (some (a 0))
  | 2 => s.seqSeal h e w none
  | _ => s.seqRetire h e w (a 0 == 1) (a 1) (args.getD 2 0)

/-- No earlier command of the queue that is still there names the object. -/
def seqFirst (cs : List Cmd) (c : Cmd) : Bool := !(cs.any fun x => x.hs.contains c.handle)

/-- The answer of a home to a command: a status word, or a cause. -/
def Cmd.answer (c : Cmd) (status : Word) (cause : Nat) : Cmd :=
  { c with accepted := true, started := true, status, snap := if cause = 0 then c.snap else [BitVec.ofNat 64 cause] }

/-- Send a sequence command to its home, which executes it. -/
def seqStep (f : Nat) (b : BitVec 1) (c : Cmd) (op : Nat) (args : List Word) (s : State) : Got Unit :=
  let k := cmdAsker f b .XQ c .A
  let h := c.handle
  let put := fun (s : State) (g : Cmd → Cmd) => s.setBank f b ((s.bank f b).mapCmd .XQ c.ser g)
  (s.sequence k h rightW).bind fun s e =>
    let data := match c.instr with
      | .kvapp _ _ _ _ vk vv n => kvData (s.bank f b) (s.runLimits f b).1 (qHeads e) vk vv (n.toNat + 1)
      | _ => some []
    match data with
    | none => .trap (k.cause Cause.regBound h)
    | some data =>
      if hHome h ≠ s.pkgNo then
        let s := put s fun c => { c with accepted := true }
        .ok (s.issueReq (s.reqOf k (noPlace h (BitVec.ofNat 10 (hHome h))) (.command c.ser (.sequence (BitVec.ofNat 30 (hIndex h)) (BitVec.ofNat 4 op) args data)))) ()
      else
        match s.seqServe h e k.writer op args data with
        | .done s st => .ok (put s fun c => c.answer st 0) ()
        | .trap x => .trap (k.cause x h)
        | .missing va => .trap (k.cause Cause.objMissing h [] va)
        | .wait => .wait s

/-- What an engine's step gives: a cause stops its bank (R242). -/
def engineGot {α : Type} (f : Nat) (b : BitVec 1) (q : QueueId) (c : Cmd) (g : Got α) (done : State → α → Host.Outcome State Fault Refusal)
    (s : State) : Host.Outcome State Fault Refusal :=
  match g with
  | .ok t v => done t v
  | .wait t => .next t
  | .trap x => .next (s.raise f b (engineSource q) c.pos c.task x)
  | .fault r => .fault r

/-- SEQ_COMMAND_EXECUTE: a sequence command executes once those before it on the sequence have completed. -/
def execSeqCommandExecute (core : BitVec 9) (bank : BitVec 1) (n : BitVec 5) (s : State) : Host.Outcome State Fault Refusal :=
  let f := core.toNat
  let cs := (s.bank f bank).xq
  match cs[n.toNat]? with
  | none => .next s
  | some c =>
    let before := cs.take n.toNat
    match seqOp c with
    | none => .next s
    | some (op, args) =>
      if !s.engineOn f bank || !c.issued || c.accepted || !(before.all fun x => x.accepted) || !seqFirst before c
          || (n.toNat = 0 && 1 ≤ (s.bank f bank).counter .XQ) then .next s
      else engineGot f bank .XQ c (seqStep f bank c op args s) (fun t _ => .next t) s

/-! ### The attention engine (R433 to R436) -/

/-- P4(2^(x - m)) (R434): 2^f of a fraction lies at none of the midpoints 9/8, 11/8, 13/8 and 15/8. -/
def p4 (x : Val) (m : Int) : Val :=
  match x.add false (.ofInt (-m)) with
  | .fin neg n d =>
    let q : Int := (n / d : Nat)
    let r := n % d
    let e := if neg && r ≠ 0 then -q - 1 else if neg then -q else q
    let t := if r = 0 then fixOne else fixExp (fixOf (if neg then d - r else r) d * fixLn2 / fixOne)
    let k := ([9, 11, 13, 15].filter fun j => j * fixOne < 8 * t).length
    let e := if k = 4 then e + 1 else e
    let k := k % 4
    if e < -24 then .zero else (Val.fin false (4 + k) 4).scale e
  | _ => .zero

/-- A query row in progress. -/
structure AttnRow where
  m : Option Int
  l : Val
  acc : List Val
  bad : Bool
  slots : Nat
deriving DecidableEq, Repr

/-- RoundTo(x, fp32, RNE, OVFINF) as a value. -/
def r32 (x : Val) : Val := decFlt fp32 (roundFlt fp32 .rne true 0 x)

/-- The score of a key (R433). -/
def attnScore (scale : Val) (q k : List Val) : Val :=
  let part := fun g => List.zipWith Val.mul ((q.drop (32 * g)).take 32) ((k.drop (32 * g)).take 32)
  r32 (scale.mul (accumulate (accumulate .zero (part 0)) (part 1)))

/-- Ceil of a value that is not NaN and not +∞; none for −∞. -/
def valCeil : Val → Option Int
  | .fin neg n d => some (if neg then -((n / d : Nat) : Int) else ((ceilDiv n d : Nat) : Int))
  | _ => none

def optMax (a b : Option Int) : Option Int :=
  match a, b with
  | some x, some y => some (max x y)
  | some x, none => some x
  | none, y => y

/-- One entry of the snapshot for a row: the keys and values of its allowed slots. -/
def AttnRow.entry (x : AttnRow) (scale : Val) (q : List Val) (kv : List (List Val × List Val)) : AttnRow :=
  if kv.isEmpty then x
  else
    let sc := kv.map fun p => (attnScore scale q p.1, p.2)
    let x := { x with slots := x.slots + kv.length, bad := x.bad || sc.any fun (p : Val × List Val) => p.1.isNan || p.1 == Val.inf false }
    if x.bad then x
    else
      let mn := optMax x.m (sc.foldl (fun a (p : Val × List Val) => optMax a (valCeil p.1)) none)
      match mn with
      | none => x
      | some new =>
        let x := match x.m with
          | some old =>
            if old < new then { x with acc := x.acc.map fun (v : Val) => r32 (v.scale (old - new)), l := r32 (x.l.scale (old - new)) } else x
          | none => x
        sc.foldl (fun (x : AttnRow) (p : Val × List Val) =>
          let w := p4 p.1 new
          { x with acc := List.zipWith (fun (a v : Val) => r32 (a.add false (w.mul v))) x.acc p.2, l := r32 (x.l.add false w) }) { x with m := some new }

/-- The codes of a finished row in the result format (R435). -/
def AttnRow.codes (x : AttnRow) (f : Flt) : List Nat :=
  if x.bad then List.replicate 64 f.nan
  else if x.l.isZero then List.replicate 64 0
  else x.acc.map fun (a : Val) => if a.isNan then f.nan else roundFlt f .rne false 0 (a.div x.l)

/-- The format of a result tile. -/
def attnOut (e : Entry) : Option Flt :=
  match fmtOf (eFmt e) with
  | .flt f => if f = fp32 ∨ f = bf16 ∨ f = fp16 then some f else none
  | _ => none

def needAttn : Need := { right := rightR, store := false, strong := false, use := .hbm }

/-- Rows t to t + n − 1 of the query tile. -/
def State.attnQueries (s : State) (k : Asker) (key : Nat) (h : Word) (d : DescW) : Nat → Nat → Choices → Got (List (List Nat) × Choices)
  | 0, _, ch => .ok s ([], ch)
  | n + 1, t, ch =>
    (s.readRow k key h d needAttn t 2 64 0 ch).bind fun s r =>
      (s.attnQueries k key h d n (t + 1) r.2).bind fun s q => .ok s (r.1 :: q.1, q.2)

/-- 64-byte lines of a pool block, from va: here after a translation, else from the home package. -/
def State.poolLines (s : State) (k : Asker) (key : Nat) (h : Word) (e : Entry) : Nat → Nat → Got (List Byte)
  | 0, _ => .ok s []
  | n + 1, va =>
    let one : Got (List Byte) :=
      (s.translate k h e [] va .hbm (hHome h)).bind fun s hit =>
        let p : Place := { noPlace h (BitVec.ofNat 10 (hHome h)) with va := BitVec.ofNat 52 va, pa := hit.pa, width := 512 }
        if hHome h = s.pkgNo then .ok (s.meetL2 k e p 2 s.objs.seq) (s.plainRead h va hit.pa 64) else s.remoteLine k key p 2
    one.bind fun s b => (s.poolLines k key h e n (va + 64)).bind fun s r => .ok s (b ++ r)

/-- Keys and values of the request's head in the slots of each used entry, in order: what a snapshot has counted is in
their floor (R431). -/
def State.attnBlocks (s : State) (k : Asker) (key : Nat) (h : Word) (e : Entry) (head : Nat) :
    List (Nat × Nat) → Got (List (Nat × List (List Nat) × List (List Nat)))
  | [] => .ok s []
  | (w0, blk) :: rest =>
    let n := enValid w0
    let at_ := fun part => eVbase e + poolOff e blk part head 0
    let rows := fun (bs : List Byte) => (List.range n).map fun t => codes16 ((bs.drop (128 * t)).take 128)
    (s.poolLines k key h e (2 * n) (at_ 0)).bind fun s ks =>
      (s.poolLines k key h e (2 * n) (at_ 1)).bind fun s vs =>
        (s.attnBlocks k key h e head rest).bind fun s r => .ok s ((w0, rows ks, rows vs) :: r)

/-- Row t of a request over its blocks. -/
def attnRow (r : AttnReq) (f : Byte) (q : List Nat) (blocks : List (Nat × List (List Nat) × List (List Nat))) (t : Nat) : AttnRow :=
  let vals := fun (cs : List Nat) => cs.map fun c => dec c f
  let qv := vals q
  blocks.foldl (fun (x : AttnRow) blk =>
    x.entry (decFlt fp32 r.scale) qv ((r.allowed blk.1 (r.row t)).map fun n => (vals (blk.2.1.getD n []), vals (blk.2.2.getD n []))))
    { m := none, l := .zero, acc := List.replicate 64 .zero, bad := false, slots := 0 }

/-- Store the result rows: places first, so that a fault writes nothing. -/
def State.attnPlaces (s : State) (k : Asker) (h : Word) (d : DescW) : List (Nat × List Nat) → Got (List (List (Place × Nat)))
  | [] => .ok s []
  | (t, row) :: rest =>
    (s.storePlaces k h d .hbm t (fun j => row.getD j 0) 64 0).bind fun s p =>
      (s.attnPlaces k h d rest).bind fun s ps => .ok s (p :: ps)

/-- The request at the head of the attention engine, from its snapshot: its rows are stored, and its status. -/
def attnRun (f : Nat) (b : BitVec 1) (c : Cmd) (ch : Choices) (s : State) : Got Word :=
  let k := cmdAsker f b .XQ c .A
  let key := cmdKey f b c
  let r := attnReq c.blk
  let dq := c.ds.headD 0
  let dd := c.ds.getD 1 0
  let hq := c.hs.getD 1 0
  let hd := c.hs.getD 2 0
  let rows := dRows dq
  let used := (snapEntries c.snap).filter fun x => r.uses rows x.1
  let count := fun (l : List AttnRow) => sumBy (fun (x : AttnRow) => x.slots) l
  let word := fun (slots empty st : Nat) => BitVec.ofNat 64 (slots % 2 ^ 32 * 2 ^ 32 + empty * 65536 + st)
  if used.any fun x => enQuar x.1 then
    let per := (List.range rows).map fun t => sumBy (fun (x : Nat × Nat) => (r.allowed x.1 (r.row t)).length) used
    .ok s (word (sumBy id per) (per.filter (· == 0)).length 1)
  else
    (s.sequence k c.handle rightR).bind fun s e =>
      (s.getEntry k hq).bind fun s qe =>
        if !hasRight qe k.world.toNat rightR then .trap (k.cause Cause.objRights hq)
        else if eFmt qe ≠ qFmt e then .trap (k.cause Cause.handleInvalid hq)
        else
          (s.getEntry k hd).bind fun s oe =>
            if !hasRight oe k.world.toNat rightW || eKind oe = 1 then .trap (k.cause Cause.objRights hd)
            else
              match attnOut oe with
              | none => .trap (k.cause Cause.handleInvalid hd)
              | some fo =>
                (s.attnQueries k key hq dq rows 0 ch).bind fun s q =>
                  (s.attnBlocks k key c.handle e r.head used).bind fun s blocks =>
                    let done := (List.range rows).map fun t => attnRow r (qFmt e) (q.1.getD t []) blocks t
                    (s.attnPlaces k hd dd ((List.range rows).zip (done.map fun x => x.codes fo))).bind fun s ps =>
                      let s := ps.foldl (fun s p => s.storeRow k oe p) s
                      .ok s (word (count done) (done.filter fun x => !x.bad && x.l.isZero).length 0)

/-- Pins of a request are released at its retirement, here or at the home of the sequence. -/
def State.attnRelease (s : State) (c : Cmd) : State :=
  (s.releaseSpans fun p => p.run == c.run && p.ser == c.ser).releaseFar c

/-- ATTN_REQUEST_START: the engine takes the oldest request, checks the sequence, and takes its snapshot at the home. -/
def execAttnRequestStart (cluster : BitVec 6) (_ch : Choices) (s : State) : Host.Outcome State Fault Refusal :=
  let cl := s.cluster cluster.toNat
  match cl.attn.queue with
  | [] => .next s
  | (f, b, ser) :: rest =>
    let drop := s.setCluster cluster.toNat { cl with attn := { cl.attn with queue := rest } }
    match (s.bank f b).xq.find? fun c => c.ser == ser with
    | none => .next drop
    | some c =>
      if c.started || !s.engineOn f b then .next s
      else
        let k := cmdAsker f b .XQ c .A
        let h := c.handle
        let r := attnReq c.blk
        let go : Got Unit := (s.sequence k h rightR).bind fun s e =>
          let x := s.cluster cluster.toNat
          let s := s.setCluster cluster.toNat { x with attn := { x.attn with world := c.world } }
          if qHeads e ≤ r.head then .trap (k.cause Cause.illegalOp h)
          else if hHome h ≠ s.pkgNo then
            if s.objs.reqs.any fun q => q.run == c.run && q.place.handle == h && (match q.kind with
                | .command n _ => n == ser
                | _ => false) then .wait s
            else
              .ok (s.issueReq (s.reqOf k (noPlace h (BitVec.ofNat 10 (hHome h))) (.command ser (.sequence (BitVec.ofNat 30 (hIndex h)) 4
                [wordAt c.blk 0, wordAt c.blk 1, BitVec.ofNat 64 (dRows (c.ds.headD 0)), c.task] [])))) ()
          else
            let snap := s.seqSnapshot h e
            let s := s.pinBlocks h r (dRows (c.ds.headD 0)) snap c.run c.task ser
            .ok (s.setBank f b ((s.bank f b).mapCmd .XQ ser fun c => { c with started := true, snap })) ()
        engineGot f b .XQ c go (fun t _ => .next t) s

/-- PIN_RELEASE_FREE: the last pin on a retired block has gone; the block is zeroed and freed (R429). -/
def execPinReleaseFree (handle : Word) (blk : BitVec 14) (s : State) : Host.Outcome State Fault Refusal :=
  let key := objKey handle
  let e := s.entryInMem (hIndex handle)
  let mine := fun (x : Nat × Nat) => x.1 == key && x.2 == blk.toNat
  if hHome handle ≠ s.pkgNo || !(s.objs.attnFree.any mine) || (s.spanPins handle).any (fun p => p.blk == blk.toNat)
      || (s.blkLeaf e blk.toNat).any (fun l => leafHold l.2) then .next s
  else
    let t : State := { s with objs := { s.objs with attnFree := s.objs.attnFree.filter fun x => !mine x } }
    .next (t.seqFree handle e { run := 0, task := 0, path := .A, ord := 0 } blk.toNat)

/-! ### SEQQ (R441) -/

def execSeqq (g : BitVec 4) (x y : BitVec 5) (h item : BitVec 4) (s : State) : Host.Outcome State Fault Refusal :=
  control { size := 2 } g { s := [x, y] } s fun s =>
    let hw := s.getH h
    let k := s.asker .C
    (s.sequence k hw rightR).res fun s e =>
      let here := hHome hw = s.pkgNo
      let hit := match s.walkTables (eVbase e) with
        | .ok (a, l, large) => (a, leafPaOf l large (eVbase e))
        | .error _ => (0, 0)
      let p : Place := { noPlace hw (BitVec.ofNat 10 (hHome hw)) with
                         va := BitVec.ofNat 52 (eVbase e), pa := if here then hit.2 else 0, leafPa := if here then hit.1 else 0 }
      let s := s.bumpOrd
      .done ((s.issueReq (s.reqOf k p (.seqq item (s.getS y) x))).awaitS x)

end Sys2Proof.Machine
end

