-- ==== Sys2Proof/Machine/Desc.lean ====
section
/-!
DEFINITION. Parameters, scratchpad, handles and descriptors (13_isa_scalar.md, R325 to R333).
-/

namespace Sys2Proof.Machine

open Sys2Proof

/-! ### Parameters and scratchpad -/

def execLdp (g : BitVec 4) (x : BitVec 5) (wd : BitVec 2) (sg : BitVec 1) (off : BitVec 12) (s : State) :
    Host.Outcome State Fault Refusal :=
  control { size := 2 } g { s := [x] } s fun s =>
    let w := 2 ^ wd.toNat
    let p := s.paramOf
    if off.toNat % w ≠ 0 then .trap (trapOf Cause.illegalOp)
    else if p.2 < off.toNat + w then .trap (trapOf Cause.objRange)
    else .done (s.setS x (extend (sg == 1) (ofBytes (mread p.1 off.toNat w)) (8 * w)))

/-- The offset of LDS and STS (R327). -/
def State.scrOff (s : State) (y : BitVec 3) (imm : BitVec 32) : Nat := (s.getA y + imm).toNat

def execLds (g : BitVec 4) (x : BitVec 5) (y : BitVec 3) (wd : BitVec 2) (sg : BitVec 1) (imm : BitVec 32) (s : State) :
    Host.Outcome State Fault Refusal :=
  control { size := 2 } g { s := [x] } s fun s =>
    let w := 2 ^ wd.toNat
    let off := s.scrOff y imm
    match s.scrCause off w w with
    | some c => .trap (trapOf c)
    | none => .done (s.setS x (extend (sg == 1) (ofBytes (s.scrRead off w)) (8 * w)))

def execSts (g : BitVec 4) (x : BitVec 5) (y : BitVec 3) (wd : BitVec 2) (imm : BitVec 32) (s : State) :
    Host.Outcome State Fault Refusal :=
  control { size := 2 } g { s := [x] } s fun s =>
    let w := 2 ^ wd.toNat
    let off := s.scrOff y imm
    match s.scrCause off w w with
    | some c => .trap (trapOf c)
    | none => .done (s.scrWrite off (toBytes w (s.getS x).toNat))

/-! ### Handles -/

def execHld (g x : BitVec 4) (y : BitVec 5) (src : BitVec 1) (imm : BitVec 32) (s : State) :
    Host.Outcome State Fault Refusal :=
  control { size := 2 } g { s := if src = 1 then [y] else [] } s fun s =>
    if src = 1 then .done (s.setH x (s.getS y))
    else
      let off := imm.toNat % 4096
      let p := s.paramOf
      if off % 8 ≠ 0 then .trap (trapOf Cause.illegalOp)
      else if p.2 < off + 8 then .trap (trapOf Cause.objRange)
      else .done (s.setH x (mword p.1 off))

/-- Table 13-8. -/
def hqryItem (e : Entry) (world item : Nat) : Word :=
  match item with
  | 4 => BitVec.ofNat 64 ((eFmt e).toNat + eLayout e * 256 + eNdim e * 1024 + eKind e * 4096)
  | 5 => BitVec.ofNat 64 (b2n (eNocomp e) + b2n (ePinned e) * 2 + b2n (eCompute e) * 4 + b2n (eMemside e) * 8
      + b2n (eWrap e) * 16 + b2n (eLarge e) * 32 + efield e 0 19 18 * 64)
  | 6 => BitVec.ofNat 64 (efield e 6 61 52 + efield e 6 51 50 * 1024 + eSdim e * 4096)
  | 7 => ePad e
  | 8 => BitVec.ofNat 64 (rightsOf e world)
  | k => BitVec.ofNat 64 (eExt e k)

/-- HQRY (R330): checks 1 to 4 of Table 4-2, with any right; it is no memory access, so a cause names no path. -/
def execHqry (g : BitVec 4) (x : BitVec 5) (y item : BitVec 4) (s : State) : Host.Outcome State Fault Refusal :=
  control { size := 2 } g { s := [x] } s fun s =>
    let h := s.getH y
    let k := s.asker .C
    match s.getEntry k h with
    | .ok t e =>
      if rightsOf e s.world.toNat = 0 then .trap (pathless (k.cause Cause.objRights h))
      else .done (t.setS x (hqryItem e s.world.toNat item.toNat))
    | .wait t => .stall t
    | .trap c => .trap (pathless c)
    | .fault r => .fault r

/-! ### Descriptors -/

/-- R331: ROWS or COLS of 0, or above 64. -/
def shapeBad (rows cols : BitVec 7) : Bool := rows == 0 || 64 < rows.toNat || cols == 0 || 64 < cols.toNat

def execDset (g x y : BitVec 4) (rows cols : BitVec 7) (col0 : BitVec 16) (lit : BitVec 32) (s : State) :
    Host.Outcome State Fault Refusal :=
  control { size := 3, compute := true } g {} s fun s =>
    if shapeBad rows cols then .trap (trapOf Cause.illegalOp)
    else .done (s.setD x (dMake y.toNat rows.toNat cols.toNat lit.toNat col0.toNat))

def execDidx (g x : BitVec 4) (y : BitVec 5) (k : BitVec 2) (ii : BitVec 1) (imm : BitVec 32) (s : State) :
    Host.Outcome State Fault Refusal :=
  control { size := 2, compute := true } g { s := if ii = 1 then [] else [y] } s fun s =>
    .done (s.setD x (dSetIdx (s.getD x) k.toNat (if ii = 1 then imm.toNat else (s.getS y).toNat)))

def execDadd (g x : BitVec 4) (y : BitVec 5) (k : BitVec 2) (ii : BitVec 1) (imm : BitVec 32) (s : State) :
    Host.Outcome State Fault Refusal :=
  control { size := 2, compute := true } g { s := if ii = 1 then [] else [y] } s fun s =>
    let d := s.getD x
    .done (s.setD x (dSetIdx d k.toNat (dIdx d k.toNat + (if ii = 1 then imm.toNat else (s.getS y).toNat))))

def execDshp (g x : BitVec 4) (rows cols : BitVec 7) (s : State) : Host.Outcome State Fault Refusal :=
  control { size := 2, compute := true } g {} s fun s =>
    if shapeBad rows cols then .trap (trapOf Cause.illegalOp)
    else .done (s.setD x (dPut (dPut (s.getD x) 199 192 rows.toNat) 207 200 cols.toNat))

def execDpad (g x : BitVec 4) (clr : BitVec 1) (imm lit : BitVec 32) (s : State) : Host.Outcome State Fault Refusal :=
  control { size := 3, compute := true } g {} s fun s =>
    let pad := if clr = 1 then 0 else lit.toNat * 2 ^ 32 + imm.toNat
    .done (s.setD x (dPut (dPut (s.getD x) 191 128 pad) 217 217 (if clr = 1 then 0 else 1)))

def execDmov (g x y : BitVec 4) (s : State) : Host.Outcome State Fault Refusal :=
  control { size := 1, compute := true } g {} s fun s => .done (s.setD x (s.getD y))

end Sys2Proof.Machine
end

