-- ==== Sys2Proof/Machine/ElemAccess.lean ====
section
/-!
DEFINITION. Element loads and stores, atomics, version instructions and path fences as the control core issues them
(14_isa_memory.md, R334 to R346 and R355 to R359). What their requests do at their homes is in Machine/Slices.lean.
-/

namespace Sys2Proof.Machine

open Sys2Proof

/-! ### Element references -/

/-- Resolve the element of linear index i of the object in a handle register, on path C (R334, R336); the access takes
its place in step order. -/
def elemAccess (s : State) (hr : BitVec 4) (i : Word) (n : Need) (f : State → Asker → Entry → Option Place → Res) : Res :=
  let h := s.getH hr
  let k := s.asker .C
  ((s.getEntry k h).bind fun s e => s.resolve k h (tupleOf e i.toNat) i.toNat n).res fun s x => f s.bumpOrd k x.entry x.place

/-- A strong request leaves: the issuing core's own copy of the line goes first (R204). -/
def sendStrong (s : State) (k : Asker) (p : Place) (kind : ReqKind) : State :=
  (s.purgeLine k p.handle p.va.toNat).issueReq (s.reqOf k p kind)

/-- The dirty Basin lines of an object that its earlier stores on path C hold are written back for a release on it
(R219). -/
def State.flushObject (s : State) (h : Word) : State :=
  match s.turn with
  | .core f _ => s.flushBasin f.toNat s.bankNo fun l => l.handle == h
  | .sys _ => s

def needLoad : Need := { right := rightR, store := false, strong := false, use := .hbm }
def needStore : Need := { right := rightW, store := true, strong := false, use := .hbm }
def needStrong (store : Bool) (width : Nat := 0) : Need := { right := rightA, store, strong := true, use := .hbm, width }

/-! ### LDE and STE (R337, R338) -/

def execLde (g : BitVec 4) (x y : BitVec 5) (h : BitVec 4) (str : BitVec 2) (rd : BitVec 3) (s : State) :
    Host.Outcome State Fault Refusal :=
  control { size := 2 } g { s := [x, y] } s fun s =>
    if str = 0 then
      elemAccess s h (s.getS y) needLoad fun s k e p =>
        let sg := fmtSigned (eFmt e)
        match p with
        | none => .done (s.setS x (extend sg (ePad e).toNat (eWidth e)))
        | some p =>
          match s.loadNow k e p rd.toNat with
          | some r => .done (r.1.setS x (extend sg (codeOfBytes p r.2) p.width))
          | none => .done ((s.issueReq (s.reqOf k p (.wload x sg rd))).awaitS x)
    else
      elemAccess s h (s.getS y) (needStrong false) fun s k e p =>
        match p with
        | none => .done s
        | some p => .done ((sendStrong s k p (.sload x (fmtSigned (eFmt e)) (str == 2))).awaitS x)

def execSte (g : BitVec 4) (x y : BitVec 5) (h : BitVec 4) (str : BitVec 2) (s : State) : Host.Outcome State Fault Refusal :=
  control { size := 2 } g { s := [x, y] } s fun s =>
    let v := s.getS x
    if str = 0 then
      elemAccess s h (s.getS y) needStore fun s k e p =>
        match p with
        | none => .done s
        | some p => .done (s.weakStore k e p (storeBytes p v.toNat))
    else
      elemAccess s h (s.getS y) (needStrong true) fun s k e p =>
        match p with
        | none => .done s
        | some p =>
          let s := s.noteStore k.task p.handle e
          let s := if str = 2 then s.flushObject p.handle else s
          .done (sendStrong s k p (.sstore v (str == 2)))

/-! ### Atomics (R339 to R342) -/

/-- Bits of an access width. -/
def accessWidth (w : BitVec 1) : Nat := if w = 1 then 64 else 32

/-- An atomic leaves; dst awaits the old value. -/
def atomicOn (g : BitVec 4) (size : Nat) (u : Uses) (hr : BitVec 4) (y : BitVec 5) (width : Nat) (s : State)
    (kind : State → ReqKind) (wait : State → State) : Host.Outcome State Fault Refusal :=
  control { size, commit := true } g u s fun s =>
    let rk := kind s
    elemAccess s hr (s.getS y) (needStrong true width) fun s k e p =>
      match p with
      | none => .done s
      | some p => .done (wait (sendStrong (s.noteStore k.task p.handle e) k p rk))

def execAtom (g : BitVec 4) (x y : BitVec 5) (h : BitVec 4) (w : BitVec 1) (v : BitVec 5) (opc : BitVec 4) (s : State) :
    Host.Outcome State Fault Refusal :=
  atomicOn g 2 { s := [x, y, v] } h y (accessWidth w) s (fun s => .atomic (w == 1) opc (s.getS v) (some x)) fun s => s.awaitS x

def execFatom (g : BitVec 4) (x y : BitVec 5) (h : BitVec 4) (v : BitVec 5) (fop : BitVec 2) (s : State) :
    Host.Outcome State Fault Refusal :=
  atomicOn g 2 { s := [x, y, v] } h y 32 s (fun s => .fatomic fop ((s.getS v).setWidth 32) (some x)) fun s => s.awaitS x

/-- ATOMNR returns nothing (R341); f = 1 names an operation of FATOM. -/
def execAtomnr (g : BitVec 4) (x y : BitVec 5) (h : BitVec 4) (w : BitVec 1) (opc : BitVec 4) (f : BitVec 1) (s : State) :
    Host.Outcome State Fault Refusal :=
  atomicOn g 2 { s := [x, y] } h y (accessWidth w) s
    (fun s => if f = 1 then .fatomic (opc.setWidth 2) ((s.getS x).setWidth 32) none else .atomic (w == 1) opc (s.getS x) none)
    fun s => s

def execCas (g : BitVec 4) (x y : BitVec 5) (h : BitVec 4) (w : BitVec 1) (e nv : BitVec 5) (pd : BitVec 3) (s : State) :
    Host.Outcome State Fault Refusal :=
  atomicOn g 3 { s := [x, y, e, nv], p := [pd] } h y (accessWidth w) s
    (fun s => .cas (w == 1) (s.getS e) (s.getS nv) x pd) fun s => (s.awaitS x).awaitP pd

/-- CASC (R343, R344): the template is checked first, then the object. -/
def execCasc (g : BitVec 4) (x y : BitVec 5) (h : BitVec 4) (w : BitVec 1) (e nv : BitVec 5) (t : BitVec 4)
    (st : BitVec 5) (s : State) : Host.Outcome State Fault Refusal :=
  control { size := 3, commit := true } g { s := [x, y, e, nv, st] } s fun s =>
    let th := s.getH t
    let k := s.asker .C
    (s.getEntry k th).res fun s te =>
      if !hasRight te k.world.toNat rightL then .trap (k.cause Cause.objRights th)
      else if eKind te ≠ 2 then .trap (k.cause Cause.handleInvalid th)
      else
        let kind := ReqKind.casc (w == 1) (s.getS e) (s.getS nv) x st th
        elemAccess s h (s.getS y) (needStrong true (accessWidth w)) fun s k e p =>
          match p with
          | none => .done s
          | some p =>
            let s := (s.noteStore k.task p.handle e).flushObject p.handle
            .done (((sendStrong s k p kind).awaitS x).awaitS st)

/-! ### Versions (R355 to R358) -/

/-- A version instruction passes checks 1 to 4 of Table 4-2 with right A and takes its place in step order. -/
def versionOn (s : State) (hr : BitVec 4) (f : State → Asker → Word → Entry → Res) : Res :=
  let h := s.getH hr
  let k := s.asker .C
  (s.getEntry k h).res fun s e =>
    if !hasRight e k.world.toNat rightA then .trap (k.cause Cause.objRights h) else f s.bumpOrd k h e

/-- A version request to the slice of the object's entry. -/
def versionReq (s : State) (k : Asker) (h : Word) (kind : ReqKind) : State :=
  s.issueReq (s.reqOf k (noPlace h (BitVec.ofNat 10 (hHome h))) kind)

def execOpenv (g h : BitVec 4) (s : State) : Host.Outcome State Fault Refusal :=
  control { size := 2 } g {} s fun s => versionOn s h fun s k hd _ => .done (versionReq s k hd .openv)

/-- PUB: the issuing core's dirty Basin lines of the object are written back (R200); without the draft on k above 1 it
raises VER_NODRAFT (R356). -/
def execPub (g h : BitVec 4) (s : State) : Host.Outcome State Fault Refusal :=
  control { size := 2, commit := true } g {} s fun s => versionOn s h fun s k hd e =>
    if s.openPending k hd then .stall s
    else if 1 < eBufs e ∧ !(s.draftOf hd).any (fun d => d.task == k.task && k.task != 0) then
      .trap (k.cause Cause.verNoDraft hd)
    else .done (versionReq (s.flushObject hd) k hd .pub)

/-- Subscriptions that the slice of an object's entry holds and has not delivered. -/
def State.subsAt (s : State) (h : Word) : Nat :=
  (s.objs.subs.filter fun x => !x.delivered && x.index / 2 ^ 30 == hHome h
    && sliceOf (s.objAddr (x.index % 2 ^ 30)) == sliceOf (s.objAddr (hIndex h))).length

def execSubv (g : BitVec 4) (x y : BitVec 5) (h : BitVec 4) (s : State) : Host.Outcome State Fault Refusal :=
  control { size := 2 } g { s := [x, y] } s fun s =>
    let v := (s.getS x).setWidth 32
    let t := s.getS y
    versionOn s h fun s k hd _ =>
      if 4096 ≤ s.subsAt hd then .stall s else .done (versionReq s k hd (.subv v t))

def execPinv (g : BitVec 4) (x y : BitVec 5) (h : BitVec 4) (s : State) : Host.Outcome State Fault Refusal :=
  control { size := 2 } g { s := [x, y] } s fun s =>
    let v := (s.getS y).setWidth 32
    versionOn s h fun s k hd _ => .done ((versionReq s k hd (.pinv v x)).awaitS x)

def execUnpv (g h : BitVec 4) (s : State) : Host.Outcome State Fault Refusal :=
  control { size := 2 } g {} s fun s => versionOn s h fun s k hd _ => .done (versionReq s k hd .unpv)

def execVerq (g : BitVec 4) (x : BitVec 5) (h : BitVec 4) (s : State) : Host.Outcome State Fault Refusal :=
  control { size := 2 } g { s := [x] } s fun s => versionOn s h fun s k hd _ => .done ((versionReq s k hd (.verq x)).awaitS x)

/-! ### FENCE.P (R223, R359) -/

def State.addFence (s : State) (f : Byte × Byte × Nat × Nat) : State :=
  match s.turn with
  | .core _ _ => let k := s.curBank; s.setCurBank { k with run := k.run.map fun r => { r with fences := f :: r.fences } }
  | .sys n => let c := s.sysCore n.toNat; s.setSys n.toNat { c with fences := f :: c.fences }

/-- Messages of the step that a chain has not read whole (R359, path I). -/
def State.intakePending (s : State) (run : Nat) : Bool :=
  s.chains.any fun c => (c.2.queue.any fun q => q.run == run)

/-- Every access of the step on a path of the first set, issued before place ord, has performed. -/
def State.fenceMet (s : State) (k : Asker) (s1 : Byte) (ord : Nat) : Bool :=
  !(s.unperformed k.coreNo k.bank k.run ord (inSet s1) none) && !(inSet s1 .I && s.intakePending k.run)

def execFenceP (g : BitVec 4) (s1 s2 : BitVec 8) (s : State) : Host.Outcome State Fault Refusal :=
  control { size := 1 } g {} s fun s =>
    if s1 = 0 ∨ s2 = 0 then .done s
    else
      let k := s.asker .C
      match s.ctx.fence with
      | none =>
        let s := match s.turn with
          | .core f _ => s.flushBasin f.toNat s.bankNo fun l => l.run == k.run && l.dirty.any fun d => inSet s1 d.2.2
          | .sys _ => s
        let s := s.bumpOrd
        if s.fenceMet k s1 k.ord then .done (s.addFence (s1, s2, k.ord, k.ord)) else .stall (s.setCtx { s.ctx with fence := some k.ord })
      | some ord =>
        if s.fenceMet k s1 ord then
          .done ((s.setCtx { s.ctx with fence := none }).addFence (s1, s2, ord, k.ord - 1))
        else .stall s

end Sys2Proof.Machine
end

