-- ==== Sys2Proof/Machine/Inflate.lean ====
section
/-!
DEFINITION. Stage INFL of a chain (07_intake.md, R159, R160): DEFLATE (RFC 1951), zlib (RFC 1950) and gzip (RFC 1952).
-/

namespace Sys2Proof.Machine

open Sys2Proof

/-! ### The decoder's place -/

/-- Where INFL stands: the input that is left, the bits of its first byte already taken, the bytes used before it, the
output with the newest byte first, its length, where the current stream's output begins, its window, and XRB. -/
structure Infl where
  inp : List Byte
  k : Nat
  used : Nat
  out : List Byte
  n : Nat
  base : Nat
  window : Nat
  xrb : Nat
deriving DecidableEq, Repr

/-- A part of INFL goes on with a value, or ends with a fault code (Table 7-6). -/
inductive ZGot (α : Type) where
  | ok (z : Infl) (v : α)
  | bad (z : Infl) (code : U16)

def ZGot.bind {α β : Type} (g : ZGot α) (f : Infl → α → ZGot β) : ZGot β :=
  match g with
  | .ok z v => f z v
  | .bad z c => .bad z c

def inFormat : U16 := 0x0101
def inCheck : U16 := 0x0102
def inWindow : U16 := 0x0103
def inRatio : U16 := 0x0104
def inTrunc : U16 := 0x0105
def outSize : U16 := 0x0106
/-- 64 MiB. -/
def stageLimit : Nat := 67108864

/-- Input bytes consumed, a byte in use included. -/
def Infl.consumed (z : Infl) : Nat := z.used + (if z.k = 0 then 0 else 1)

/-- The next bit, lowest first. -/
def Infl.bit (z : Infl) : ZGot Nat :=
  match z.inp with
  | [] => .bad z inTrunc
  | b :: rest =>
    let v := b.toNat / 2 ^ z.k % 2
    .ok (if z.k = 7 then { z with inp := rest, k := 0, used := z.used + 1 } else { z with k := z.k + 1 }) v

/-- The next n bits as a number, lowest first. -/
def Infl.bits (z : Infl) : Nat → ZGot Nat
  | 0 => .ok z 0
  | n + 1 => z.bit.bind fun z b => (z.bits n).bind fun z r => .ok z (b + 2 * r)

/-- To the next byte boundary. -/
def Infl.align (z : Infl) : Infl :=
  if z.k = 0 then z else { z with inp := z.inp.drop 1, k := 0, used := z.used + 1 }

/-- The next n whole bytes. -/
def Infl.bytes (z : Infl) (n : Nat) : ZGot (List Byte) :=
  if (z.inp.take n).length < n then .bad { z with inp := [], used := z.used + z.inp.length } inTrunc
  else .ok { z with inp := z.inp.drop n, used := z.used + n } (z.inp.take n)

/-- One byte of output, within the bounds of R160. -/
def Infl.emit (z : Infl) (b : Byte) : ZGot Unit :=
  if z.xrb ≠ 0 ∧ 8 * z.xrb * max z.consumed 4096 < z.n + 1 then .bad z inRatio
  else if stageLimit < z.n + 1 then .bad z outSize
  else .ok { z with out := b :: z.out, n := z.n + 1 } ()

def Infl.emitAll : List Byte → Infl → ZGot Unit
  | [], z => .ok z ()
  | b :: bs, z => (z.emit b).bind fun z _ => z.emitAll bs

/-- Copy len bytes from dist bytes back. -/
def Infl.copy (dist : Nat) : Nat → Infl → ZGot Unit
  | 0, z => .ok z ()
  | len + 1, z => (z.emit (z.out.getD (dist - 1) 0)).bind fun z _ => z.copy dist len

/-- A distance beyond the available history faults (R160). -/
def Infl.copyBack (z : Infl) (dist len : Nat) : ZGot Unit :=
  if dist = 0 ∨ min (z.n - z.base) z.window < dist then .bad z inFormat else z.copy dist len

/-! ### Huffman codes of DEFLATE -/

/-- A code: how many codewords have each length from 1, and the symbols in the order of their codewords. -/
structure Huff where
  counts : List Nat
  syms : List Nat
deriving DecidableEq, Repr

def huffOf (lens : List Nat) : Huff where
  counts := (List.range 15).map fun k => (lens.filter (· = k + 1)).length
  syms := (List.range 15).flatMap fun k => (List.range lens.length).filter fun j => lens.getD j 0 = k + 1

/-- What a code leaves unused, in units of the longest codeword: none if it is over-subscribed. -/
def Huff.left (h : Huff) : Option Nat :=
  h.counts.foldl (fun x c => x.bind fun l => if 2 * l < c then none else some (2 * l - c)) (some 1)

/-- A complete code, or one of a single codeword of one bit, or with no codeword at all (log entry 45). -/
def Huff.good (h : Huff) (few : Bool) : Bool :=
  match h.left with
  | none => false
  | some 0 => true
  | some _ => few && (h.counts.drop 1).all (· == 0)

/-- Decode one symbol: over the lengths from the shortest. -/
def Huff.step (syms : List Nat) : List Nat → Nat → Nat → Nat → Infl → ZGot Nat
  | [], _, _, _, z => .bad z inFormat
  | c :: cs, code, first, index, z =>
    z.bit.bind fun z b =>
      let code := code + b
      if code < first + c then .ok z (syms.getD (index + (code - first)) 0)
      else Huff.step syms cs (2 * code) (2 * (first + c)) (index + c) z
def Huff.decode (h : Huff) (z : Infl) : ZGot Nat := Huff.step h.syms h.counts 0 0 0 z

/-! ### Blocks (RFC 1951) -/

def lenBase : List Nat := [3, 4, 5, 6, 7, 8, 9, 10, 11, 13, 15, 17, 19, 23, 27, 31, 35, 43, 51, 59, 67, 83, 99, 115, 131, 163, 195, 227, 258]
def lenExtra : List Nat := [0, 0, 0, 0, 0, 0, 0, 0, 1, 1, 1, 1, 2, 2, 2, 2, 3, 3, 3, 3, 4, 4, 4, 4, 5, 5, 5, 5, 0]
def distBase : List Nat := [1, 2, 3, 4, 5, 7, 9, 13, 17, 25, 33, 49, 65, 97, 129, 193, 257, 385, 513, 769, 1025, 1537, 2049, 3073,
  4097, 6145, 8193, 12289, 16385, 24577]
def distExtra (k : Nat) : Nat := if k < 4 then 0 else k / 2 - 1

/-- The literals and matches of a block up to its end. -/
def Infl.codes (lit dist : Huff) : Nat → Infl → ZGot Unit
  | 0, z => .bad z outSize
  | fuel + 1, z =>
    (lit.decode z).bind fun z x =>
      if x < 256 then (z.emit (BitVec.ofNat 8 x)).bind fun z _ => z.codes lit dist fuel
      else if x = 256 then .ok z ()
      else if 285 < x then .bad z inFormat
      else
        (z.bits (lenExtra.getD (x - 257) 0)).bind fun z e =>
          (dist.decode z).bind fun z d =>
            if 29 < d then .bad z inFormat
            else
              (z.bits (distExtra d)).bind fun z f =>
                (z.copyBack (distBase.getD d 0 + f) (lenBase.getD (x - 257) 0 + e)).bind fun z _ => z.codes lit dist fuel

def fixedLit : Huff := huffOf (List.replicate 144 8 ++ List.replicate 112 9 ++ List.replicate 24 7 ++ List.replicate 8 8)
def fixedDist : Huff := huffOf (List.replicate 32 5)

/-- The code lengths of a dynamic block: n of them, newest first. -/
def Infl.codeLens (h : Huff) (n : Nat) : Nat → List Nat → Infl → ZGot (List Nat)
  | 0, l, z => .ok z l
  | fuel + 1, l, z =>
    if l.length = n then .ok z l
    else
      (h.decode z).bind fun z x =>
        let again := fun (z : Infl) (v base nb : Nat) =>
          (z.bits nb).bind fun z r =>
            if n < l.length + base + r then .bad z inFormat else z.codeLens h n fuel (List.replicate (base + r) v ++ l)
        if x < 16 then z.codeLens h n fuel (x :: l)
        else if x = 16 then (match l with
          | [] => .bad z inFormat
          | v :: _ => again z v 3 2)
        else if x = 17 then again z 0 3 3 else again z 0 11 7

def clOrder : List Nat := [16, 17, 18, 0, 8, 7, 9, 6, 10, 5, 11, 4, 12, 3, 13, 2, 14, 1, 15]

/-- n three-bit lengths. -/
def Infl.threes : Nat → Infl → ZGot (List Nat)
  | 0, z => .ok z []
  | n + 1, z => (z.bits 3).bind fun z x => (z.threes n).bind fun z r => .ok z (x :: r)

def Infl.dynamic (z : Infl) : ZGot (Huff × Huff) :=
  (z.bits 5).bind fun z hl => (z.bits 5).bind fun z hd => (z.bits 4).bind fun z hc =>
    if 29 < hl then .bad z inFormat
    else
      (z.threes (hc + 4)).bind fun z cs =>
        let cl := huffOf ((List.range 19).map fun k => ((clOrder.zip cs).find? fun x => x.1 == k).elim 0 fun x => x.2)
        if !cl.good false then .bad z inFormat
        else
          (z.codeLens cl (hl + 257 + hd + 1) 400 []).bind fun z l =>
            let l := l.reverse
            let lit := huffOf (l.take (hl + 257))
            let dist := huffOf (l.drop (hl + 257))
            if l.getD 256 0 = 0 || !lit.good true || !dist.good true then .bad z inFormat else .ok z (lit, dist)

/-- Blocks up to the final one. -/
def Infl.blocks : Nat → Infl → ZGot Unit
  | 0, z => .bad z inFormat
  | fuel + 1, z =>
    z.bit.bind fun z last => (z.bits 2).bind fun z ty =>
      let body : ZGot Unit :=
        match ty with
        | 0 =>
          (z.align.bytes 4).bind fun z h =>
            let len := ofBytes (h.take 2)
            if ofBytes (h.drop 2) + len ≠ 0xFFFF then .bad z inFormat
            else
              -- a stored block that is cut short gives the bytes that are there
              let have_ := z.inp.take len
              ((({ z with inp := z.inp.drop len, used := z.used + have_.length } : Infl)).emitAll have_).bind fun z _ =>
                if have_.length < len then .bad z inTrunc else .ok z ()
        | 1 => z.codes fixedLit fixedDist 134217728
        | 2 => z.dynamic.bind fun z h => z.codes h.1 h.2 134217728
        | _ => .bad z inFormat
      body.bind fun z _ => if last = 1 then .ok z () else z.blocks fuel

/-- A DEFLATE stream with its own history. -/
def Infl.deflate (z : Infl) (window : Nat) : ZGot Unit :=
  (({ z with base := z.n, window } : Infl).blocks 536870912).bind fun z _ => .ok z.align ()

/-- The output of the current stream. -/
def Infl.streamOut (z : Infl) : List Byte := (z.out.take (z.n - z.base)).reverse

/-! ### zlib and gzip -/

/-- Adler-32 (RFC 1950). -/
def adler32 (bs : List Byte) : Nat :=
  let r := bs.foldl (fun (x : Nat × Nat) b => let a := (x.1 + b.toNat) % 65521; (a, (x.2 + a) % 65521)) (1, 0)
  r.2 * 65536 + r.1

/-- CRC-32 (RFC 1952). -/
def crc32Bit (c : Nat) : Nat := if c % 2 = 1 then (c / 2) ^^^ 0xEDB88320 else c / 2
def crc32Byte (c : Nat) (b : Byte) : Nat := (List.range 8).foldl (fun c _ => crc32Bit c) (c ^^^ b.toNat)
def crc32 (bs : List Byte) : Nat := bs.foldl crc32Byte 0xFFFFFFFF ^^^ 0xFFFFFFFF

/-- The bytes of a magic number: IN_FORMAT at the first that differs, IN_TRUNC where the input ends before. -/
def Infl.magic : List Byte → Infl → ZGot Unit
  | [], z => .ok z ()
  | b :: bs, z =>
    match z.inp with
    | [] => .bad z inTrunc
    | x :: _ => if x = b then (z.bytes 1).bind fun z _ => z.magic bs else .bad z inFormat

def Infl.zlib (z : Infl) : ZGot Unit :=
  (z.bytes 1).bind fun z h =>
    let cmf := (byteAt h 0).toNat
    if cmf % 16 ≠ 8 || 7 < cmf / 16 then .bad z inFormat
    else
    (z.bytes 1).bind fun z h =>
    let flg := (byteAt h 0).toNat
    if (cmf * 256 + flg) % 31 ≠ 0 then .bad z inFormat
    else if flg / 32 % 2 = 1 then .bad z inWindow
    else
      (z.deflate (2 ^ (cmf / 16 + 8))).bind fun z _ =>
        (z.bytes 4).bind fun z a => if ofBytes a.reverse = adler32 z.streamOut then .ok z () else .bad z inCheck

/-- Pass over bytes up to and including a zero: what was passed. -/
def Infl.toZero : Nat → Infl → ZGot (List Byte)
  | 0, z => .bad z inTrunc
  | fuel + 1, z => (z.bytes 1).bind fun z b =>
      if byteAt b 0 = 0 then .ok z b else (z.toZero fuel).bind fun z r => .ok z (b ++ r)

/-- One gzip member. -/
def Infl.member (z : Infl) : ZGot Unit :=
  (z.magic [0x1F, 0x8B, 8]).bind fun z _ => (z.bytes 1).bind fun z f =>
    let flg := (byteAt f 0).toNat
    if 32 ≤ flg then .bad z inFormat
    else
    (z.bytes 6).bind fun z rest =>
      let h := [0x1F, 0x8B, 8] ++ f ++ rest
      let extra : ZGot (List Byte) :=
        if flg / 4 % 2 = 1 then (z.bytes 2).bind fun z n => (z.bytes (ofBytes n)).bind fun z x => .ok z (n ++ x) else .ok z []
      extra.bind fun z x1 =>
        (if flg / 8 % 2 = 1 then z.toZero (z.inp.length + 1) else .ok z []).bind fun z x2 =>
          (if flg / 16 % 2 = 1 then z.toZero (z.inp.length + 1) else .ok z []).bind fun z x3 =>
            let hcrc : ZGot Unit :=
              if flg / 2 % 2 = 1 then
                (z.bytes 2).bind fun z c => if ofBytes c = crc32 (h ++ x1 ++ x2 ++ x3) % 65536 then .ok z () else .bad z inCheck
              else .ok z ()
            hcrc.bind fun z _ => (z.deflate 32768).bind fun z _ => (z.bytes 8).bind fun z t =>
              let o := z.streamOut
              if ofBytes (t.take 4) = crc32 o ∧ ofBytes (t.drop 4) = o.length % 2 ^ 32 then .ok z () else .bad z inCheck

/-- Members one after another. -/
def Infl.gzip : Nat → Infl → ZGot Unit
  | 0, z => .bad z inFormat
  | fuel + 1, z => z.member.bind fun z _ =>
      if z.inp.isEmpty then .ok z ()
      else if z.inp.take 2 == [0x1F, 0x8B] || z.inp == [0x1F] then z.gzip fuel
      else .bad z inFormat

end Sys2Proof.Machine
end

