-- ==== Sys2Proof/Machine/Chars.lean ====
section
/-!
DEFINITION. Stages XFER, CHST and TOKN of a chain (07_intake.md, R159 to R167). A stage takes the bytes that reached it
and whether they are the whole message; where an earlier stage faulted they are a part of it, and what they leave open
stays open (R172).
-/

namespace Sys2Proof.Machine

open Sys2Proof

/-- What a stage gives: its output, and its fault with the offset of it in the stage's input (log entry 69). -/
structure StageOut (α : Type) where
  out : List α
  fault : Option (U16 × Nat)

/-! ### XFER (Table 7-3) -/

/-- The value of a base64 character. -/
def b64Value (b : Byte) : Option Nat :=
  let c := b.toNat
  if 65 ≤ c ∧ c ≤ 90 then some (c - 65)
  else if 97 ≤ c ∧ c ≤ 122 then some (c - 71)
  else if 48 ≤ c ∧ c ≤ 57 then some (c + 4)
  else if c = 43 then some 62
  else if c = 47 then some 63 else none

/-- Decode from offset pos, with the values of the group in hand and the offset of its first character. -/
def base64 (whole : Bool) : List Byte → Nat → List Nat → Nat → List Byte → StageOut Byte
  | bs, pos, grp, at_, out =>
    let finish := fun (_ : Unit) =>
      match grp with
      | [a, b] => ({ out := (BitVec.ofNat 8 (a * 4 + b / 16) :: out).reverse, fault := none } : StageOut Byte)
      | [a, b, c] =>
        { out := (BitVec.ofNat 8 (b % 16 * 16 + c / 4) :: BitVec.ofNat 8 (a * 4 + b / 16) :: out).reverse, fault := none }
      | [_] => { out := out.reverse, fault := some (0x0201, at_) }
      | _ => { out := out.reverse, fault := none }
    match bs with
    | [] => if whole then finish () else { out := out.reverse, fault := none }
    | x :: rest =>
      if x = 61 then finish ()
      else
        match b64Value x with
        | none => base64 whole rest (pos + 1) grp at_ out
        | some v =>
          match grp with
          | [a, b, c] =>
            base64 whole rest (pos + 1) [] 0
              (BitVec.ofNat 8 (c % 4 * 64 + v) :: BitVec.ofNat 8 (b % 16 * 16 + c / 4) :: BitVec.ofNat 8 (a * 4 + b / 16) :: out)
          | [] => base64 whole rest (pos + 1) [v] pos out
          | _ => base64 whole rest (pos + 1) (grp ++ [v]) at_ out

/-- A line break stands here. -/
def atBreak : List Byte → Bool
  | 10 :: _ => true
  | 13 :: 10 :: _ => true
  | _ => false

/-- Blanks before a line break are removed; those that end a part of a message stay open. blanks: those in hand. -/
def qpBlanks (whole : Bool) : List Byte → List Byte → List Byte
  | blanks, [] => if whole then blanks.reverse else []
  | blanks, b :: rest =>
    if b = 32 ∨ b = 9 then qpBlanks whole (b :: blanks) rest
    else if atBreak (b :: rest) then b :: qpBlanks whole [] rest
    else blanks.reverse ++ b :: qpBlanks whole [] rest

def hexValue (b : Byte) : Option Nat :=
  let c := b.toNat
  if 48 ≤ c ∧ c ≤ 57 then some (c - 48)
  else if 65 ≤ c ∧ c ≤ 70 then some (c - 55)
  else if 97 ≤ c ∧ c ≤ 102 then some (c - 87) else none

/-- Quoted-printable, its trailing blanks gone. skip: bytes of an escape already taken. -/
def qpDecode (whole : Bool) : Nat → List Byte → List Byte
  | _, [] => []
  | k + 1, _ :: rest => qpDecode whole k rest
  | 0, b :: rest =>
    if b ≠ 61 then b :: qpDecode whole 0 rest
    else
      match rest with
      | x :: y :: _ =>
        if x = 10 then qpDecode whole 1 rest
        else if x = 13 ∧ y = 10 then qpDecode whole 2 rest
        else
          match hexValue x, hexValue y with
          | some h, some l => BitVec.ofNat 8 (16 * h + l) :: qpDecode whole 2 rest
          | _, _ => b :: qpDecode whole 0 rest
      | [x] => if x = 10 then [] else if whole then b :: qpDecode whole 0 rest else []
      | [] => if whole then [b] else []

def xferStage (mode : Nat) (whole : Bool) (bs : List Byte) : StageOut Byte :=
  match mode with
  | 0 => { out := bs, fault := none }
  | 1 => base64 whole bs 0 [] 0 []
  | _ => { out := qpDecode whole 0 (qpBlanks whole [] bs), fault := none }

/-! ### CHST (R161, Table 7-4) -/

/-- What stands next in a character stream: code points and the bytes they take, an ill-formed or unmapped sequence, or
a sequence that the part at hand leaves open. -/
inductive CharGot where
  | chars (cs : List Nat) (n : Nat)
  | bad (ill : Bool) (n : Nat)
  | unfinished

/-- The ranges of the bytes after a lead byte of well-formed UTF-8, and the bits of the lead byte. -/
def utf8Lead (b : Nat) : Option (List (Nat × Nat) × Nat) :=
  if b < 0x80 then some ([], b)
  else if b < 0xC2 then none
  else if b < 0xE0 then some ([(0x80, 0xBF)], b - 0xC0)
  else if b < 0xF0 then
    some ([(if b = 0xE0 then 0xA0 else 0x80, if b = 0xED then 0x9F else 0xBF), (0x80, 0xBF)], b - 0xE0)
  else if b < 0xF5 then
    some ([(if b = 0xF0 then 0x90 else 0x80, if b = 0xF4 then 0x8F else 0xBF), (0x80, 0xBF), (0x80, 0xBF)], b - 0xF0)
  else none

/-- Continuation bytes: the maximal ill-formed subpart ends before the first byte out of range. -/
def utf8Rest (whole : Bool) : List (Nat × Nat) → Nat → Nat → List Byte → CharGot
  | [], v, n, _ => .chars [v] n
  | _ :: _, _, n, [] => if whole then .bad true n else .unfinished
  | (lo, hi) :: rs, v, n, b :: bs =>
    if lo ≤ b.toNat ∧ b.toNat ≤ hi then utf8Rest whole rs (v * 64 + b.toNat % 64) (n + 1) bs else .bad true n

def utf8Next (whole : Bool) : List Byte → CharGot
  | [] => .unfinished
  | b :: bs =>
    match utf8Lead b.toNat with
    | none => .bad true 1
    | some (rs, v) => utf8Rest whole rs v 1 bs

/-- A UTF-16 unit. -/
def unit16 (big : Bool) (x y : Byte) : Nat := if big then x.toNat * 256 + y.toNat else y.toNat * 256 + x.toNat

def utf16Next (big whole : Bool) : List Byte → CharGot
  | x :: y :: bs =>
    let u := unit16 big x y
    if u < 0xD800 ∨ 0xDFFF < u then .chars [u] 2
    else if 0xDC00 ≤ u then .bad true 2
    else
      match bs with
      | p :: q :: _ =>
        let v := unit16 big p q
        if 0xDC00 ≤ v ∧ v ≤ 0xDFFF then .chars [0x10000 + (u - 0xD800) * 1024 + (v - 0xDC00)] 4 else .bad true 2
      | _ => if whole then .bad true 2 else .unfinished
  | [_] => if whole then .bad true 1 else .unfinished
  | [] => .unfinished

/-- What the decoders of CHARSET 0x20 to 0x24 make of a byte that begins a sequence, where no index is needed (log entry 11):
an ASCII byte, 0x80 of Shift_JIS and GB18030, and the half-width katakana of Shift_JIS and, after 0x8E, EUC-JP. -/
def plainChar (charset : Byte) (bs : List Byte) : Option (Nat × Nat) :=
  let kana := fun (b : Nat) => 0xA1 ≤ b && b ≤ 0xDF
  match bs with
  | [] => none
  | x :: rest =>
    let b := x.toNat
    if b < 0x80 then some (b, 1)
    else if charset = 0x20 && b = 0x80 then some (0x80, 1)
    else if charset = 0x20 && kana b then some (0xFF61 + b - 0xA1, 1)
    else if charset = 0x23 && b = 0x80 then some (0x20AC, 1)
    else if charset = 0x21 && b = 0x8E then
      match rest with
      | y :: _ => if kana y.toNat then some (0xFF61 + y.toNat - 0xA1, 2) else none
      | [] => none
    else none

/-- A character of a charset of Table 7-4, by the CSTAB entries for the single-byte sets. -/
def charNext (charset : Byte) (cstab : List Nat) (big whole : Bool) (bs : List Byte) : CharGot :=
  if charset = 0 then utf8Next whole bs
  else if charset.toNat ≤ 3 then utf16Next big whole bs
  else if charset = 0x10 then
    match bs with
    | [] => .unfinished
    | b :: _ => let c := cstab.getD b.toNat 0xFFFFFFFF; if c = 0xFFFFFFFF then .bad false 1 else .chars [c] 1
  else
    match plainChar charset bs with
    | some c => .chars [c.1] c.2
    | none =>
    let r := Config.whatwgDecode charset bs
    if bs.length < r.2.2 + 1 ∧ !whole then .unfinished
    else if r.1.isEmpty then .bad r.2.1 (r.2.2 + 1) else .chars (r.1.map fun c => c % 0x110000) (r.2.2 + 1)

/-- A Unicode scalar value. -/
def isScalar (c : Nat) : Bool := c < 0xD800 || (0xDFFF < c && c < 0x110000)

/-- Shortest-form UTF-8 of a scalar value. -/
def utf8Of (c : Nat) : List Byte :=
  let t := fun (x : Nat) => BitVec.ofNat 8 (0x80 + x % 64)
  if c < 0x80 then [BitVec.ofNat 8 c]
  else if c < 0x800 then [BitVec.ofNat 8 (0xC0 + c / 64), t c]
  else if c < 0x10000 then [BitVec.ofNat 8 (0xE0 + c / 4096), t (c / 64), t c]
  else [BitVec.ofNat 8 (0xF0 + c / 262144), t (c / 4096), t (c / 64), t c]

/-- The characters of a stream from offset pos, newest first, n bytes of output so far. -/
def decodeChars (charset : Byte) (cstab : List Nat) (big whole strict : Bool) :
    Nat → List Byte → Nat → Nat → List Nat → StageOut Nat
  | 0, _, _, _, out => { out := out.reverse, fault := none }
  | _ + 1, [], _, _, out => { out := out.reverse, fault := none }
  | fuel + 1, bs, pos, n, out =>
    let take := fun (cs : List Nat) (k : Nat) =>
      let cs := cs.filter isScalar
      -- no leading U+FEFF
      let cs := if out.isEmpty then cs.dropWhile fun c => c == 0xFEFF else cs
      let m := n + sumBy (fun c => (utf8Of c).length) cs
      if stageLimit < m then ({ out := out.reverse, fault := some (outSize, pos) } : StageOut Nat)
      else decodeChars charset cstab big whole strict fuel (bs.drop (max 1 k)) (pos + max 1 k) m (cs.reverse ++ out)
    match charNext charset cstab big whole bs with
    | .unfinished => { out := out.reverse, fault := none }
    | .chars cs k => take cs k
    | .bad ill k => if strict then { out := out.reverse, fault := some (if ill then 0x0301 else 0x0302, pos) } else take [0xFFFD] k

/-- Stage CHST: the characters that it gives. -/
def chstStage (charset : Byte) (strict : Bool) (cstab : List Nat) (whole : Bool) (bs : List Byte) : StageOut Nat :=
  let bom := if charset = 1 then bs.take 2 else []
  let little := charset = 2 || bom == [0xFF, 0xFE]
  decodeChars charset cstab (!little) whole strict (bs.length + 1) bs 0 0 []

/-! ### Pieces (R163, R167) -/

/-- Characters of the header block: up to and including the first CR LF CR LF or LF LF. -/
def headerLen : List Nat → Nat → Nat
  | [], n => n
  | 10 :: 10 :: _, n => n + 2
  | 13 :: 10 :: 13 :: 10 :: _, n => n + 4
  | _ :: cs, n => headerLen cs (n + 1)

/-- The characters with the property White_Space. -/
def isWhite (c : Nat) : Bool :=
  (9 ≤ c && c ≤ 13) || (0x2000 ≤ c && c ≤ 0x200A) || [0x20, 0x85, 0xA0, 0x1680, 0x2028, 0x2029, 0x202F, 0x205F, 0x3000].contains c
/-- A letter or mark of the first 256 characters, and a number of them. -/
def isLatin (c : Nat) : Bool :=
  (65 ≤ c && c ≤ 90) || (97 ≤ c && c ≤ 122) || c == 0xAA || c == 0xB5 || c == 0xBA || (0xC0 ≤ c && c ≤ 0xFF && c ≠ 0xD7 && c ≠ 0xF7)
def isLatinNumber (c : Nat) : Bool := (48 ≤ c && c ≤ 57) || c == 0xB2 || c == 0xB3 || c == 0xB9 || (0xBC ≤ c && c ≤ 0xBE)

/-- The class of a character (R163): white space, and the first 256 characters, by the properties that they have; of the
others the table is free (log entry 11). -/
def charClass (c : Nat) : BitVec 2 :=
  if isWhite c then 2
  else if c < 256 then (if isLatin c then 0 else if isLatinNumber c then 1 else 3)
  else
    let k := Config.unicodeClass c
    if k = 2 then 3 else k

/-- Where a piece may not go on: before character c of class k, after a piece that holds so many bytes. -/
structure PieceState where
  done : List (List Nat × Bool)  -- pieces, newest first; whether the piece is of the header block
  cur : List Nat                 -- characters of the open piece, newest first
  size : Nat
  cls : BitVec 2
  head : Bool
deriving DecidableEq, Repr

def PieceState.close (p : PieceState) : PieceState :=
  if p.cur.isEmpty then p else { p with done := (p.cur.reverse, p.head) :: p.done, cur := [], size := 0 }
def PieceState.add (p : PieceState) (c : Nat) (k : BitVec 2) (head : Bool) : PieceState :=
  { p with cur := c :: p.cur, size := p.size + (utf8Of c).length, cls := k, head }

/-- One more character, at most 256 bytes to a piece. A single U+0020 that directly precedes a run of letters goes with
it. -/
def PieceState.step (pretok : Bool) (p : PieceState) (c : Nat) (head : Bool) : PieceState :=
  let k := if pretok then charClass c else 0
  let p := if p.head ≠ head then p.close else p
  let p :=
    if p.cur.isEmpty ∨ !pretok ∨ k = p.cls then p
    else if k = 0 ∧ p.cls = 2 ∧ p.cur.head? = some 0x20 then
      let rest : PieceState := { p with cur := p.cur.drop 1 }
      { rest.close with cur := [0x20], size := 1 }
    else p.close
  let p := if 256 < p.size + (utf8Of c).length then p.close else p
  p.add c k head

/-- Split characters into pieces; the last is open unless the message ends there, or it can take no more. -/
def pieces (pretok hsplit whole : Bool) (cs : List Nat) : List (List Nat × Bool) :=
  let h := if hsplit then headerLen cs 0 else 0
  let p := (cs.zip (List.range cs.length)).foldl (fun (p : PieceState) x => p.step pretok x.1 (hsplit && x.2 < h))
    { done := [], cur := [], size := 0, cls := 0, head := false }
  let full := p.size = 256 || (p.head && hsplit && cs.length = h && endsHeader cs)
  (if whole || full then p.close else p).done.reverse
where
  /-- the text ends with an empty line -/
  endsHeader (cs : List Nat) : Bool := let l := cs.reverse; l.take 2 == [10, 10] || l.take 4 == [10, 13, 10, 13]

/-! ### Byte-level BPE (R163, R164) -/

/-- The merge table as its words, two to a slot, and k. -/
structure Merges where
  words : List Word
  k : Nat

/-- MergeLookup from a slot, with so many slots left: a merge, none, or a lookup that passes 64 slots. -/
def Merges.probe (m : Merges) (x y : Nat) : Nat → Nat → Except Unit (Option (Nat × Nat))
  | 0, _ => .error ()
  | left + 1, h =>
    let w := (m.words.getD (2 * h) 0).toNat
    if !bit w 63 then .ok none
    else if Sys2Proof.Machine.bits w 39 20 = x ∧ Sys2Proof.Machine.bits w 19 0 = y then
      let r := (m.words.getD (2 * h + 1) 0).toNat
      .ok (some (Sys2Proof.Machine.bits r 51 32, Sys2Proof.Machine.bits r 19 0))
    else m.probe x y left ((h + 1) % 2 ^ m.k)
def Merges.lookup (m : Merges) (x y : Nat) : Except Unit (Option (Nat × Nat)) :=
  m.probe x y 64 ((x * 2 ^ 20 + y) * 0x9E3779B97F4A7C15 % 2 ^ 64 / 2 ^ (64 - m.k))

/-- The best merge of a row of ids: the least rank, the leftmost among equals. -/
def bestMerge (m : Merges) : Nat → List Nat → Option (Nat × Nat × Nat) → Except Unit (Option (Nat × Nat × Nat))
  | i, x :: y :: rest, best =>
    match m.lookup x y with
    | .error e => .error e
    | .ok r =>
      let best := match r, best with
        | some (rank, res), some b => if rank < b.2.1 then some (i, rank, res) else some b
        | some (rank, res), none => some (i, rank, res)
        | none, b => b
      bestMerge m (i + 1) (y :: rest) best
  | _, _, best => .ok best

/-- Merge until no pair has a merge; a fault code where a lookup or an id faults. -/
def bpe (m : Merges) (nv : Nat) : Nat → List Nat → Except U16 (List Nat)
  | 0, ids => .ok ids
  | fuel + 1, ids =>
    match bestMerge m 0 ids none with
    | .error _ => .error 0x0402
    | .ok none => .ok ids
    | .ok (some (i, _, res)) =>
      if nv ≤ res then .error 0x0401 else bpe m nv fuel (ids.take i ++ res :: ids.drop (i + 2))

/-- The ids of a piece. -/
def encodePiece (vocab : List Nat) (nv : Nat) (m : Merges) (cs : List Nat) : Except U16 (List Nat) :=
  let ids := (cs.flatMap utf8Of).map fun b => vocab.getD b.toNat 0
  if ids.any fun i => nv ≤ i then .error 0x0401 else bpe m nv ids.length ids

/-- Token words of the pieces in order, up to a fault, which is at the first byte of its piece. -/
def encodePieces (vocab : List Nat) (nv : Nat) (m : Merges) (tag htag : Nat) :
    List (List Nat × Bool) → Nat → Nat → List Word → StageOut Word
  | [], _, _, out => { out := out.reverse, fault := none }
  | (cs, head) :: rest, pos, n, out =>
    match encodePiece vocab nv m cs with
    | .error c => { out := out.reverse, fault := some (c, pos) }
    | .ok ids =>
      if stageLimit < 4 * (n + ids.length) then { out := out.reverse, fault := some (outSize, pos) }
      else
        let ws := ids.map fun i => BitVec.ofNat 64 ((if head then htag else tag) * 2 ^ 20 + i)
        encodePieces vocab nv m tag htag rest (pos + sumBy (fun c => (utf8Of c).length) cs) (n + ids.length) (ws.reverse ++ out)

end Sys2Proof.Machine
end

