-- ==== Sys2Proof/Machine/Rings.lean ====
section
/-!
DEFINITION. Scratchpad rings (18_isa_tasks_system.md, R451 to R457): acquire, release, transfers between the stages of a
pipeline, and PUT.
-/

namespace Sys2Proof.Machine

open Sys2Proof

/-! ### Ring ends -/

/-- The end of ring k of a task on a core. -/
def Core.end_ (c : Core) (t : Word) (k : Nat) : Option RingEnd := c.rings.find? fun e => e.task == t && e.k == k
def State.putEnd (s : State) (f : Nat) (e : RingEnd) : State :=
  let c := s.core f
  s.setCore f { c with rings := c.rings.map fun x => if x.task = e.task ∧ x.k = e.k then e else x }
def RingEnd.at_ (e : RingEnd) (i : Nat) : SlotState := e.slots.getD i .free
def RingEnd.set_ (e : RingEnd) (i : Nat) (v : SlotState) : RingEnd := { e with slots := e.slots.set i v }
def RingEnd.off (e : RingEnd) (i : Nat) : Nat := e.base + i * e.size
def RingEnd.free (e : RingEnd) : Nat := (e.slots.filter (· == .free)).length

/-- The bank of a core that holds, or last held, a step of a task. -/
def State.bankOfTask (s : State) (f : Nat) (t : Word) : Option (BitVec 1) :=
  ([0, 1] : List (BitVec 1)).find? fun b =>
    let k := s.bank f b
    k.owner.1 == t || k.run.any fun (r : StepRun) => r.task == t

/-- The end of ring k of the issuing step. -/
def State.myEnd (s : State) (k : BitVec 3) : Option RingEnd := (s.core s.coreNo).end_ s.taskId k.toNat

/-! ### RACQ (R453) -/

def execRacqP (g : BitVec 4) (a k : BitVec 3) (s : State) : Host.Outcome State Fault Refusal :=
  control { size := 1, compute := true } g {} s fun s =>
    match s.myEnd k with
    | none => .trap (trapOf Cause.illegalOp)
    | some e =>
      if e.kind = .consumer then .trap (trapOf Cause.illegalOp)
      else if s.scrSize < e.off e.pptr + e.size then .trap (trapOf Cause.scratchBound)
      else if e.at_ e.pptr ≠ .free then .stall s
      else
        let i := e.pptr
        let e' := { e.set_ i .prod with pptr := (i + 1) % max 1 e.slots.length, heldP := e.heldP ++ [i], outside := e.outside.filter (· ≠ i) }
        .done ((s.putEnd s.coreNo e').setA a (BitVec.ofNat 32 (e.off i)))

def execRacqC (g : BitVec 4) (a k : BitVec 3) (s : State) : Host.Outcome State Fault Refusal :=
  control { size := 1, compute := true } g {} s fun s =>
    match s.myEnd k with
    | none => .trap (trapOf Cause.illegalOp)
    | some e =>
      if e.kind = .producer then .trap (trapOf Cause.illegalOp)
      else if s.scrSize < e.off e.cptr + e.size then .trap (trapOf Cause.scratchBound)
      else if e.at_ e.cptr ≠ .full then .stall s
      else
        let i := e.cptr
        let e' := { e.set_ i .cons with cptr := (i + 1) % max 1 e.slots.length, heldC := e.heldC ++ [i] }
        .done ((s.putEnd s.coreNo e').setA a (BitVec.ofNat 32 (e.off i)))

/-! ### RREL (R453, R222) -/

/-- The scratchpad bytes that a queued command writes, as (first, length): the image of an LDT, a status word, or any
byte for a scatter. -/
def State.cmdWrites (s : State) (c : Cmd) : List (Nat × Nat) :=
  match c.instr with
  | .ldt _ _ _ q _ _ _ =>
    if q = 1 then []
    else
      let d := c.desc
      let pitch := match s.known c.handle with
        | some e => imgPitch (dCols d) (eWidth e) (imgScales e (dCols d))
        | none => 576
      [(c.off, dRows d * pitch)]
  | .vscat .. => [(0, 2 ^ 32)]
  | .kvapp .. | .retspan .. | .kvpromo .. | .intk .. | .xstep .. => [(c.off, 8)]
  | .attn .. => [(c.off, 64)]
  | _ => []

/-- Commands of the issuing step that write a slot and have not retired. -/
def State.slotWriters (s : State) (e : RingEnd) (i : Nat) : List Nat :=
  let k := s.curBank
  let run := (k.run.map fun (r : StepRun) => r.id).getD 0
  (k.cmds.filter fun c => c.run == run && (s.cmdWrites c).any fun w => w.1 < e.off i + e.size && e.off i < w.1 + w.2).map fun c => c.ser

/-- A released slot whose writing commands have retired is FULL, or waits for its transfer. -/
def RingEnd.filled (e : RingEnd) (i : Nat) : RingEnd :=
  if e.kind = .producer || e.puts.any fun p => p.slot == i then { e with xfer := e.xfer ++ [i] } else e.set_ i .full

/-- Release the oldest PROD slot: it waits for the commands that write it. Releases finish in order. -/
def State.release (s : State) (e : RingEnd) (i : Nat) (rest : List Nat) : State :=
  let ws := s.slotWriters e i
  let e := { e with heldP := rest }
  s.putEnd s.coreNo (if ws.isEmpty && (e.pend.isEmpty || e.kind = .loc) then e.filled i else { e with pend := e.pend ++ [(i, ws)] })

def execRrelP (g : BitVec 4) (k : BitVec 3) (s : State) : Host.Outcome State Fault Refusal :=
  control { size := 1, compute := true } g {} s fun s =>
    match s.myEnd k with
    | none => .trap (trapOf Cause.illegalOp)
    | some e =>
      match e.heldP with
      | [] => .trap (trapOf Cause.illegalOp)
      | i :: rest => if e.kind = .consumer then .trap (trapOf Cause.illegalOp) else .done (s.release e i rest)

def execRrelC (g : BitVec 4) (k : BitVec 3) (s : State) : Host.Outcome State Fault Refusal :=
  control { size := 1, compute := true } g {} s fun s =>
    match s.myEnd k with
    | none => .trap (trapOf Cause.illegalOp)
    | some e =>
      match e.heldC with
      | [] => .trap (trapOf Cause.illegalOp)
      | i :: rest =>
        if e.kind = .producer then .trap (trapOf Cause.illegalOp)
        else
          let st : SlotState := if e.outside.contains i && !s.committed then .retiring else .free
          .done (s.putEnd s.coreNo { e.set_ i st with heldC := rest, outside := if st = .free then e.outside.filter (· ≠ i) else e.outside })

/-- A command of a core has retired: releases that waited for it go on. -/
def RingEnd.retired (ser : Nat) (e : RingEnd) : RingEnd :=
  let e := { e with pend := e.pend.map fun (x : Nat × List Nat) => (x.1, x.2.filter (· ≠ ser)) }
  e.pend.foldl (fun (e : RingEnd) (x : Nat × List Nat) =>
    if x.2.isEmpty && (e.kind = .loc || e.pend.head? == some x) then
      ({ e with pend := e.pend.filter fun y => y.1 ≠ x.1 } : RingEnd).filled x.1
    else e) e
def State.ringRetired (s : State) (f ser : Nat) : State :=
  let c := s.core f
  s.setCore f { c with rings := c.rings.map (RingEnd.retired ser) }

/-! ### TOKQ and PUT (R456, R457) -/

def execTokq (g : BitVec 4) (x : BitVec 5) (s : State) : Host.Outcome State Fault Refusal :=
  control { size := 1, compute := true } g { s := [x] } s fun s =>
    let k := s.curBank
    .done (s.setS x (BitVec.ofNat 64 (sumBy (fun n => k.token n * 16 ^ n) (List.range 10))))

def execPut (g : BitVec 4) (x y : BitVec 5) (a k : BitVec 3) (s : State) : Host.Outcome State Fault Refusal :=
  control { size := 2, compute := true } g { s := [x, y] } s fun s =>
    let off := (s.getA a).toNat
    match s.scrCause off 128 64 with
    | some c => .trap (trapOf c)
    | none =>
      match s.myEnd k with
      | none => .trap (trapOf Cause.illegalOp)
      | some e =>
        match e.heldP with
        | [] => .trap (trapOf Cause.illegalOp)
        | i :: rest =>
          if e.kind = .consumer then .trap (trapOf Cause.illegalOp)
          else
            let bs := s.scrRead off 128
            let left := ((List.range 16).filter fun n => (s.getS y).getLsbD n).map fun n => (n, wordAt bs n)
            let p : PutRun := { slot := i, left, skip := 0, who := s.turn, dst := x }
            .done ((s.release { e with puts := e.puts ++ [p] } i rest).awaitS x)

/-! ### Transfers (R454, R456) -/

/-- A consumer entry (Table 7-7): the task that it names, and its ring. -/
def entryValid (w : Word) : Bool := bit w.toNat 31
def entryTask (w : Word) : Word := BitVec.ofNat 64 (putBits w.toNat 31 16 0)
def entryRing (w : Word) : Nat := bits w.toNat 18 16

/-- The ends of ring k of a task on the cores that p names, most FREE slots first, then the lowest core. -/
def State.bestEnd (s : State) (t : Word) (k : Nat) (p : Nat → Bool) : Option (Nat × RingEnd) :=
  let ends := s.cores.filterMap fun c => if p c.1 then (c.2.end_ t k).map fun e => (c.1, e) else none
  (leastBy (fun x => (1024 - x.2.free) * 1024 + x.1) ends).filter fun x => x.2.at_ x.2.pptr = .free

/-- Write bytes into the next slot of an end, which is then FULL. -/
def State.fillSlot (s : State) (f : Nat) (e : RingEnd) (bs : List Byte) : State :=
  match s.bankOfTask f e.task with
  | none => s
  | some b =>
    let k := s.bank f b
    let i := e.pptr
    let s := s.setBank f b { k with scratch := mwrite k.scratch (e.off i) bs }
    s.putEnd f { e.set_ i .full with pptr := (i + 1) % max 1 e.slots.length, outside := i :: e.outside.filter (· ≠ i) }

/-- The bytes of a slot. -/
def State.slotBytes (s : State) (f : Nat) (e : RingEnd) (i : Nat) : List Byte :=
  match s.bankOfTask f e.task with
  | some b => mread (s.bank f b).scratch (e.off i) e.size
  | none => []

/-- A slot whose bytes have gone is FREE. -/
def State.slotSent (s : State) (f : Nat) (e : RingEnd) (i : Nat) : State :=
  s.putEnd f { e.set_ i .free with xfer := e.xfer.drop 1, puts := e.puts.filter fun p => p.slot ≠ i }

/-- The step that released a slot has issued COMMIT or ended. -/
def State.endCommitted (s : State) (f : Nat) (t : Word) : Bool :=
  ([0, 1] : List (BitVec 1)).all fun b => (s.bank f b).run.all fun (r : StepRun) => r.task ≠ t || r.committed || r.ended

/-- Whether an entry of a PUT is skipped (R456). -/
def State.putSkips (s : State) (world : Nat) (size : Nat) (w : Word) : Bool :=
  !entryValid w || tidPkg (entryTask w) ≠ s.pkgNo ||
    match s.task? (entryTask w) with
    | none => true
    | some t => t.st = .ended || lrWorld t.lr ≠ world ||
        match s.ringEnd (entryTask w) t (entryRing w) with
        | none => true
        | some e => e.size < size

/-- The end of a ring of a task, on a core that runs a step of it, that takes the next slot from outside. -/
def State.taker (s : State) (t : Word) (k : Nat) : Option (Nat × RingEnd) :=
  s.bestEnd t k fun f => ([0, 1] : List (BitVec 1)).any fun b =>
    let x := s.bank f b
    (x.st == .running || x.st == .parked || x.st == .draining || x.st == .resumable)
      && x.run.any fun (r : StepRun) => r.task == t && !r.ended

/-- Deliver a PUT to the entries that have room, or skip them; the first that must wait stops nothing else. -/
def State.putDeliver (s : State) (world : Nat) (bs : List Byte) : List (Nat × Word) → Nat → State × List (Nat × Word) × Nat
  | [], skip => (s, [], skip)
  | (n, w) :: rest, skip =>
    if s.putSkips world bs.length w then s.putDeliver world bs rest (skip + 2 ^ n)
    else
      match s.taker (entryTask w) (entryRing w) with
      | none =>
        let r := s.putDeliver world bs rest skip
        (r.1, (n, w) :: r.2.1, r.2.2)
      | some x => (s.fillSlot x.1 x.2 bs).putDeliver world bs rest skip

/-- Deliver a result to a context of a task that still runs. -/
def State.landAt (s : State) (who : Agent) (t : Word) (f : Ctx → Ctx) : State :=
  match who with
  | .core c x =>
    match ([0, 1] : List (BitVec 1)).find? fun b => (s.bank c.toNat b).run.any fun (r : StepRun) => r.task == t && !r.ended with
    | some b => let k := s.bank c.toNat b; s.setBank c.toNat b (k.setCtx x (f (k.ctx x)))
    | none => s
  | .sys _ => s

/-- RING_TRANSFER: the oldest released slot of a ring moves on. -/
def execRingTransfer (core : BitVec 9) (k : BitVec 3) (s : State) : Host.Outcome State Fault Refusal :=
  let f := core.toNat
  let e? := (s.core f).rings.find? fun e => e.k == k.toNat && !e.xfer.isEmpty && s.endCommitted f e.task
  match e? with
  | none => .next s
  | some e =>
    match e.xfer with
    | [] => .next s
    | i :: _ =>
      let bs := s.slotBytes f e i
      match e.puts.find? fun p => p.slot == i with
      | some p =>
        let world := ((s.task? e.task).map fun t => lrWorld t.lr).getD 0
        let r := s.putDeliver world bs p.left p.skip
        let e := ((r.1.core f).end_ e.task e.k).getD e
        if r.2.1.isEmpty then
          .next ((r.1.slotSent f e i).landAt p.who e.task (Ctx.landS p.dst (BitVec.ofNat 64 r.2.2)))
        else
          let puts := e.puts.map fun q => if q.slot = i then { q with left := r.2.1, skip := r.2.2 } else q
          .next (r.1.putEnd f { e with puts })
      | none =>
        match (s.task? e.task).bind fun t => s.pipeOf e.task t with
        | none => .next s
        | some (p, j) =>
          match p.rings.find? fun r => r.prod == j && r.pring == e.k with
          | none => .next s
          | some r =>
            match p.stages[r.cons]? with
            | none => .next s
            | some st =>
              match tfind (s.unit (tidUnit e.task)).tasks st.index with
              | none => .next s
              | some ct =>
                let t := taskIdOf ct.seq.toNat s.pkgNo (tidUnit e.task) st.index
                match s.bestEnd t r.cring fun f => p.held.any fun x => x.1 == f && x.2 == r.cons with
                | none => .next s
                | some x => .next ((s.fillSlot x.1 x.2 bs).slotSent f e i)

/-! ### Occupancy (R140) -/

/-- n nanoseconds of a ring: the full slots of its consumer ends, and all their slots. -/
def State.ringOcc (s : State) (u : Nat) (p : PipeInfo) (n : Nat) (r : RingDecl) : RingDecl :=
  let idx := ((p.stages[r.cons]?).map fun st => st.index).getD 65536
  let ends := s.cores.flatMap fun c => c.2.rings.filter fun e => e.k == r.cring && e.kind == .consumer && tidUnit e.task == u && tidIndex e.task == idx
  { r with occ := r.occ + n * sumBy (fun e => (e.slots.filter (· == .full)).length) ends
           samples := r.samples + n * sumBy (fun e => e.slots.length) ends }

/-- n nanoseconds pass; the scheduler units watch the rings of the pipelines that run. -/
def State.pass (s : State) (n : Nat) : State :=
  let units := s.sched.units.map fun u => (u.1, ({ u.2 with
    tasks := u.2.tasks.map fun t => (t.1, { t.2 with pipe := t.2.pipe.map fun p =>
      if p.started then { p with rings := p.rings.map (s.ringOcc u.1 p n) } else p }) } : SchedUnit))
  ({ s with sched := { s.sched with units } } : State).elapse n

end Sys2Proof.Machine
end

