-- ==== Sys2Proof/Machine/Zstd.lean ====
section
/-!
DEFINITION. Stage INFL of a chain: zstd frames (RFC 8878; 07_intake.md, R159, R160).
-/

namespace Sys2Proof.Machine

open Sys2Proof

/-! ### Bit streams -/

/-- A stream read from its end: its bytes as a number, and the bits that are left, below 0 once it is passed. -/
structure BackBits where
  v : Nat
  left : Int
deriving DecidableEq, Repr

/-- The stream of some bytes: its last byte holds the mark that ends the padding. -/
def BackBits.of (bs : List Byte) : Option BackBits :=
  match bs.getLast? with
  | none => none
  | some b => if b = 0 then none else some { v := ofBytes bs, left := 8 * (bs.length - 1 : Nat) + Nat.log2 b.toNat }

def BackBits.peek (x : BackBits) (n : Nat) : Nat :=
  let at_ := x.left - n
  if 0 ≤ at_ then x.v / 2 ^ at_.toNat % 2 ^ n else x.v * 2 ^ (-at_).toNat % 2 ^ n
def BackBits.drop (x : BackBits) (n : Nat) : BackBits := { x with left := x.left - n }
def BackBits.read (x : BackBits) (n : Nat) : Nat × BackBits := (x.peek n, x.drop n)

/-! ### FSE tables -/

/-- A table: its accuracy, and for each state its symbol, the bits of the next state and their base. -/
structure Fse where
  al : Nat
  cells : List (Nat × Nat × Nat)
deriving DecidableEq, Repr

def Fse.cell (t : Fse) (st : Nat) : Nat × Nat × Nat := t.cells.getD st (0, 0, 0)
def Fse.sym (t : Fse) (st : Nat) : Nat := (t.cell st).1
def Fse.next (t : Fse) (st : Nat) (x : BackBits) : Nat × BackBits :=
  let c := t.cell st
  let r := x.read c.2.1
  (c.2.2 + r.1, r.2)

/-- The next place of a symbol below the cells of the rare ones. -/
def fsePlace (step size high : Nat) : Nat → Nat → Nat
  | 0, pos => pos
  | fuel + 1, pos =>
    let p := (pos + step) % size
    if high ≤ p then fsePlace step size high fuel p else p

/-- The table of a distribution: each symbol with its count, -1 for a rare one. -/
def fseBuild (al : Nat) (norm : List Int) : Fse :=
  let size := 2 ^ al
  let rare := (List.range norm.length).filter fun s => norm.getD s 0 = -1
  let high := size - rare.length
  let top := rare.reverse
  let step := size / 2 + size / 8 + 3
  let common := (List.range norm.length).flatMap fun s => List.replicate (norm.getD s 0).toNat s
  let spread := common.foldl (fun (x : Nat × List Nat) s => (fsePlace step size high size x.1, x.2.set x.1 s)) (0, List.replicate high 0)
  let syms := spread.2 ++ top
  let start := norm.map fun c => if c = -1 then 1 else c.toNat
  let cells := syms.foldl (fun (x : List Nat × List (Nat × Nat × Nat)) s =>
    let d := x.1.getD s 1
    let nb := al - Nat.log2 d
    (x.1.set s (d + 1), (s, nb, d * 2 ^ nb - size) :: x.2)) (start, [])
  { al, cells := cells.2.reverse }

def fseOne (s : Nat) : Fse := { al := 0, cells := [(s, 0, 0)] }

/-- Bits [at_, at_ + n) of some bytes, lowest first. -/
def fwdBits (bs : List Byte) (at_ n : Nat) : Nat := ofBytes ((bs.drop (at_ / 8)).take (n / 8 + 2)) / 2 ^ (at_ % 8) % 2 ^ n

/-- Runs of symbols of count 0. -/
def fseZeros (bs : List Byte) : Nat → Nat → List Int → Nat × List Int
  | 0, p, l => (p, l)
  | fuel + 1, p, l =>
    let r := fwdBits bs p 2
    let l := l ++ List.replicate r 0
    if r = 3 then fseZeros bs fuel (p + 2) l else (p + 2, l)

/-- The counts of a table description, from bit p, with remaining cells to give. -/
def fseCounts (bs : List Byte) (limit : Nat) : Nat → Nat → Nat → List Int → Option (Nat × List Int)
  | 0, _, _, _ => none
  | fuel + 1, p, remaining, l =>
    if remaining = 0 then some (p, l)
    else if limit ≤ l.length ∨ 8 * bs.length < p then none
    else
      let nb := Nat.log2 (remaining + 1) + 1
      let v := fwdBits bs p nb
      let low := v % 2 ^ (nb - 1)
      let thr := 2 ^ nb - 1 - (remaining + 1)
      let short := low < thr
      let v := if short then low else if 2 ^ (nb - 1) ≤ v then v - thr else v
      let p := if short then p + nb - 1 else p + nb
      let c : Int := (v : Int) - 1
      if remaining < c.natAbs then none
      else if c = 0 then
        let z := fseZeros bs 256 p (l ++ [0])
        fseCounts bs limit fuel z.1 remaining z.2
      else fseCounts bs limit fuel p (remaining - c.natAbs) (l ++ [c])

/-- A table description (RFC 8878, 4.1.1): the table and the bytes it takes. -/
def fseRead (bs : List Byte) (maxAl limit : Nat) : Option (Fse × Nat) :=
  let al := fwdBits bs 0 4 + 5
  if bs.isEmpty || maxAl < al then none
  else
    match fseCounts bs limit 600 4 (2 ^ al) [] with
    | none => none
    | some (p, l) => if limit < l.length || 8 * bs.length < p then none else some (fseBuild al l, ceilDiv p 8)

/-! ### Huffman codes of literals (RFC 8878, 4.2) -/

/-- The longest code, and the symbols with their weights in the order of their codes. -/
structure ZHuff where
  bits : Nat
  syms : List (Nat × Nat)
deriving DecidableEq, Repr

/-- The code of listed weights; the last weight completes them to a power of 2. -/
def zhuffOf (ws : List Nat) : Option ZHuff :=
  let sum := sumBy (fun w => if w = 0 then 0 else 2 ^ (w - 1)) ws
  if sum = 0 then none
  else
    let mb := Nat.log2 sum + 1
    let left := 2 ^ mb - sum
    if 11 < mb ∨ left ≠ 2 ^ Nat.log2 left ∨ 255 < ws.length ∨ ws.any (fun w => mb < w) then none
    else
      let all := ws ++ [Nat.log2 left + 1]
      some { bits := mb, syms := (List.range mb).flatMap fun k =>
        ((List.range all.length).filter fun s => all.getD s 0 = k + 1).map fun s => (s, k + 1) }

/-- Two states in turn until the stream is used up. -/
def fseWeights (t : Fse) : Nat → Nat → Nat → BackBits → List Nat → Option (List Nat)
  | 0, _, _, _, _ => none
  | fuel + 1, a, b, x, l =>
    let r := t.next a x
    let l := t.sym a :: l
    if r.2.left < 0 then some (t.sym b :: l).reverse else fseWeights t fuel b r.1 r.2 l

/-- A tree description: the code and the bytes it takes. -/
def zhuffRead (bs : List Byte) : Option (ZHuff × Nat) :=
  match bs with
  | [] => none
  | h :: rest =>
    let n := h.toNat
    if 128 ≤ n then
      let k := n - 127
      let w := (List.range k).map fun j => let b := (byteAt rest (j / 2)).toNat; if j % 2 = 0 then b / 16 else b % 16
      if rest.length < ceilDiv k 2 then none else (zhuffOf w).map fun t => (t, 1 + ceilDiv k 2)
    else if rest.length < n then none
    else
      let body := rest.take n
      (fseRead body 6 256).bind fun t => (BackBits.of (body.drop t.2)).bind fun x =>
        let a := x.read t.1.al
        let b := a.2.read t.1.al
        if b.2.left < 0 then none
        else (fseWeights t.1 256 a.1 b.1 b.2 []).bind fun w => (zhuffOf w).map fun t => (t, 1 + n)

/-- The symbol of a code value of the longest length, and its weight. -/
def zhuffFind : List (Nat × Nat) → Nat → Nat × Nat
  | [], _ => (0, 0)
  | (s, w) :: rest, v => if v < 2 ^ (w - 1) then (s, w) else zhuffFind rest (v - 2 ^ (w - 1))

/-- n literals of a stream, which they use up. -/
def zhuffStream (t : ZHuff) : Nat → BackBits → List Byte → Option (List Byte)
  | 0, x, l => if x.left = 0 then some l.reverse else none
  | n + 1, x, l =>
    let r := zhuffFind t.syms (x.peek t.bits)
    if r.2 = 0 ∨ x.left ≤ 0 then none else zhuffStream t n (x.drop (t.bits + 1 - r.2)) (BitVec.ofNat 8 r.1 :: l)

def zhuffOne (t : ZHuff) (n : Nat) (bs : List Byte) : Option (List Byte) := (BackBits.of bs).bind fun x => zhuffStream t n x []

/-! ### Blocks -/

/-- What one frame keeps from block to block. -/
structure ZFrame where
  huf : Option ZHuff
  ll : Option Fse
  off : Option Fse
  ml : Option Fse
  r1 : Nat
  r2 : Nat
  r3 : Nat
deriving DecidableEq, Repr

def ZFrame.first : ZFrame := { huf := none, ll := none, off := none, ml := none, r1 := 1, r2 := 4, r3 := 8 }

/-- The literals of a block, and what follows them. -/
def ZFrame.literals (f : ZFrame) (bs : List Byte) : Option (List Byte × ZFrame × List Byte) :=
  match bs with
  | [] => none
  | b0 :: _ =>
    let ty := b0.toNat % 4
    let sf := b0.toNat / 4 % 4
    if ty < 2 then
      let hl := if sf % 2 = 0 then 1 else if sf = 1 then 2 else 3
      let v := ofBytes (bs.take hl)
      let n := if hl = 1 then v / 8 else v / 16
      let rest := bs.drop hl
      if bs.length < hl ∨ 131072 < n then none
      else if ty = 0 then (if rest.length < n then none else some (rest.take n, f, rest.drop n))
      else
        match rest with
        | [] => none
        | b :: tl => some (List.replicate n b, f, tl)
    else
      let hl := if sf < 2 then 3 else if sf = 2 then 4 else 5
      let w := if sf < 2 then 10 else if sf = 2 then 14 else 18
      let v := ofBytes (bs.take hl)
      let regen := v / 16 % 2 ^ w
      let comp := v / 2 ^ (4 + w) % 2 ^ w
      let body := (bs.drop hl).take comp
      if bs.length < hl + comp ∨ 131072 < regen then none
      else
        let tree : Option (ZHuff × List Byte) :=
          if ty = 2 then (zhuffRead body).map fun t => (t.1, body.drop t.2) else f.huf.map fun t => (t, body)
        tree.bind fun t =>
          let lits : Option (List Byte) :=
            if sf = 0 then zhuffOne t.1 regen t.2
            else
              let s1 := ofBytes (t.2.take 2)
              let s2 := ofBytes ((t.2.drop 2).take 2)
              let s3 := ofBytes ((t.2.drop 4).take 2)
              let d := t.2.drop 6
              let q := (regen + 3) / 4
              if t.2.length < 6 ∨ d.length < s1 + s2 + s3 ∨ regen < 3 * q then none
              else
                (zhuffOne t.1 q (d.take s1)).bind fun a => (zhuffOne t.1 q ((d.drop s1).take s2)).bind fun b =>
                  (zhuffOne t.1 q ((d.drop (s1 + s2)).take s3)).bind fun c =>
                    (zhuffOne t.1 (regen - 3 * q) (d.drop (s1 + s2 + s3))).map fun e => a ++ b ++ c ++ e
          lits.map fun l => (l, { f with huf := some t.1 }, bs.drop (hl + comp))

def llDefault : List Int := [4, 3, 2, 2, 2, 2, 2, 2, 2, 2, 2, 2, 2, 1, 1, 1, 2, 2, 2, 2, 2, 2, 2, 2, 2, 3, 2, 1, 1, 1, 1, 1, -1, -1, -1, -1]
def mlDefault : List Int := [1, 4, 3, 2, 2, 2, 2, 2, 2] ++ List.replicate 37 1 ++ List.replicate 7 (-1)
def offDefault : List Int := [1, 1, 1, 1, 1, 1, 2, 2, 2] ++ List.replicate 15 1 ++ List.replicate 5 (-1)

/-- Base and extra bits of a literal-length code. -/
def llCode (c : Nat) : Nat × Nat :=
  if c < 16 then (c, 0)
  else if c < 20 then (16 + 2 * (c - 16), 1)
  else if c < 22 then (24 + 4 * (c - 20), 2)
  else if c < 24 then (32 + 8 * (c - 22), 3)
  else if c = 24 then (48, 4) else (2 ^ (c - 19), c - 19)
/-- Base and extra bits of a match-length code. -/
def mlCode (c : Nat) : Nat × Nat :=
  if c < 32 then (c + 3, 0)
  else if c < 36 then (35 + 2 * (c - 32), 1)
  else if c < 38 then (43 + 4 * (c - 36), 2)
  else if c < 40 then (51 + 8 * (c - 38), 3)
  else if c < 42 then (67 + 16 * (c - 40), 4)
  else if c = 42 then (99, 5) else (2 ^ (c - 36) + 3, c - 36)

/-- The table of one kind of code by its mode, and what follows. -/
def zTable (mode maxAl : Nat) (dflt : Fse) (old : Option Fse) (limit : Nat) (bs : List Byte) : Option (Fse × List Byte) :=
  match mode with
  | 0 => some (dflt, bs)
  | 1 => (match bs with
    | [] => none
    | b :: tl => if limit ≤ b.toNat then none else some (fseOne b.toNat, tl))
  | 2 => (fseRead bs maxAl limit).map fun t => (t.1, bs.drop t.2)
  | _ => old.map fun t => (t, bs)

/-- The offset of an offset value, and the frame's repeated offsets after it; none for a bad one. -/
def ZFrame.offset (f : ZFrame) (v ll : Nat) : Option (Nat × ZFrame) :=
  if 3 < v then some (v - 3, { f with r1 := v - 3, r2 := f.r1, r3 := f.r2 })
  else
    match (if ll = 0 then v else v - 1) with
    | 0 => some (f.r1, f)
    | 1 => some (f.r2, { f with r1 := f.r2, r2 := f.r1 })
    | 2 => some (f.r3, { f with r1 := f.r3, r2 := f.r1, r3 := f.r2 })
    | _ => if f.r1 ≤ 1 then none else some (f.r1 - 1, { f with r1 := f.r1 - 1, r2 := f.r1, r3 := f.r2 })

/-- The tables of a block's sequences. -/
structure ZTabs where
  ll : Fse
  off : Fse
  ml : Fse

/-- The sequences of a block, one after another; then the literals that are left. -/
def ZFrame.sequences (t : ZTabs) (room : Nat) : Nat → ZFrame → Nat → Nat → Nat → BackBits → List Byte → Infl → ZGot ZFrame
  | 0, f, _, _, _, x, lits, z => if x.left ≠ 0 then .bad z inFormat else (z.emitAll lits).bind fun z _ => .ok z f
  | n + 1, f, a, o, m, x, lits, z =>
    let oc := t.off.sym o
    let lc := llCode (t.ll.sym a)
    let mc := mlCode (t.ml.sym m)
    let ro := x.read oc
    let rm := ro.2.read mc.2
    let rl := rm.2.read lc.2
    let ll := lc.1 + rl.1
    let len := mc.1 + rm.1
    let x := rl.2
    if 31 < oc || x.left < 0 || lits.length < ll || room < ll + len then .bad z inFormat
    else
      match f.offset (2 ^ oc + ro.1) ll with
      | none => .bad z inFormat
      | some (d, f) =>
        (z.emitAll (lits.take ll)).bind fun z _ => (z.copyBack d len).bind fun z _ =>
          if n = 0 then ZFrame.sequences t (room - ll - len) n f a o m x (lits.drop ll) z
          else
            let na := t.ll.next a x
            let nm := t.ml.next m na.2
            let no := t.off.next o nm.2
            ZFrame.sequences t (room - ll - len) n f na.1 no.1 nm.1 no.2 (lits.drop ll) z

/-- A compressed block. -/
def ZFrame.block (f : ZFrame) (bs : List Byte) (room : Nat) (z : Infl) : ZGot ZFrame :=
  match f.literals bs with
  | none => .bad z inFormat
  | some (lits, f, rest) =>
    match rest with
    | [] => .bad z inFormat
    | b0 :: tl =>
      let h := b0.toNat
      let hdr : Option (Nat × List Byte) :=
        if h < 128 then some (h, tl)
        else if h < 255 then (if tl.isEmpty then none else some ((h - 128) * 256 + (byteAt tl 0).toNat, tl.drop 1))
        else if tl.length < 2 then none else some (ofBytes (tl.take 2) + 0x7F00, tl.drop 2)
      match hdr with
      | none => .bad z inFormat
      | some (n, tl) =>
        if room < lits.length then .bad z inFormat
        else if n = 0 then (if tl.isEmpty then (z.emitAll lits).bind fun z _ => .ok z f else .bad z inFormat)
        else
          let md := (byteAt tl 0).toNat
          let tabs : Option (ZTabs × List Byte) :=
            if tl.isEmpty || md % 4 ≠ 0 then none
            else
              (zTable (md / 64) 9 (fseBuild 6 llDefault) f.ll 36 (tl.drop 1)).bind fun a =>
                (zTable (md / 16 % 4) 8 (fseBuild 5 offDefault) f.off 32 a.2).bind fun o =>
                  (zTable (md / 4 % 4) 9 (fseBuild 6 mlDefault) f.ml 53 o.2).map fun m => ({ ll := a.1, off := o.1, ml := m.1 }, m.2)
          match tabs with
          | none => .bad z inFormat
          | some (t, body) =>
            match BackBits.of body with
            | none => .bad z inFormat
            | some x =>
              let ra := x.read t.ll.al
              let ro := ra.2.read t.off.al
              let rm := ro.2.read t.ml.al
              ZFrame.sequences t room n { f with ll := some t.ll, off := some t.off, ml := some t.ml } ra.1 ro.1 rm.1 rm.2 lits z

/-- Blocks up to the last. -/
def ZFrame.blocks (limit : Nat) : Nat → ZFrame → Infl → ZGot Unit
  | 0, _, z => .bad z inFormat
  | fuel + 1, f, z =>
    (z.bytes 3).bind fun z h =>
      let v := ofBytes h
      let size := v / 8
      let body : ZGot ZFrame :=
        if limit < size then .bad z inFormat
        else
          match v / 2 % 4 with
          | 0 =>
            let have_ := z.inp.take size
            ((({ z with inp := z.inp.drop size, used := z.used + have_.length } : Infl)).emitAll have_).bind fun z _ =>
              if have_.length < size then .bad z inTrunc else .ok z f
          | 1 => (z.bytes 1).bind fun z b => (z.emitAll (List.replicate size (byteAt b 0))).bind fun z _ => .ok z f
          | 2 => (z.bytes size).bind fun z bs => f.block bs limit z
          | _ => .bad z inFormat
      body.bind fun z f => if v % 2 = 1 then .ok z () else ZFrame.blocks limit fuel f z

/-! ### XXH64 (RFC 8878, 3.1.1) -/

namespace Xxh
def p1 : Word := 0x9E3779B185EBCA87
def p2 : Word := 0xC2B2AE3D27D4EB4F
def p3 : Word := 0x165667B19E3779F9
def p4 : Word := 0x85EBCA77C2B2AE63
def p5 : Word := 0x27D4EB2F165667C5
def round (acc x : Word) : Word := (acc + x * p2).rotateLeft 31 * p1
def merge (acc v : Word) : Word := (acc ^^^ round 0 v) * p1 + p4

/-- The four lanes over whole stripes of 32 bytes. -/
def stripes : Nat → List Byte → Word × Word × Word × Word → Word × Word × Word × Word
  | 0, _, a => a
  | n + 1, bs, a =>
    stripes n (bs.drop 32) (round a.1 (wordAt bs 0), round a.2.1 (wordAt bs 1), round a.2.2.1 (wordAt bs 2), round a.2.2.2 (wordAt bs 3))

def tail8 : Nat → List Byte → Word → Word
  | 0, _, h => h
  | n + 1, bs, h => tail8 n (bs.drop 8) ((h ^^^ round 0 (wordAt bs 0)).rotateLeft 27 * p1 + p4)

def hash (bs : List Byte) : Word :=
  let n := bs.length
  let a := stripes (n / 32) bs (p1 + p2, p2, 0, 0 - p1)
  let h := if 32 ≤ n then
      merge (merge (merge (merge (a.1.rotateLeft 1 + a.2.1.rotateLeft 7 + a.2.2.1.rotateLeft 12 + a.2.2.2.rotateLeft 18) a.1) a.2.1)
        a.2.2.1) a.2.2.2
    else p5
  let h := h + BitVec.ofNat 64 n
  let t := bs.drop (n / 32 * 32)
  let h := tail8 (t.length / 8) t h
  let t := t.drop (t.length / 8 * 8)
  let h := if 4 ≤ t.length then (h ^^^ BitVec.ofNat 64 (ofBytes (t.take 4)) * p1).rotateLeft 23 * p2 + p3 else h
  let t := if 4 ≤ t.length then t.drop 4 else t
  let h := t.foldl (fun (h : Word) b => (h ^^^ b.setWidth 64 * p5).rotateLeft 11 * p1) h
  let h := (h ^^^ (h >>> 33)) * p2
  let h := (h ^^^ (h >>> 29)) * p3
  h ^^^ (h >>> 32)
end Xxh

/-! ### Frames -/

def zstdMagic : List Byte := [0x28, 0xB5, 0x2F, 0xFD]
/-- The magic number of a skippable frame. -/
def isSkippable (bs : List Byte) : Bool := (byteAt bs 0).toNat / 16 == 5 && (bs.drop 1).take 3 == [0x2A, 0x4D, 0x18]

/-- One frame, after its magic number. -/
def Infl.zframe (z : Infl) : ZGot Unit :=
  (z.bytes 1).bind fun z d =>
    let d := (byteAt d 0).toNat
    let single := d / 32 % 2 = 1
    let fcs := d / 64
    let fcsLen := if fcs = 0 then (if single then 1 else 0) else 2 ^ fcs
    let didLen := if d % 4 = 3 then 4 else d % 4
    if d / 8 % 2 = 1 then .bad z inFormat
    else
      (z.bytes (if single then 0 else 1)).bind fun z w => (z.bytes didLen).bind fun z did => (z.bytes fcsLen).bind fun z c =>
        let content := ofBytes c + (if fcs = 1 then 256 else 0)
        let wb := (byteAt w 0).toNat
        let base := 2 ^ (10 + wb / 8)
        let window := if single then content else base + base / 8 * (wb % 8)
        if ofBytes did ≠ 0 ∨ 8388608 < window then .bad z inWindow
        else
          (ZFrame.blocks (min window 131072) 536870912 .first { z with base := z.n, window }).bind fun z _ =>
            if fcsLen ≠ 0 ∧ z.n - z.base ≠ content then .bad z inFormat
            else if d / 4 % 2 = 1 then
              (z.bytes 4).bind fun z k => if ofBytes k = (Xxh.hash z.streamOut).toNat % 2 ^ 32 then .ok z () else .bad z inCheck
            else .ok z ()

/-- Frames one after another; skippable frames are skipped. -/
def Infl.zstd : Nat → Infl → ZGot Unit
  | 0, z => .bad z inFormat
  | fuel + 1, z =>
    -- fewer than 4 bytes that begin no magic number are no frame (Table 7-3)
    let short := z.inp.take 4
    let begins := zstdMagic.take short.length == short
      || ((short.take 1).all (fun b => b.toNat / 16 == 5) && (short.drop 1) == ([0x2A, 0x4D, 0x18] : List Byte).take (short.length - 1))
    if !begins then .bad z inFormat
    else
    (z.bytes 4).bind fun z m =>
      let one : ZGot Unit :=
        if m = zstdMagic then z.zframe
        else if isSkippable m then (z.bytes 4).bind fun z n => (z.bytes (ofBytes n)).bind fun z _ => .ok z ()
        else .bad z inFormat
      one.bind fun z _ => if z.inp.isEmpty then .ok z () else z.zstd fuel

/-! ### The stage -/

def Infl.whole (z : Infl) : ZGot Unit :=
  ({ z with inp := [], used := z.used + z.inp.length, out := z.inp.reverse ++ z.out, n := z.n + z.inp.length } : Infl) |> fun z => .ok z ()

/-- A stream of one kind that ends the input. -/
def Infl.alone (g : ZGot Unit) : ZGot Unit := g.bind fun z _ => if z.inp.isEmpty then .ok z () else .bad z inFormat

/-- Stage INFL in a mode of Table 7-2. -/
def Infl.run (mode : Nat) (z : Infl) : ZGot Unit :=
  let b0 := (byteAt z.inp 0).toNat
  let b1 := (byteAt z.inp 1).toNat
  let mode :=
    if mode ≠ 5 then mode
    else if z.inp.take 2 = [0x1F, 0x8B] then 3
    else if z.inp.take 4 = zstdMagic then 4
    else if 2 ≤ z.inp.length ∧ b0 % 16 = 8 ∧ (b0 * 256 + b1) % 31 = 0 then 2
    else 0
  match mode with
  | 0 => z.whole
  | 1 => Infl.alone (z.deflate 32768)
  | 2 => Infl.alone z.zlib
  | 3 => z.gzip (z.inp.length + 1)
  | _ => z.zstd (z.inp.length + 1)

/-- The bytes that INFL gives for a message, and its fault, at the byte that INFL had come to (log entry 69). -/
def inflStage (mode xrb : Nat) (src : List Byte) : List Byte × Option (U16 × Nat) :=
  match Infl.run mode { inp := src, k := 0, used := 0, out := [], n := 0, base := 0, window := 0, xrb } with
  | .ok z _ => (z.out.reverse, none)
  | .bad z c => (z.out.reverse, some (c, z.used))

end Sys2Proof.Machine
end

