-- ==== Sys2Proof/Machine/Intake.lean ====
section
/-!
DEFINITION. Cascade intake chains (07_intake.md): submission (R155, R458), the start of a message with its checks and
stages (R157 to R167), delivery (R168, R169), and the Sump (R172, R173, R459).
-/

namespace Sys2Proof.Machine

open Sys2Proof

/-- The next free word of the package (log entry 7). -/
def State.drawFree (s : State) : Word × State := (Config.freeWord s.free, { s with free := s.free + 1 })

/-! ### Submission (Table 7-1, Table 7-2) -/

def subSource (x : Submission) : Word := x.words[0]
def subOffset (x : Submission) : Nat := x.words[1].toNat
def subMask (x : Submission) : Nat := bits x.words[2].toNat 63 48
def subChain (w : Nat) : Nat := bits w 47 43
def subLength (x : Submission) : Nat := bits x.words[2].toNat 31 0
def subConfig (x : Submission) : Nat := x.words[3].toNat
def subMsgid (x : Submission) : Word := x.words[4]
def subVocab (x : Submission) : Word := x.words[5]
def subMerge (x : Submission) : Word := x.words[6]
def subCstab (x : Submission) : Word := x.words[7]
def cfgCharset (c : Nat) : Byte := BitVec.ofNat 8 (bits c 23 16)

/-- A reserved bit is set, or a code is reserved, in a submission block (R155, R156). -/
def submissionBad (ws : Vector Word 8) : Bool :=
  let c := ws[3].toNat
  let cs := bits c 23 16
  bits ws[2].toNat 42 32 ≠ 0 || bits c 55 48 ≠ 0 || bits c 39 32 ≠ 0 || bits c 30 24 ≠ 0 || bits c 15 12 ≠ 0 || bits c 7 4 ≠ 0
    || 2 < bits c 11 8 || 5 < bits c 3 0 || !(cs ≤ 3 || cs == 0x10 || (0x20 ≤ cs && cs ≤ 0x24))

/-- INTK at the engine: the chain chosen and the block enqueued, and the status word (R155, R458). -/
def State.submit (s : State) (f : Nat) (b : BitVec 1) (c : Cmd) : Word × State :=
  let ws := words8 c.blk
  let die := f / 80
  let code := subChain ws[2].toNat
  let mine := (List.range 4).map fun k => 4 * die + k
  if submissionBad ws || (code ≠ 31 && !mine.contains code) then (2, s)
  else
    let n := if code = 31 then (leastBy (fun k => (s.chain k).queue.length) mine).getD 0 else code
    let x := s.chain n
    if 64 ≤ x.queue.length then (1, s)
    else
      let sub : Submission := { words := ws, world := c.world, task := c.task, run := c.run, core := BitVec.ofNat 9 f, bank := b, ord := c.ord }
      (BitVec.ofNat 64 (n * 65536), s.setChain n { x with queue := x.queue ++ [sub] })

def execIntk (tk g : BitVec 4) (a : BitVec 3) (imm : BitVec 32) (s : State) : Host.Outcome State Fault Refusal :=
  engine 2 true .XQ tk g {} (.intk tk g a imm) s fun s =>
    match s.sampleBlock a with
    | .error x => .error x
    | .ok bs =>
      match s.scrCause imm.toNat 8 8 with
      | some x => .error (trapOf x)
      | none => .ok { vs := [imm.setWidth 64], blk := bs }

/-! ### Reads of a chain (R158) -/

def chainKey (n : Nat) : Nat := 2 ^ 90 + n

/-- The chain as it asks the handle unit for the submitter's world. -/
def chainAsker (x : Submission) : Asker := { unitAsker 40 x.task x.world .I with run := x.run, ord := x.ord }
/-- The step whose floors bind the chain's reads. -/
def stepAsker (x : Submission) : Asker := { chainAsker x with who := .core x.core .C, bank := x.bank }

def needIntake : Need := { right := rightR, store := false, strong := false, use := .intake }

/-- The code of one element as a chain reads it; what has been published up to VERSION is in its floor. -/
def State.chainRead (s : State) (key : Nat) (x : Submission) (h : Word) (i : Nat) (ch : Choices) : Got (Nat × Choices) :=
  let k := chainAsker x
  (s.getEntry k h).bind fun s e =>
    (s.resolve k h (tupleOf e i) i needIntake).bind fun s r =>
      match r.place with
      | none => .ok s ((ePad e).toNat, ch)
      | some p =>
        if p.pkg ≠ s.pkg then
          (s.remoteLine k key p).bind fun s b => .ok s (codeOfBytes p ((b.drop (p.va.toNat % 64)).take p.bytes), ch)
        else
          let q := stepAsker x
          let floor := max (s.floorOf q h e p.va.toNat p.bytes) (s.versionPlace h ((s.versionHeld (verKey x.run .I) h x.ord).getD 0))
          let v := choose (s.valuesFrom q h p.va.toNat p.pa p.bytes floor) ch
          .ok s (codeOfBytes p v.1, v.2)

/-- n elements from linear index i, in reverse after those in hand. -/
def State.chainReads (s : State) (key : Nat) (x : Submission) (h : Word) : Nat → Nat → List Nat → Choices → Got (List Nat × Choices)
  | 0, _, l, ch => .ok s (l.reverse, ch)
  | n + 1, i, l, ch => (s.chainRead key x h i ch).bind fun s r => s.chainReads key x h n (i + 1) (r.1 :: l) r.2

/-- A table of n elements: the copy held, or, where the handle or the version differs, a fresh one. -/
def State.chainTable (s : State) (n : Nat) (x : Submission) (h : Word) (len : Nat) (ch : Choices) :
    Got ((Word × U32 × List Word) × Choices) :=
  (s.versionRead (chainAsker x) (chainKey n) h).bind fun s v =>
    match (s.chain n).tables.find? fun t => t.1 == h && t.2.1 == v && t.2.2.length == len with
    | some t => .ok s (t, ch)
    | none => (s.chainReads (chainKey n) x h len 0 [] ch).bind fun s r => .ok s ((h, v, r.1.map (BitVec.ofNat 64)), r.2)

/-- What a read found; a missing segment is waited for, any other cause is a failure. -/
def Got.orBad {α β : Type} (g : Got α) (s : State) (bad : U16 → Got β) (f : State → α → Got β) : Got β :=
  match g with
  | .ok t v => f t v
  | .wait t => .wait t
  | .trap x => if x.cause = Cause.objMissing then .wait s else bad x.cause
  | .fault r => .fault r

/-! ### The checks of R157 -/

def fetchFault (code : U16) (detail : Word) : ChainFault := { stage := 0, code, offset := 0, detail, when_ := 0 }

/-- Check 1: SOURCE, VOCAB, MERGE, and CSTAB for charset 0x10. -/
def State.chainHandles (s : State) (x : Submission) : List (Nat × Word) → Got (Option ChainFault)
  | [] => .ok s none
  | (j, h) :: rest =>
    let bad := fun (c : U16) => Got.ok s (some (fetchFault 0x0001 (BitVec.ofNat 64 (j * 2 ^ 56 + c.toNat))))
    (s.getEntry (chainAsker x) h).orBad s bad fun t e =>
      if !hasRight e x.world.toNat rightR then bad Cause.objRights else t.chainHandles x rest

/-- The consumer entries that a message names. -/
def chainNames (c : Chain) (x : Submission) : List (Nat × Word) :=
  ((List.range 16).filter fun n => bit (subMask x) n).map fun n => (n, c.cons.toList.getD n 0)

/-- The named task has ended, or is gone. -/
def State.taskGone (s : State) (t : Word) : Bool := (s.task? t).all fun k => k.st == .ended
/-- Slot bytes of a consumer's ring, if the entry passes check 4. -/
def State.consumerSlot (s : State) (world : Nat) (w : Word) : Option Nat :=
  if !entryValid w ∨ tidPkg (entryTask w) ≠ s.pkgNo ∨ s.taskGone (entryTask w) then none
  else
    (s.task? (entryTask w)).bind fun t =>
      if lrWorld t.lr ≠ world then none
      else (s.ringEnd (entryTask w) t (entryRing w)).bind fun e => if e.size < 128 then none else some e.size
/-- The ring table of a named task has not been loaded yet (log entry 46). -/
def State.consumerLoading (s : State) (w : Word) : Bool :=
  entryValid w && (s.task? (entryTask w)).any fun t => !t.loaded && t.killed.isNone

/-- Check 5: the formats and extents of the tables (R162, R164). -/
def vocabOk (e : Entry) : Bool := eLayout e == 0 && eNdim e == 0 && eFmt e == 0x02 && 256 ≤ eExt e 3 && eExt e 3 ≤ 2 ^ 20
def mergeOk (e : Entry) : Bool :=
  let n := eExt e 2
  eLayout e == 0 && eNdim e == 1 && eFmt e == 0x03 && eExt e 0 == 1 && eExt e 1 == 1 && eExt e 3 == 2
    && n == 2 ^ Nat.log2 n && 256 ≤ n && n ≤ 2 ^ 22
def cstabOk (e : Entry) : Bool := eLayout e == 0 && eNdim e == 0 && eFmt e == 0x02 && eExt e 3 == 256

/-- What the front hands on: the first check that fails, or the source bytes and the tables. -/
inductive Fetched7 where
  | failed (f : ChainFault)
  | read (src : List Byte) (vocab merge cstab : Word × U32 × List Word) (nv : Nat)

/-- The front runs the checks in order, and reads. -/
def State.chainFetch (s : State) (n : Nat) (x : Submission) (ch : Choices) : Got Fetched7 :=
  let cs := cfgCharset (subConfig x) = 0x10
  let k := chainAsker x
  let names := chainNames (s.chain n) x
  let fail := fun (s : State) (f : ChainFault) => Got.ok s (Fetched7.failed f)
  let hs := [(0, subSource x), (1, subVocab x), (2, subMerge x)] ++ (if cs then [(3, subCstab x)] else [])
  (s.chainHandles x hs).bind fun s bad =>
    match bad with
    | some f => fail s f
    | none =>
      (s.getEntry k (subSource x)).bind fun s se => (s.getEntry k (subVocab x)).bind fun s ve => (s.getEntry k (subMerge x)).bind fun s me =>
        if eExt se 0 * eExt se 1 * eExt se 2 * eExt se 3 < subOffset x + subLength x then fail s (fetchFault 0x0002 0)
        else if stageLimit < subLength x then fail s (fetchFault 0x0003 0)
        else if names.any fun w => s.consumerLoading w.2 then .wait s
        else if names.isEmpty || names.any fun w => (s.consumerSlot x.world.toNat w.2).isNone then fail s (fetchFault 0x0004 0)
        else if !vocabOk ve || !mergeOk me then fail s (fetchFault 0x0005 0)
        else
          let bad := fun (j : Nat) (c : U16) => fail s (fetchFault 0x0001 (BitVec.ofNat 64 (j * 2 ^ 56 + c.toNat)))
          let cst : Got ((Word × U32 × List Word) × Choices × Bool) :=
            if !cs then .ok s ((0, 0, []), ch, true)
            else
              (s.getEntry k (subCstab x)).bind fun s e =>
                if !cstabOk e then .ok s ((0, 0, []), ch, false)
                else (s.chainTable n x (subCstab x) 256 ch).bind fun s t =>
                  .ok s (t.1, t.2, t.1.2.2.all fun w => w == 0xFFFFFFFF || isScalar w.toNat)
          cst.orBad s (bad 3) fun s ct =>
            if !ct.2.2 then fail s (fetchFault 0x0005 0)
            else
              (s.chainTable n x (subVocab x) 256 ct.2.1).orBad s (bad 1) fun s vt =>
                (s.chainTable n x (subMerge x) (2 * eExt me 2) vt.2).orBad s (bad 2) fun s mt =>
                  (s.chainReads (chainKey n) x (subSource x) (subLength x) (subOffset x) [] mt.2).orBad s (bad 0) fun s src =>
                    .ok s (.read (src.1.map (BitVec.ofNat 8)) vt.1 mt.1 ct.1 (eExt ve 3))

/-! ### The stages -/

/-- The tokens that a message gives, and its fault with its offset (R172): of two faults the one further down the chain comes
first in the text (log entry 47). -/
def chainStages (cfg : Nat) (src : List Byte) (vocab merge cstab : List Word) (nv : Nat) : List Word × Option (BitVec 4 × U16 × Nat) :=
  let i := inflStage (bits cfg 3 0) (bits cfg 63 56) src
  let x := xferStage (bits cfg 11 8) i.2.isNone i.1
  let w2 := i.2.isNone && x.fault.isNone
  let c := chstStage (cfgCharset cfg) (bit cfg 31) (cstab.map BitVec.toNat) w2 x.out
  let w3 := w2 && c.fault.isNone
  let m : Merges := { words := merge, k := Nat.log2 (merge.length / 2) }
  let p := pieces (bit cfg 40) (bit cfg 44) w3 c.out
  let t := encodePieces (vocab.map BitVec.toNat) nv m (bits cfg 43 41) (bits cfg 47 45) p 0 0 []
  let fault := fun (st : BitVec 4) (f : U16 × Nat) => some (st, f.1, f.2)
  (t.out,
   match t.fault, c.fault, x.fault, i.2 with
   | some f, _, _, _ => fault 4 f
   | none, some f, _, _ => fault 3 f
   | none, none, some f, _ => fault 2 f
   | none, none, none, some f => fault 1 f
   | none, none, none, none => none)

/-! ### Batches (R166, R167) -/

/-- A batch of a message (Table 7-8). -/
def batchOf (n : Nat) (m : ChainMsg) (toks : List Word) (last faultEnd : Bool) : Batch :=
  let w1 := m.sent * 2 ^ 32 + toks.length * 65536 + n * 256 + b2n faultEnd * 4 + b2n last * 2 + b2n m.first
  { no := m.no, sub := m.sub, sent := m.sent + toks.length
    bytes := bytesOfWords [subMsgid m.sub, BitVec.ofNat 64 w1, 0, 0, 0, 0, 0, 0] ++ toks.flatMap fun t => toBytes 4 t.toNat
    left := m.cons }

/-- A full Sump has stopped the chain: a record waits, and none has been removed (R173). -/
def Chain.stopped (c : Chain) : Bool := c.sumpFull && 1024 ≤ c.sump.length

/-- The next message of the stages comes to TOKN. -/
def Chain.shift (c : Chain) : Chain :=
  match c.msg, c.behind with
  | none, m :: rest => { c with msg := some m, behind := rest }
  | _, _ => c

/-- Form batches while the output buffer of 16 has room; a message without a fault ends with its last batch. -/
def Chain.fill (n : Nat) : Nat → Chain → Chain
  | 0, c => c
  | fuel + 1, c =>
    let c := c.shift
    match c.msg with
    | none => { c with bpWait := false }
    | some m =>
      let more := !m.tokens.isEmpty || m.fault.isNone
      if !more || c.stopped then { c with bpWait := false }
      else if 16 ≤ c.out.length then { c with bpWait := true }
      else
        let toks := m.tokens.take m.cap
        let rest := m.tokens.drop m.cap
        let last := rest.isEmpty && m.fault.isNone
        let c := { c with out := c.out ++ [batchOf n m toks last false]
                          msg := if last then none else some { m with tokens := rest, sent := m.sent + toks.length, first := false } }
        Chain.fill n fuel c

/-- A chain advances while the clock runs (R170). -/
def State.chainRuns (s : State) : Bool := s.ready && s.power.freqAct != 0

/-- The messages in the stages, the oldest first. -/
def Chain.msgs (c : Chain) : List ChainMsg := c.msg.toList ++ c.behind
/-- The front can take one more message: the stages before TOKN work on one each, and the text that TOKN has still to take,
counted in tokens, fits into the four buffers of 64 KiB (R170, R171; log entry 87). -/
def Chain.room (c : Chain) : Bool := c.msgs.length < 5 && sumBy (fun m => m.tokens.length) c.msgs ≤ 262144

/-- CHAIN_MESSAGE_START: the front starts the oldest message, and its stages follow. A message of another world waits
until the chain has drained, and finds it cleared (R102). -/
def execChainMessageStart (chain : BitVec 4) (ch : Choices) (s : State) : Host.Outcome State Fault Refusal :=
  let n := chain.toNat
  let c := s.chain n
  match c.queue with
  | [] => .next s
  | x :: rest =>
    if !s.chainRuns || c.stopped || !c.room || (x.world ≠ c.lastWorld && !(c.out.isEmpty && c.msgs.isEmpty)) then .next s
    else
      let c := if x.world = c.lastWorld then c else { c with tables := [] }
      let s := s.setChain n { c with world := x.world, lastWorld := x.world }
      match s.chainFetch n x ch with
      | .wait t => .next t
      | .trap _ => .next s
      | .fault r => .fault r
      | .ok s got =>
        let names := chainNames (s.chain n) x
        let slots := names.filterMap fun w => s.consumerSlot x.world.toNat w.2
        let cons := names.filter fun w => (s.consumerSlot x.world.toNat w.2).isSome
        let cap := ((slots.foldl min (slots.headD 128)) - 64) / 4
        let start := fun (s : State) (tables : List (Word × U32 × List Word)) (toks : List Word) (f : Option ChainFault) =>
          let c := s.chain n
          let m : ChainMsg := { no := c.count, sub := x, cons, cap, tokens := toks, sent := 0, first := true
                                fault := f.map fun f => { f with when_ := s.tether } }
          let c := { c with queue := rest, behind := c.behind ++ [m], count := c.count + 1, tables }
          Host.Outcome.next ((s.dropLines (chainKey n)).setChain n (Chain.fill n 22 c))
        match got with
        | .failed f => start s (s.chain n).tables [] (some f)
        | .read src v m t nv =>
          let r := chainStages (subConfig x) src v.2.2 m.2.2 t.2.2 nv
          start s [v, m, t] r.1 (r.2.map fun f => { stage := f.1, code := f.2.1, offset := BitVec.ofNat 64 f.2.2, detail := 0, when_ := 0 })

/-! ### The Sump (R172, R173, Table 7-10) -/

/-- Add a record to the Sump, if it has room; a full one stops the chain. -/
def State.sumpAdd (s : State) (n : Nat) (x : Submission) (tokens : Nat) (f : ChainFault) (go : Chain → Chain) : State :=
  let c := s.chain n
  if 1024 ≤ c.sump.length then s.setChain n { c with sumpFull := true }
  else
    let w3 := tokens * 2 ^ 32 + x.world.toNat * 2 ^ 24 + n * 2 ^ 20 + f.stage.toNat * 2 ^ 16 + f.code.toNat
    let r : Vector Word 8 := #v[subMsgid x, subSource x, f.offset, BitVec.ofNat 64 w3, f.detail, f.when_, 0, 0]
    s.setChain n (go { c with sump := c.sump ++ [(x.world, r)], sumpFull := false })

/-- CHAIN_STAGE_FAULT: the faulted message ends with a closing batch, and then a Sump record. -/
def execChainStageFault (chain : BitVec 4) (s : State) : Host.Outcome State Fault Refusal :=
  let n := chain.toNat
  let c := s.chain n
  match c.msg with
  | none => .next s
  | some m =>
    match m.fault with
    | none => .next s
    | some f =>
      if !s.chainRuns || c.stopped || !m.tokens.isEmpty || (!m.closed && 16 ≤ c.out.length) then .next s
      else
        let c := if m.closed then c else { c with out := c.out ++ [batchOf n m [] true true], msg := some { m with closed := true } }
        .next ((s.setChain n c).sumpAdd n m.sub m.sent f fun c => Chain.fill n 22 { c with msg := none })

/-! ### Delivery (R168, R169) -/

/-- The first batch, in order, with a consumer that has taken every earlier one and has a free slot. -/
def State.deliverable (s : State) : List Nat → Nat → List Batch → Option (Nat × (Nat × Word) × (Nat × RingEnd))
  | _, _, [] => none
  | seen, j, b :: rest =>
    match b.left.findSome? fun w => if seen.contains w.1 then none else (s.taker (entryTask w.2) (entryRing w.2)).map fun t => (w, t) with
    | some (w, t) => some (j, w, t)
    | none => s.deliverable (seen ++ b.left.map fun w => w.1) (j + 1) rest

/-- A batch that every consumer has taken is retired, and the stages go on. -/
def Chain.settle (n : Nat) (c : Chain) : Chain := Chain.fill n 22 { c with out := c.out.filter fun b => !b.left.isEmpty }

/-- BATCH_DELIVER: one batch goes into one consumer's slot. -/
def execBatchDeliver (chain : BitVec 4) (s : State) : Host.Outcome State Fault Refusal :=
  let n := chain.toNat
  if !s.chainRuns || (s.chain n).stopped then .next s
  else
    let s := s.setChain n (Chain.settle n (s.chain n))
    match s.deliverable [] 0 (s.chain n).out with
    | none => .next s
    | some (j, w, t) =>
      match (s.chain n).out[j]? with
      | none => .next s
      | some b =>
        let s := s.fillSlot t.1 t.2 b.bytes
        let c := s.chain n
        let out := c.out.set j { b with left := b.left.filter fun v => v.1 ≠ w.1 }
        .next (s.setChain n (Chain.settle n { c with out }))

/-- CONSUMER_GONE: a consumer has ended; what it has not taken of the oldest message that names it counts as taken. -/
def execConsumerGone (chain entry : BitVec 4) (s : State) : Host.Outcome State Fault Refusal :=
  let n := chain.toNat
  let e := entry.toNat
  let c := s.chain n
  let gone := fun (w : Nat × Word) => w.1 == e && s.taskGone (entryTask w.2)
  let keep := fun (l : List (Nat × Word)) => l.filter fun w => w.1 ≠ e
  let when_ := c.goneAt.getD s.tether
  let f : ChainFault := { stage := 5, code := 0x0501, offset := 0, detail := BitVec.ofNat 64 e, when_ }
  let drop := fun (no : Nat) (m : ChainMsg) => if m.no = no then { m with cons := keep m.cons } else m
  let go := fun (no : Nat) (c : Chain) => Chain.settle n { c with
    goneAt := none
    out := c.out.map fun b => if b.no = no then { b with left := keep b.left } else b
    msg := c.msg.map (drop no)
    behind := c.behind.map (drop no) }
  -- a record that waits for room keeps its time
  let add := fun (x : Submission) (sent no : Nat) =>
    (if 1024 ≤ c.sump.length then s.setChain n { c with goneAt := some when_ } else s).sumpAdd n x sent f (go no)
  if !s.chainRuns || c.stopped then .next s
  else
    match c.out.find? fun b => b.left.any gone with
    | some b =>
      let sent := match c.msgs.find? fun m => m.no == b.no with
        | some m => m.sent
        | none => (c.out.filter fun x => x.no = b.no).foldl (fun k x => max k x.sent) 0
      .next (add b.sub sent b.no)
    | none =>
      match c.msgs.find? fun m => m.cons.any gone with
      | some m => .next (add m.sub m.sent m.no)
      | none => .next s

/-! ### SUMPRD (R459) -/

def execSumprd (g : BitVec 4) (x : BitVec 5) (a : BitVec 3) (ch : BitVec 4) (s : State) : Host.Outcome State Fault Refusal :=
  control { size := 2, commit := true } g { s := [x] } s fun s =>
    let off := (s.getA a).toNat
    match s.scrCause off 64 64 with
    | some c => .trap (trapOf c)
    | none =>
      let n := ch.toNat
      let c := s.chain n
      match lfindIdx (fun (r : Byte × Vector Word 8) => s.isSys || r.1 == s.world) c.sump with
      | none => .done (s.setS x 1)
      | some j =>
        let bs := bytes8 ((c.sump[j]?.map fun r => r.2).getD (.replicate 8 0))
        .done (((s.setChain n { c with sump := c.sump.eraseIdx j }).scrWrite off bs).setS x 0)

/-- ICHSTAT (Table 7-11). -/
def Chain.ichstat (c : Chain) : Word :=
  BitVec.ofNat 64 (c.queue.length * 2 ^ 32 + c.sump.length * 2 ^ 16 + c.world.toNat * 256 + b2n c.stopped * 4 + b2n c.bpWait * 2
    + b2n (!c.msgs.isEmpty))

end Sys2Proof.Machine
end

