-- ==== Sys2Proof/Machine/Keys.lean ====
section
/-!
DEFINITION. World keys in the security complex (05_worlds.md, R110, R113): the request body of Table 5-5, made by a source
and taken apart by the complex that holds the boot key.
-/

namespace Sys2Proof.Machine

open Sys2Proof

def reqOpc (r : List Byte) : Nat := (byteAt r 0).toNat
def reqWorld (r : List Byte) : Byte := byteAt r 1
def reqNumber (r : List Byte) : Nat := ofBytes ((r.drop 4).take 4)
/-- n bytes of a request from an offset. -/
def reqPart (r : List Byte) (off n : Nat) : List Byte := (List.range n).map fun k => byteAt r (off + k)
/-- A byte string of a fixed length. -/
def sized (n : Nat) (bs : List Byte) : List Byte := (bs ++ List.replicate n 0).take n

namespace SecStatus
def ok : Nat := 0
def badReq : Nat := 1
def worldExists : Nat := 2
def noWorld : Nat := 3
def worldBusy : Nat := 4
def badKey : Nat := 5
def sigExhausted : Nat := 6
def noCert : Nat := 7
def busy : Nat := 8
def secFault : Nat := 9
end SecStatus

def ascii (s : String) : List Byte := s.toList.map fun c => BitVec.ofNat 8 c.toNat
def devIdBytes (s : State) : List Byte := toBytes 32 s.sec.devId.toNat

/-- The 64 bytes that hide Kw of world w in a request to the device of an identity, from the shared secret. -/
def keyPad (ss : List Byte) (w : Byte) (devId : List Byte) : List Byte := shake256 (ss ++ ascii "XF4-WORLD" ++ [w] ++ devId) 64
/-- KC of a world key. -/
def keyCheck (kw : List Byte) : List Byte := shake256 (kw ++ ascii "XF4-KCV") 8

/-- EK, the encapsulation key of the current bring-up. -/
def State.bootEk (s : State) : List Byte := sized 1568 (Config.mlkemEk s.sec.bootKey)
/-- ML-KEM-1024 encapsulation to an EK, the n-th: CT and SS (R113). -/
def mlkemEncaps (ek : List Byte) (n : Nat) : List Byte × List Byte :=
  let ct := sized 1568 (Config.mlkemCt ek n)
  (ct, Config.mlkemSecret ek ct)
/-- ML-KEM-1024 decapsulation with the boot key pair (R113). -/
def State.mlkemDecaps (s : State) (ct : List Byte) : List Byte := Config.mlkemSecret s.bootEk ct

/-! ### XMSS^MT signatures (R111, R115) -/

/-- A signature of the parameter set of R111, 69,701 bytes: the index in 5 bytes, the highest first, and the rest (RFC 8391). -/
def xmssSignature (key : List Byte) (idx : Nat) (m : List Byte) : List Byte := (toBytes 5 idx).reverse ++ sized 69696 (Config.xmssRest key idx m)
/-- The signature over m verifies under a public key: one that its key pair makes, or another that RFC 8391 takes. -/
def xmssVerify (key m sig : List Byte) : Bool :=
  sig == xmssSignature key (ofBytes (sig.take 5).reverse) m || (sig.length == 69701 && Config.xmssTakes key m sig)

/-- Kw of a request, and whether KC holds and its halves differ. -/
def State.unwrap (s : State) (r : List Byte) : List Byte × Bool :=
  let pad := keyPad (s.mlkemDecaps (reqPart r 64 1568)) (reqWorld r) (devIdBytes s)
  let kw := (List.range 64).map fun j => byteAt r (1632 + j) ^^^ byteAt pad j
  (kw, keyCheck kw == reqPart r 1696 8 && kw.take 32 != kw.drop 32)

/-- A KEYXFER request of Table 5-5 for world w to the device of an EK and identity, with encapsulation n. -/
def keyRequest (ek devId kw : List Byte) (w : Byte) (n : Nat) : List Byte :=
  let ct := mlkemEncaps ek n
  let pad := keyPad ct.2 w devId
  sized 64 [6, w] ++ ct.1 ++ (List.range 64).map (fun j => byteAt kw j ^^^ byteAt pad j) ++ keyCheck kw

/-- Kw is kept in its slot and loaded into every engine. -/
def State.loadKey (s : State) (w : Nat) (kw : List Byte) : State :=
  { s with sec := { s.sec with keys := tset s.sec.keys w kw, engineKeys := tset s.sec.engineKeys w kw } }

/-- A key is erased: every engine drops it, and every L2 line of the world goes (R110). -/
def State.eraseKey (s : State) (w : Nat) : State :=
  let s : State := { s with sec := { s.sec with keys := tdel s.sec.keys w, engineKeys := tdel s.sec.engineKeys w } }
  s.l2DropAll fun l => l.world.toNat == w

/-- KEYXFER: as WCREATE where w has no key, else Kw must be the same. -/
def keyTransfer (r : List Byte) (s : State) : State × Nat × List Byte :=
  let w := (reqWorld r).toNat
  if w = 0 then (s, SecStatus.badReq, [])
  else
    let k := s.unwrap r
    if !k.2 then (s, SecStatus.badKey, [])
    else
      match tfind s.sec.keys w with
      | none => (s.loadKey w k.1, SecStatus.ok, [])
      | some old => (s, if old = k.1 then SecStatus.ok else SecStatus.badKey, [])

end Sys2Proof.Machine
end

