-- ==== Sys2Proof/Machine/Links.lean ====
section
/-!
DEFINITION. CXL, flash and peer ports (02_links.md): ports going down and up, receipt of flits, responses to remote
requests, link timeouts and the Tether.
-/

namespace Sys2Proof.Machine

open Sys2Proof

/-! ### Segments (R33, R36, R95) -/

/-- Handle of an entry of this package. -/
def State.handleAt (s : State) (i : Nat) (e : Entry) : Word := handleOf (eOwner e) (eGen e) s.pkgNo i

/-- Every object that may have segments on this package: those of its table that are not FREE, live, lost or being deleted,
and those of other packages that are noted as guests. -/
def State.heldObjects (s : State) : List (Word × Entry) :=
  ((List.range s.objs.otCap).filterMap fun i =>
    let e := s.entryInMem i
    if eState e = 0 then none else some (s.handleAt i e, e)) ++ s.objs.guests

/-- First addresses of the pages of an object. -/
def pagesOf (e : Entry) : List Nat := (List.range (eBufs e * eSpan e / ePage e)).map fun k => eVbase e + k * ePage e

/-- The segments of an object: page, leaf address and leaf. -/
def State.segments (s : State) (e : Entry) : List (Nat × Nat × Word) :=
  (pagesOf e).filterMap fun va => match s.walkTables va with
    | .ok (a, l, _) => some (va, a, l)
    | .error _ => none

/-- Every segment of the package that p names, with the handle of its object. -/
def State.segmentsWhere (s : State) (p : Word → Bool) : List (Word × Nat × Nat) :=
  s.heldObjects.flatMap fun x => ((s.segments x.2).filter fun y => p y.2.2).map fun y => (x.1, y.1, y.2.1)

/-- A leaf lies behind a CXL port. -/
def State.onCxl (s : State) (p : Nat) (l : Word) : Bool := leafTier l == 2 && (tget s.links.cxl .initial p).covers (leafPfn l)
/-- A leaf lies behind a flash port. -/
def onFlash (p : Nat) (l : Word) : Bool := leafTier l == 3 && leafPort l == p

/-- UNAV of the segments that p names; the domain's TLB entries of them go (R87). -/
def State.markUnav (s : State) (p : Word → Bool) (on : Bool) : State :=
  (s.segmentsWhere p).foldl (fun s x => (s.setLeaf x.2.2 fun l => putBits l 58 58 (b2n on)).leafChanged x.2.1 1) s
/-- The segments that p names, and their objects, become LOST. -/
def State.markLost (s : State) (p : Word → Bool) : State :=
  (s.segmentsWhere p).foldl (fun s x => ((s.setLeaf x.2.2 fun l => putBits l 59 59 1).leafChanged x.2.1 1).loseObject x.1) s

/-- Parked steps whose missing segment p names may resume (R33, R94). A step that still drains does so after its frame. -/
def State.answerMissing (s : State) (p : Word → Bool) : State :=
  s.cores.foldl (fun s c => ([0, 1] : List (BitVec 1)).foldl (fun s b =>
    let k := s.bank c.1 b
    match k.fault with
    | some fi =>
      if fi.cause ≠ Cause.objMissing then s
      else
        match s.walkTables fi.va.toNat with
        | .ok (_, l, _) =>
          if !p l then s
          else if k.st = .parked then s.setBank c.1 b { k with st := .resumable, skip := false }
          else if k.st = .draining then s.setBank c.1 b { k with fault := some { fi with answered := true } }
          else s
        | .error _ => s
    | none => s) s) s

/-! ### CXL ports -/

def State.cxlPort (s : State) (p : Nat) : TierPort := tget s.links.cxl .initial p
def State.setCxl (s : State) (p : Nat) (t : TierPort) : State := { s with links := { s.links with cxl := tset s.links.cxl p t } }
def State.flashPort (s : State) (p : Nat) : TierPort := tget s.links.flash .initial p
def State.setFlash (s : State) (p : Nat) (t : TierPort) : State := { s with links := { s.links with flash := tset s.links.flash p t } }

/-- The events of a tier port name CXL ports by 0 to 3, and flash ports, whose segments follow the same rule (R36), by 8 to
15; there is no port 4 to 7 (log entry 84). -/
def tierPortOk (p : BitVec 4) : Bool := p.toNat < 4 || 8 ≤ p.toNat
def State.tierPort (s : State) (p : BitVec 4) : TierPort := if p.toNat < 8 then s.cxlPort p.toNat else s.flashPort (p.toNat - 8)
def State.setTier (s : State) (p : BitVec 4) (t : TierPort) : State := if p.toNat < 8 then s.setCxl p.toNat t else s.setFlash (p.toNat - 8) t
/-- A leaf lies behind a tier port. -/
def State.behind (s : State) (p : BitVec 4) (l : Word) : Bool := if p.toNat < 8 then s.onCxl p.toNat l else onFlash (p.toNat - 8) l
/-- A port behind which the leaf lies is not up. -/
def State.portless (s : State) (l : Word) : Bool :=
  (s.links.cxl.any fun x => x.2.st ≠ 2 && s.onCxl x.1 l) || (s.links.flash.any fun x => x.2.st ≠ 2 && onFlash x.1 l)

/-- PORTDOWN (R66): type 0 peer, 1 CXL, 2 flash. -/
def State.portDownErr (s : State) (ty port : Nat) (stat : Word) : State := s.setErr 2 (BitVec.ofNat 64 (port * 256 + ty)) stat

/-- A tier port goes down: what was outstanding on it is over, its segments are unavailable, and PORTDOWN is reported
(R33, R36, R66). -/
def State.tierDown (s : State) (p : BitVec 4) (t : TierPort) (why : BitVec 4) : State :=
  let u := { t with st := 0, why, downSince := s.now, lost := false, cmds := [], waiting := t.cmds ++ t.waiting }
  ((s.setTier p u).markUnav (s.behind p) true).portDownErr (if p.toNat < 8 then 1 else 2) (p.toNat % 8) u.stat

/-- CXL_PORT_DOWN: a tier port fails; WHY 0 no device, 2 link failed (Table 3-4). A port that fails to come up is left
down by CXL_PORT_UP, and timeouts take it down by NVME_TIMEOUT. -/
def execCxlPortDown (p : BitVec 4) (why : BitVec 4) (s : State) : Host.Outcome State Fault Refusal :=
  if !tierPortOk p then .next s else .next (s.tierDown p (s.tierPort p) why)

/-- What enumeration finds at a CXL port is supported: a type 3 device behind at most one level of switching (Table 2-2). -/
def cxlFits (d : Device) : Bool := d.type == 3 && d.switches ≤ 1
/-- A drive meets the limits of R34: 4,096-byte blocks without metadata, and transfers of at least 256 KiB. -/
def nvmeFits (d : Device) : Bool := d.block == 4096 && d.metadata == 0 && 262144 ≤ d.transfer.toNat
def deviceFits (p : BitVec 4) (d : Device) : Bool := if p.toNat < 8 then cxlFits d else nvmeFits d

/-- Commands outstanding on a drive: 32 queue pairs of depth 1,024 (R34). -/
def nvmeDepth : Nat := 32 * 1024

/-- Commands that wait are issued as the queues have room. -/
def TierPort.issueNvme (t : TierPort) (now : Nat) : TierPort :=
  if t.st ≠ 2 then t
  else
    let n := nvmeDepth - t.cmds.length
    { t with cmds := t.cmds ++ (t.waiting.take n).map fun c => { c with start := now }, waiting := t.waiting.drop n }

/-- CXL_PORT_UP: training of a tier port starts, or ends with what enumeration finds: the port comes up, its segments are
available unless another port of their range is down, and the faults on them are answered (R33, R36, R94); an unfit device
is reported and the port left down (R30, R34). -/
def execCxlPortUp (p : BitVec 4 × Option Device) (s : State) : Host.Outcome State Fault Refusal :=
  let dev := p.2
  let p := p.1
  let t := s.tierPort p
  if !tierPortOk p || t.st = 2 then .next s
  else
    match dev with
    | none => .next (s.setTier p { t with st := 1 })
    | some d =>
      if !deviceFits p d then .next (s.setTier p { t with st := 0, why := 1, downSince := if t.st = 0 then t.downSince else s.now })
      else
        let s := s.setTier p (({ t with st := 2, why := 0, lost := false } : TierPort).issueNvme s.now)
        let back := fun (l : Word) => s.behind p l && !s.portless l
        .next ((s.markUnav back false).answerMissing back)

/-- CXL_DOWN_TIMEOUT: a tier port still down after 1 s loses its segments (R33, R36). -/
def execCxlDownTimeout (p : BitVec 4) (s : State) : Host.Outcome State Fault Refusal :=
  let t := s.tierPort p
  if !tierPortOk p || t.st = 2 || t.lost || s.now < t.downSince + 1000000000 then .next s
  else .next ((s.setTier p { t with lost := true }).markLost (s.behind p))

/-- A reported extent is registered as capacity (R31): a range over 1, 2 or 4 ports, of which a port has at most 8
(Table 2-2); a ninth, or one of another shape, is not registered. -/
def execCxlExtentAdd (p : BitVec 2) (base : U32) (len : U32 × BitVec 3 × BitVec 3) (s : State) : Host.Outcome State Fault Refusal :=
  let ways := len.2.1
  let way := len.2.2
  let len := len.1
  let t := s.cxlPort p.toNat
  let shape := (ways = 1 || ways = 2 || ways = 4) && way.toNat < ways.toNat
  if !shape || 8 ≤ t.extents.length then .next s
  else .next (s.setCxl p.toNat { t with extents := t.extents ++ [{ base := base.toNat, len := len.toNat, ways := ways.toNat, way := way.toNat }] })

/-- A release waits until no segment lies on the extent, and no transfer is on its way there (R31). -/
def execCxlExtentRelease (p : BitVec 2) (base : U32) (s : State) : Host.Outcome State Fault Refusal :=
  let t := s.cxlPort p.toNat
  let x := t.extents.filter fun e => e.base == base.toNat
  let on := fun (pfn : Nat) => x.any fun e => e.holds pfn
  let used := !(s.segmentsWhere fun l => leafTier l == 2 && on (leafPfn l)).isEmpty
    || s.objs.migrations.any fun m => m.pkg == s.pkg && m.tier == 2 && on m.pfn.toNat
  if x.isEmpty then .next s
  else if used then .next (s.setCxl p.toNat { t with releasing := base.toNat :: t.releasing.filter (· ≠ base.toNat) })
  else .next (s.setCxl p.toNat { t with extents := t.extents.filter (fun e => e.base ≠ base.toNat), releasing := t.releasing.filter (· ≠ base.toNat) })

/-! ### Flash ports (R34 to R36) -/

/-- A system core issues a command. -/
def State.nvmeIssue (s : State) (p cid : Nat) (op : NvmeOp) : State :=
  let t := s.flashPort p
  s.setFlash p (({ t with waiting := t.waiting ++ [{ cid, op, start := s.now }] } : TierPort).issueNvme s.now)

/-- A command has not completed yet. -/
def TierPort.nvmeOpen (t : TierPort) (cid : Nat) : Bool := (t.cmds ++ t.waiting).any fun c => c.cid == cid

def execNvmeCompletion (p : BitVec 3) (cid : U16) (s : State) : Host.Outcome State Fault Refusal :=
  let t := s.flashPort p.toNat
  if t.cmds.any fun c => c.cid == cid.toNat then
    .next ((s.setFlash p.toNat (({ t with cmds := t.cmds.filter fun c => c.cid ≠ cid.toNat } : TierPort).issueNvme s.now)).wake 4)
  else .next s

/-- A command of 8 s is aborted and the controller reset, so that what was outstanding is issued again (log entry 84); a
second one within 60 s takes the port down (R36). -/
def execNvmeTimeout (p : BitVec 3) (cid : U16) (s : State) : Host.Outcome State Fault Refusal :=
  let t := s.flashPort p.toNat
  match t.cmds.find? fun c => c.cid == cid.toNat with
  | none => .next s
  | some c =>
    if s.now < c.start + 8000000000 then .next s
    else
      let again := t.lastTimeout.any fun x => s.now ≤ x + 60000000000
      let u := { t with lastTimeout := some s.now }
      if again then .next (s.tierDown (8 + p.setWidth 4) u 3)
      else .next (s.setFlash p.toNat (({ u with cmds := [], waiting := t.cmds ++ t.waiting } : TierPort).issueNvme s.now))

/-! ### Link timeouts (R42) -/

/-- The numbers under which the accesses of an object-manager command of a source stand, and the copy of a handover: no step
has them. -/
def omRun (src : BitVec 9) : Nat := 2 ^ 69 + src.toNat
def moveRun (id : Nat) : Nat := 2 ^ 68 + id
/-- What a command reads over the links is kept under this key. -/
def omKey (src : BitVec 9) : Nat := 2 ^ 82 + src.toNat

/-- What ends a command of a source on a handle before its own end, status st, is noted with it. -/
def State.noteEnd (s : State) (p : OmCmd → Bool) (st : Nat) : State :=
  let note := fun (c : OmCmd) => if p c ∧ c.started then { c with result := BitVec.ofNat 16 (0x100 + st) } else c
  { s with host := { s.host with cmds := s.host.cmds.map note, omcalls := s.host.omcalls.map note } }

/-- Register destinations of a request. -/
def ReqKind.dsts : ReqKind → List (BitVec 5)
  | .wload d _ _ | .sload d _ _ | .cas _ _ _ d _ | .pinv _ d | .verq d | .seqq _ _ d | .taskq _ _ d => [d]
  | .atomic _ _ _ (some d) | .fatomic _ _ (some d) => [d]
  | .casc _ _ _ d e _ | .spawn _ _ d e => [d, e]
  | _ => []

/-- What a context or an engine awaits from a request whose answer will not come: each register takes a free value
(log entry 7), and a command goes on without further effect (R42). -/
def State.freeWait (s : State) (r : Req) : State :=
  let pred := match r.kind with
    | .cas _ _ _ _ p => some p
    | _ => none
  let s := r.kind.dsts.foldl (fun (s : State) d =>
    { s.deliver r (Ctx.landS d (Config.freeWord s.free)) with free := s.free + 1 }) s
  let s := match pred with
    | some p => { s.deliver r (Ctx.landP p ((Config.freeWord s.free).getLsbD 0)) with free := s.free + 1 }
    | none => s
  match r.who with
  | .core f _ =>
    let pass := fun (c : Cmd) => if c.run = r.run ∧ c.ord = r.ord then { c with skip := true } else c
    let k := s.bank f.toNat r.bank
    s.setBank f.toNat r.bank { k with lq := k.lq.map pass, mq := k.mq.map pass, vq := k.vq.map pass, sq := k.sq.map pass, xq := k.xq.map pass }
  | .sys _ => s

/-- The step behind a request takes a link timeout: it is replayed, or its task is killed. -/
def State.timeoutStep (s : State) (who : Agent) (b : BitVec 1) (run : Nat) (task : Word) (dst : List (BitVec 5)) : State :=
  match who with
  | .core f _ =>
    if (s.bank f.toNat b).run.any fun r => r.id == run then s.replayStep f.toNat b Cause.linkTimeout true
    else s.killTask task Status.linkTimeout Cause.linkTimeout
  | .sys n =>
    if run = sysRun n then
      let c := s.sysCore n.toNat
      let c := { c with ctx := { c.ctx with pendS := dst.foldl (fun p d => p &&& ~~~(1#32 <<< d.toNat)) c.ctx.pendS } }
      (s.setSys n.toNat c).raiseSys n.toNat Cause.linkTimeout 0 c.ctx.pos
    else s

/-- The requests that had joined a fill or a walk take a link timeout (R255). -/
def State.timeoutJoined (s : State) (ws : List Waiter) : State :=
  (firstPerBank (ws.filter fun w => w.source ≠ 0 || !isSysAgent w.who)).foldl (fun t w =>
    match w.who with
    | .core f _ =>
      match (t.bank f.toNat w.bank).run with
      | some q => t.timeoutStep w.who w.bank q.id q.task []
      | none => t
    | .sys n => t.timeoutStep w.who w.bank (sysRun n) 0 []) s

/-- A remote request has a link timeout. -/
def State.linkTimeout (s : State) (r : Req) : State :=
  let t := s.dropReq r
  match r.kind with
  | .inval dst _ =>
    match r.who with
    | .sys n => let c := t.sysCore n.toNat; let _ := dst; t.setSys n.toNat { c with invLate := true }
    | .core _ _ => t
  | .objEntry =>
    let u := t.hunit r.unit
    let ws := (u.fills.filter fun f => objKey f.handle == objKey r.place.handle).flatMap fun f => f.joined
    (t.setHunit r.unit { u with fills := u.fills.filter fun f => objKey f.handle ≠ objKey r.place.handle }).timeoutJoined ws
  | .walkRead =>
    let u := t.hunit r.unit
    let mine := fun (x : Walk) => x.va == r.place.va && x.far == some r.place.pkg
    let ws := (u.walks.filter mine).flatMap fun x => x.joined
    (t.setHunit r.unit { u with walks := u.walks.filter fun x => !mine x }).timeoutJoined ws
  | .command ser (.forward _ _) => t.noteEnd (fun c => omKey c.src == ser && c.words[1] == r.place.handle) Status.linkTimeout.toNat
  | k =>
    -- an access of a command, or of the copy of a handover, fails with it (R119)
    let t := t.noteEnd (fun c => omRun c.src == r.run && c.words[1] == r.place.handle) Status.linkTimeout.toNat
    let late := fun (m : Migration) => if moveRun m.id = r.run ∧ m.phase = 4 then { m with phase := 7 } else m
    let t : State := { t with objs := { t.objs with migrations := t.objs.migrations.map late } }
    (t.freeWait r).timeoutStep r.who r.bank r.run r.task k.dsts

/-- Requests outstanding through a port: the port to their package is fixed (R41). -/
def State.throughPort (s : State) (p : Nat) : List Req :=
  s.objs.reqs.filter fun r => r.remote && tfind s.links.routes r.place.pkg.toNat == some p

/-- A peer port goes down to a state: its outstanding requests time out, and PORTDOWN is reported (R42, R49, R66). -/
def State.peerDown (s : State) (p : Nat) (st : BitVec 2) (timeout : Bool) : State :=
  let rs := s.throughPort p
  let x := { s.peer p with st, timeout := (s.peer p).timeout || timeout, replay := [], txq := [], collective := [] }
  let t := (s.setPeer p x).portDownErr 0 p x.plstat
  rs.foldl (fun t r => if t.objs.reqs.any fun q => q.id == r.id then t.linkTimeout r else t) t

def execPortRxTimeout (p : BitVec 5) (s : State) : Host.Outcome State Fault Refusal :=
  let x := s.peer p.toNat
  if x.st ≠ 2 || s.now < x.lastRx + 2000 then .next s else .next (s.peerDown p.toNat 0 true)

def execRequestTimeout (id : U32) (s : State) : Host.Outcome State Fault Refusal :=
  match s.req? id.toNat with
  | none => .next s
  | some r => if r.remote && r.issued + 50000 ≤ s.now then .next (s.linkTimeout r) else .next s

/-- Training ends (R43): the counts of Table 2-5 start again, and both ends start their sequences and credits. -/
def execPeerPortTrained (p : BitVec 5) (nbr : BitVec 10) (s : State) : Host.Outcome State Fault Refusal :=
  let x := s.peer p.toNat
  if x.st ≠ 1 then .next s
  else .next (s.setPeer p.toNat { PeerPort.initial with st := 2, nbr, timeout := x.timeout, dis := x.dis, lastRx := s.now, sent := x.sent })

/-! ### Receipt of a flit (R39, R40) -/

/-- Flits that an ACK covers leave the replay buffer. -/
def PeerPort.acked (p : PeerPort) (ack : BitVec 10) : PeerPort :=
  { p with replay := p.replay.filter fun f => 512 ≤ (ack - hdrSeq f.hdr).toNat }

/-- A flit of type ty arrives on a port that is up; crc says that its CRC is right (log entry 12). A dropped flit is
counted and answered with a NAK; a flit out of order too; a repeated one is dropped. A flit accepted returns its credit. -/
def State.receive (s : State) (port ty : Nat) (h : Word) (crc : Bool) (f : State → State) : State :=
  let p := s.peer port
  if 18 ≤ port ∨ p.st ≠ 2 then s
  else
    let p := { p with lastRx := s.now }
    let nak := fun (s : State) => s.sendFlit port 10 p.nbr.toNat (.nak p.rxSeq)
    if !crc || !hdrOk ty h then nak (s.setPeer port { p with crcerr := if p.crcerr = 0xFF then 0xFF else p.crcerr + 1 })
    else if hdrSeq h ≠ p.rxSeq then
      if (hdrSeq h - p.rxSeq).toNat < 512 then nak (s.setPeer port p) else s.setPeer port p
    else
      let p := ({ p with rxSeq := p.rxSeq + 1 }.acked (hdrAck h)).drainTx
      let t := s.setPeer port p
      let t := if ty = 10 then t else t.sendFlit port 10 p.nbr.toNat (.credit (BitVec.ofNat 2 (hdrVc h)) 1)
      if (ty < 8 || ty = 9) && ty ≠ 0 && hdrDst h ≠ s.pkgNo then t else f t

/-- IDLE: an IDLE flit arrives, or, where none does, a port with nothing else to send sends one, which acknowledges (R40). -/
def execIdle (p : BitVec 5) (h : Option Word) (crc : Bool) (s : State) : Host.Outcome State Fault Refusal :=
  match h with
  | some h => .next (s.receive p.toNat 0 h crc id)
  | none =>
    let x := s.peer p.toNat
    if 18 ≤ p.toNat || x.st ≠ 2 || !x.txq.isEmpty then .next s else .next (s.sendFlit p.toNat 0 x.nbr.toNat .none)

/-- A NAK: the flits from SEQ on are sent again (R40). -/
def execLctlNak (p : BitVec 5) (h : Word) (crc : Bool) (seq : BitVec 10) (s : State) : Host.Outcome State Fault Refusal :=
  .next (s.receive p.toNat 10 h crc fun s =>
    let x := s.peer p.toNat
    let again := x.replay.filter fun f => (hdrSeq f.hdr - seq).toNat < 512
    s.setPeer p.toNat { x with
      sent := again.reverse ++ x.sent
      replays := BitVec.ofNat 16 (min 0xFFFF (x.replays.toNat + again.length)) })

def execLctlCredit (p : BitVec 5) (h : Word) (crc : Bool) (vc : BitVec 2) (n : BitVec 9) (s : State) :
    Host.Outcome State Fault Refusal :=
  .next (s.receive p.toNat 10 h crc fun s =>
    let x := s.peer p.toNat
    let c : Vector Nat 4 := .ofFn fun k => if k.val = vc.toNat then min 256 (x.credits[k] + n.toNat) else x.credits[k]
    s.setPeer p.toNat ({ x with credits := c } : PeerPort).drainTx)

/-- A flit of a collective waits in the port's buffer of 512 (R53). The spec does not say what becomes of one that finds the
buffer full: it is discarded, DESIGN CHOICE (log entry 82). -/
def State.blockFlit (s : State) (p : BitVec 5) (h : Word) (data : List Byte) : State :=
  let x := s.peer p.toNat
  if x.collective.length < 512 then
    s.setPeer p.toNat { x with collective := x.collective ++ [(BitVec.ofNat 10 (hdrSrc h), s.tether.toNat, data)] }
  else s

/-! ### Responses to remote requests (R44) -/

/-- The request that a response names. -/
def State.remoteReq? (s : State) (tag : U32) : Option Req := (s.req? tag.toNat).filter fun r => r.remote

/-- RDRSP: a loaded value, a line for a unit or a code cache, or an object-table entry. -/
def State.readResponse (s : State) (r : Req) (data : List Byte) : State :=
  let p := r.place
  let line := s.openLine p.handle p.va.toNat data
  let fill := fun (s : State) (rd : Nat) => if r.spoiled then s else s.farFill r.asker (s.entryAny r.unit p.handle) p rd data r.floor
  match r.kind with
  | .wload dst sg rd =>
    let bs := (line.drop (p.va.toNat % 64)).take p.bytes
    ((fill s rd.toNat).deliver r (Ctx.landS dst (extend sg (codeOfBytes p bs) p.width))).dropReq r
  | .lineFill key =>
    let t := (fill s p.idx.toNat).dropReq r
    { t with objs := { t.objs with lines := (key, p.handle, p.va.toNat / 64 * 64, line) :: t.objs.lines } }
  | .entryFill =>
    let t := (fill s 2).dropReq r
    match r.who with
    | .core f _ => t.cacheCode f.toNat p.handle (BitVec.ofNat 24 p.idx.toNat) line
    | .sys _ => t
  | .objEntry =>
    let t := s.dropReq r
    let u := t.hunit r.unit
    -- words 0 and 2 to 15: word 1 is never cached (R72)
    let words : Vector Word 16 := .ofFn fun k => if k.val = 0 then wordAt data 0 else if k.val = 1 then 0 else wordAt data (k.val - 1)
    t.setHunit r.unit { u with fills := u.fills.map fun f => if objKey f.handle == objKey p.handle then { f with remote := some words } else f }
  | .walkRead =>
    let t := s.dropReq r
    let u := t.hunit r.unit
    let got := some ((wordAt data 0).toNat, wordAt data 1, wordAt data 2 != 0)
    t.setHunit r.unit { u with walks := u.walks.map fun x => if x.va == p.va ∧ x.far = some p.pkg then { x with answer := got } else x }
  | .command ser (.query _) =>
    let t := s.dropReq r
    { t with objs := { t.objs with lines := (ser, p.handle, 0, data) :: t.objs.lines } }
  | .command ser _ =>
    -- the snapshot of an ATTN (R431)
    let got := fun (c : Cmd) =>
      if c.ser = ser then { c with started := true, snap := (List.range (data.length / 8)).map (wordAt (s.linkBytes p.handle 0 data))
                                   vs := c.vs ++ [BitVec.ofNat 64 r.id] } else c
    match r.who with
    | .core f _ => let k := s.bank f.toNat r.bank; (s.setBank f.toNat r.bank { k with xq := k.xq.map got }).dropReq r
    | .sys _ => s.dropReq r
  | _ => s

/-- RDRSP: the data of a read, or, with more set, a part of it (R37). -/
def execRdrsp (p : BitVec 5) (h : Word) (crc : Bool) (tag : U32 × Bool) (data : List Byte) (s : State) :
    Host.Outcome State Fault Refusal :=
  let more := tag.2
  let tag := tag.1
  .next (s.receive p.toNat 2 h crc fun s => match s.remoteReq? tag with
    | some r =>
      if more then
        let reqs := s.objs.reqs.map fun q => if q.id = r.id then { q with got := q.got ++ data } else q
        { s with objs := { s.objs with reqs } }
      else s.readResponse r (r.got ++ data)
    | none => s)

/-- A weak store to another package has performed: the copies in its cluster follow it (R201), and a store of path X, which
passes the Basin by, ends the core's copy. -/
def State.farWritten (s : State) (r : Req) : State :=
  let p := r.place
  match r.kind with
  | .wstore bs =>
    let t := (s.spoilFills r.unit p.handle p.va.toNat (bs.length)).l2Store r.unit p bs
    match r.who with
    | .core f _ => if r.path = .X then t.dropBasin f.toNat r.bank fun l => sameLine p.handle p.va.toNat l && l.dirty.isEmpty else t
    | .sys _ => t
  | _ => s

def execWrack (p : BitVec 5) (h : Word) (crc : Bool) (tag : U32) (s : State) : Host.Outcome State Fault Refusal :=
  .next (s.receive p.toNat 4 h crc fun s => match s.remoteReq? tag with
    | some r => match r.kind with
      | .wstore _ | .rawLine _ =>
        -- the copy of a handover ends with its last answer (R119)
        let t := (s.farWritten r).dropReq r
        { t with objs := { t.objs with migrations := t.objs.migrations.map fun m => if moveRun m.id = r.run then { m with since := s.now } else m } }
      | .inval _ _ | .command _ _ => s.dropReq r
      | _ => s
    | none => s)

/-- ATRSP: the answer of a strong access, an atomic, a version request or a decrement of another package. A draft or a
pin that the home grants is noted here, where the handle unit selects buffers (R225). -/
def State.atomicResponse (s : State) (r : Req) (status : Byte) (old : Word) : State :=
  let p := r.place
  let key := objKey p.handle
  let data := match r.kind with
    | .sload _ _ _ | .atomic _ _ _ _ | .fatomic _ _ _ | .cas _ _ _ _ _ | .casc _ _ _ _ _ _ | .seqq _ _ _ => true
    | _ => false
  -- a result comes under the owner's key (R104); the cluster's copy of the line of a strong access ends (R204)
  let old := if data then s.linkWord p.handle p.va.toNat old else old
  let touched := match r.kind with
    | .sload _ _ _ | .sstore _ _ | .atomic _ _ _ _ | .fatomic _ _ _ | .cas _ _ _ _ _ | .casc _ _ _ _ _ _ => true
    | _ => false
  let s := if touched then (s.spoilFills r.unit p.handle p.va.toNat 1).l2Drop r.unit p.pkg p.pa else s
  let land_ := fun (d : BitVec 5) (v : Word) => s.deliver r (Ctx.landS d v)
  match r.kind with
  | .sload d sg acq =>
    let t := land_ d (extend sg old.toNat p.width)
    (if acq then t.addAcquire r else t).dropReq r
  | .atomic _ _ _ (some d) | .fatomic _ _ (some d) | .verq d | .seqq _ _ d | .taskq _ _ d => (land_ d old).dropReq r
  | .cas w x _ d pd =>
    let n := if w then 64 else 32
    (s.deliver r fun c => Ctx.landP pd (old.toNat % 2 ^ n == x.toNat % 2 ^ n) (Ctx.landS d old c)).dropReq r
  | .casc _ _ _ _ _ _ => (s.answerCasc r (if status = 2 then none else some old.toNat) status.toNat).dropReq r
  | .openv =>
    let t := s.dropReq r
    { t with objs := { t.objs with drafts := tset t.objs.drafts key { task := r.task, since := t.objs.seq } } }
  | .pub =>
    let t := s.dropReq r
    { t with objs := { t.objs with
        drafts := t.objs.drafts.filter fun d => !(d.1 == key && d.2.task == r.task)
        stored := t.objs.stored.filter fun x => !(x.1 == r.task && x.2 == key) } }
  | .pinv v d =>
    let t := (land_ d old).dropReq r
    if old = 0 then
      let rest := t.objs.pins.filter fun q => !(q.index == key && q.run == r.run)
      { t with objs := { t.objs with pins := { index := key, version := v, run := r.run, since := t.objs.seq } :: rest } }
    else t
  | .unpv => (s.unpin key r.run).dropReq r
  | .versionRead k =>
    let t := s.dropReq r
    { t with objs := { t.objs with lines := (k, p.handle, versionLine + p.idx.toNat, toBytes 8 old.toNat) :: t.objs.lines } }
  | .command ser (.forward _ _) =>
    (s.dropReq r).noteEnd (fun c => omKey c.src == ser && c.words[1] == p.handle) old.toNat
  | .command ser _ =>
    -- the status of a command that executed at its home, or the cause that it raised there
    let cause := status.toNat
    let done := fun (c : Cmd) =>
      if c.ser = ser then { c with started := true, status := old, snap := if cause = 0 then c.snap else [BitVec.ofNat 64 cause] } else c
    match r.who with
    | .core f _ => let k := s.bank f.toNat r.bank; (s.setBank f.toNat r.bank { k with xq := k.xq.map done }).dropReq r
    | .sys _ => s.dropReq r
  | _ => s.dropReq r

def execAtrsp (p : BitVec 5) (h : Word) (crc : Bool) (tag : U32) (status : Byte) (old : Word) (s : State) :
    Host.Outcome State Fault Refusal :=
  .next (s.receive p.toNat 6 h crc fun s => match s.remoteReq? tag with
    | some r => s.atomicResponse r status old
    | none => s)

/-! ### Tether (R46 to R49) -/

/-- This package is the time master: its number is MASTER and EN is 1. -/
def State.isMaster (s : State) : Bool := s.links.master == s.pkg && s.links.tetherEn

/-- A TSYNC flit of the master corrects the counter; the master answers with its count. -/
def execTsync (p : BitVec 5) (h : Word) (crc : Bool) (count : Word) (rtt : U16) (s : State) : Host.Outcome State Fault Refusal :=
  .next (s.receive p.toNat 8 h crc fun s =>
    if s.isMaster then s.sendFlit p.toNat 8 (hdrSrc h) (.tsync s.tether)
    else if !s.links.tetherEn || hdrSrc h ≠ s.links.master.toNat then s
    else
      let est := count + BitVec.ofNat 64 (rtt.toNat / 2)
      let off := min (est - s.tether).toNat (s.tether - est).toNat
      let t : State := { s with tether := est, links := { s.links with skew := BitVec.ofNat 8 (min 255 off) } }
      if off ≤ 4 then { t with links := { t.links with lock := true } } else t.loseLock)

/-- Every 1 µs a TSYNC flit leaves on each port that is up. -/
def execTsyncTimer (s : State) : Host.Outcome State Fault Refusal :=
  if !s.links.tetherEn || s.now < s.links.lastTsync + 1000 then .next s
  else
    let s : State := { s with links := { s.links with lastTsync := s.now } }
    .next ((List.range 18).foldl (fun s n =>
    if (s.peer n).st = 2 then s.sendFlit n 8 (if s.isMaster then (s.peer n).nbr.toNat else s.links.master.toNat) (.tsync s.tether) else s) s)

/-- A write of TETHERCTL (Table 2-12, R49). Of a write whose MASTER is 576 or above, MASTER alone is ignored, and EN is
written: DESIGN CHOICE (log entry 82). A loss of lock that it commands ends the steps of running hop plans as any other
loss does (R48). -/
def State.writeTetherctl (s : State) (v : Word) : State :=
  let m := bits v.toNat 31 22
  let l := s.links
  let master := if 576 ≤ m then l.master else BitVec.ofNat 10 m
  let en := v.getLsbD 0
  let lock := l.lock && master == l.master && en
  let s := if l.lock && !lock then s.losePlans else s
  let t : State := { s with links := { l with master, tetherEn := en, lock } }
  if t.isMaster then { t with links := { t.links with lock := true } } else t

def execTetherctlWrite (v : Word) (s : State) : Host.Outcome State Fault Refusal := .next (s.writeTetherctl v)

def State.clearTetherstat (s : State) (v : Word) : State :=
  if v.getLsbD 1 then { s with links := { s.links with lostLock := false } } else s
def execTetherstatClear (v : Word) (s : State) : Host.Outcome State Fault Refusal := .next (s.clearTetherstat v)

def State.clearPlstat (s : State) (n : Nat) (v : Word) : State :=
  if v.getLsbD 3 then s.setPeer n { s.peer n with timeout := false } else s
def execPlstatClear (n : BitVec 5) (v : Word) (s : State) : Host.Outcome State Fault Refusal := .next (s.clearPlstat n.toNat v)

/-- DIS of PLCTLn (R49). -/
def State.writePlctl (s : State) (n : Nat) (dis : Bool) : State :=
  let p := s.peer n
  if 18 ≤ n then s
  else if dis then
    let t := s.setPeer n { p with dis := true }
    if p.st = 2 then t.peerDown n 3 false else t.setPeer n { p with dis := true, st := 3 }
  else if p.dis || p.st = 0 then s.setPeer n { p with dis := false, st := 1 } else s

def execPlctlDisable (n : BitVec 5) (s : State) : Host.Outcome State Fault Refusal := .next (s.writePlctl n.toNat true)
def execPlctlEnable (n : BitVec 5) (s : State) : Host.Outcome State Fault Refusal := .next (s.writePlctl n.toNat false)

end Sys2Proof.Machine
end

