-- ==== Sys2Proof/Machine/Migrate.lean ====
section
/-!
DEFINITION. Migration of segments (04_objects.md, R90 to R94, R210; 05_worlds.md, R118, R119): holding a segment, the
copy, invalidation of TLB entries and object-cache entries, handovers, and evictions.
-/

namespace Sys2Proof.Machine

open Sys2Proof

/-! ### Segments -/

def State.migration? (s : State) (id : Nat) : Option Migration := s.objs.migrations.find? fun m => m.id == id
def State.putMigration (s : State) (m : Migration) : State :=
  { s with objs := { s.objs with migrations := s.objs.migrations.map fun x => if x.id = m.id then m else x } }
def State.dropMigration (s : State) (m : Migration) : State :=
  { s with objs := { s.objs with migrations := s.objs.migrations.filter fun x => x.id ≠ m.id } }

def Migration.size (m : Migration) : Nat := if m.large then 2097152 else 65536
/-- The number under which frames of a tier are kept (R97): tier and PFN. -/
def frameKey (tier pfn : Nat) : Nat := tier * 2 ^ 40 + pfn
/-- The frames of a segment are returned, and zero-pending. -/
def State.freeSegment (s : State) (leaf : Word) (large : Bool) : State :=
  if leafTier leaf = 3 then s
  else
    let ks := (List.range (if large then 32 else 1)).map fun j => frameKey (leafTier leaf) (leafPfn leaf + j)
    { s with objs := { s.objs with freeFrames := ks ++ s.objs.freeFrames.filter fun k => !ks.contains k } }
/-- Frames that an allocation takes are zeroed first (R97, R98). -/
def State.takeFrames (s : State) (tier pfn n : Nat) : State :=
  let ks := (List.range n).map fun j => frameKey tier (pfn + j)
  { s with mem := mzero s.mem (frameBase tier 0 pfn) (n * 65536)
           objs := { s.objs with freeFrames := s.objs.freeFrames.filter fun k => !ks.contains k } }

/-- Every copy of lines [va, va + n) of an object in a Basin or an L2 of this package is written back, by requests that
count in BUSY, and invalidated (R91); lines on their way fill no cache. -/
def State.recallHere (s : State) (h : Word) (va n : Nat) : State :=
  let in_ := fun (l : BasinLine) => l.handle == h && va / 64 * 64 ≤ l.va.toNat && l.va.toNat < va + n
  let s := s.cores.foldl (fun s c => ([0, 1] : List (BitVec 1)).foldl (fun s b => (s.flushBasin c.1 b in_).dropBasin c.1 b in_) s) s
  let s := (List.range 41).foldl (fun s u => s.spoilFills u h va n) s
  s.l2DropAll fun l => l.handle == h && va / 64 * 64 ≤ l.va && l.va < va + n

/-- R91 steps 1 and 2: HOLD is set, and every copy of the segment's lines is written back and invalidated, across the
domain. -/
def State.hold (s : State) (m : Migration) : State :=
  let s := s.setLeaf m.leafPa fun l => putBits l 60 60 1
  let s := (s.recallHere m.handle m.va.toNat m.size).recallFar m.handle m.va.toNat m.size
  { s with objs := { s.objs with migrations := s.objs.migrations ++ [m] } }

/-- Start to move the segment at va of an object to a tier and frame, or to another package. -/
def State.startMove (s : State) (h : Word) (va leafPa : Nat) (large : Bool) (tier pkg pfn : Nat) (why : MigrWhy) : State :=
  let id := s.objs.nextReq
  let s : State := { s with objs := { s.objs with nextReq := id + 1 } }
  s.hold { id, handle := h, va := BitVec.ofNat 52 va, large, leafPa, tier := BitVec.ofNat 2 tier, pkg := BitVec.ofNat 10 pkg,
           pfn := BitVec.ofNat 32 pfn, phase := 1, since := s.now, why }

/-- HOLD clears: the held requests of the segment go on in the order of arrival. -/
def State.unhold (s : State) (m : Migration) : State :=
  let s := s.setLeaf m.leafPa fun l => putBits l 60 60 0
  let in_ := fun (w : Waiter) => m.va.toNat ≤ w.va.toNat && w.va.toNat < m.va.toNat + m.size
  { s with objs := { s.objs with units := s.objs.units.map fun u => (u.1, ({ u.2 with held := u.2.held.filter fun w => !in_ w } : HandleUnit)) } }

/-- The end of a migration reaches whoever asked for it: 0 done, 1 aborted, 2 lost. -/
def State.moveDone (s : State) (m : Migration) (how : Nat) : State :=
  match m.why with
  | .command src =>
    let st := if how = 0 then Status.ok else if how = 1 then Status.omBusy else Status.objLost
    let note := fun (c : OmCmd) => if c.src = src ∧ c.started ∧ st ≠ Status.ok then { c with result := st } else c
    let first := fun (c : OmCmd) => c.src == src && c.started && bits c.words[0].toNat 63 56 == 0x14 && c.words[1] == m.handle
    { s with host := { s.host with cmds := lmap1 first note s.host.cmds, omcalls := lmap1 first note s.host.omcalls } }
  | .instr n dst =>
    let c := s.sysCore n.toNat
    -- MIGR has no status for an aborted handover: the value is free
    let v := if how = 0 then 0 else if how = 2 then 2 else Config.freeWord s.free
    let s := if how = 1 then { s with free := s.free + 1 } else s
    s.setSys n.toNat { c with ctx := c.ctx.landS dst v }
  | _ => s

/-- The task of the parked step that waits for a segment (R94). -/
def State.waitingTask (s : State) (va n : Nat) : Word :=
  ((s.cores.flatMap fun c => ([0, 1] : List (BitVec 1)).filterMap fun b =>
      (c.2.bank b).fault.bind fun fi => if fi.cause = Cause.objMissing ∧ va ≤ fi.va.toNat ∧ fi.va.toNat < va + n then some fi.task else none).head?).getD 0

/-- The pool blocks of 64 KiB that lie in a segment. -/
def Migration.blocks (m : Migration) : List Nat := (List.range (m.size / 65536)).map fun j => m.va.toNat + 65536 * j

/-- The object that a page belongs to, with its entry. -/
def State.objectAt (s : State) (va : Nat) : Option (Word × Entry) :=
  s.heldObjects.find? fun x => eVbase x.2 ≤ va && va < eVbase x.2 + eBufs x.2 * eSpan x.2

/-- A frame lies within the capacity of its tier, on striped groups where it must (R83), and holds no segment, nor is
one on its way there. -/
def State.frameFree (s : State) (tier pfn : Nat) : Bool :=
  (match tier with
    | 0 => pfn / 65536 < 192
    | 1 => pfn < 2 ^ 24
    | _ => s.links.cxl.any fun p => p.2.covers pfn)
  && (s.segmentsWhere fun l => leafTier l == tier && leafPfn l ≤ pfn && pfn < leafPfn l + 32).all (fun x =>
      let l := s.leafNow x.2.2
      let big := (s.objectAt x.2.1).any fun o => eLarge o.2
      !(leafPfn l ≤ pfn && pfn < leafPfn l + (if big then 32 else 1)))
  && s.objs.migrations.all fun m => m.pkg ≠ s.pkg || m.tier.toNat ≠ tier || !(m.pfn.toNat ≤ pfn && pfn < m.pfn.toNat + m.size / 65536)

/-- Frames of a list that an allocation may take: free, of the page size, and no two alike. -/
def State.framesOk (s : State) (tier : Nat) (large : Bool) (l : List Nat) : Bool :=
  l.eraseDups.length == l.length
    && l.all fun p => (!large || p % 32 == 0) && (List.range (if large then 32 else 1)).all fun j => s.frameFree tier (p + j)

/-- The group's mode may be set: it is already so, or no segment lies in the group. -/
def State.modeOk (s : State) (striped : Bool) (pfn : Nat) : Bool :=
  s.objs.striped.contains (groupOf pfn) == striped
    || (s.segmentsWhere fun l => leafTier l == 0 && groupOf (leafPfn l) == groupOf pfn).isEmpty
def State.setMode (s : State) (striped : Bool) (pfn : Nat) : State :=
  let rest := s.objs.striped.filter (· ≠ groupOf pfn)
  { s with objs := { s.objs with striped := if striped then groupOf pfn :: rest else rest } }

/-- The addresses that a walk to a page reads. -/
def State.walkAddrs (s : State) (va : Nat) : List Nat :=
  let rd := fun a => bits (mword s.mem a).toNat 39 5 * 32
  let a1 := s.objs.ptRoot.toNat + 8 * (ptIndex va 1).1
  let a2 := rd a1 + 8 * (ptIndex va 2).1
  let a3 := rd a2 + 8 * (ptIndex va 3).1
  a1 :: match s.walkTables va with
    | .ok (a, l, large) => [a2, a3, a, leafPaOf l large va]
    | .error 1 => []
    | .error 2 => [a2]
    | .error _ => [a2, a3]
/-- The object manager reaches pages: their tables, leaves and frames (R22). -/
def State.touchPages (s : State) (vas : List Nat) : State :=
  (vas.flatMap s.walkAddrs).foldl State.touchStack s

/-- The entry of an object with segments here. -/
def State.entryHere (s : State) (h : Word) : Entry :=
  if hHome h = s.pkgNo then s.entryInMem (hIndex h)
  else ((s.objs.guests.find? fun g => objKey g.1 == objKey h).map fun g => g.2).getD default

/-- R91 steps 4 to 6 within the package: the bytes move, the leaf is rewritten, TLB entries go, HOLD clears, and the old
frame is zero-pending. A flash segment keeps its block (R89). -/
def State.moveHere (s : State) (m : Migration) : State :=
  let leaf := s.leafNow m.leafPa
  let e := s.entryHere m.handle
  let old := leafPaOf leaf m.large m.va.toNat
  let s := (s.touchPages [m.va.toNat]).touchStack (frameBase m.tier.toNat 0 m.pfn.toNat)
  let s := if leafTier leaf = 0 ∧ m.tier ≠ 0 then
      m.blocks.foldl (fun s va => s.tagBlock m.handle e va (old + (va - m.va.toNat))) s else s
  let back := tfind s.objs.flashHome m.leafPa
  let toFlash := back.isSome && m.tier ≠ 0
  let s :=
    if toFlash then s
    else
      let bytes := mread s.mem old m.size
      let s := s.takeFrames m.tier.toNat m.pfn.toNat (m.size / 65536)
      let s := if m.tier = 0 then s.setMode (eCompute e || eLayout e == 2) m.pfn.toNat else s
      { s with mem := mwrite s.mem (frameBase m.tier.toNat 0 m.pfn.toNat) bytes }
  let s := if leafTier leaf = 3 then { s with objs := { s.objs with flashHome := tset s.objs.flashHome m.leafPa leaf } }
    else if toFlash then { s with objs := { s.objs with flashHome := tdel s.objs.flashHome m.leafPa } } else s
  let s := s.setLeaf m.leafPa fun l =>
    match back with
    | some b => if toFlash then putBits (putBits b.toNat 60 60 1) 55 40 (bits l 55 40)
                else putBits (putBits (putBits l 62 61 m.tier.toNat) 34 32 0) 31 0 m.pfn.toNat
    | none => putBits (putBits (putBits l 62 61 m.tier.toNat) 34 32 0) 31 0 m.pfn.toNat
  let s := (s.leafChanged m.va.toNat m.size).freeSegment leaf m.large
  let s := s.unhold m
  let s := if m.tier = 0 ∧ leafTier leaf ≠ 0 then
      m.blocks.foldl (fun s va => s.checkBlock m.handle e va (frameBase 0 0 m.pfn.toNat + (va - m.va.toNat)) (leafTier leaf)
        (s.waitingTask m.va.toNat m.size)) s else s
  ((s.dropMigration m).moveDone m 0)

/-! ### Handover to another package (R118, R119)

Its messages (log entry 48), with the number of the handover first: 0 KEYXFER, 1 accepted, 2 refused, 3 DATAOK, 4 REBIND,
5 CONFIRM, 6 erase, 7 the segment that the copy brings, 8 the source has erased its copy and asks the home to rebind, 9 the home
is done, 10 the object is lost, 11 a report is asked for, 12 the EK and DEVID of the report. The arrival of 1, 2, 3 and 5 is an
event of its own. -/

def State.sendHand (s : State) (dst step : Nat) (h : Word) (args : List Nat) (data : List Byte := []) : State :=
  s.sendReq dst { plainReq .C (.handover (BitVec.ofNat 4 step) (args.map (BitVec.ofNat 64)) data) with handle := h }
def Migration.args (m : Migration) : List Nat := [m.id, m.va.toNat, m.size]

/-- The stored bytes of the segment leave for D, line by line, over the X path. -/
def State.sendSegment (s : State) (m : Migration) : State :=
  let pa := leafPaOf (s.leafNow m.leafPa) m.large m.va.toNat
  (List.range (m.size / 64)).foldl (fun s j =>
    let va := m.va.toNat + 64 * j
    s.issueReq { id := 0, unit := 40, who := .sys 0, bank := 0, run := moveRun m.id, task := 0, world := BitVec.ofNat 8 (hWorld m.handle), path := .X,
                 ord := 0, issued := s.now, place := { noPlace m.handle m.pkg with va := BitVec.ofNat 52 va, width := 512 },
                 floor := 0, fences := [], kind := .rawLine (mread s.mem (pa + 64 * j) 64), remote := true })
    (s.sendHand m.pkg.toNat 7 m.handle m.args)

/-- The handover stops: the source goes on as before (Table 5-7). -/
def State.abortMove (s : State) (m : Migration) : State :=
  (((s.unhold m).dropMigration m).sendHand m.pkg.toNat 6 m.handle m.args).moveDone m 1

/-- The world has a segment on this package beside those that p names. -/
def State.worldHasSegment (s : State) (w : Nat) (p : Nat → Bool) : Bool :=
  s.heldObjects.any fun x => hWorld x.1 == w && (s.segments x.2).any fun y => !p y.2.1

/-! ### Events -/

/-- MIGRATION_BUSY_ZERO. -/
def execMigrationBusyZero (id : U32) (s : State) : Host.Outcome State Fault Refusal :=
  match s.migration? id.toNat with
  | none => .next s
  | some m =>
    let leaf := s.leafNow m.leafPa
    if m.phase ≠ 1 || leafBusy leaf ≠ 0 || s.recallOpen m.va.toNat m.size then .next s
    else if m.pkg = s.pkg then
      let s := s.putMigration { m with phase := 2, since := s.now }
      -- a flash segment is read by an NVMe command (R34)
      if leafTier leaf = 3 then
        .next (s.nvmeIssue (leafPort leaf) (m.id % 32768) .read)
      else .next s
    else if hWorld m.handle = 0 then .next ((s.putMigration { m with phase := 4, since := s.now }).sendSegment m)
    else .next ((s.putMigration { m with phase := 3, since := s.now }).sendHand m.pkg.toNat 11 m.handle m.args)

/-- MIGRATION_COPY_DONE. -/
def execMigrationCopyDone (id : U32) (s : State) : Host.Outcome State Fault Refusal :=
  match s.migration? id.toNat with
  | none => .next s
  | some m =>
    let leaf := s.leafNow m.leafPa
    let reading := leafTier leaf == 3 && (s.flashPort (leafPort leaf)).nvmeOpen (m.id % 32768)
    if m.phase ≠ 2 || reading then .next s
    else if !hasStorage (frameBase m.tier.toNat 0 m.pfn.toNat) then .fault (.noStorage (frameBase m.tier.toNat 0 m.pfn.toNat))
    else .next (s.moveHere m)

/-- HANDOVER_KEYXFER_ANSWER. -/
def execHandoverKeyxferAnswer (id : U32) (ok : Bool) (s : State) : Host.Outcome State Fault Refusal :=
  match s.migration? id.toNat with
  | none => .next s
  | some m =>
    if m.phase ≠ 3 then .next s
    else if ok then .next ((s.putMigration { m with phase := 4, since := s.now }).sendSegment m)
    else .next (s.abortMove m)

/-- Replica 0 of the shard at va is now on package d: in the shard map, or noted for an object without one. -/
def State.rebind (s : State) (h : Word) (e : Entry) (src d : Nat) : State :=
  if eShards e = 1 ∧ eReps e = 1 then
    let rest := tdel s.objs.away (objKey h)
    { s with objs := { s.objs with away := if d = s.pkgNo then rest else tset rest (objKey h) d } }
  else
    match (List.range (eShards e)).find? fun k => s.smapAt h e (k * eReps e) == src with
    | none => s
    | some k =>
      let m := eSmap e
      let me := s.entryInMem (hIndex m)
      let va := mapVa me (k * eReps e)
      match s.walkTables va with
      | .ok (_, leaf, large) =>
        let pa := leafPaOf leaf large va
        ((s.touchStack pa).perform m { run := 0, task := 0, path := .C, ord := 0 } ((pa : Int) - va) (bytesAt va (toBytes 2 d))).entryChanged m
      | .error _ => s

/-- The home rewrites its map, and sends REBIND with the entry, whose number of the handover is that of m (R118 step 5). -/
def State.sendRebind (s : State) (m : Migration) (src : Nat) : State :=
  let e := s.entryInMem (hIndex m.handle)
  let s := s.rebind m.handle e src m.pkg.toNat
  (s.putMigration { m with phase := 5, since := s.tether.toNat }).sendHand m.pkg.toNat 4 m.handle m.args (bytesOfWords (e.toList.eraseIdx 1))

/-- HANDOVER_DATAOK: the source erases its copy, and slot w if it held the last segment of w; the home then rebinds, which
may be another package. -/
def execHandoverDataok (id : U32) (s : State) : Host.Outcome State Fault Refusal :=
  match s.migration? id.toNat with
  | none => .next s
  | some m =>
    if m.phase ≠ 4 then .next s
    else
      let leaf := s.leafNow m.leafPa
      let w := hWorld m.handle
      let last := w ≠ 0 && !s.worldHasSegment w fun a => a == m.leafPa
      let s := s.freeSegment leaf m.large
      let s := if last then s.eraseKey w else s
      if hHome m.handle = s.pkgNo then .next (s.sendRebind m s.pkgNo)
      else .next ((s.putMigration { m with phase := 5, since := s.tether.toNat }).sendHand (hHome m.handle) 8 m.handle (m.args ++ [m.pkg.toNat]))

/-- The source's end of a handover that has rebound: its leaf goes, HOLD clears, and the held requests go on, to D. -/
def State.leaveMove (s : State) (m : Migration) : State :=
  let s := (s.unhold m).setLeaf m.leafPa fun l => putBits l 63 63 0
  ((s.leafChanged m.va.toNat m.size).dropMigration m).moveDone m 0
/-- The source's end of a handover that is lost: the held requests go on, and fault. -/
def State.loseMove (s : State) (m : Migration) : State :=
  (s.unhold (m)).setLeaf m.leafPa fun l => putBits l 59 59 1

/-- No CONFIRM within the handover timeout: the object becomes LOST, and a source that is another package is told (R119). -/
def State.handoverLost (s : State) (m : Migration) : State :=
  match m.why with
  | .relay src id => ((s.loseObject m.handle).putMigration { m with phase := 6 }).sendHand src.toNat 10 m.handle [id]
  | _ => (((s.loseMove m).loseObject m.handle).putMigration { m with phase := 6 }).moveDone m 2

/-- The handover timeout of 5 ms has passed since REBIND (R119). -/
def State.handoverLate (s : State) (m : Migration) : Bool := m.since + 5000000 ≤ s.tether.toNat

/-- HANDOVER_CONFIRM: the home ends the handover; one that comes after the timeout finds the object LOST, and D is sent an
erase. -/
def execHandoverConfirm (id : U32) (s : State) : Host.Outcome State Fault Refusal :=
  match s.migration? id.toNat with
  | none => .next s
  | some m =>
    let erase := fun (s : State) => (s.dropMigration m).sendHand m.pkg.toNat 6 m.handle m.args
    if hHome m.handle ≠ s.pkgNo then .next s
    else if m.phase = 6 then .next (erase s)
    else if m.phase ≠ 5 then .next s
    else if s.handoverLate m then .next (erase (s.handoverLost m))
    else
      match m.why with
      | .relay src id => .next ((s.dropMigration m).sendHand src.toNat 9 m.handle [id])
      | _ => .next (s.leaveMove m)

/-- HANDOVER_STEP_TIMEOUT: the copy has timed out, or 1 ms has passed without the answer to KEYXFER, or without DATAOK since
the copy's end. -/
def execHandoverStepTimeout (id : U32) (s : State) : Host.Outcome State Fault Refusal :=
  match s.migration? id.toNat with
  | none => .next s
  | some m =>
    let copying := s.objs.reqs.any fun q => q.run == moveRun m.id
    if m.phase = 7 || ((m.phase = 3 || (m.phase = 4 && !copying)) && m.since + 1000000 ≤ s.now) then .next (s.abortMove m) else .next s

/-- HANDOVER_TIMEOUT: no CONFIRM within 5 ms of REBIND; the object is lost. -/
def execHandoverTimeout (id : U32) (s : State) : Host.Outcome State Fault Refusal :=
  match s.migration? id.toNat with
  | none => .next s
  | some m => if m.phase ≠ 5 || hHome m.handle ≠ s.pkgNo || !s.handoverLate m then .next s else .next (s.handoverLost m)

/-! ### The destination of a handover (R118) -/

/-- Tables that mapping these pages takes: one for each missing entry of a level (R84). -/
def State.tablesFor (s : State) (vas : List Nat) : Nat :=
  let missing := fun (level unit : Nat) => ((vas.filter fun va => match s.walkTables va with
    | .error l => l ≤ level
    | .ok _ => false).map (· / unit)).eraseDups.length
  missing 1 (2 ^ 42) + missing 2 (2 ^ 33) + missing 3 (2 ^ 23)

/-- The addresses given for new tables are enough, apart, and aligned to the size of any table (R84). -/
def State.tabsOk (s : State) (vas : List Nat) (tabs : List (BitVec 40)) : Bool :=
  s.tablesFor vas ≤ tabs.length && tabs.eraseDups.length == tabs.length && tabs.all fun t => t.toNat % 8192 == 0 && t ≠ 0

/-- Write a mapping of a page: tables that are missing take the addresses given, in the order of need, and start zero. -/
def State.mapPage (s : State) (va : Nat) (large : Bool) (leaf : Word) (tabs : List (BitVec 40)) : State × List (BitVec 40) :=
  let dir := fun (s : State) (a sz len : Nat) (tabs : List (BitVec 40)) =>
    if bit (mword s.mem a).toNat 63 then (s, bits (mword s.mem a).toNat 39 5 * 32, tabs)
    else
      let p := (tabs.headD 0).toNat / len * len
      (({ s with mem := mputWord (mzero s.mem p len) a (BitVec.ofNat 64 (2 ^ 63 + sz * 2 ^ 62 + p)) } : State), p, tabs.drop 1)
  let d1 := dir s (s.objs.ptRoot.toNat + 8 * (ptIndex va 1).1) 0 4096 tabs
  let d2 := dir d1.1 (d1.2.1 + 8 * (ptIndex va 2).1) 0 8192 d1.2.2
  let d3 := dir d2.1 (d2.2.1 + 8 * (ptIndex va 3).1) (b2n large) (if large then 32 else 1024) d2.2.2
  let a := d3.2.1 + 8 * (if large then bits va 22 21 else bits va 22 16)
  ({ d3.1 with mem := mputWord d3.1.mem a leaf }, d3.2.2)

/-- The entry of an object of another package, from words 0 and 2 to 15. -/
def entryOfWords (ws : List Word) : Entry := .ofFn fun k => if k.val = 0 then ws.getD 0 0 else if k.val = 1 then 0 else ws.getD (k.val - 1) 0
/-- A package that holds segments of an object of another package keeps its entry. -/
def State.noteGuest (s : State) (h : Word) (e : Entry) : State :=
  if hHome h = s.pkgNo then s
  else { s with objs := { s.objs with guests := (h, e) :: s.objs.guests.filter fun g => objKey g.1 ≠ objKey h } }

def Incoming.covers (x : Incoming) (va : Nat) : Bool := x.va ≤ va && va < x.va + x.size

/-- A line of a segment on its way here: with the last one, the data is accepted (R118 step 3). -/
def State.stashLine (s : State) (va : Nat) (bs : List Byte) : State :=
  match s.objs.incoming.find? fun x => x.covers va with
  | none => s
  | some x =>
    let stash := s.objs.stash ++ [(va, bs)]
    let s : State := { s with objs := { s.objs with stash } }
    if (stash.filter fun l => x.covers l.1).length * 64 = x.size then s.sendHand x.src.toNat 3 x.handle [x.id] else s

/-- D gives up a segment: its bytes and frames go, and slot w if D holds no other object of w (R119). -/
def State.dropIncoming (s : State) (h : Word) (va size : Nat) : State :=
  let w := hWorld h
  let s : State := { s with objs := { s.objs with
    incoming := s.objs.incoming.filter fun x => x.va ≠ va
    stash := s.objs.stash.filter fun l => !(va ≤ l.1 && l.1 < va + size) } }
  let s := match s.walkTables va with
    | .ok (a, leaf, large) => ((s.freeSegment leaf large).setLeaf a fun l => putBits l 63 63 0).leafChanged va size
    | .error _ => s
  if w ≠ 0 && !s.worldHasSegment w (fun _ => false) && !(s.objs.incoming.any fun x => hWorld x.handle == w) then s.eraseKey w else s

/-- A message of a handover arrives from package src. -/
def State.serveHandover (s : State) (src step : Nat) (h : Word) (args : List Word) (data : List Byte) : State :=
  let arg := fun k => (args.getD k 0).toNat
  let mine := s.migration? (arg 0)
  match step with
  | 0 =>
    let x := keyTransfer data s
    x.1.sendHand src (if x.2.1 = SecStatus.ok then 1 else 2) h [arg 0]
  | 4 =>
    let bound := fun (x : Incoming) => if x.va = arg 1 ∧ x.handle = h then { x with rebind := some (BitVec.ofNat 10 src, arg 0) } else x
    let s : State := { s with objs := { s.objs with incoming := s.objs.incoming.map bound } }
    s.noteGuest h (entryOfWords ((List.range 15).map (wordAt data)))
  | 6 => s.dropIncoming h (arg 1) (arg 2)
  | 7 =>
    let x : Incoming := { src := BitVec.ofNat 10 src, id := arg 0, handle := h, va := arg 1, size := arg 2, rebind := none }
    { s with objs := { s.objs with incoming := x :: s.objs.incoming.filter fun x => x.va ≠ arg 1 } }
  | 8 =>
    let m : Migration := { id := s.objs.nextReq, handle := h, va := BitVec.ofNat 52 (arg 1), large := arg 2 == 2097152, leafPa := 0, tier := 0,
                           pkg := BitVec.ofNat 10 (arg 3), pfn := 0, phase := 5, since := 0, why := .relay (BitVec.ofNat 10 src) (arg 0) }
    if hHome h ≠ s.pkgNo then s
    else ({ s with objs := { s.objs with nextReq := s.objs.nextReq + 1, migrations := s.objs.migrations ++ [m] } } : State).sendRebind m src
  | 9 => match mine with
    | some m => s.leaveMove m
    | none => s
  | 10 => match mine with
    | some m => ((s.loseMove m).dropMigration m).moveDone m 2
    | none => s
  | 11 => s.sendHand src 12 h [arg 0] (s.bootEk ++ devIdBytes s)
  | 12 =>
    match mine, tfind s.sec.keys (hWorld h) with
    | some m, some kw =>
      if m.phase ≠ 3 then s
      else
        ({ s with free := s.free + 1 } : State).sendHand src 0 h [arg 0]
          (keyRequest (data.take 1568) (data.drop 1568) kw (BitVec.ofNat 8 (hWorld h)) s.free)
    | _, _ => s
  | _ => s

/-- A page of an object of another package that has to be mapped here: one that arrives and has been rebound, or one of a new
object, which starts zero (R80, R118). -/
def State.mapDue (s : State) (va : Nat) : Option (Nat × Word × Option Incoming) :=
  match s.objs.incoming.find? fun x => x.va = va ∧ x.rebind.isSome with
  | some x => some (x.size, x.handle, some x)
  | none =>
    match s.objectAt va, s.walkTables va with
    | some (h, e), .error _ =>
      if hHome h = s.pkgNo || va % ePage e ≠ 0 || (s.objs.incoming.any fun x => x.covers va) then none else some (ePage e, h, none)
    | _, _ => none

/-- HANDOVER_REBIND at D: the object manager maps the page at va to a frame of its choice, over the bytes that have arrived,
and confirms to the home. -/
def execHandoverRebind (va : BitVec 52) (leaf : Word) (al : Alloc) (s : State) : Host.Outcome State Fault Refusal :=
  let base := va.toNat
  let tier := leafTier leaf
  let pfn := leafPfn leaf
  match s.mapDue base with
  | none => .next s
  | some (size, h, x) =>
    let large := size == 2097152
    let e := s.entryHere h
    let striped := eCompute e || eLayout e == 2
    let pa := frameBase tier 0 pfn
    if tier = 3 || !s.tabsOk [base] al.tabs || !s.framesOk tier large [pfn] || (tier = 0 && !s.modeOk striped pfn) then .next s
    else if !hasStorage pa then .fault (.noStorage pa)
    else
      let mine := fun (l : Nat × List Byte) => base ≤ l.1 && l.1 < base + size
      let s := s.takeFrames tier pfn (size / 65536)
      let s := if tier = 0 then s.setMode striped pfn else s
      let s := { s with mem := (s.objs.stash.filter mine).foldl (fun (m : Memory) (l : Nat × List Byte) => mwrite m (pa + (l.1 - base)) l.2) s.mem }
      let s : State := { s with objs := { s.objs with
        stash := s.objs.stash.filter fun l => !mine l
        incoming := s.objs.incoming.filter fun y => y.va ≠ base } }
      let s := (s.mapPage base large (BitVec.ofNat 64 (2 ^ 63 + tier * 2 ^ 61 + pfn)) al.tabs).1
      let s := (s.leafChanged base size).touchPages [base]
      match x.bind fun y => y.rebind with
      | some (home, id) => .next (s.sendHand home.toNat 5 h [id])
      | none => .next s

/-! ### Eviction and access bits (R93, R210) -/

/-- A segment qualifies as a victim: BUSY 0, HOLD 0, not PINNED, no pin of an ATTN on it. -/
def State.qualifies (s : State) (h : Word) (e : Entry) (va : Nat) (leaf : Word) : Bool :=
  let blk := fun (p : SpanPin) => eVbase e + qPool e + p.blk * 65536
  leafTier leaf < 2 && leafBusy leaf == 0 && !leafHold leaf && !leafLost leaf && !ePinned e
    && !(eKind e == 1 && (s.spanPins h).any fun p => va ≤ blk p && blk p < va + ePage e)

/-- Sample at which a page was last used. -/
def State.usedAt (s : State) (va : Nat) : Nat := tget s.objs.lastUse 0 va

/-- A segment of a tier that can qualify as a victim at some time: it is not PINNED, nor lost (R93). -/
def State.mayQualify (s : State) (tier : Nat) : Bool :=
  s.heldObjects.any fun x => !ePinned x.2 && (s.segments x.2).any fun y => leafTier y.2.2 == tier && !leafLost y.2.2

/-- Frames of a tier that an allocation may take, by their count. -/
def State.framesLeft (s : State) (tier : Nat) (large striped : Bool) : Nat :=
  let all := match tier with
    | 0 => List.range (192 * 65536)
    | 1 => List.range (2 ^ 24)
    | _ => s.links.cxl.flatMap fun (p : Nat × TierPort) => p.2.extents.flatMap fun (x : CxlRange) => (List.range x.len).map (x.base + ·)
  (all.eraseDups.filter fun p => s.framesOk tier large [p] && (tier ≠ 0 || s.modeOk striped p)).length

/-- No candidate in HBM can ever give the frame that the promotion for a parked bank needs: the faulting task is killed (R93). -/
def State.noSpace (s : State) (f : Nat) (b : BitVec 1) : State :=
  let k := s.bank f b
  match k.fault with
  | none => s
  | some fi =>
    match s.objectAt fi.va.toNat with
    | none => s
    | some (_, e) =>
      if k.st = .parked ∧ fi.cause = Cause.objMissing ∧ s.framesLeft 0 (eLarge e) (eCompute e || eLayout e == 2) = 0 ∧ !s.mayQualify 0 then
        s.killParked f b fi Cause.objNoSpace
      else s

/-- EVICTION: the least recently used qualifying segment of its tier is demoted to a free frame of the next tier; or, named by
the bank whose promotion needs the space, no segment ever qualifies. -/
def execEviction (victim : BitVec 52) (pfn : U32 × Option (BitVec 9 × BitVec 1)) (s : State) : Host.Outcome State Fault Refusal :=
  let none_ := pfn.2
  let pfn := pfn.1
  match none_ with
  | some (f, b) => .next (s.noSpace f.toNat b)
  | none =>
    match s.objectAt victim.toNat, s.walkTables victim.toNat with
    | some (h, e), .ok (a, leaf, large) =>
      let page := victim.toNat / ePage e * ePage e
      let others := s.heldObjects.any fun x =>
        (s.segments x.2).any fun y => leafTier y.2.2 == leafTier leaf && s.qualifies x.1 x.2 y.1 y.2.2 && s.usedAt y.1 < s.usedAt page
      if !s.qualifies h e page leaf || others || !s.framesOk (leafTier leaf + 1) large [pfn.toNat] then .next s
      else .next (s.startMove h page a large (leafTier leaf + 1) s.pkgNo pfn.toNat .evict)
    | _, _ => .next s

/-- ACCESS_BIT_SAMPLE, every 1 ms of TETHERCNT. -/
def execAccessBitSample (s : State) : Host.Outcome State Fault Refusal :=
  if s.tether.toNat < s.objs.lastSampleNs + 1000000 then .next s
  else
    let n := s.objs.samples + 1
    let used := s.objs.units.flatMap fun u => (u.2.tlb.filter fun t => t.access && t.far.isNone).map fun t => t.va.toNat
    let units := s.objs.units.map fun u => (u.1, ({ u.2 with tlb := u.2.tlb.map fun t => { t with access := false } } : HandleUnit))
    .next { s with objs := { s.objs with samples := n, lastSampleNs := s.tether.toNat, units
                                         lastUse := used.foldl (fun t va => tset t va n) s.objs.lastUse } }

/-- MEMORY_SCRUB: every line of a slice is read and corrected; corrected errors are silent (R257, R258). -/
def execMemoryScrub (_slice : Byte) (s : State) : Host.Outcome State Fault Refusal := .next s

end Sys2Proof.Machine
end

