-- ==== Sys2Proof/Machine/Gang.lean ====
section
/-!
DEFINITION. Multi-package gangs (R67, R68, R144): what a member and the coordinator do with each message and timer.
-/

namespace Sys2Proof.Machine

open Sys2Proof

/-! ### The member -/

/-- The task record that a membership reserves. -/
def State.memberTask (s : State) (g : GangHere) : Option Word :=
  (tfind (s.unit g.unit).tasks g.index).map fun k => taskIdOf k.seq.toNat s.pkgNo g.unit g.index

/-- A member releases its reservation: the record, the core and the credit. -/
def State.releaseMember (s : State) (g : GangHere) : State :=
  let s := match s.memberTask g with
    | some t => s.freeTask t
    | none => s
  (s.dropMember g.src g.gid).dropCredits (lrCq g.lr) 1

/-- A core that a member can hold: within the masks, free, and held by nobody. The lowest-numbered one is reserved, and it
takes nothing else from the prepare on: DESIGN CHOICE (log entry 81). -/
def State.memberCore (s : State) (lr : LaunchRec) : Option Nat :=
  (List.range 320).find? fun f => lrCore lr f && (s.freeBank f).isSome && s.holder f == .none
    && !s.host.members.any fun g => g.core == f

/-- A prepare: the reason of a refusal, or none (R67). The reasons, their codes and their order, and that a member in PS0
that is leaving it refuses, are DESIGN CHOICE (log entry 81). -/
def State.refusal (s : State) (lr : LaunchRec) : Option U16 :=
  if !s.ready || s.power.pstate ≠ .ps0 || s.power.trans.any (fun t => t.target ≠ .ps0) then some Status.pwrState
  else if !s.links.lock then some Status.tetherUnlocked
  else if (s.cq (lrCq lr)).isNone then some Status.lrCq
  else if s.cqFree (lrCq lr) < 1 then some Status.lrCqFull
  else if ((s.homeUnit lr).all fun u => s.freeRecords u == 0) || (s.memberCore lr).isNone then some Status.lrFull
  else none

def State.gangPrepare (s : State) (src : Nat) (gid : U16) (lr : LaunchRec) (peers : List (BitVec 10)) : State :=
  match s.refusal lr, s.homeUnit lr, s.memberCore lr with
  | some r, _, _ => s.sendGang src 2 gid r 0 0 0 []
  | none, some u, some core =>
    let x := (s.takeCredits (lrCq lr) 1).addTask u lr (.member (BitVec.ofNat 10 src) gid) id
    let g : GangHere := { src := BitVec.ofNat 10 src, gid, lr, unit := u, index := tidIndex x.2, core, prepared := s.tether.toNat,
                          commit := none, task := none, lastAlive := 0, lastSent := 0, peers, over_ := false, silent := false }
    let t : State := { x.1 with host := { x.1.host with members := x.1.host.members ++ [g] } }
    t.sendGang src 1 gid 0 0 0 0 []
  | _, _, _ => s.sendGang src 2 gid Status.lrFull 0 0 0 []

/-- A commit: at or after T it comes too late. The parameter image is read from now on (log entry 36). -/
def State.gangCommit (s : State) (src : Nat) (gid : U16) (t : Word) : State :=
  match s.member? (BitVec.ofNat 10 src) gid with
  | none => s
  | some g =>
    if g.commit.isSome then s
    else if t.toNat ≤ s.tether.toNat then s.releaseMember g
    else
      let s := s.mapMember g.src gid fun g => { g with commit := some t.toNat }
      match s.memberTask g with
      | some id => (s.becomeReady id).mapTask id fun k => if (s.recheck g.lr).isSome then { k with killed := (s.recheck g.lr).map fun c => (Status.killed, c) } else k
      | none => s

/-- An abort of the coordinator: before the start the reservation goes; a started task is killed; the abort is answered,
but by a member that has fallen silent (R21). The credit stays until the gang ends (R68). -/
def State.gangAbortHere (s : State) (src : Nat) (gid : U16) : State :=
  let answer := fun (s : State) => s.sendGang src 6 gid Status.gangAborted 0 0 0 []
  match s.member? (BitVec.ofNat 10 src) gid with
  | none => answer s
  | some g =>
    match g.task with
    | none => answer (s.releaseMember g)
    | some t => if g.silent then s else answer (s.killTask t Status.gangAborted 0)

/-- GANG_START_T: at T, step 0 goes to the core that is held. -/
def execGangStartT (src : BitVec 10) (gid : U16) (s : State) : Host.Outcome State Fault Refusal :=
  match s.member? src gid with
  | none => .next s
  | some g =>
    match g.commit, s.memberTask g, s.freeBank g.core with
    | some t, some id, some b =>
      match s.task? id with
      | some k =>
        if s.tether.toNat < t || g.task.isSome || !k.loaded || !s.dispatches then .next s
        else
          let s := s.mapMember src gid fun g => { g with task := some id, lastAlive := s.tether.toNat, lastSent := s.tether.toNat }
          if k.killed.isSome then .next s else s.giveStep g.core b (id, k) []
      | none => .next s
    | _, _, _ => .next s

def execGangCommitWaitTimeout (src : BitVec 10) (gid : U16) (s : State) : Host.Outcome State Fault Refusal :=
  match s.member? src gid with
  | some g => if g.commit.isNone && g.prepared + 100000 ≤ s.tether.toNat then .next (s.releaseMember g) else .next s
  | none => .next s

/-- GANG_COORDINATOR_SILENT: the member kills its task, whose record carries GANG_INCOMPLETE. To a member whose task has
ended, 50 µs without ALIVE say that the gang has ended: its credit goes (R68; log entry 81). -/
def execGangCoordinatorSilent (src : BitVec 10) (gid : U16) (s : State) : Host.Outcome State Fault Refusal :=
  match s.member? src gid with
  | some g =>
    match g.task with
    | some t =>
      if s.tether.toNat < g.lastAlive + 50000 then .next s
      else if g.over_ then .next ((s.dropMember src gid).dropCredits (lrCq g.lr) 1)
      else .next (s.killTask t Status.gangIncomplete 0)
    | none => .next s
  | none => .next s

/-! ### The coordinator -/

def State.coord? (s : State) (gid : U16) : Option GangCoord := s.host.coords.find? fun c => c.gid == gid
def State.mapCoord (s : State) (gid : U16) (f : GangCoord → GangCoord) : State :=
  { s with host := { s.host with coords := s.host.coords.map fun c => if c.gid == gid then f c else c } }
def State.dropCoord (s : State) (gid : U16) : State :=
  { s with host := { s.host with coords := s.host.coords.filter fun c => c.gid ≠ gid } }

def GangCoord.setMember (c : GangCoord) (pkg : Nat) (f : GangMember → GangMember) : GangCoord :=
  { c with members := c.members.map fun m => if m.pkg.toNat = pkg then f m else m }

/-- Send a message to every member. -/
def State.toMembers (s : State) (c : GangCoord) (kind : Nat) (t : Word) : State :=
  c.members.foldl (fun s m => s.sendGang m.pkg.toNat kind c.gid 0 0 0 t []) s

/-- The OMCMD record of the GANG command, and its GANG record. -/
def State.gangOmcmd (s : State) (c : GangCoord) : State := s.cqWrite c.cq.toNat { kind := 3, status := Status.ok, tag := c.tag, result := 0 }
def State.gangRecord (s : State) (c : GangCoord) (status : U16) (detail : Nat) (reps pres : Nat) : State :=
  s.cqWrite c.cq.toNat { kind := 4, status, tag := c.tag, result := 0, replays := reps, preempts := pres, detail := BitVec.ofNat 32 detail }

/-- Phase 2: the gang aborts before its start. -/
def State.abortBefore (s : State) (c : GangCoord) (reason : U16) : State :=
  let prepared := (c.members.filter fun m => m.state = 1).length
  (((s.toMembers c 4 0).gangOmcmd c).gangRecord c (if reason = Status.tetherUnlocked then reason else Status.gangAborted) prepared 0 0).dropCoord c.gid

/-- Phase 4: abort after the start. -/
def State.abortAfter (s : State) (c : GangCoord) : State :=
  (s.toMembers c 4 0).mapCoord c.gid fun c => { c with phase := 3, abortAt := s.tether.toNat }

/-- A PREPARED answer; with the last one T is chosen and the commits leave (phase 3). -/
def State.gangPrepared (s : State) (src : Nat) (gid : U16) : State :=
  match s.coord? gid with
  | none => s
  | some c =>
    if c.phase ≠ 1 then s
    else
      let c := { c.setMember src (fun m => if m.state = 0 then { m with state := 1 } else m) with lastPrepared := s.tether.toNat }
      let s := s.mapCoord gid fun _ => c
      if c.members.all fun m => m.state == 1 then
        let t := roundUp (s.tether.toNat + 8000) 64
        let s := (s.toMembers c 3 (BitVec.ofNat 64 t)).gangOmcmd c
        s.mapCoord gid fun c => { c with phase := 2, t, lastAlive := t, members := c.members.map fun m => { m with lastHeard := t } }
      else s

def State.gangRefused (s : State) (src : Nat) (gid status : U16) : State :=
  match s.coord? gid with
  | some c => if c.phase = 1 then s.abortBefore (c.setMember src fun m => { m with state := 2 }) status else s
  | none => s

/-- DONE of a member: the last one ends the gang; one that is not OK starts phase 4 (log entry 37); after an abort it is
the answer to it. -/
def State.gangDone (s : State) (src : Nat) (gid status replays preempts : U16) : State :=
  match s.coord? gid with
  | none => s
  | some c =>
    if c.phase = 2 then
      let c := { c.setMember src (fun m => { m with state := 3 }) with
                 replays := c.replays + replays.toNat, preempts := c.preempts + preempts.toNat }
      let s := s.mapCoord gid fun _ => c
      if status ≠ Status.ok then s.abortAfter c
      else if c.members.all fun m => m.state == 3 then (s.gangRecord c Status.ok c.members.length c.replays c.preempts).dropCoord gid
      else s
    else if c.phase = 3 && s.tether.toNat ≤ c.abortAt + 10000 then s.mapCoord gid fun c => c.setMember src fun m => { m with state := 4 }
    else s

def State.gangAlive (s : State) (src : Nat) (gid : U16) : State :=
  (s.mapCoord gid fun c => c.setMember src fun m => { m with lastHeard := s.tether.toNat }).mapMember (BitVec.ofNat 10 src) gid
    fun g => { g with lastAlive := s.tether.toNat }

/-- The membership of this package in a gang of which package src is a member too. -/
def State.peerOf (s : State) (src : Nat) (gid : U16) : Option GangHere :=
  s.host.members.find? fun g => g.gid == gid && g.peers.any fun p => p.toNat == src

/-- An abort from the coordinator of a gang of which this package is a member; from a member that has detected a silent
one, to the coordinator, which starts phase 4; or from it to another member, which kills its task (R67). -/
def State.gangAbort (s : State) (src : Nat) (gid : U16) : State :=
  if (s.member? (BitVec.ofNat 10 src) gid).isSome then s.gangAbortHere src gid
  else
    match s.coord? gid with
    | some c => if c.phase = 2 && c.members.any (fun m => m.pkg.toNat == src) then s.abortAfter c else s
    | none =>
      match s.peerOf src gid with
      | some g => (g.task.map fun t => s.killTask t Status.gangAborted 0).getD s
      | none => s.gangAbortHere src gid

/-- A member detects at a hop-plan step that another is silent: it sends aborts to all, which reach the coordinator too,
and kills its own task (R53, R67). none where the task is no member of a multi-package gang. -/
def State.gangDetect (s : State) (t : Word) : Option State :=
  (s.host.members.find? fun g => g.task == some t).map fun g =>
    let s := ((g.src :: g.peers).eraseDups.filter fun p => p ≠ s.pkg).foldl (fun s p => s.sendGang p.toNat 4 g.gid 0 0 0 0 []) s
    let s := if g.src = s.pkg then (match s.coord? g.gid with
        | some c => if c.phase = 2 then s.abortAfter c else s
        | none => s) else s
    s.killTask t Status.gangAborted 0

def execGangPrepareDeadline (gid : U16) (s : State) : Host.Outcome State Fault Refusal :=
  match s.coord? gid with
  | some c => if c.phase = 1 && c.deadline ≤ s.tether.toNat then .next (s.abortBefore c Status.gangAborted) else .next s
  | none => .next s

/-- GANG_ALIVE_TIMER: started members whose tasks have not ended, and the coordinator from T, send
ALIVE every 10 µs of TETHERCNT. -/
def execGangAliveTimer (s : State) : Host.Outcome State Fault Refusal :=
  let now := s.tether.toNat
  let s := s.host.members.foldl (fun s g =>
    if g.task.isSome && !g.over_ && !g.silent && g.lastSent + 10000 ≤ now then
      (s.mapMember g.src g.gid fun g => { g with lastSent := now }).sendGang g.src.toNat 5 g.gid 0 0 0 0 []
    else s) s
  .next (s.host.coords.foldl (fun s c =>
    if c.phase = 2 && c.t ≤ now && c.lastAlive + 10000 ≤ now then
      let s := s.mapCoord c.gid fun c => { c with lastAlive := now }
      c.members.foldl (fun s m => s.sendGang m.pkg.toNat 5 c.gid 0 0 0 0 []) s
    else s) s)

def execGangMemberSilent (gid : U16) (pkg : BitVec 10) (s : State) : Host.Outcome State Fault Refusal :=
  match s.coord? gid with
  | some c =>
    match c.members.find? fun m => m.pkg == pkg with
    | some m =>
      if c.phase = 2 && m.state = 1 && max c.t m.lastHeard + 50000 ≤ s.tether.toNat then
        let c := c.setMember pkg.toNat fun m => { m with state := 5 }
        .next ((s.mapCoord gid fun _ => c).abortAfter c)
      else .next s
    | none => .next s
  | none => .next s

/-- GANG_ABORT_COLLECT: the present list goes to the host, and the GANG record names its length; dma says that the host
took the write. -/
def execGangAbortCollect (gid : U16) (dma : Bool) (s : State) : Host.Outcome State Fault Refusal :=
  match s.coord? gid with
  | some c =>
    if c.phase = 3 && c.abortAt + 10000 ≤ s.tether.toNat then
      let here := (c.members.filter fun m => m.state == 4).map fun m => m.pkg.toNat
      let s : State := if dma then { s with hostMem := mwrite s.hostMem c.present.toNat (here.flatMap fun p => toBytes 2 p) } else s
      .next ((s.gangRecord c Status.gangIncomplete here.length c.replays c.preempts).dropCoord gid)
    else .next s
  | none => .next s

/-! ### Messages -/

def recOfList (l : List Word) : LaunchRec := .ofFn fun k => l.getD k.val 0
/-- The members of the gang, which follow the record in a prepare (log entry 81). -/
def peersOfList (l : List Word) : List (BitVec 10) := (l.drop 8).map fun w => w.setWidth 10

def execGangPrepare (p : BitVec 5) (h : Word) (crc : Bool) (gid : U16) (lr : List Word) (s : State) : Host.Outcome State Fault Refusal :=
  .next (s.receive p.toNat 9 h crc fun s => s.gangPrepare (hdrSrc h) gid (recOfList lr) (peersOfList lr))
def execGangPrepared (p : BitVec 5) (h : Word) (crc : Bool) (gid : U16) (s : State) : Host.Outcome State Fault Refusal :=
  .next (s.receive p.toNat 9 h crc fun s => s.gangPrepared (hdrSrc h) gid)
def execGangRefused (p : BitVec 5) (h : Word) (crc : Bool) (gid status : U16) (s : State) : Host.Outcome State Fault Refusal :=
  .next (s.receive p.toNat 9 h crc fun s => s.gangRefused (hdrSrc h) gid status)
def execGangCommit (p : BitVec 5) (h : Word) (crc : Bool) (gid : U16) (t : Word) (s : State) : Host.Outcome State Fault Refusal :=
  .next (s.receive p.toNat 9 h crc fun s => s.gangCommit (hdrSrc h) gid t)
def execGangAbort (p : BitVec 5) (h : Word) (crc : Bool) (gid : U16) (s : State) : Host.Outcome State Fault Refusal :=
  .next (s.receive p.toNat 9 h crc fun s => s.gangAbort (hdrSrc h) gid)
def execGangAlive (p : BitVec 5) (h : Word) (crc : Bool) (gid : U16) (s : State) : Host.Outcome State Fault Refusal :=
  .next (s.receive p.toNat 9 h crc fun s => s.gangAlive (hdrSrc h) gid)
def execGangDone (p : BitVec 5) (h : Word) (crc : Bool) (gid status replays preempts : U16) (s : State) : Host.Outcome State Fault Refusal :=
  .next (s.receive p.toNat 9 h crc fun s => s.gangDone (hdrSrc h) gid status replays preempts)

/-- A message of the package to itself (log entry 35). -/
def deliverSelf (m : Payload) (s : State) : State :=
  match m with
  | .gang kind gid status replays preempts t lr =>
    let src := s.pkgNo
    match kind.toNat with
    | 0 => s.gangPrepare src gid (recOfList lr) (peersOfList lr)
    | 1 => s.gangPrepared src gid
    | 2 => s.gangRefused src gid status
    | 3 => s.gangCommit src gid t
    | 4 => s.gangAbortHere src gid
    | 5 => s.gangAlive src gid
    | _ => s.gangDone src gid status replays preempts
  | _ => s

end Sys2Proof.Machine
end

