-- ==== Sys2Proof/Machine/NearBank.lean ====
section
/-!
DEFINITION. Near-bank and row-to-row commands (14_isa_memory.md, R360 to R364): issue, acceptance by the slice, start
and completion.
-/

namespace Sys2Proof.Machine

open Sys2Proof

/-! ### Issue (R360, R361) -/

/-- Word k of a sampled operand block. -/
def blkWord (bs : List Byte) (k : Nat) : Nat := (wordAt bs k).toNat

/-- A breach of the issue rules of R361. -/
def nbBad (op : NbOp) (hd hs : Word) (bs : List Byte) : Bool :=
  let doff := blkWord bs 0
  let soff := blkWord bs 1
  let len := blkWord bs 2
  let al := if op.rows then 1024 else 64
  len = 0 || doff % al ≠ 0 || soff % al ≠ 0 || len % al ≠ 0 || ((List.range 5).any fun k => blkWord bs (3 + k) ≠ 0)
    || (!op.src && soff ≠ 0) || (op.src && hd == hs && doff < soff + len && soff < doff + len)

/-- A near-bank command reads its operand block and samples its handles. -/
def nbSample (i : Instr) (hd : BitVec 4) (hs : Option (BitVec 4)) (a : BitVec 3) (s : State) : Except TrapInfo Sample :=
  match s.sampleBlock a with
  | .error x => .error x
  | .ok bs =>
    let d := s.getH hd
    let x := (hs.map fun r => s.getH r).getD 0
    if nbBad ((nbOp i).getD { kind := 0 }) d x bs then .error (trapOf Cause.illegalOp)
    else .ok { hs := d :: (if hs.isSome then [x] else []), blk := bs }

def execNbfill (tk g hd : BitVec 4) (a : BitVec 3) (imm lit : BitVec 32) (s : State) : Host.Outcome State Fault Refusal :=
  let i : Instr := .nbfill tk g hd a imm lit
  engine 3 false .XQ tk g {} i s (nbSample i hd none a)
def execNbcopy (tk g hd hs : BitVec 4) (a : BitVec 3) (s : State) : Host.Outcome State Fault Refusal :=
  let i : Instr := .nbcopy tk g hd hs a
  engine 3 false .XQ tk g {} i s (nbSample i hd (some hs) a)
def execNbaxpy (tk g hd hs : BitVec 4) (a : BitVec 3) (imm : BitVec 32) (rnd : BitVec 3) (sat : BitVec 1) (s : State) :
    Host.Outcome State Fault Refusal :=
  let i : Instr := .nbaxpy tk g hd hs a imm rnd sat
  engine 3 true .XQ tk g {} i s (nbSample i hd (some hs) a)
def execNbscale (tk g hd : BitVec 4) (a : BitVec 3) (imm : BitVec 32) (rnd : BitVec 3) (sat : BitVec 1) (s : State) :
    Host.Outcome State Fault Refusal :=
  let i : Instr := .nbscale tk g hd a imm rnd sat
  engine 3 true .XQ tk g {} i s (nbSample i hd none a)
def execNbrelay (tk g hd hs : BitVec 4) (a : BitVec 3) (s : State) : Host.Outcome State Fault Refusal :=
  let i : Instr := .nbrelay tk g hd hs a
  engine 3 false .XQ tk g {} i s (nbSample i hd (some hs) a)
def execRrzero (tk g hd : BitVec 4) (a : BitVec 3) (s : State) : Host.Outcome State Fault Refusal :=
  let i : Instr := .rrzero tk g hd a
  engine 3 false .XQ tk g {} i s (nbSample i hd none a)
def execRrcopy (tk g hd hs : BitVec 4) (a : BitVec 3) (s : State) : Host.Outcome State Fault Refusal :=
  let i : Instr := .rrcopy tk g hd hs a
  engine 3 false .XQ tk g {} i s (nbSample i hd (some hs) a)

/-! ### Acceptance (R361) -/

/-- A range as the handle unit finds it. -/
structure NbRange where
  entry : Entry
  pkg : Nat
  va : Nat
  pa : Nat
  leaf : Nat
  cross : Bool
deriving DecidableEq, Repr

/-- Translate the pages of a range, by the tables of a package, one after another; the first page's address and leaf. -/
def State.translatePages (s : State) (k : Asker) (h : Word) (e : Entry) (pkg : Nat) : List Nat → Got (Nat × Nat)
  | [] => .ok s (0, 0)
  | va :: rest =>
    (s.translate k h e [] va .hbm pkg).bind fun s hit =>
      (s.translatePages k h e pkg rest).bind fun s _ => .ok s (hit.pa, hit.leafPa)

/-- Table 4-2 for a range of len bytes at byte offset off of the buffer that Table 9-4 selects. -/
def State.nbRange (s : State) (k : Asker) (h : Word) (store : Bool) (off : Nat) (len : Entry → Nat) : Got NbRange :=
  (s.getEntry k h).bind fun s e =>
    if !hasRight e k.world.toNat (if store then rightW else rightR) || (store && eKind e = 1) then .trap (k.cause Cause.objRights h)
    else if store && s.openPending k h then .wait s
    else
      (s.bufferGot k h e store).bind fun s j =>
      match j with
      | none => .trap (k.cause Cause.verNoDraft h)
      | some j =>
        let n := len e
        let span := eSpan e
        let shard := off / span
        let loc := off % span
        let va := bufVa e j loc
        let cross := off / 2097152 ≠ (off + n - 1) / 2097152 || eShards e * span < off + n
        if eShards e ≤ shard then .ok s { entry := e, pkg := s.pkgNo, va, pa := 0, leaf := 0, cross := true }
        else
          -- near-bank commands go to the primary (R81)
          (s.fetchMap k e (shard * eReps e) (eReps e)).bind fun s _ =>
          let pkg := s.packageOf k h e shard false
          let pg := ePage e
          let n := (min (loc + n) span - 1) / pg - loc / pg + 1
          let pages := (List.range n).map fun i => if i = 0 then va else (va / pg + i) * pg
          (s.translatePages k h e pkg pages).bind fun s x => .ok s { entry := e, pkg, va, pa := x.1, leaf := x.2, cross }

/-- The bytes of lines at va, from this package or another. -/
def State.fetchLines (s : State) (k : Asker) (key : Nat) (h : Word) (pkg pa : Nat) : Nat → Nat → Got (List Byte)
  | 0, _ => .ok s []
  | n + 1, va =>
    let one : Got (List Byte) :=
      if pkg = s.pkgNo then .ok s (s.plainRead h va pa 64)
      else s.remoteLine k key { noPlace h (BitVec.ofNat 10 pkg) with va := BitVec.ofNat 52 va }
    one.bind fun s b => (s.fetchLines k key h pkg (pa + 64) n (va + 64)).bind fun s r => .ok s (b ++ r)

/-- The object has COMPUTE and PINNED. -/
def nbCapable (e : Entry) : Bool := eCompute e && ePinned e

/-- Offer a command to its slice. The rejections come before anything is written; an accepted command carries its
snapshot, or is on its way to the package of its destination. -/
def nbAccept (f : Nat) (b : BitVec 1) (c : Cmd) (s : State) : Got Cmd :=
  let op := (nbOp c.instr).getD { kind := 0 }
  let k := cmdAsker f b .XQ c .N
  let hd := c.hs.headD 0
  let hs := c.hs.getD 1 0
  let len := blkWord c.blk 2
  (s.nbRange k hd true (blkWord c.blk 0) fun _ => len).bind fun s d =>
    let bd := eWidth d.entry
    let slen := fun (e : Entry) => if op.kind = 2 then len * 8 / bd * eWidth e / 8 else len
    let source : Got NbRange := if op.src then s.nbRange k hs false (blkWord c.blk 1) slen else .ok s d
    source.bind fun s x =>
      let n := slen x.entry
      let far := d.pkg ≠ x.pkg
      let attr := !nbCapable d.entry || !nbCapable x.entry
        || (2 ≤ op.kind && (eLayout d.entry = 3 || eLayout x.entry = 3))
        || (match c.instr with
            | .nbcopy .. | .rrcopy .. => far || sliceOf d.pa ≠ sliceOf x.pa
            | .nbrelay .. => far
            | _ => false)
      if attr then .trap (k.cause Cause.nbAttr hd [] d.va)
      else if d.cross || x.cross then .trap (k.cause Cause.nbCross hd [] d.va)
      else
        let key := cmdKey f b c
        let fetched : Got (List Byte) :=
          if op.src && far then
            (s.fetchLines k key hs x.pkg (x.pa / 64 * 64) ((x.va % 64 + n + 63) / 64) (x.va / 64 * 64)).bind fun s r => .ok s ((r.drop (x.va % 64)).take n)
          else .ok s []
        fetched.bind fun s data =>
          let w := fun (n : Nat) => BitVec.ofNat 64 n
          if d.pkg = s.pkgNo then
            .ok s { c with
              accepted := true, opA := data.map fun v => (0, v)
              snap := [w d.pa, if op.src && !far then w x.pa else 0, w len, if op.src && !far then w n else 0, w d.leaf,
                       if op.src && !far then w x.leaf else 0, w d.va, w x.va, w (eFmt d.entry).toNat, w (eFmt x.entry).toNat] }
          else
            let args := [hd, hs, w d.va, w x.va, w len, w (if op.src then n else 0), w op.kind, w (eFmt d.entry).toNat, w (eFmt x.entry).toNat,
                         op.imm, w op.rnd, w (b2n op.sat)]
            let r := s.reqOf k (noPlace hd (BitVec.ofNat 10 d.pkg)) (.command c.ser (.nearbank args data))
            .ok (s.issueReq r) { c with accepted := true, snap := [] }

/-- An accepted command joins the sequencers of its slices. -/
def State.nbEnter (s : State) (f : Nat) (b : BitVec 1) (c : Cmd) : State :=
  if c.snap.isEmpty then s
  else
    let at_ := fun n => (c.snap.getD n 0).toNat
    let add := fun (s : State) (n : Nat) =>
      let x := s.slice n
      s.setSlice n { x with nearbank := x.nearbank ++ [(f, b, c.ser)] }
    let s := add s (sliceOf (at_ 0))
    if at_ 3 ≠ 0 && sliceOf (at_ 1) ≠ sliceOf (at_ 0) then add s (sliceOf (at_ 1)) else s

/-! ### Start and completion (R363) -/

/-- The physical ranges of an accepted command. -/
def Cmd.nbRanges (c : Cmd) : List (Nat × Nat) :=
  let at_ := fun n => (c.snap.getD n 0).toNat
  (at_ 0, at_ 2) :: (if at_ 3 = 0 then [] else [(at_ 1, at_ 3)])

def nbMeet (a b : List (Nat × Nat)) : Bool := a.any fun x => b.any fun y => x.1 < y.1 + y.2 && y.1 < x.1 + x.2

/-- No earlier command of a slice of this one whose ranges overlap it is still running. -/
def State.nbFree (s : State) (f : Nat) (b : BitVec 1) (c : Cmd) : Bool :=
  s.slices.all fun x =>
    let me := fun (y : Nat × BitVec 1 × Nat) => y.1 == f && y.2.1 == b && y.2.2 == c.ser
    !(x.2.nearbank.any me) || (x.2.nearbank.takeWhile fun y => !me y).all fun y =>
      match (s.bank y.1 y.2.1).xq.find? fun d => d.ser == y.2.2 with
      | some d => !d.nbOpen || !nbMeet d.nbRanges c.nbRanges
      | none => true

/-- Command n of the auxiliary queue of a bank, if its slice has accepted it. -/
def State.nbAt (s : State) (f : Nat) (b : BitVec 1) (n : Nat) : Option Cmd := ((s.bank f b).xq[n]?).filter Cmd.nbOpen

def execNearbankStart (core : BitVec 9) (bank : BitVec 1) (n : BitVec 5) (s : State) : Host.Outcome State Fault Refusal :=
  let f := core.toNat
  match s.nbAt f bank n.toNat with
  | none => .next s
  | some c =>
    if c.started || !s.nbFree f bank c || c.nbLeaves.any (fun a => leafBusy (s.leafNow a) == 0xFFFF) then .next s
    else
      let s := c.nbLeaves.foldl (fun s a => s.busyUp a 1) s
      let at_ := fun n => (c.snap.getD n 0).toNat
      -- copies of destination lines on other packages are recalled (R363)
      let s := s.recallFar (c.hs.headD 0) (at_ 6) (at_ 2)
      .next (s.setBank f bank ((s.bank f bank).mapCmd .XQ c.ser fun c => { c with started := true }))

/-- The copies of its destination on other packages are still being recalled. -/
def State.nbRecalling (s : State) (c : Cmd) : Bool := s.recallOpen (c.snap.getD 6 0).toNat (c.snap.getD 2 0).toNat

def execNearbankComplete (core : BitVec 9) (bank : BitVec 1) (n : BitVec 5) (s : State) : Host.Outcome State Fault Refusal :=
  match s.nbAt core.toNat bank n.toNat with
  | none => .next s
  | some c => .next (if c.started && !s.nbRecalling c then s.nbFinish core.toNat bank c else s)

/-! ### At the home of a command of another package -/

/-- A near-bank command that arrives from another package, as a job: none while a range is not resident here, is held,
or overlaps a running command. -/
def State.nbFarJob (s : State) (args : List Word) (data : List Byte) : Option NbJob :=
  let at_ := fun n => args.getD n 0
  let nat := fun n => (at_ n).toNat
  let find := fun (va n : Nat) =>
    if n = 0 then some 0
    else
      match s.walkTables va with
      | .ok (_, l, large) => if leafHold l || leafUnav l || leafLost l || leafTier l ≠ 0 then none else some (leafPaOf l large va)
      | .error _ => none
  let local_ := data.isEmpty && nat 5 ≠ 0
  match find (nat 2) (nat 4), find (nat 3) (if local_ then nat 5 else 0) with
  | some d, some x =>
    let ranges := (d, nat 4) :: (if local_ then [(x, nat 5)] else [])
    let busy := s.slices.any fun y => y.2.nearbank.any fun z =>
      match (s.bank z.1 z.2.1).xq.find? fun c => c.ser == z.2.2 with
      | some c => c.nbOpen && nbMeet c.nbRanges ranges
      | none => false
    if busy then none
    else some { op := { kind := nat 6, imm := at_ 9, rnd := nat 10, sat := nat 11 = 1 }, dst := at_ 0, src := at_ 1, dva := nat 2, sva := nat 3,
                dpa := d, spa := x, dlen := nat 4, slen := nat 5, dfmt := BitVec.ofNat 8 (nat 7), sfmt := BitVec.ofNat 8 (nat 8), data }
  | _, _ => none

end Sys2Proof.Machine
end

