-- ==== Sys2Proof/Machine/Peer.lean ====
section
/-!
DEFINITION. Peer transfers and hop plans (18_isa_tasks_system.md, R461 to R463; 02_links.md, R50 to R53).
-/

namespace Sys2Proof.Machine

open Sys2Proof

/-! ### XSEND (R461) -/

def execXsend (tk g hd hs : BitVec 4) (a : BitVec 3) (imm : BitVec 32) (s : State) : Host.Outcome State Fault Refusal :=
  engine 3 false .XQ tk g {} (.xsend tk g hd hs a imm) s fun s =>
    match s.sampleBlock a with
    | .error x => .error x
    | .ok bs =>
      if imm = 0 || imm.toNat % 64 ≠ 0 || blkWord bs 0 % 64 ≠ 0 || blkWord bs 1 % 64 ≠ 0
          || (List.range 5).any fun k => blkWord bs (3 + k) ≠ 0 then .error (trapOf Cause.illegalOp)
      else .ok { hs := [s.getH hd, s.getH hs], blk := bs }

/-- Where byte off of an object's buffer lies: package, virtual address. -/
def State.bufPlace (s : State) (k : Asker) (h : Word) (e : Entry) (j off : Nat) (read : Bool) : Nat × Nat :=
  (s.packageOf k h e (off / eSpan e) read, bufVa e j (off % eSpan e))

/-- Every 64-byte line of a range, translated where it is of this package: its leaves. -/
def State.rangeLeaves (s : State) (k : Asker) (h : Word) (e : Entry) (j : Nat) (read : Bool) : List Nat → Got (List Nat)
  | [] => .ok s []
  | off :: rest =>
    let p := s.bufPlace k h e j off read
    let one : Got (List Nat) := (s.translate k h e [] p.2 .peer p.1).bind fun s hit => .ok s (if hit.leafPa = 0 then [] else [hit.leafPa])
    one.bind fun s l => (s.rangeLeaves k h e j read rest).bind fun s r => .ok s (l ++ r)

/-- The first offset of each page that a range of a buffer touches. -/
def rangePages (e : Entry) (off len : Nat) : List Nat :=
  let pg := ePage e
  (List.range ((off + len - 1) / pg - off / pg + 1)).map fun i => if i = 0 then off else (off / pg + i) * pg

/-- Table 4-2 for a range of a peer transfer: its entry, buffer and leaves. -/
def State.peerRange (s : State) (k : Asker) (h : Word) (store : Bool) (off len : Nat) : Got (Entry × Nat × List Nat) :=
  (s.getEntry k h).bind fun s e =>
    if !hasRight e k.world.toNat (if store then rightW else rightR) || (store && eKind e = 1) || hWorld h ≠ 0 then .trap (k.cause Cause.objRights h)
    else if store && s.openPending k h then .wait s
    else if eShards e * eSpan e < off + len then .trap (k.cause Cause.objRange h)
    else
      (s.bufferGot k h e store).bind fun s j =>
      match j with
      | none => .trap (k.cause Cause.verNoDraft h)
      | some j => (s.rangeLeaves k h e j (!store) (rangePages e off len)).bind fun s l => .ok s (e, j, l)

/-- A line of a buffer, read on path X. -/
def State.peerRead (s : State) (k : Asker) (key : Nat) (h : Word) (e : Entry) (j off : Nat) (ch : Choices) : Got (List Byte × Choices) :=
  let p := s.bufPlace k h e j off true
  if p.1 = s.pkgNo then
    match s.walkTables p.2 with
    | .error _ => .trap (k.cause Cause.objMissing h [] p.2)
    | .ok (_, l, large) =>
      let u := max 1 (eWidth e / 8)
      .ok s (lineChoices (fun j => s.weakValues k h e (p.2 + j) (leafPaOf l large p.2 + j) u) u (64 / u) 0 ch)
  else
    (s.remoteLine k key { noPlace h (BitVec.ofNat 10 p.1) with va := BitVec.ofNat 52 p.2 }).bind fun s b => .ok s (b, ch)

/-- A line of a buffer, written on path X. -/
def State.peerWrite (s : State) (k : Asker) (h : Word) (e : Entry) (j off : Nat) (bs : List Byte) : State :=
  let p := s.bufPlace k h e j off false
  let place : Place := { noPlace h (BitVec.ofNat 10 p.1) with va := BitVec.ofNat 52 p.2, width := 512 }
  let place := if p.1 ≠ s.pkgNo then place
    else match s.walkTables p.2 with
      | .ok (a, l, large) => { place with pa := leafPaOf l large p.2, leafPa := a }
      | .error _ => place
  (s.noteStore k.task h e).issueReq (s.reqOf k place (.wstore (bytesAt p.2 bs)))

/-- Steps of an XSEND: a first check of both ranges, which then count in BUSY, and one step for each line. -/
def xsendStep (f : Nat) (b : BitVec 1) (c : Cmd) (len : Nat) (i : Nat) (ch : Choices) (s : State) : Got Choices :=
  let k := cmdAsker f b .XQ c .X
  let hd := c.hs.headD 0
  let hs := c.hs.getD 1 0
  let doff := blkWord c.blk 0
  let soff := blkWord c.blk 1
  let first : Got Unit :=
    if c.started then .ok s ()
    else
      (s.peerRange k hs false soff len).bind fun s x =>
        (s.peerRange k hd true doff len).bind fun s d =>
          let leaves := (x.2.2 ++ d.2.2)
          let s := leaves.foldl (fun s a => s.busyUp a 1) s
          .ok (s.setBank f b ((s.bank f b).mapCmd .XQ c.ser fun c => { c with started := true, snap := leaves.map (BitVec.ofNat 64) })) ()
  first.bind fun s _ =>
    (s.getEntry k hs).bind fun s se =>
      (s.getEntry k hd).bind fun s de =>
        (s.bufferGot k hs se false).bind fun s sj => (s.bufferGot k hd de true).bind fun s dj =>
        match sj, dj with
        | some sj, some dj =>
          (s.peerRead k (cmdKey f b c) hs se sj (soff + 64 * i) ch).bind fun s r =>
            .ok (s.peerWrite k hd de dj (doff + 64 * i) r.1) r.2
        | _, _ => .trap (k.cause Cause.verNoDraft hd)

/-- The end of an XSEND: once every write has performed, its segments are released and NOTIFY receives its decrement. -/
def xsendEnd (c : Cmd) (s : State) : Option State :=
  if s.objs.reqs.any fun q => q.run == c.run && q.ord == c.ord && q.path == .X then none
  else
    let s := s.releaseBusy c
    let t := wordAt c.blk 2
    some (if t = 0 then s else s.queueDecrement t 1 c.world false)

/-! ### Hop plans: the entries (R50, Tables 2-8 and 2-9) -/

def execXstep (tk g : BitVec 4) (sr : BitVec 5) (a : BitVec 3) (ld : BitVec 28) (s : State) : Host.Outcome State Fault Refusal :=
  engine 2 true .XQ tk g { s := [sr] } (.xstep tk g sr a ld) s fun s =>
    let off := (s.getA a).toNat
    match s.scrCause off 8 8 with
    | some c => .error (trapOf c)
    | none => .ok { hs := s.handles, vs := [(s.getA a).setWidth 64, s.getS sr] }

abbrev PlanEntry := Vector U32 3

def planEntry (line : List Byte) (k : Nat) : PlanEntry :=
  .ofFn fun j => BitVec.ofNat 32 (ofBytes ((line.drop (4 + 12 * k + 4 * j.val)).take 4))

def pf (e : PlanEntry) (w hi lo : Nat) : Nat := bits (e.toList.getD w 0).toNat hi lo

def hFmt (h : PlanEntry) : Byte := BitVec.ofNat 8 (pf h 0 31 24)
def hRnd (h : PlanEntry) : Nat := pf h 0 23 21
def hSat (h : PlanEntry) : Bool := pf h 0 20 20 == 1
def hBufh (h : PlanEntry) : Nat := pf h 0 19 16
def hSteps (h : PlanEntry) : Nat := pf h 0 15 0
def hFlits (h : PlanEntry) : Nat := pf h 1 31 24
def hPart (h : PlanEntry) : Nat := pf h 2 31 0
def hBlock (h : PlanEntry) : Nat := hFlits h * 120
/-- Elements of a block. -/
def hElems (h : PlanEntry) : Nat := hBlock h * 8 / fmtWidth (hFmt h)

def sPort (e : PlanEntry) : Nat := pf e 0 30 26
def sOp (e : PlanEntry) : Nat := pf e 0 25 23
def sSlot (e : PlanEntry) : Nat := pf e 0 22 0
def sPeer (e : PlanEntry) : Nat := pf e 1 31 22
def sBlock (e : PlanEntry) : Nat := pf e 1 15 0
def sArith (e : PlanEntry) : Nat := pf e 2 31 29
/-- The step works on the partial. -/
def sPartial (e : PlanEntry) : Bool := if sOp e = 1 then sArith e ≠ 0 else sArith e = 1

/-- A wire format: 8-bit, 16-bit or FP32. -/
def wireFmt (f : Byte) : Bool := WellFormed.isFormat f && (fmtWidth f == 8 || fmtWidth f == 16 || f == 0x42)

/-- A header that a plan may have (Table 2-8, R52). That a PART which is no multiple of 64 is one more invalid field is DESIGN
CHOICE (log entry 82). -/
def headerOk (h : PlanEntry) : Bool :=
  wireFmt (hFmt h) && hRnd h ≤ 4 && 1 ≤ hSteps h && 1 ≤ hFlits h && hFlits h ≤ 112 && pf h 1 23 0 == 0 && hPart h % 64 == 0
    && (!hSat h || match fmtOf (hFmt h) with
        | .flt f => f.hasInf
        | _ => false)
def entryOk (s : State) (e : PlanEntry) : Bool :=
  pf e 0 31 31 == 1 && sPort e < 18 && (s.peer (sPort e)).st == 2 && sOp e ≤ 1 && pf e 1 21 16 == 0 && pf e 2 28 0 == 0
    && (if sOp e = 1 then sArith e ≤ 2 else sArith e ≤ 1)

/-- The partial through the steps: none where a step breaks R52, else the block whose partial is held at the end. -/
def partialWalk : Option Nat → List PlanEntry → Option (Option Nat)
  | held, [] => some held
  | held, e :: es =>
    if sOp e = 1 then
      match sArith e with
      | 0 => partialWalk held es
      | a => if held.any fun b => b ≠ sBlock e then none else partialWalk (if a = 1 then some (sBlock e) else none) es
    else if sArith e = 1 then (if held = some (sBlock e) then partialWalk none es else none)
    else partialWalk held es

/-- Two steps on one port, or on one block, in the same slot. -/
def slotClash : List PlanEntry → Bool
  | [] => false
  | e :: es => es.any (fun x => sSlot x == sSlot e && (sPort x == sPort e || sBlock x == sBlock e)) || slotClash es

/-- R52, but for the extent of the buffer. -/
def planOk (s : State) (h : PlanEntry) (steps : List PlanEntry) : Bool :=
  headerOk h && steps.length == hSteps h && steps.all (entryOk s) && partialWalk none steps == some none && !slotClash steps

/-! ### Hop plans: the start (R462) -/

/-- A line of the code image of a command's step, by its code cache or from memory. -/
def State.planLine (s : State) (f : Nat) (b : BitVec 1) (c : Cmd) (template : Word) (line : Nat) : Got (List Byte) :=
  match tfind (s.core f).codeCache (codeKey template (BitVec.ofNat 24 line)) with
  | some bs => .ok s bs
  | none =>
    let k := { cmdAsker f b .XQ c .X with world := 0 }
    (s.getEntry k template).bind fun s e =>
      let l := locate e (tupleOf e (64 * line))
      (s.currentBuffer k template e).bind fun s j =>
      let va := bufVa e j (layoutOffset (eLayout e) 8 (eCols e) l.2.1 l.2.2).1
      let pkg := s.packageOf k template e l.1 true
      (s.translate k template e [] va .intake pkg).bind fun s hit =>
      if pkg ≠ s.pkgNo then s.remoteLine k (cmdKey f b c) { noPlace template (BitVec.ofNat 10 pkg) with va := BitVec.ofNat 52 va }
      else .ok s (s.plainRead template va hit.pa 64)

/-- A data line (owning stream 3) that is not the trailer. -/
def dataLine (bs : List Byte) : Bool := (linkOf bs).stream == 3 && !(linkOf bs).t

/-- Step entries from n lines, starting at a line; none where one of them is no data line or an unused entry is not zero. -/
def State.planLines (s : State) (f : Nat) (b : BitVec 1) (c : Cmd) (template : Word) (nlines : Nat) :
    Nat → Nat → Nat → Got (Option (List PlanEntry))
  | 0, _, _ => .ok s (some [])
  | n + 1, line, left =>
    if nlines ≤ line then .ok s none
    else
      (s.planLine f b c template line).bind fun s bs =>
        let here := (List.range 5).map (planEntry bs)
        if !dataLine bs || (here.drop left).any (fun e => e != .replicate 3 0) then .ok s none
        else
          (s.planLines f b c template nlines n (line + 1) (left - 5)).bind fun s r =>
            .ok s (r.map fun es => here.take left ++ es)

/-- The plan of a command: its header and its steps, or none where R52 rejects its lines. -/
def State.planOf (s : State) (f : Nat) (b : BitVec 1) (c : Cmd) (ld : BitVec 28) : Got (Option (PlanEntry × List PlanEntry)) :=
  match (s.bank f b).run with
  | none => .wait s
  | some r =>
    let l := lineAt c.pos.line (signExt ld.toNat 28)
    if l < 0 || (r.nlines : Int) ≤ l then .ok s none
    else
      let line := l.toNat
      (s.planLine f b c r.template line).bind fun s bs =>
        if !dataLine bs then .ok s none
        else
          let h := planEntry bs 0
          let n := hSteps h + 1
          (s.planLines f b c r.template r.nlines (ceilDiv n 5) line n).bind fun s es =>
            .ok s (es.map fun es => (h, es.drop 1))

/-- Slot S0 has begun (R47). -/
def State.slotBegun (s : State) (slot : Nat) : Bool := 64 * slot ≤ s.tether.toNat

/-- The engine takes an XSTEP: checks 1 to 4 of R462, then the plan runs. A failed check gives its status. -/
def xstepStart (f : Nat) (b : BitVec 1) (c : Cmd) (ld : BitVec 28) (s : State) : Got Unit :=
  let put := fun (s : State) (g : Cmd → Cmd) => s.setBank f b ((s.bank f b).mapCmd .XQ c.ser g)
  let stop := fun (s : State) (st : Nat) => Got.ok (put s fun c => { c with started := true, status := BitVec.ofNat 64 st, snap := [1] }) ()
  let k := cmdAsker f b .XQ c .X
  (s.planOf f b c ld).bind fun s p =>
    match p with
    | none => stop s 1
    | some (h, steps) =>
      let buf := c.hs.getD (hBufh h) 0
      let bytes := (maxOf (steps.map sBlock) + 1) * hBlock h
      let s0 := c.vs.getD 1 0
      let start := fun (s : State) =>
        if !planOk s h steps then stop s 1
        else
          (s.getEntry k buf).bind fun s e =>
          if eShards e * eSpan e < bytes then stop s 1
          else if !s.links.lock then stop s 2
          else if s.slotBegun s0.toNat then stop s 3
          else
          (s.peerRange k buf false 0 bytes).bind fun s _ =>
            (s.peerRange k buf true 0 bytes).bind fun s d =>
              if steps.any sPartial && (s.runLimits f b).2 < hPart h + 4 * hElems h then .trap (k.cause Cause.scratchBound buf)
              else
                let s := d.2.2.foldl (fun s a => s.busyUp a 1) s
                let bank := s.bank f b
                let plan : PlanRun := { hdr := h, steps, s0, buf, bufNo := d.2.1, done := [], held := none, leaves := d.2.2 }
                Got.ok (put (s.setBank f b { bank with plan := some plan, srH := srState bank.srbase 3 }) fun c => { c with started := true }) ()
      start s

/-! ### Hop plans: the steps (R51, R53) -/

/-- The banks of a core whose plans run. -/
def State.planBank (s : State) (f : Nat) : Option (BitVec 1 × PlanRun × Cmd) :=
  ([0, 1] : List (BitVec 1)).findSome? fun b =>
    let k := s.bank f b
    match k.plan, k.planCmd with
    | some p, some c => some (b, p, c)
    | _, _ => none

/-- Step i may take effect: no earlier step on its block, none on the partial if it works on it, for a RECV none from the
same neighbour on the same port, and for a SEND none on the same port, remains. What the steps leave, and the order of
flits on each port, are those of plan order (R53; log entry 80). -/
def PlanRun.free (p : PlanRun) (i : Nat) (e : PlanEntry) : Bool :=
  !(p.done.contains i) && (List.range i).all fun j =>
    p.done.contains j || match p.steps[j]? with
      | some x => sBlock x ≠ sBlock e && !(sPartial x && sPartial e) && !(sOp x == sOp e && sPort x == sPort e && (sOp e == 0 || sPeer x == sPeer e))
      | none => true

def PlanRun.slotOf (p : PlanRun) (e : PlanEntry) : Nat := p.s0.toNat + sSlot e

/-- Bytes of block n of the plan's buffer. -/
def State.planRead (s : State) (k : Asker) (key : Nat) (p : PlanRun) (e : Entry) : Nat → Nat → Got (List Byte)
  | 0, _ => .ok s []
  | n + 1, off =>
    (s.peerRead k key p.buf e p.bufNo off []).bind fun s r => (s.planRead k key p e n (off + 64)).bind fun s q => .ok s (r.1 ++ q)

/-- The block as it stands: whole lines around it are read, and its bytes taken. Its own writes have performed. -/
def State.planBlock (s : State) (k : Asker) (key : Nat) (p : PlanRun) (e : Entry) (n : Nat) : Got (List Byte) :=
  let lo := n * hBlock p.hdr
  let hi := lo + hBlock p.hdr
  if s.objs.reqs.any fun q => q.run == k.run && q.ord == k.ord && q.path == .X then .wait s
  else (s.planRead k key p e (ceilDiv hi 64 - lo / 64) (lo / 64 * 64)).bind fun s bs => .ok s ((bs.drop (lo % 64)).take (hBlock p.hdr))

/-- Write a block: on this package at once, in lines; else by peer stores. -/
def State.planWrite (s : State) (k : Asker) (p : PlanRun) (e : Entry) (n : Nat) (bs : List Byte) : State :=
  let lo := n * hBlock p.hdr
  (List.range (ceilDiv (lo + bs.length) 64 - lo / 64)).foldl (fun s i =>
    let a := max lo ((lo / 64 + i) * 64)
    let z := min (lo + bs.length) ((lo / 64 + i + 1) * 64)
    let part := (bs.drop (a - lo)).take (z - a)
    let at_ := s.bufPlace k p.buf e p.bufNo a false
    if at_.1 = s.pkgNo then
      match s.walkTables at_.2 with
      | .ok (_, l, large) => s.perform p.buf k.writer ((leafPaOf l large at_.2 : Int) - at_.2) (bytesAt at_.2 part)
      | .error _ => s
    else s.peerWrite k p.buf e p.bufNo a part) s

/-- FP32 codes of a block's elements. -/
def widen (f : Byte) (bs : List Byte) : List Nat :=
  let b := fmtWidth f
  (List.range (bs.length * 8 / b)).map fun n => code32 (dec (unpackCode b bs n) f)

/-- The partial, requantised to the wire format (R51): n counts the elements of the block. -/
def requantise (h : PlanEntry) (st : Word) (part : List Nat) : List Byte :=
  packCodes (fmtWidth (hFmt h)) (part.mapIdx fun n x => roundTo (decFlt fp32 x) (hFmt h) (rndOf (hRnd h)) (hSat h) (rnd8 st n))

def State.partRead (s : State) (f : Nat) (b : BitVec 1) (h : PlanEntry) : List Nat :=
  let bs := mread (s.bank f b).scratch (hPart h) (4 * hElems h)
  (List.range (hElems h)).map fun n => ofBytes ((bs.drop (4 * n)).take 4)
def State.partWrite (s : State) (f : Nat) (b : BitVec 1) (h : PlanEntry) (xs : List Nat) : State :=
  let k := s.bank f b
  s.setBank f b { k with scratch := mwrite k.scratch (hPart h) (xs.flatMap (toBytes 4)) }

/-- A step has run: it is noted, and the generator advances if it rounded under SR (R272). -/
def State.planDone (s : State) (f : Nat) (b : BitVec 1) (p : PlanRun) (i : Nat) (held : Option Nat) (rounded : Bool) : State :=
  let k := s.bank f b
  s.setBank f b { k with
    plan := some { p with done := i :: p.done, held }
    srH := if rounded && hRnd p.hdr = 4 then srAdvance k.srH else k.srH
    escx := k.escx + 1 }

/-- The first step of a plan that p names, whose slot has come and that may take effect. -/
def PlanRun.pick (p : PlanRun) (now : Nat) (q : PlanEntry → Bool) : Option (Nat × PlanEntry) :=
  ((List.range p.steps.length).zip p.steps).find? fun x => q x.2 && p.free x.1 x.2 && 64 * p.slotOf x.2 ≤ now

/-- HOPPLAN_SEND_SLOT: the flits of a SEND leave. -/
def execHopplanSendSlot (core : BitVec 9) (s : State) : Host.Outcome State Fault Refusal :=
  let f := core.toNat
  match s.planBank f with
  | none => .next s
  | some (b, p, c) =>
    if !s.links.lock || p.lost || s.power.freqAct = 0 then .next s
    else
      match p.pick s.tether.toNat (fun e => sOp e == 0 && s.tether.toNat < 64 * (p.slotOf e + 9)) with
      | none => .next s
      | some (i, e) =>
        let k := cmdAsker f b .XQ c .X
        let h := p.hdr
        let send := fun (s : State) (bs : List Byte) =>
          (List.range (hFlits h)).foldl (fun s n => s.sendFlit (sPort e) 7 (sPeer e) (.block ((bs.drop (120 * n)).take 120))) s
        let go : Got Unit := (s.getEntry k p.buf).bind fun s en =>
          if sArith e = 1 then
            let bs := requantise h (s.bank f b).srH (s.partRead f b h)
            let s := (send (s.planWrite k p en (sBlock e) bs) bs)
            .ok (s.planDone f b p i none true) ()
          else
            (s.planBlock k (cmdKey f b c) p en (sBlock e)).bind fun s bs => .ok ((send s bs).planDone f b p i p.held false) ()
        match go with
        | .ok t _ => .next t
        | .wait t => .next t
        | .trap _ => .next s
        | .fault r => .fault r

/-- The flits from a neighbour that a port holds. -/
def PeerPort.blockFrom (x : PeerPort) (peer n : Nat) : Option (List Byte × PeerPort) :=
  let mine := x.collective.filter fun y => y.1.toNat == peer
  if mine.length < n then none
  else
    let others := x.collective.filter fun y => y.1.toNat ≠ peer
    some ((mine.take n).flatMap fun y => (y.2.2 ++ List.replicate 120 0).take 120, { x with collective := others ++ mine.drop n })
/-- The port holds n flits from a neighbour, the last of which came before an instant of TETHERCNT. -/
def PeerPort.holdsBlock (x : PeerPort) (peer n before : Nat) : Bool :=
  n ≤ (x.collective.filter fun y => y.1.toNat == peer && y.2.1 < before).length

/-- HOPPLAN_RECV_STEP: the block of a RECV is complete. -/
def execHopplanRecvStep (core : BitVec 9) (s : State) : Host.Outcome State Fault Refusal :=
  let f := core.toNat
  match s.planBank f with
  | none => .next s
  | some (b, p, c) =>
    let h := p.hdr
    let ready := fun (e : PlanEntry) => sOp e == 1 && (s.peer (sPort e)).holdsBlock (sPeer e) (hFlits h) (64 * (p.slotOf e + 9))
    if !s.links.lock || p.lost || s.power.freqAct = 0 then .next s
    else
      match p.pick s.tether.toNat ready with
      | none => .next s
      | some (i, e) =>
        match (s.peer (sPort e)).blockFrom (sPeer e) (hFlits h) with
        | none => .next s
        | some (inc, port) =>
          let k := cmdAsker f b .XQ c .X
          let go : Got Unit := (s.getEntry k p.buf).bind fun s en =>
            if sArith e = 0 then
              .ok (((s.setPeer (sPort e) port).planWrite k p en (sBlock e) inc).planDone f b p i p.held false) ()
            else
              let part : Got (List Nat) :=
                if p.held = some (sBlock e) then .ok s (s.partRead f b h)
                else (s.planBlock k (cmdKey f b c) p en (sBlock e)).bind fun s bs => .ok s (widen (hFmt h) bs)
              part.bind fun s xs =>
                let sum := List.zipWith (fun x y => code32 ((decFlt fp32 x).add false (decFlt fp32 y))) xs (widen (hFmt h) inc)
                let s := (s.setPeer (sPort e) port).partWrite f b h sum
                if sArith e = 1 then .ok (s.planDone f b p i (some (sBlock e)) false) ()
                else
                  let s := s.planWrite k p en (sBlock e) (requantise h (s.bank f b).srH sum)
                  .ok (s.planDone f b p i none true) ()
          match go with
          | .ok t _ => .next t
          | .wait t => .next t
          | .trap _ => .next s
          | .fault r => .fault r

/-- Every flit of RECV step i has come in time: those of the steps before it on its port and from its neighbour come first. -/
def State.inTime (s : State) (p : PlanRun) (i : Nat) (e : PlanEntry) : Bool :=
  let before := ((List.range i).zip p.steps).filter fun x => !(p.done.contains x.1) && sOp x.2 == 1 && sPort x.2 == sPort e && sPeer x.2 == sPeer e
  (s.peer (sPort e)).holdsBlock (sPeer e) ((before.length + 1) * hFlits p.hdr) (64 * (p.slotOf e + 9))

/-- HOPPLAN_RECV_DEADLINE: a block is not complete in time, a SEND has missed its slot by more than the grace that a
RECV on its block may take (log entry 80), or the package has lost lock (R48, R53). -/
def execHopplanRecvDeadline (core : BitVec 9) (s : State) : Host.Outcome State Fault Refusal :=
  let f := core.toNat
  match s.planBank f with
  | none => .next s
  | some (b, p, c) =>
    let late := ((List.range p.steps.length).zip p.steps).any fun x =>
      !(p.done.contains x.1) && 64 * (p.slotOf x.2 + 9) ≤ s.tether.toNat && (sOp x.2 == 0 || !(s.inTime p x.1 x.2))
    if late || ((p.lost || !s.links.lock) && p.done.length < p.steps.length) then
      let t := s.dropPlan f b
      .next ((t.gangDetect c.task).getD (t.timeoutStep (.core core .C) b c.run c.task []))
    else .next s

/-- The plan has run every step: its segments are released and its status stands (R462). -/
def planEnd (f : Nat) (b : BitVec 1) (s : State) : Option State :=
  let k := s.bank f b
  match k.plan, k.planCmd with
  | some p, some c =>
    if p.done.length < p.steps.length then none
    else if s.objs.reqs.any fun q => q.run == c.run && q.ord == c.ord && q.path == .X then none
    else
      let s := s.setBank f b ({ k with plan := none }.mapCmd .XQ c.ser fun c => { c with status := BitVec.ofNat 64 (p.steps.length * 65536), snap := [1] })
      some (p.leaves.foldl (fun s a => s.busyDown a 1) s)
  | _, _ => none

end Sys2Proof.Machine
end

