-- ==== Sys2Proof/Machine/TaskInstr.lean ====
section
/-!
DEFINITION. Launching and ending tasks as the control core issues it (18_isa_tasks_system.md, R444 to R450), and XSYNC
(R460).
-/

namespace Sys2Proof.Machine

open Sys2Proof

/-- The dirty Basin lines that the task owns in this core leave for a release point (Table 9-3, log entry 27). -/
def State.flushOwn (s : State) : State :=
  match s.turn with
  | .core f _ => let t := s.taskId; s.flushBasin f.toNat s.bankNo fun l => l.task == t
  | .sys _ => s

/-- A release-point action of the issuing context leaves. -/
def State.releaseReq (s : State) (p : Place) (kind : ReqKind) : State :=
  let s := s.flushOwn
  let k := s.asker .C
  s.bumpOrd.issueReq (s.reqOf k p kind)

/-! ### SPAWN -/

/-- SPAWN and SPAWN.REC: the record at offset a leaves for its scheduler unit; both destinations await the answer. -/
def spawnWith (viaRec : Bool) (g : BitVec 4) (x y : BitVec 5) (a : BitVec 3) (s : State) : Host.Outcome State Fault Refusal :=
  control { size := 2, commit := true } g { s := [x, y] } s fun s => s.withBlock a fun b =>
    .done (((s.releaseReq (noPlace 0 s.pkg) (.spawn (words8 b) viaRec x y)).awaitS x).awaitS y)

def execSpawn (g : BitVec 4) (x y : BitVec 5) (a : BitVec 3) (s : State) : Host.Outcome State Fault Refusal := spawnWith false g x y a s
def execSpawnRec (g : BitVec 4) (x y : BitVec 5) (a : BitVec 3) (s : State) : Host.Outcome State Fault Refusal := spawnWith true g x y a s

/-! ### DEPDEC, ARRIVE, TASKQ -/

def execDepdec (g : BitVec 4) (x y : BitVec 5) (ii : BitVec 1) (k : BitVec 16) (s : State) : Host.Outcome State Fault Refusal :=
  control { size := 2, commit := true } g { s := if ii = 1 then [x] else [x, y] } s fun s =>
    let n := if ii = 1 then k.toNat else (s.getS y).toNat % 65536
    let t := s.getS x
    if n = 0 then .done s
    else .done (s.releaseReq (noPlace 0 (BitVec.ofNat 10 (tidPkg t))) (.decrement t n s.isSys false))

def execArrive (g : BitVec 4) (slot : BitVec 2) (p : BitVec 1) (s : State) : Host.Outcome State Fault Refusal :=
  control { size := 1, compute := true } g {} s fun s =>
    if (s.curBank.run.map fun (r : StepRun) => r.nbars).getD 0 ≤ slot.toNat then .trap (trapOf Cause.barrierBound)
    else .done (s.releaseReq (noPlace 0 s.pkg) (.arrive slot.toNat (p == 1)))

/-- The word of a task record that TASKQ returns (R450). -/
def State.taskqValue (s : State) (t : Word) (item : Nat) (world : Byte) (system : Bool) : Word :=
  match s.task? t with
  | none => BitVec.allOnes 64
  | some k =>
    if k.st = .ended ∨ (!system ∧ lrWorld k.lr ≠ world.toNat) then BitVec.allOnes 64
    else
      match item with
      | 0 => s.taskWord8 k
      | 1 => BitVec.ofNat 64 (k.nextStep.toNat * 2 ^ 32 + k.done.toNat)
      | 2 => k.status
      | 3 => k.waitStart
      | 4 => lrArg0 k.lr
      | _ => lrArg1 k.lr

def execTaskq (g : BitVec 4) (x y : BitVec 5) (item : BitVec 4) (s : State) : Host.Outcome State Fault Refusal :=
  control { size := 2 } g { s := [x, y] } s fun s =>
    let v := s.getS y
    let t := if v = 0 then s.taskId else v
    if tidPkg t = s.pkgNo then .done (s.setS x (s.taskqValue t item.toNat s.world s.isSys))
    else
      let k := s.asker .C
      .done ((s.issueReq (s.reqOf k (noPlace 0 (BitVec.ofNat 10 (tidPkg t))) (.taskq item t x))).awaitS x)

/-! ### COMMIT and EXIT -/

/-- The step is past COMMIT; slots that it took from outside become FREE (R447, R453). -/
def State.commitStep (s : State) : State :=
  let k := s.curBank
  match k.run with
  | none => s
  | some r =>
    let s := s.setCurBank { k with run := some { r with committed := true } }
    let c := s.core s.coreNo
    s.setCore s.coreNo { c with rings := c.rings.map fun e => if e.task = r.task then e.retire else e }

def execCommit (g : BitVec 4) (s : State) : Host.Outcome State Fault Refusal :=
  control { size := 1, compute := true } g {} s fun s => .done s.commitStep

def execExit (g : BitVec 4) (s : State) : Host.Outcome State Fault Refusal :=
  control { size := 1, compute := true } g {} s fun s => .done (s.endStep s.coreNo s.bankNo)

/-! ### XSYNC (R460) -/

/-- TETHERCNT[62:0], with bit 63 set when the Tether is not locked. -/
def State.xsyncValue (s : State) : Word := BitVec.ofNat 64 (s.tether.toNat % 2 ^ 63 + b2n (!s.links.lock) * 2 ^ 63)

/-- XSYNC; with W = 1 the context stalls until TETHERCNT[62:0] reaches the instant. -/
def execXsync (g : BitVec 4) (x y : BitVec 5) (w : BitVec 1) (s : State) : Host.Outcome State Fault Refusal :=
  control { size := 2 } g { s := if w = 1 then [x, y] else [x] } s fun s =>
    let v := (s.getS y).toNat % 2 ^ 63
    if w = 1 ∧ s.tether.toNat % 2 ^ 63 < v then
      if s.isSys then .stall s else .stall (s.setCtx { s.ctx with xsync := some (x, BitVec.ofNat 64 v) })
    else .done (s.setS x s.xsyncValue)

/-- XSYNC_WAIT_RELEASE: the instant has come, and the context receives TETHERCNT and goes on. -/
def execXsyncWaitRelease (core : BitVec 9) (c : CtxId) (s : State) : Host.Outcome State Fault Refusal :=
  let f := core.toNat
  let b := (s.core f).active
  let k := s.bank f b
  match (k.ctx c).xsync with
  | none => .next s
  | some (x, v) =>
    if k.st ≠ .running || s.tether.toNat % 2 ^ 63 < v.toNat then .next s
    else
      let ctx := { (k.ctx c).setS x s.xsyncValue with xsync := none }
      let t := s.setBank f b (k.setCtx c ctx)
      -- the position goes past the instruction of two words
      let p := ({ t with turn := .core core c } : State).after ctx.pos 2
      .next (t.setBank f b ((t.bank f b).setCtx c (ctx.at_ p)))

end Sys2Proof.Machine
end

