-- ==== Sys2Proof/Machine/SysInstr.lean ====
section
/-!
DEFINITION. The system instructions (18_isa_tasks_system.md, R464 to R473), the system registers (Table 18-6) and the
answers to parked banks (R247, R248).
-/

namespace Sys2Proof.Machine

open Sys2Proof

/-! ### TRAP, ERET, WAITI, HALT -/

/-- TRAP: a compute core parks the step; a system core goes to its handler and returns behind the TRAP (R466). -/
def execTrap (g : BitVec 4) (w : BitVec 16) (s : State) : Host.Outcome State Fault Refusal :=
  control { size := 1 } g {} s fun s =>
    match s.turn with
    | .core _ _ => .trap { cause := Cause.trap, code := w }
    | .sys n => .stall (s.raiseSys n.toNat Cause.trap w (s.after s.pos 1))

def execEret (g : BitVec 4) (s : State) : Host.Outcome State Fault Refusal :=
  control { size := 1, sys := true } g {} s fun s =>
    match s.turn with
    | .core _ _ => .stall s
    | .sys n => .stall (s.eret n.toNat)

/-- WAITI: the latched events, which it clears; with none latched it sleeps until one is. -/
def execWaiti (g : BitVec 4) (x : BitVec 5) (s : State) : Host.Outcome State Fault Refusal :=
  control { size := 1, sys := true } g { s := [x] } s fun s =>
    match s.turn with
    | .core _ _ => .stall s
    | .sys n =>
      let c := s.sysCore n.toNat
      if c.latched = 0 then .stall (s.setSys n.toNat { c with sleeping := true })
      else .done ((s.setSys n.toNat { c with latched := 0 }).setS x (c.latched.setWidth 64))

def execHalt (g : BitVec 4) (s : State) : Host.Outcome State Fault Refusal :=
  control { size := 1, sys := true } g {} s fun s =>
    match s.turn with
    | .core _ _ => .stall s
    | .sys n => .done (s.setSys n.toNat { s.sysCore n.toNat with halted := true })

/-! ### OMCALL (R467) -/

/-- Checks 1 to 5 of Table 4-2 with right W for element i of a `.z64` object; false where one fails. -/
def State.resultElem (s : State) (k : Asker) (h : Word) (i : Nat) : Got Bool :=
  match s.getEntry k h with
  | .ok s e => .ok s (hasRight e k.world.toNat rightW && eKind e != 1 && eFmt e == 0x03 && !outside e (tupleOf e i))
  | .wait s => .wait s
  | .trap _ => .ok s false
  | .fault r => .fault r

def execOmcall (g : BitVec 4) (x : BitVec 5) (y : BitVec 3) (s : State) : Host.Outcome State Fault Refusal :=
  control { size := 1 } g { s := [x] } s fun s => s.withBlock y fun b =>
    (s.resultElem (s.asker .C) (wordAt b 3) (wordAt b 4).toNat).res fun s ok =>
      if !ok then .done (s.setS x 2)
      else if 1024 ≤ s.host.omcalls.length then .done (s.setS x 1)
      else
        let c : OmCmd := { src := 256, words := words8 b, world := s.world, started := false, result := 0 }
        let t : State := { s with host := { s.host with omcalls := s.host.omcalls ++ [c] } }
        .done ((t.wake 1).setS x 0)

/-! ### Answers to parked banks (R247, R248) -/

/-- FANSWER for a bank that is parked under a fault: 0 RESUME, 1 SKIP, 2 REPLAY, 3 KILL (Table 10-4). -/
def State.fanswer (s : State) (f : Nat) (b : BitVec 1) (action : Nat) (detail : U16) : State :=
  let k := s.bank f b
  match k.fault with
  | none => s
  | some fi =>
    if k.st ≠ .parked then s
    else
      match action with
      | 0 => s.setBank f b { k with st := .resumable, skip := false }
      | 1 => s.setBank f b { k with st := .resumable, skip := true }
      | 2 =>
        if k.runOnFault || k.run.any (fun r => r.committed || r.task != fi.task) then s.killParked f b fi fi.cause
        else s.replayStep f b fi.cause false
      | _ => s.killParked f b fi detail

/-! ### Engine step counters (R192, R193, R247) -/

/-- Field of a step counter in words 9 and 10 of a frame: the byte offset and the bits (Table 10-2). -/
def escField (q : QueueId) : Nat × Nat × Nat :=
  match q with
  | .LQ => (72, 15, 0)
  | .MQ => (72, 31, 16)
  | .VQ => (72, 47, 32)
  | .SQ => (72, 63, 48)
  | .XQ => (80, 15, 0)

/-- A bank whose frame stands. -/
def Bank.framed (k : Bank) : Bool := k.st == .parked || k.st == .resumable

/-- A step counter as system software reads it: the frame field of a parked bank. -/
def State.readStepCounter (s : State) (q : QueueId) (inst : Nat) : Nat :=
  let k := s.bank (inst / 2) (BitVec.ofNat 1 inst)
  if k.framed then
    let x := escField q
    bits (mword s.mem (s.frameAddr (inst / 2) (BitVec.ofNat 1 inst) + x.1)).toNat x.2.1 x.2.2
  else k.counter q

/-- A write: of the frame field of a parked bank, not of a running one. -/
def State.writeStepCounter (s : State) (q : QueueId) (inst : Nat) (v : Word) : State :=
  let f := inst / 2
  let b := BitVec.ofNat 1 inst
  let k := s.bank f b
  let n := if q = .MQ then v.toNat % 128 else v.toNat % 65536
  if 640 ≤ inst then s
  else if k.framed then
    let x := escField q
    let a := s.frameAddr f b + x.1
    { s with mem := mputWord s.mem a (BitVec.ofNat 64 (putBits (mword s.mem a).toNat x.2.1 x.2.2 n)) }
  else if k.st = .idle then s.setBank f b (k.setCounter q n)
  else s

/-! ### System registers (Table 18-6) -/

/-- How many instances a register has; none for a number that the table does not list. -/
def sysInstances (n : Nat) : Option Nat :=
  match n with
  | 0x010 | 0x011 | 0x012 | 0x013 | 0x014 => some 640
  | 0x018 => some 320
  | 0x028 | 0x02B => some 18
  | 0x029 => some 4
  | 0x02A => some 8
  | 0x038 => some 40
  | 0x040 => some 256
  | 0x041 => some 16
  | 0x048 => some 192
  | 0x000 | 0x001 | 0x002 | 0x003 | 0x004 | 0x005 | 0x020 | 0x021 | 0x022 | 0x023 | 0x030 | 0x031 | 0x032 | 0x033 | 0x034
  | 0x035 | 0x050 | 0x051 | 0x052 => some 1
  | _ => none

/-- A register of the step. -/
def stepReg (n : Nat) : Bool := n < 6

def counterQueue (n : Nat) : QueueId :=
  match n with
  | 0x010 => .LQ
  | 0x011 => .MQ
  | 0x012 => .VQ
  | 0x013 => .SQ
  | _ => .XQ

/-- TASKSTAT (Table 6-5): fields of the task as they stand, and of this run of the step. -/
def State.taskstat (s : State) (r : StepRun) : Nat :=
  let w := ((s.task? r.task).map fun t => t.status.toNat).getD 0
  bits w 31 16 * 65536 + r.replays.toNat * 256 + bits w 4 3 * 8 + b2n r.preempted * 4 + b2n r.replay * 2 + bits w 0 0

/-- A register of the step, 0 in system mode. -/
def State.stepRead (s : State) (n : Nat) : Word :=
  if s.isSys then 0
  else
    match s.curBank.run with
    | none => 0
    | some r =>
      match n with
      | 0 => r.task
      | 1 => r.world.setWidth 64
      | 2 => BitVec.ofNat 64 (s.pkgNo * 2 ^ 32 + s.bankNo.toNat * 512 + s.coreNo)
      | 3 => BitVec.ofNat 64 (r.skips.toNat * 65536 + r.cause.toNat)
      | 4 => r.rowlim.setWidth 64
      | _ => BitVec.ofNat 64 (s.taskstat r)

/-- SLSTAT (R278). -/
def Slice.slstat (x : Slice) : Word := if x.inv then 1 else 0

/-- A register that only system mode reads. A read of FANSWER, which is only written, gives a free value. -/
def State.sysRead (s : State) (sc : SysCore) (n i : Nat) : Word × State :=
  let pure := fun (w : Word) => (w, s)
  match n with
  | 0x010 | 0x011 | 0x012 | 0x013 | 0x014 => pure (BitVec.ofNat 64 (s.readStepCounter (counterQueue n) i))
  | 0x018 => pure ((s.core i).dmapsel.setWidth 64)
  | 0x020 => pure s.power.pwrstat
  | 0x021 => pure s.links.tetherstat
  | 0x022 => pure s.tether
  | 0x023 => pure (BitVec.ofNat 64 (s.links.master.toNat * 2 ^ 22 + b2n s.links.tetherEn))
  | 0x028 => pure (s.peer i).plstat
  | 0x029 => pure (s.cxlPort i).stat
  | 0x02A => pure (s.flashPort i).stat
  | 0x02B => pure (if (s.peer i).dis then 1 else 0)
  | 0x030 => pure s.faults.frameBase
  | 0x031 => pure s.faults.fqBase
  | 0x032 => pure (BitVec.ofNat 64 (s.faults.fqTail.toNat % 16384))
  | 0x033 => pure (BitVec.ofNat 64 (s.faults.fqHead.toNat % 16384))
  | 0x034 => s.drawFree
  | 0x035 => pure s.objs.ptRoot
  | 0x038 => pure ((s.unit i).depstale.setWidth 64)
  | 0x040 => pure ((s.chain (i / 16)).cons.toList.getD (i % 16) 0)
  | 0x041 => pure (s.chain i).ichstat
  | 0x048 => pure (s.slice i).slstat
  | 0x050 => pure (sc.svec.setWidth 64)
  | 0x051 => pure (sc.epc.setWidth 64)
  | 0x052 => pure (sc.ecause.setWidth 64)
  | _ => pure 0

/-- W1C bits of PWRSTAT (R23). -/
def State.clearPwrstat (s : State) (v : Word) : State :=
  { s with power := { s.power with thermSeen := s.power.thermSeen && !v.getLsbD 9, pwrlimSeen := s.power.pwrlimSeen && !v.getLsbD 8 } }
/-- W1C bit of SLSTAT (R278). -/
def State.clearSlstat (s : State) (n : Nat) (v : Word) : State :=
  if v.getLsbD 0 then s.setSlice n { s.slice n with inv := false } else s
/-- ICONSn of a chain (Table 7-7); its reserved bits read zero (R4). -/
def State.writeIcons (s : State) (i : Nat) (v : Word) : State :=
  let c := s.chain (i / 16)
  s.setChain (i / 16) { c with cons := .ofFn fun k => if k.val = i % 16 then BitVec.ofNat 64 (putBits v.toNat 30 19 0) else c.cons[k] }

/-- A write to a register; one that cannot be written is left alone. -/
def State.sysWrite (s : State) (n : Nat) (num i : Nat) (v : Word) : State :=
  match num with
  | 0x010 | 0x011 | 0x012 | 0x013 | 0x014 => s.writeStepCounter (counterQueue num) i v
  | 0x018 => s.setCore i { s.core i with dmapsel := v.setWidth 9 }
  | 0x020 => s.clearPwrstat v
  | 0x021 => s.clearTetherstat v
  | 0x023 => s.writeTetherctl v
  | 0x028 => s.clearPlstat i v
  | 0x02B => s.writePlctl i (v.getLsbD 0)
  | 0x030 => { s with faults := { s.faults with frameBase := v } }
  | 0x031 => { s with faults := { s.faults with fqBase := v } }
  | 0x033 => s.writeFqhead v
  | 0x034 => s.fanswer (bits v.toNat 8 0) (BitVec.ofNat 1 (bits v.toNat 9 9)) (bits v.toNat 11 10) (BitVec.ofNat 16 (bits v.toNat 63 48))
  | 0x035 => { s with objs := { s.objs with ptRoot := v } }
  | 0x040 => s.writeIcons i v
  | 0x048 => s.clearSlstat i v
  | 0x050 => s.setSys n { s.sysCore n with svec := v.setWidth 28 }
  | 0x051 => s.setSys n { s.sysCore n with epc := v.setWidth 28 }
  | _ => s

/-- SYSRD: outside system mode only the registers of the step. -/
def execSysrd (g : BitVec 4) (x y : BitVec 5) (num : BitVec 12) (s : State) : Host.Outcome State Fault Refusal :=
  let n := num.toNat
  control { size := 2, sys := (sysInstances n).isSome && !stepReg n } g { s := [x, y] } s fun s =>
    let i := (s.getS y).toNat
    match sysInstances n with
    | none => .trap (trapOf Cause.illegalOp)
    | some m =>
      if m ≤ i then .trap (trapOf Cause.illegalOp)
      else if stepReg n then .done (s.setS x (s.stepRead n))
      else
        match s.turn with
        | .core _ _ => .trap (trapOf Cause.priv)
        | .sys k => let r := s.sysRead (s.sysCore k.toNat) n i; .done (r.2.setS x r.1)

def execSyswr (g : BitVec 4) (x y : BitVec 5) (num : BitVec 12) (s : State) : Host.Outcome State Fault Refusal :=
  control { size := 2, sys := true } g { s := [x, y] } s fun s =>
    let i := (s.getS y).toNat
    match sysInstances num.toNat with
    | none => .trap (trapOf Cause.illegalOp)
    | some m =>
      if m ≤ i then .trap (trapOf Cause.illegalOp)
      else
        match s.turn with
        | .core _ _ => .trap (trapOf Cause.priv)
        | .sys n => .done (s.sysWrite n.toNat num.toNat i (s.getS x))

/-! ### DECMAP (R285, R287, R469) -/

/-- An entry of a decode map: no reserved bit, and V = 1 only with an operation that map 1 maps. -/
def mapEntryOk (x : Nat) : Bool := bits x 14 10 == 0 && (!bit x 15 || Decode.rows.any fun r => r.op == x % 1024)

/-- A slot is sampled by a step that runs or is parked in a core. -/
def Core.samples (c : Core) (slot : Nat) : Bool :=
  ([0, 1] : List (BitVec 1)).any fun b => (c.bank b).st != .idle && (c.bank b).run.any fun r =>
    [0, 1, 2].any fun j => r.maps.toNat / 8 ^ j % 8 == slot

/-- The number under which a system core keeps the lines that it has asked for. -/
def sysKey (n : BitVec 4) : Nat := 2 ^ 110 + n.toNat

def execDecmap (g : BitVec 4) (x y : BitVec 5) (h : BitVec 4) (slot : BitVec 3) (s : State) : Host.Outcome State Fault Refusal :=
  control { size := 2, sys := true } g { s := [x, y] } s fun s =>
    let sel := bits (s.getS y).toNat 8 0
    if slot.toNat < 2 || (320 ≤ sel && sel ≠ 0x1FF) then .trap (trapOf Cause.illegalOp)
    else
      match s.turn with
      | .core _ _ => .stall s
      | .sys n =>
        let k := s.asker .C
        let hw := s.getH h
        (s.getEntry k hw).res fun s e =>
          if !hasRight e 0 rightR then .trap (k.cause Cause.objRights hw)
          else
            let cores := if sel = 0x1FF then List.range 320 else [sel]
            let busy := cores.any fun f => (s.core f).samples slot.toNat
            if eLayout e ≠ 0 || eFmt e ≠ 0x01 || eExt e 3 * eExt e 2 * eExt e 1 * eExt e 0 ≠ 1024 then .done (s.setS x (if busy then 1 else 2))
            else
              (s.readCodes k (sysKey n) hw e needUnit 1024 0 []).res fun s r =>
                let s := s.dropLines (sysKey n)
                let bad := !(r.1.all mapEntryOk)
                if busy && bad then let v := s.drawFree; .done (v.2.setS x (if v.1.getLsbD 0 then 1 else 2))
                else if busy then .done (s.setS x 1)
                else if bad then .done (s.setS x 2)
                else
                  let map := r.1.map fun c => BitVec.ofNat 16 c
                  let s := cores.foldl (fun (s : State) f => s.setCore f { s.core f with maps := tset (s.core f).maps slot.toNat map }) s
                  .done (s.setS x 0)

/-! ### TLBINV and OTINV (R470) -/

/-- An invalidation: the units of this package at once; in scope 1 those of the domain too, until every package has answered
or has failed to in time. -/
def invalidateOn (g : BitVec 4) (x y : BitVec 5) (sc : BitVec 2) (s : State) (here : State → State) (op : State → RemoteOp) :
    Host.Outcome State Fault Refusal :=
  control { size := 2, sys := true } g { s := [x, y] } s fun s =>
    match s.turn with
    | .core _ _ => .stall s
    | .sys n =>
      let c := s.sysCore n.toNat
      match c.ctx.fence with
      | some _ =>
        if s.objs.reqs.any fun r => r.who == .sys n && (match r.kind with
            | .inval _ _ => true
            | _ => false) then .stall s
        else
          let late := c.invLate
          let s := s.setSys n.toNat { c with invLate := false, ctx := { c.ctx with fence := none } }
          .done (s.setS x (if late then 1 else 0))
      | none =>
        let t := here s
        if sc = 0 || s.domain.isEmpty then .done (t.setS x 0)
        else
          let k := s.asker .C
          let t := s.domain.foldl (fun t d => t.issueReq (t.reqOf k (noPlace 0 (BitVec.ofNat 10 d)) (.inval x (op s)))) t
          let c := t.sysCore n.toNat
          .stall (t.setSys n.toNat { c with invLate := false, ctx := { c.ctx with fence := some k.ord } })

def execTlbinv (g : BitVec 4) (x y : BitVec 5) (sc : BitVec 2) (all : BitVec 1) (s : State) : Host.Outcome State Fault Refusal :=
  invalidateOn g x y sc s (fun s => s.dropTlb (bits (s.getS y).toNat 51 0) 1 (all == 1))
    fun s => .invalidateTlb ((s.getS y).setWidth 52) (all == 1)
def execOtinv (g : BitVec 4) (x y : BitVec 5) (sc : BitVec 2) (all : BitVec 1) (s : State) : Host.Outcome State Fault Refusal :=
  invalidateOn g x y sc s (fun s => s.dropEntry (s.getS y) (all == 1)) fun s => .invalidateEntry (s.getS y) (all == 1)

/-! ### MIGR (R471) -/

/-- Reserved bits of a MIGR block, a tier of 3, or a package that does not exist. -/
def migrBad (b : List Byte) : Bool :=
  let w := fun k => (wordAt b k).toNat
  bits (w 2) 63 42 ≠ 0 || bits (w 2) 40 2 ≠ 0 || bits (w 2) 1 0 = 3 || 576 ≤ bits (w 2) 41 32 || bits (w 3) 63 32 ≠ 0
    || w 4 ≠ 0 || w 5 ≠ 0 || w 6 ≠ 0 || w 7 ≠ 0

def execMigr (g : BitVec 4) (x : BitVec 5) (a : BitVec 3) (s : State) : Host.Outcome State Fault Refusal :=
  control { size := 2, sys := true } g { s := [x] } s fun s => s.withBlock a fun b =>
    let h := wordAt b 0
    let off := (wordAt b 1).toNat
    let tier := bits (wordAt b 2).toNat 1 0
    let pkg := bits (wordAt b 2).toNat 41 32
    let pfn := bits (wordAt b 3).toNat 31 0
    let bad : Res := .done (s.setS x 4)
    match s.turn with
    | .core _ _ => .stall s
    | .sys n =>
      match s.known h with
      | none => bad
      | some e =>
        if migrBad b || off % ePage e ≠ 0 || eBufs e * eSpan e ≤ off || (eLarge e && pfn % 32 ≠ 0) then bad
        else
          match s.walkTables (eVbase e + off) with
          | .error _ => bad
          | .ok (leafPa, leaf, large) =>
            if ePinned e then .done (s.setS x 1)
            else if eState e = 2 || leafLost leaf then .done (s.setS x 2)
            else if leafHold leaf then .done (s.setS x 3)
            -- a PFN of a group in the other mode (R83) has no status in the spec: BAD, DESIGN CHOICE (log entry 82)
            else if pkg = s.pkgNo && tier = 0 && !s.modeOk (eCompute e || eLayout e == 2) pfn then bad
            else .done ((s.startMove h (eVbase e + off) leafPa large tier pkg pfn (.instr n x)).awaitS x)

/-! ### ZEROB (R472) -/

/-- The compute dies are gated (R20). -/
def Power.gated (p : Power) : Bool := p.pstate == .ps2 || p.pstate == .ps3
/-- A bank holds a step that runs or is parked. -/
def Bank.holds (k : Bank) : Bool := k.st != .idle

/-- Zero the vector registers and accumulators of a bank. -/
def Bank.zeroRegs (k : Bank) : Bank := { k with vregs := [], accs := [] }

def execZerob (g : BitVec 4) (x y : BitVec 5) (kind : BitVec 3) (s : State) : Host.Outcome State Fault Refusal :=
  control { size := 2, sys := true } g { s := [x, y] } s fun s =>
    let v := (s.getS y).toNat
    let f := bits v 8 0
    let mark : Res := .done ((s.setCore f { s.core f with zeroPending := true }).setS x 0)
    match kind.toNat with
    | 0 =>
      let tier := bits v 63 62
      let pfn := if tier = 0 then bits v 31 0 / 32 * 32 else bits v 31 0
      if tier = 3 then .trap (trapOf Cause.illegalOp)
      else if !hasStorage (frameBase tier 0 pfn) then .fault (.noStorage (frameBase tier 0 pfn))
      else .done ({ s with mem := mzero s.mem (frameBase tier 0 pfn) (if tier = 0 then 2097152 else 65536) }.setS x 0)
    | 1 =>
      let b := BitVec.ofNat 1 (bits v 9 9)
      if 320 ≤ f then .trap (trapOf Cause.illegalOp)
      else if (s.bank f b).holds then .done (s.setS x 1)
      else if s.power.gated then mark
      else .done ((s.setBank f b (s.bank f b).zeroRegs).setS x 0)
    | 2 =>
      if 320 ≤ f then .trap (trapOf Cause.illegalOp)
      else if (s.bank f 0).holds || (s.bank f 1).holds then .done (s.setS x 1)
      else if s.power.gated then mark
      else
        let t := ([0, 1] : List (BitVec 1)).foldl (fun (s : State) b =>
          let s := (s.flushBasin f b fun _ => true).dropBasin f b fun _ => true
          s.setBank f b { s.bank f b with scratch := [] }) s
        .done (t.setS x 0)
    | _ =>
      if 40 ≤ v then .trap (trapOf Cause.illegalOp)
      else .done ((s.setCluster v { s.cluster v with l2 := [] }).setS x 0)

/-! ### KEYSET (R110, R473) -/

/-- KEYSET asks first; the complex answers at the next issue, unless it has reset itself meanwhile (R108). -/
def execKeyset (g : BitVec 4) (x : BitVec 5) (op : BitVec 1) (wl : BitVec 8) (s : State) : Host.Outcome State Fault Refusal :=
  control { size := 2, sys := true } g { s := [x] } s fun s =>
    match s.turn with
    | .core _ _ => .stall s
    | .sys n =>
      let c := s.sysCore n.toNat
      if wl = 0 then .trap (trapOf Cause.illegalOp)
      else
        match c.ctx.fence with
        | none => .stall (s.setSys n.toNat { c with secFault := false, ctx := { c.ctx with fence := some 0 } })
        | some _ =>
          let s := s.setSys n.toNat { c with secFault := false, ctx := { c.ctx with fence := none } }
          if c.secFault then .done (s.setS x 2)
          else if op = 1 then .done ((s.eraseKey wl.toNat).setS x 0)
          else
            match tfind s.sec.keys wl.toNat with
            | none => .done (s.setS x 1)
            | some k =>
              .done ({ s with sec := { s.sec with engineKeys := tset s.sec.engineKeys wl.toNat k } }.setS x 0)

end Sys2Proof.Machine
end

