-- ==== Sys2Proof/Machine/Flags.lean ====
section
/-!
DEFINITION. Conditions: the integer conditions of Table 13-4, the floating-point conditions of Table 13-6, and the
format that the FMT field of a scalar floating-point instruction names (R315).
-/

namespace Sys2Proof.Machine

open Sys2Proof

/-- Table 13-4: whether integer condition cc holds of two register values. -/
def intCond (cc : Nat) (a b : Word) : Bool :=
  match cc with
  | 0 => a == b
  | 1 => a != b
  | 2 => a.toInt < b.toInt
  | 3 => b.toInt ≤ a.toInt
  | 4 => a.toInt ≤ b.toInt
  | 5 => b.toInt < a.toInt
  | 6 => a.toNat < b.toNat
  | 7 => b.toNat ≤ a.toNat
  | 8 => a.toNat ≤ b.toNat
  | 9 => b.toNat < a.toNat
  | _ => (a &&& b) != 0

/-- Table 13-6: whether floating-point condition cc holds of two values. Every comparison is quiet. -/
def fltCond (cc : Nat) (a b : Val) : Bool :=
  let un := a.isNan || b.isNan
  let c := a.cmp b
  match cc with
  | 0 => !un && c == 0
  | 1 => un || c != 0
  | 2 => !un && c < 0
  | 3 => !un && c ≤ 0
  | 4 => !un && 0 < c
  | 5 => !un && 0 ≤ c
  | 6 => un
  | _ => !un

/-- FMT of R315: 0 FP64, 1 FP32. -/
def scalarFlt (fmt : Nat) : Flt := if fmt = 0 then fp64 else fp32
/-- The code of an operand of a scalar format in an s register (R302). -/
def scalarCode (fmt : Nat) (v : Word) : Nat := v.toNat % 2 ^ (scalarFlt fmt).width

end Sys2Proof.Machine
end

