-- ==== Sys2Proof/Machine/Matrix.lean ====
section
/-!
DEFINITION. Format words and matrix commands (15_isa_matrix.md).
-/

namespace Sys2Proof.Machine

open Sys2Proof

/-! ### Format words (Table 15-1, R366) -/

def fwA (w : Word) : Byte := BitVec.ofNat 8 (bits w.toNat 7 0)
def fwB (w : Word) : Byte := BitVec.ofNat 8 (bits w.toNat 15 8)
def fwC (w : Word) : Byte := BitVec.ofNat 8 (bits w.toNat 23 16)
def fwSa (w : Word) : Nat := bits w.toNat 25 24
def fwSb (w : Word) : Nat := bits w.toNat 27 26
def fwRnd (w : Word) : Nat := bits w.toNat 30 28
def fwSat (w : Word) : Bool := bit w.toNat 31
def fwSca (w : Word) : Nat := bits w.toNat 39 32
def fwScb (w : Word) : Nat := bits w.toNat 47 40
def fwScc (w : Word) : Nat := bits w.toNat 55 48

/-- A matrix input format. -/
def isInputFmt (f : Byte) : Bool := WellFormed.isP3109 f || f == 0x04 || f == 0x00 || f == 0x40 || f == 0x41
/-- An exchange format. -/
def isExchangeFmt (f : Byte) : Bool :=
  WellFormed.isP3109 f || f == 0x40 || f == 0x41 || f == 0x42 || (f.toNat < 8 && f.toNat % 4 < 3)

/-- A well-formed format word. -/
def fwOk (w : Word) : Bool :=
  bits w.toNat 63 56 == 0 && isInputFmt (fwA w) && isInputFmt (fwB w) && isExchangeFmt (fwC w)
    && fwSa w < 3 && fwSb w < 3 && fwRnd w ≤ 4

/-! ### FMTQ (R368, R369) -/

/-- Push a format word: a malformed one raises ILLEGAL_OP, and the context waits while the queue holds 16. -/
def pushFormat (size : Nat) (g : BitVec 4) (u : Uses) (s : State) (w : State → Word) : Host.Outcome State Fault Refusal :=
  control { size, compute := true } g u s fun s =>
    let k := s.curBank
    if !fwOk (w s) then .trap (trapOf Cause.illegalOp)
    else if 16 ≤ k.fmtq.length then .stall s
    else
      let r := k.run.getD default
      .done (s.setCurBank { k with fmtq := k.fmtq ++ [(r.step, r.id, w s)] })

def execFmtqReg (g : BitVec 4) (x : BitVec 5) (s : State) : Host.Outcome State Fault Refusal :=
  pushFormat 2 g { s := [x] } s fun s => s.getS x
def execFmtqImm (g : BitVec 4) (imm lit : BitVec 32) (s : State) : Host.Outcome State Fault Refusal :=
  pushFormat 3 g {} s fun _ => lit ++ imm

/-! ### Issue from a context (R375, R377, R383 to R386) -/

/-- The scratchpad offset or the descriptor of an operand from source kind k. -/
def operandSample (s : State) (k : BitVec 2) (l : BitVec 4) : Except TrapInfo Sample :=
  if k = 0 then .ok { hs := [0], ds := [0], vs := [0] }
  else if k = 1 then
    let a := (s.getA (BitVec.ofNat 3 l.toNat)).setWidth 64
    if a.toNat % 64 ≠ 0 then .error (trapOf Cause.scratchAlign) else .ok { hs := [0], ds := [0], vs := [a] }
  else
    match s.sampleDesc l with
    | .error x => .error x
    | .ok m => .ok { m with vs := [0] }

/-- A multiplying command checks its registers and samples its two operands: element 0 of each list is A, 1 is B. -/
def mmaSample (va vb : BitVec 11) (kl : BitVec 6) (ak bk : BitVec 2) (al bl : BitVec 4) (s : State) : Except TrapInfo Sample :=
  if (ak = 0 ∧ !s.regsOk va.toNat 4) ∨ (bk = 0 ∧ !s.regsOk vb.toNat (ceilDiv (kl.toNat + 1) 16)) then .error (trapOf Cause.regBound)
  else
    match operandSample s ak al, operandSample s bk bl with
    | .ok a, .ok b => .ok { hs := a.hs ++ b.hs, ds := a.ds ++ b.ds, vs := a.vs ++ b.vs }
    | .error x, _ => .error x
    | _, .error x => .error x

/-- A command on the registers VA to VA + 3. -/
def fourRegs (va : BitVec 11) (s : State) : Except TrapInfo Sample :=
  if s.regsOk va.toNat 4 then .ok {} else .error (trapOf Cause.regBound)

def execMma64 (tk g : BitVec 4) (va vb : BitVec 11) (acc : BitVec 3) (z : BitVec 1) (kl : BitVec 6) (s : State) :
    Host.Outcome State Fault Refusal :=
  engine 2 false .MQ tk g {} (.mma64 tk g va vb acc z kl) s (mmaSample va vb kl 0 0 0 0)
def execMma96 (tk g : BitVec 4) (va vb : BitVec 11) (acc : BitVec 3) (z : BitVec 1) (kl : BitVec 6) (ak bk : BitVec 2)
    (al bl : BitVec 4) (s : State) : Host.Outcome State Fault Refusal :=
  engine 3 false .MQ tk g {} (.mma96 tk g va vb acc z kl ak bk al bl) s (mmaSample va vb kl ak bk al bl)
def execMmam64 (tk g : BitVec 4) (va vb : BitVec 11) (acc : BitVec 3) (z : BitVec 1) (kl : BitVec 6) (s : State) :
    Host.Outcome State Fault Refusal :=
  engine 2 false .MQ tk g {} (.mmam64 tk g va vb acc z kl) s (mmaSample va vb kl 0 0 0 0)
def execMmam96 (tk g : BitVec 4) (va vb : BitVec 11) (acc : BitVec 3) (z : BitVec 1) (kl : BitVec 6) (ak bk : BitVec 2)
    (al bl : BitVec 4) (s : State) : Host.Outcome State Fault Refusal :=
  engine 3 false .MQ tk g {} (.mmam96 tk g va vb acc z kl ak bk al bl) s (mmaSample va vb kl ak bk al bl)
def execMzero (tk g : BitVec 4) (acc : BitVec 3) (s : State) : Host.Outcome State Fault Refusal :=
  engine 1 false .MQ tk g {} (.mzero tk g acc) s fun _ => .ok {}
/-- Row groups RG0 to RG0 + NG − 1 end at group 3 (R384). -/
def groupsOk (rg ng : BitVec 2) : Except TrapInfo Sample :=
  if rg.toNat + ng.toNat + 1 ≤ 4 then .ok {} else .error (trapOf Cause.illegalOp)
def execMrd (tk g : BitVec 4) (vd : BitVec 11) (acc : BitVec 3) (rg ng : BitVec 2) (s : State) : Host.Outcome State Fault Refusal :=
  engine 2 false .MQ tk g {} (.mrd tk g vd acc rg ng) s fun _ => groupsOk rg ng
def execMwr (tk g : BitVec 4) (va : BitVec 11) (acc : BitVec 3) (rg ng : BitVec 2) (s : State) : Host.Outcome State Fault Refusal :=
  engine 2 false .MQ tk g {} (.mwr tk g va acc rg ng) s fun _ => groupsOk rg ng
def execMred (tk g : BitVec 4) (va : BitVec 11) (acc : BitVec 3) (z ax : BitVec 1) (s : State) : Host.Outcome State Fault Refusal :=
  engine 2 false .MQ tk g {} (.mred tk g va acc z ax) s (fourRegs va)
def execMscan (tk g : BitVec 4) (va : BitVec 11) (acc : BitVec 3) (z ax ex : BitVec 1) (s : State) : Host.Outcome State Fault Refusal :=
  engine 2 false .MQ tk g {} (.mscan tk g va acc z ax ex) s (fourRegs va)
def execMtrn (tk g : BitVec 4) (va : BitVec 11) (acc : BitVec 3) (s : State) : Host.Outcome State Fault Refusal :=
  engine 2 false .MQ tk g {} (.mtrn tk g va acc) s (fourRegs va)

/-! ### Operands (R372 to R374) -/

abbrev Opnd := List (U16 × Byte)

def mkOpnd (c s : Nat) : U16 × Byte := (BitVec.ofNat 16 c, BitVec.ofNat 8 s)

/-- The scale of an element that mode 1 gives byte own. -/
def modeScale (mode fixed own : Nat) : Nat := if mode = 0 then 127 else if mode = 2 then fixed else own

/-- A rows × cols operand in vector registers (mode 1 gives 127). -/
def regOperand (k : Bank) (v rows cols b scale : Nat) : Opnd :=
  (List.range rows).flatMap fun i => (List.range cols).map fun j => mkOpnd (k.velem b (v + i / 16) (i % 16) j) scale

/-- A rows × cols operand in scratchpad, and the bytes of its image. -/
def imgBytes (rows cols b mode : Nat) : Nat := rows * imgPitch cols b (if mode = 1 then ceilDiv cols 32 else 0)
def imgOperand (k : Bank) (off rows cols b mode fixed : Nat) : Opnd :=
  let sc := if mode = 1 then ceilDiv cols 32 else 0
  let pitch := imgPitch cols b sc
  (List.range rows).flatMap fun i =>
    let row := mread k.scratch (off + i * pitch) pitch
    (List.range cols).map fun j => mkOpnd (unpackCode b row j) (modeScale mode fixed (byteAt row (ceilDiv (cols * b) 8 + j / 32)).toNat)

/-- A matrix operand fetch: weak, right R, HBM only (R373). -/
def needMatrix : Need := { right := rightR, store := false, strong := false, use := .hbm }

/-- Elements j to j + n − 1 of row i of an object operand; beyond the descriptor's rows and columns they read as zero,
unscaled, and are not fetched (log entry 40). -/
def State.fetchRow (s : State) (k : Asker) (key : Nat) (h : Word) (d : DescW) (fmt : Byte) (mode fixed i : Nat) :
    Nat → Nat → Choices → Got (Opnd × Choices)
  | 0, _, ch => .ok s ([], ch)
  | n + 1, j, ch =>
    if dRows d ≤ i ∨ dCols d ≤ j then
      (s.fetchRow k key h d fmt mode fixed i n (j + 1) ch).bind fun s q => .ok s (mkOpnd 0 (if mode = 2 then fixed else 127) :: q.1, q.2)
    else
      let t := tileAt d i j
      (s.getEntry k h (u32s t)).bind fun s e =>
        if eFmt e ≠ fmt then .trap (k.cause Cause.handleInvalid h (u32s t))
        else
          -- one request asks for each line (R206)
          let rd := if 0 < j && elemLine e (tileAt d i (j - 1)) == elemLine e t then 7 else 2
          (s.readElem k key h t needMatrix rd ch).bind fun s r =>
            let own : Got (Nat × Choices) := if mode = 1 ∧ eLayout e = 3 then s.readScale k key h needMatrix t 2 r.2.2 else .ok s (127, r.2.2)
            own.bind fun s y =>
              (s.fetchRow k key h d fmt mode fixed i n (j + 1) y.2).bind fun s q =>
                .ok s (mkOpnd (r.2.1.getD (padOf d r.1)) (modeScale mode fixed y.1) :: q.1, q.2)

/-- Rows i to i + m − 1 of an object operand. -/
def State.fetchRows (s : State) (k : Asker) (key : Nat) (h : Word) (d : DescW) (fmt : Byte) (mode fixed cols : Nat) :
    Nat → Nat → Choices → Got (Opnd × Choices)
  | 0, _, ch => .ok s ([], ch)
  | m + 1, i, ch =>
    (s.fetchRow k key h d fmt mode fixed i cols 0 ch).bind fun s r =>
      (s.fetchRows k key h d fmt mode fixed cols m (i + 1) r.2).bind fun s q => .ok s (r.1 ++ q.1, q.2)

/-! ### Sums (R274, R378, R387) -/

/-- The exact value of an operand element. -/
def opndVal (fmt : Byte) (x : U16 × Byte) : Val := (dec x.1.toNat fmt).mul (dec x.2.toNat 0xC0)

/-- An output element: the groups of 32 in order; a group without a product leaves c unchanged. -/
def sumGroups (c : Nat) (n : Nat) (prod : Nat → Option Val) : Nat :=
  (List.range (ceilDiv n 32)).foldl (fun c g =>
    let ps := (List.range (min 32 (n - 32 * g))).filterMap fun k => prod (32 * g + k)
    if ps.isEmpty then c else code32 (accumulate (decFlt fp32 c) ps)) c

/-! ### Steps -/

/-- The popped word. -/
def Cmd.fw (c : Cmd) : Word := c.word.getD 0

/-- The operands of an MMA are read before its first row (R380; log entry 39): B whole, and A unless it comes from an
object, whose rows are fetched one by one. -/
def mmaStart (f : Nat) (b : BitVec 1) (c : Cmd) (va vb : BitVec 11) (kl : Nat) (ak bk : BitVec 2) (ch : Choices) (s : State) :
    Got (Cmd × Choices) :=
  let w := c.fw
  let k := cmdAsker f b .MQ c .M
  let bank := s.bank f b
  let wa := fmtWidth (fwA w)
  let wb := fmtWidth (fwB w)
  let offA := (c.vs.getD 0 0).toNat
  let offB := (c.vs.getD 1 0).toNat
  let lim := (s.runLimits f b).2
  if (ak = 1 ∧ lim < offA + imgBytes 64 kl wa (fwSa w)) ∨ (bk = 1 ∧ lim < offB + imgBytes kl 64 wb (fwSb w)) then
    .trap (trapOf Cause.scratchBound)
  else
    let a : Opnd :=
      if ak = 0 then regOperand bank va.toNat 64 kl wa (modeScale (fwSa w) (fwSca w) 127)
      else if ak = 1 then imgOperand bank offA 64 kl wa (fwSa w) (fwSca w) else []
    let bg : Got (Opnd × Choices) :=
      if bk = 0 then .ok s (regOperand bank vb.toNat kl 64 wb (modeScale (fwSb w) (fwScb w) 127), ch)
      else if bk = 1 then .ok s (imgOperand bank offB kl 64 wb (fwSb w) (fwScb w), ch)
      else s.fetchRows k (cmdKey f b c) (c.hs.getD 1 0) (c.ds.getD 1 0) (fwB w) (fwSb w) (fwScb w) 64 kl 0 ch
    bg.bind fun s r => .ok s ({ c with started := true, opA := a, opB := r.1 }, r.2)

/-- Row i of an MMA. -/
def mmaRow (f : Nat) (b : BitVec 1) (c : Cmd) (acc : BitVec 3) (z : BitVec 1) (kl : Nat) (ak : BitVec 2) (i : Nat) (ch : Choices) (s : State) :
    Got Choices :=
  let w := c.fw
  let k := cmdAsker f b .MQ c .M
  let row : Got (Opnd × Choices) :=
    if ak = 2 then s.fetchRow k (cmdKey f b c) (c.hs.getD 0 0) (c.ds.getD 0 0) (fwA w) (fwSa w) (fwSca w) i kl 0 ch
    else .ok s ((c.opA.drop (i * kl)).take kl, ch)
  row.bind fun s r =>
    let bank := s.bank f b
    let out := (List.range 64).map fun j =>
      sumGroups (if z = 1 then 0 else bank.aget acc.toNat i j) kl fun k =>
        some ((opndVal (fwA w) (r.1.getD k (0, 0))).mul (opndVal (fwB w) (c.opB.getD (k * 64 + j) (0, 0))))
    .ok (s.setBank f b (bank.aputRow acc.toNat i out)) r.2

/-- One step of MMA or MMAM: a masked row does nothing (R379). -/
def mmaStep (f : Nat) (b : BitVec 1) (c : Cmd) (va vb : BitVec 11) (acc : BitVec 3) (z : BitVec 1) (kl : BitVec 6) (ak bk : BitVec 2)
    (masked : Bool) (i : Nat) (ch : Choices) (s : State) : Got Choices :=
  let n := kl.toNat + 1
  if masked && c.masks i then .ok s ch
  else if c.started then mmaRow f b c acc z n ak i ch s
  else
    (mmaStart f b c va vb n ak bk ch s).bind fun s r =>
      let s := s.setBank f b ((s.bank f b).mapCmd .MQ c.ser fun _ => r.1)
      mmaRow f b r.1 acc z n ak i r.2 s

def mzeroStep (f : Nat) (b : BitVec 1) (acc : BitVec 3) (i : Nat) (s : State) : State :=
  s.setBank f b ((s.bank f b).aputRow acc.toNat i (List.replicate 64 0))

/-- One row of MRD (R384, R385). -/
def mrdStep (f : Nat) (b : BitVec 1) (c : Cmd) (vd : BitVec 11) (acc : BitVec 3) (rg ng : BitVec 2) (i : Nat) (s : State) : Got Choices :=
  let w := c.fw
  let m := regsPerGroup (fmtWidth (fwC w))
  if (s.runLimits f b).1 < vd.toNat + (ng.toNat + 1) * m then .trap (trapOf Cause.regBound)
  else
    let k := s.bank f b
    let r := 16 * rg.toNat + i
    let codes := (List.range 64).map fun j =>
      let x := (decFlt fp32 (k.aget acc.toNat r j)).mul (dec (fwScc w) 0xC0)
      roundTo x (fwC w) (rndOf (fwRnd w)) (fwSat w) (rnd8 k.srM (64 * r + j))
    let v := vd.toNat + i / 16 * m
    .ok (s.setBank f b ((List.range m).foldl (fun k q => k.vputRow (v + q) (i % 16) (codes.map fun x => x / 2 ^ (16 * q) % 65536)) k)) []

/-- One row of MWR. -/
def mwrStep (f : Nat) (b : BitVec 1) (c : Cmd) (va : BitVec 11) (acc : BitVec 3) (rg ng : BitVec 2) (i : Nat) (s : State) : Got Choices :=
  let w := c.fw
  let wd := fmtWidth (fwC w)
  let m := regsPerGroup wd
  if (s.runLimits f b).1 < va.toNat + (ng.toNat + 1) * m then .trap (trapOf Cause.regBound)
  else
    let k := s.bank f b
    let r := 16 * rg.toNat + i
    let row := (List.range 64).map fun j =>
      let x := (dec (k.tileCode va.toNat wd i j) (fwC w)).mul (dec (fwScc w) 0xC0)
      roundFlt fp32 (rndOf (fwRnd w)) (fwSat w) (rnd8 k.srM (64 * r + j)) x
    .ok (s.setBank f b (k.aputRow acc.toNat r row)) []

/-- The operand X of MRED, MSCAN and MTRN, read before the first row. -/
def genStart (f : Nat) (b : BitVec 1) (c : Cmd) (va : BitVec 11) (s : State) : Cmd :=
  if c.started then c
  else
    let w := c.fw
    { c with started := true, opA := regOperand (s.bank f b) va.toNat 64 64 (fmtWidth (fwA w)) (modeScale (fwSa w) (fwSca w) 127) }

/-- Row i of a product with a generated operand: term j k is the element of X that enters, if any. -/
def genStep (f : Nat) (b : BitVec 1) (c : Cmd) (va : BitVec 11) (acc : BitVec 3) (start : Option Nat) (term : Nat → Nat → Option (Nat × Nat))
    (i : Nat) (s : State) : State :=
  let c := genStart f b c va s
  let w := c.fw
  let k := (s.bank f b).mapCmd .MQ c.ser fun _ => c
  let out := (List.range 64).map fun j =>
    sumGroups (start.getD (k.aget acc.toNat i j)) 64 fun n =>
      (term j n).map fun x => opndVal (fwA w) (c.opA.getD (x.1 * 64 + x.2) (0, 0))
  s.setBank f b (k.aputRow acc.toNat i out)

def zStart (z : BitVec 1) : Option Nat := if z = 1 then some 0 else none

def mredStep (f : Nat) (b : BitVec 1) (c : Cmd) (va : BitVec 11) (acc : BitVec 3) (z ax : BitVec 1) (i : Nat) (s : State) : State :=
  genStep f b c va acc (zStart z) (fun j k => some (if ax = 0 then (i, k) else (k, j))) i s
def mscanStep (f : Nat) (b : BitVec 1) (c : Cmd) (va : BitVec 11) (acc : BitVec 3) (z ax ex : BitVec 1) (i : Nat) (s : State) : State :=
  genStep f b c va acc (zStart z) (fun j k =>
    let last := if ax = 0 then j else i
    if (if ex = 1 then k < last else k ≤ last) then some (if ax = 0 then (i, k) else (k, j)) else none) i s
def mtrnStep (f : Nat) (b : BitVec 1) (c : Cmd) (va : BitVec 11) (acc : BitVec 3) (i : Nat) (s : State) : State :=
  genStep f b c va acc (some 0x80000000) (fun j k => if k = j then some (j, i) else none) i s

/-- The state of user 2 advances when an MRD or MWR that rounds under SR retires (R272, R385). -/
def Bank.retireMatrix (k : Bank) (c : Cmd) : Bank :=
  match c.instr with
  | .mrd .. | .mwr .. => if fwRnd c.fw = 4 then { k with srM := srAdvance k.srM } else k
  | _ => k

end Sys2Proof.Machine
end

