-- ==== Sys2Proof/Machine/Vector.lean ====
section
/-!
DEFINITION. Vector commands (16_isa_vector.md): what each computes for one row group, its registers and its timing, and
its issue from a context.
-/

namespace Sys2Proof.Machine

open Sys2Proof

/-! ### Element types (Table 16-1) -/

def tyFmt (ty : BitVec 4) : Byte :=
  match ty.toNat with
  | 0 => 0x41 | 1 => 0x40 | 2 => 0x42 | 3 => 0x04 | 4 => 0x00 | 5 => 0x05 | 6 => 0x01 | 7 => 0x06 | _ => 0x02
def tyWidth (ty : BitVec 4) : Nat := fmtWidth (tyFmt ty)
def tyRegs (ty : BitVec 4) : Nat := if WellFormed.isPair ty then 2 else 1
def tyFlt (ty : BitVec 4) : Flt :=
  match ty.toNat with
  | 0 => bf16 | 1 => fp16 | _ => fp32
def tySigned (ty : BitVec 4) : Bool := ty == 3 || ty == 5 || ty == 7
/-- The integer that a code of an integer type stands for. -/
def tyInt (ty : BitVec 4) (x : Nat) : Int := if tySigned ty then signExt x (tyWidth ty) else x % 2 ^ tyWidth ty

/-- What a vector command computes: its row groups, its timing (Table 16-3), the registers it reads and writes as
(first, count), whether its ranges must be disjoint, a breach of its own entry, whether it rounds under SR, and how it
meets scratchpad (1 gathers, 2 scatters). One row group gives registers by their containers. -/
structure VOp where
  groups : Nat
  r : Nat
  lat : Nat
  sfu : Bool := false
  reads : List (Nat × Nat) := []
  writes : List (Nat × Nat) := []
  apart : Bool := false
  bad : Bool := false
  sr : Bool := false
  scr : Nat := 0
  out : Bank → Word → Nat → List (Nat × (Nat → Nat → Nat)) := fun _ _ _ => []

/-- Containers of an element function, in the m registers of row group u. -/
def spread (vd m u : Nat) (el : Nat → Nat → Nat) : List (Nat × (Nat → Nat → Nat)) :=
  (List.range m).map fun q => (vd + u * m + q, fun i j => el i j / 65536 ^ q % 65536)

/-- Row group u of an operand of a type: the code of element (i, j). -/
def elemIn (k : Bank) (ty : BitVec 4) (v u i j : Nat) : Nat := k.velem (tyWidth ty) (v + u * tyRegs ty) i j

/-- The bits that element (i, j) of row group u draws (R400). -/
def drawn (sr : Word) (u i j : Nat) : Nat := rnd8 sr (u * 1024 + 64 * i + j)

def groupsOf (nr : BitVec 2) : Nat := 2 ^ nr.toNat
def range2 (v : BitVec 11) (n : Nat) : Nat × Nat := (v.toNat, n)

/-- Operand B: register VB or, with Q = 1, the sampled scalar (R392). -/
def operandB (k : Bank) (ty : BitVec 4) (q : BitVec 1) (vb : BitVec 11) (sc : Word) (u i j : Nat) : Nat :=
  if q = 1 then sc.toNat % 2 ^ tyWidth ty else elemIn k ty vb.toNat u i j

/-! ### Elementwise commands -/

/-- An elementwise command on sources VA, B and VC: f gets the drawn bits and the three codes. -/
def elementwise (ty : BitVec 4) (nr : BitVec 2) (lat : Nat) (sr : Bool) (vd va : BitVec 11) (b : Option (BitVec 1 × BitVec 11 × Word))
    (vc : Option (BitVec 11)) (f : Nat → Nat → Nat → Nat → Nat) : VOp :=
  let m := tyRegs ty
  let u := groupsOf nr
  { groups := u, r := 2 * m, lat := lat + 2 * (m - 1), sr
    reads := [range2 va (u * m)] ++ (match b with
        | some (0, v, _) => [range2 v (u * m)]
        | _ => []) ++ (match vc with
        | some v => [range2 v (u * m)]
        | none => [])
    writes := [range2 vd (u * m)]
    out := fun k st g => spread vd.toNat m g fun i j =>
      f (if sr then drawn st g i j else 0) (elemIn k ty va.toNat g i j)
        (match b with
          | some (q, v, sc) => operandB k ty q v sc g i j
          | none => 0)
        (match vc with
          | some v => elemIn k ty v.toNat g i j
          | none => 0) }

/-- An integer result, reduced modulo 2^w or clamped (R399). -/
def intResult (ty : BitVec 4) (clamp : Bool) (x : Int) : Nat :=
  let w := tyWidth ty
  let lo : Int := if tySigned ty then -(2 ^ (w - 1) : Nat) else 0
  let hi : Int := if tySigned ty then (2 ^ (w - 1) : Nat) - 1 else (2 ^ w : Nat) - 1
  ((if clamp then max lo (min hi x) else x) % (2 ^ w : Nat)).toNat

/-- An arithmetic command: exact on values or on integers, and rounded or narrowed once (R398, R399). -/
def arith (ty : BitVec 4) (x3 : BitVec 3) (x1 : BitVec 1) (fv : Rnd → Val → Val → Val → Val) (fi : Int → Int → Int → Int) (d a b c : Nat) : Nat :=
  if WellFormed.isFloat ty then
    let r := rndOf x3.toNat
    let v := decFlt (tyFlt ty)
    roundFlt (tyFlt ty) r (x1 == 1) d (fv r (v a) (v b) (v c))
  else intResult ty (x1 == 1) (fi (tyInt ty a) (tyInt ty b) (tyInt ty c))

def isSr (ty : BitVec 4) (x3 : BitVec 3) : Bool := WellFormed.isFloat ty && x3 == 4

/-- VMIN and VMAX of two codes (R398, R399). -/
def minMaxCode (ty : BitVec 4) (isMax : Bool) (a b : Nat) : Nat :=
  if WellFormed.isFloat ty then fminCode (tyFlt ty) isMax a b
  else if (if isMax then tyInt ty a < tyInt ty b else tyInt ty b < tyInt ty a) then b else a

/-- VABS and VNEG of a code: the sign bit of a number is cleared or inverted, a NaN is canonical. -/
def signCode (ty : BitVec 4) (clamp neg : Bool) (a : Nat) : Nat :=
  if WellFormed.isFloat ty then
    let f := tyFlt ty
    if (decFlt f a).isNan then f.nan
    else if neg then (if 2 ^ (f.width - 1) ≤ a then a - 2 ^ (f.width - 1) else a + 2 ^ (f.width - 1))
    else a % 2 ^ (f.width - 1)
  else intResult ty clamp (if neg then -tyInt ty a else (tyInt ty a).natAbs)

/-- A shift of a w-bit code (Table 16-5): 0 left, 1 right, 2 arithmetic right. -/
def shiftCode (w kind a n : Nat) : Nat :=
  match kind with
  | 0 => if w ≤ n then 0 else a * 2 ^ n % 2 ^ w
  | 1 => if w ≤ n then 0 else a / 2 ^ n
  | _ => (Int.fdiv (signExt a w) (2 ^ min n (w - 1) : Nat) % (2 ^ w : Nat)).toNat

/-- Whether a condition holds of two codes (R402). -/
def condCode (ty : BitVec 4) (cc : Nat) (a b : Nat) : Bool :=
  if WellFormed.isFloat ty then fltCond cc (decFlt (tyFlt ty) a) (decFlt (tyFlt ty) b)
  else
    let x := tyInt ty a
    let y := tyInt ty b
    match cc with
    | 0 => x == y
    | 1 => x != y
    | 2 => x < y
    | 3 => x ≤ y
    | 4 => y < x
    | 5 => y ≤ x
    | _ => a &&& b != 0

/-! ### Commands that move data along the axes -/

/-- A rotation or broadcast: src u i j names the row group, row and column of the source (Table 16-7). -/
def axisMove (ty : BitVec 4) (nr : BitVec 2) (r lat : Nat) (column bad : Bool) (vd va : BitVec 11) (src : Nat → Nat → Nat → Nat × Nat) : VOp :=
  let m := tyRegs ty
  let u := groupsOf nr
  { groups := u, r := r * m, lat, bad
    reads := [range2 va (u * m)], writes := [range2 vd (u * m)], apart := column && 1 < u
    out := fun k _ g => spread vd.toNat m g fun i j =>
      let x := src g i j
      elemIn k ty va.toNat (x.1 / 16) (x.1 % 16) x.2 }

/-- The amount k of a rotation: an immediate, or the scalar modulo the limit. -/
def amount (q : BitVec 1) (vb : BitVec 11) (sc : Word) (limit : Nat) : Nat := if q = 1 then sc.toNat % limit else vb.toNat

/-- The offsets of a gather or scatter: element (i, j) of row group u (R408). -/
def indexOff (k : Bank) (vb : BitVec 11) (ix : BitVec 1) (a eb u i j : Nat) : Nat :=
  let idx := if ix = 1 then k.velem 32 (vb.toNat + 2 * u) i j else k.vget (vb.toNat + u) i j
  (a + idx * eb) % 2 ^ 32

/-- The cause of the first offset of a command that is not allowed. -/
def offsCause (k : Bank) (vb : BitVec 11) (ix : BitVec 1) (a eb groups size : Nat) : Option U16 :=
  let offs := (List.range groups).flatMap fun u => (List.range 16).flatMap fun i => (List.range 64).map fun j => indexOff k vb ix a eb u i j
  if offs.any fun o => o % eb ≠ 0 then some Cause.scratchAlign
  else if offs.any fun o => size < o + eb then some Cause.scratchBound else none

/-! ### Conversions, quantisation, packing -/

/-- Element (i, j) of a register or pair of any width (R405). -/
def anyElem (k : Bank) (w v i j : Nat) : Nat := k.velem w v i j
def fmtRegs (f : Byte) : Nat := if fmtWidth f = 32 then 2 else 1
def fmt64 (f : Byte) : Bool := fmtWidth f == 64

/-- Floor(Log2(MaxFinite)) of a P3109 format. -/
def emaxOf (f : Byte) : Int :=
  match fmtOf f with
  | .flt x => (match idxVal x false x.maxIdx with
    | .fin _ n d => log2Frac n d
    | _ => 0)
  | _ => 0

/-- The scale s of a block of 32 elements (R412). -/
def blockScale (fmt : Byte) (xs : List Val) : Nat :=
  let mags := xs.filterMap fun x => match x with
    | .fin _ n d => if n = 0 then none else some (log2Frac n d)
    | _ => none
  match mags with
  | [] => 127
  | e :: es => (min 254 (max 0 (es.foldl max e - emaxOf fmt + 127))).toNat

/-! ### A special function (Table 16-8) -/

/-- A special function of a type: f gives the range of its value. -/
def special (fn lat : Nat) (ty : BitVec 4) (nr : BitVec 2) (x3 : BitVec 3) (x1 : BitVec 1) (vd va : BitVec 11) (f : Val → Range) : VOp :=
  let m := tyRegs ty
  let u := groupsOf nr
  { groups := u, r := 4 * m, lat, sfu := true, bad := !WellFormed.isFloat ty, sr := x3 == 4
    reads := [range2 va (u * m)], writes := [range2 vd (u * m)]
    out := fun k st g => spread vd.toNat m g fun i j =>
      let a := elemIn k ty va.toNat g i j
      roundRange fn a (tyFlt ty) (rndOf x3.toNat) (x1 == 1) (drawn st g i j) (f (decFlt (tyFlt ty) a)) }

/-! ### Every vector command -/

/-- What a vector command computes, from its instruction and its sampled scalar. -/
def vopOf (i : Instr) (sc : Word) : VOp :=
  match i with
  | .vadd _ _ vd q va vb ty nr x3 x1 =>
    elementwise ty nr 6 (isSr ty x3) vd va (some (q, vb, sc)) none fun d a b _ =>
      arith ty x3 x1 (fun r x y _ => x.add (r == .rdn) y) (fun x y _ => x + y) d a b 0
  | .vsub _ _ vd q va vb ty nr x3 x1 =>
    elementwise ty nr 6 (isSr ty x3) vd va (some (q, vb, sc)) none fun d a b _ =>
      arith ty x3 x1 (fun r x y _ => x.add (r == .rdn) y.neg) (fun x y _ => x - y) d a b 0
  | .vmul _ _ vd q va vb ty nr x3 x1 =>
    elementwise ty nr 6 (isSr ty x3) vd va (some (q, vb, sc)) none fun d a b _ =>
      arith ty x3 x1 (fun _ x y _ => x.mul y) (fun x y _ => x * y) d a b 0
  | .vfma _ _ vd q va vb ty nr x3 x1 vc =>
    elementwise ty nr 8 (isSr ty x3) vd va (some (q, vb, sc)) (some vc) fun d a b c =>
      arith ty x3 x1 (fun r x y z => (x.mul y).add (r == .rdn) z) (fun x y z => x * y + z) d a b c
  | .vfms _ _ vd q va vb ty nr x3 x1 vc =>
    elementwise ty nr 8 (isSr ty x3) vd va (some (q, vb, sc)) (some vc) fun d a b c =>
      arith ty x3 x1 (fun r x y z => (x.mul y).add (r == .rdn) z.neg) (fun x y z => x * y - z) d a b c
  | .vmin _ _ vd q va vb ty nr _ =>
    elementwise ty nr 6 false vd va (some (q, vb, sc)) none fun _ a b _ => minMaxCode ty false a b
  | .vmax _ _ vd q va vb ty nr _ =>
    elementwise ty nr 6 false vd va (some (q, vb, sc)) none fun _ a b _ => minMaxCode ty true a b
  | .vabs _ _ vd va ty nr x1 => elementwise ty nr 6 false vd va none none fun _ a _ _ => signCode ty (x1 == 1) false a
  | .vneg _ _ vd va ty nr x1 => elementwise ty nr 6 false vd va none none fun _ a _ _ => signCode ty (x1 == 1) true a
  | .vclamp _ _ vd va vb ty nr _ vc =>
    elementwise ty nr 6 false vd va (some (0, vb, sc)) (some vc) fun _ a b c => minMaxCode ty false (minMaxCode ty true a b) c
  | .vand _ _ vd q va vb ty nr => elementwise ty nr 6 false vd va (some (q, vb, sc)) none fun _ a b _ => a &&& b
  | .vor _ _ vd q va vb ty nr => elementwise ty nr 6 false vd va (some (q, vb, sc)) none fun _ a b _ => a ||| b
  | .vxor _ _ vd q va vb ty nr => elementwise ty nr 6 false vd va (some (q, vb, sc)) none fun _ a b _ => a ^^^ b
  | .vnot _ _ vd va ty nr => elementwise ty nr 6 false vd va none none fun _ a _ _ => 2 ^ tyWidth ty - 1 - a
  | .vshl _ _ vd q va vb ty nr =>
    { elementwise ty nr 6 false vd va (some (q, vb, sc)) none (fun _ a b _ => shiftCode (tyWidth ty) 0 a b) with bad := WellFormed.isFloat ty }
  | .vshr _ _ vd q va vb ty nr =>
    { elementwise ty nr 6 false vd va (some (q, vb, sc)) none (fun _ a b _ => shiftCode (tyWidth ty) 1 a b) with bad := WellFormed.isFloat ty }
  | .vsar _ _ vd q va vb ty nr =>
    { elementwise ty nr 6 false vd va (some (q, vb, sc)) none (fun _ a b _ => shiftCode (tyWidth ty) 2 a b) with bad := WellFormed.isFloat ty }
  | .vcmp _ _ vd q va vb ty nr x3 =>
    { elementwise ty nr 6 false vd va (some (q, vb, sc)) none (fun _ _ _ _ => 0) with
      writes := [range2 vd (groupsOf nr)]
      out := fun k _ g => [(vd.toNat + g, fun i j =>
        if condCode ty x3.toNat (elemIn k ty va.toNat g i j) (operandB k ty q vb sc g i j) then 0xFFFF else 0)] }
  | .vsel _ _ vd q va vb ty nr vc =>
    let base := elementwise ty nr 6 false vd va (some (q, vb, sc)) none fun _ a _ _ => a
    { base with
      reads := base.reads ++ [range2 vc (groupsOf nr)]
      out := fun k _ g => spread vd.toNat (tyRegs ty) g fun i j =>
        if k.vget (vc.toNat + g) i j ≠ 0 then elemIn k ty va.toNat g i j else operandB k ty q vb sc g i j }
  | .vmov _ _ vd q va vb ty nr =>
    let base := elementwise ty nr 6 false vd va (some (q, vb, sc)) none fun _ _ b _ => b
    if q = 1 then { base with reads := [] } else elementwise ty nr 6 false vd va none none fun _ a _ _ => a
  | .vmovi _ _ vd ty nr lit =>
    { elementwise ty nr 6 false vd vd none none (fun _ _ _ _ => lit.toNat % 2 ^ tyWidth ty) with reads := [] }
  | .vrotr _ _ vd q va vb ty nr =>
    let n := amount q vb sc 64
    axisMove ty nr 2 8 false (64 ≤ n) vd va fun g i j => (16 * g + i, (j + 64 - n % 64) % 64)
  | .vrotc _ _ vd q va vb ty nr =>
    let h := 16 * groupsOf nr
    let n := amount q vb sc h
    axisMove ty nr 4 14 true (h ≤ n) vd va fun g i j => ((16 * g + i + h - n % h) % h, j)
  | .vbcr _ _ vd q va vb ty nr =>
    let n := amount q vb sc 64
    axisMove ty nr 2 8 false (64 ≤ n) vd va fun g i _ => (16 * g + i, n)
  | .vbcc _ _ vd q va vb ty nr =>
    let h := 16 * groupsOf nr
    let n := amount q vb sc h
    axisMove ty nr 4 14 true (h ≤ n) vd va fun _ _ j => (n, j)
  | .vshuf _ _ vd va vb ty nr =>
    let m := tyRegs ty
    let u := groupsOf nr
    { groups := u, r := 4 * m, lat := 10, reads := [range2 va (u * m), range2 vb u], writes := [range2 vd (u * m)]
      out := fun k _ g => spread vd.toNat m g fun i j => elemIn k ty va.toNat g i (k.vget (vb.toNat + g) i j % 64) }
  | .vgath _ _ vd vb ty nr _ x1 =>
    let m := tyRegs ty
    let u := groupsOf nr
    let eb := tyWidth ty / 8
    { groups := u, r := 16, lat := 24, reads := [range2 vb (u * (1 + x1.toNat))], writes := [range2 vd (u * m)], scr := 1
      out := fun k _ g => spread vd.toNat m g fun i j => ofBytes (mread k.scratch (indexOff k vb x1 sc.toNat eb g i j) eb) }
  | .vscat _ _ va vb ty nr _ x1 =>
    let m := tyRegs ty
    let u := groupsOf nr
    { groups := u, r := 16, lat := 24, reads := [range2 va (u * m), range2 vb (u * (1 + x1.toNat))], scr := 2 }
  | .vexp2 _ _ vd va ty nr x3 x1 => special 0 12 ty nr x3 x1 vd va exp2Range
  | .vlog2 _ _ vd va ty nr x3 x1 => special 1 12 ty nr x3 x1 vd va log2Range
  | .vrcp _ _ vd va ty nr x3 x1 => special 2 12 ty nr x3 x1 vd va fun x => exactly (rcpVal x)
  | .vrsq _ _ vd va ty nr x3 x1 => special 3 12 ty nr x3 x1 vd va fun x => exactly (rsqVal x)
  | .vsin _ _ vd va ty nr x3 x1 => special 4 20 ty nr x3 x1 vd va sinRange
  | .vcos _ _ vd va ty nr x3 x1 => special 5 20 ty nr x3 x1 vd va cosRange
  | .vtanh _ _ vd va ty nr x3 x1 => special 6 20 ty nr x3 x1 vd va tanhRange
  | .vcvt _ _ vd va dfmt rnd sfmt sat =>
    let ms := fmtRegs sfmt
    let md := fmtRegs dfmt
    { groups := 1, r := 2 * max ms md, lat := 6, reads := [range2 va ms], writes := [range2 vd md], apart := true
      bad := fmt64 sfmt || fmt64 dfmt, sr := rnd == 4
      out := fun k st _ => spread vd.toNat md 0 fun i j =>
        roundTo (dec (k.velem (fmtWidth sfmt) va.toNat i j) sfmt) dfmt (rndOf rnd.toNat) (sat == 1) (drawn st 0 i j) }
  | .vqnt _ _ vd va fmt rnd ty nr x1 =>
    let m := tyRegs ty
    let u := groupsOf nr
    { groups := u, r := 4 * m, lat := 12, reads := [range2 va (u * m)], writes := [range2 vd (2 * u)], apart := true
      bad := !WellFormed.isFloat ty || !WellFormed.isP3109 fmt, sr := rnd == 4
      out := fun k st g =>
        let val := fun i j => decFlt (tyFlt ty) (elemIn k ty va.toNat g i j)
        let scale := fun i q => blockScale fmt ((List.range 32).map fun t => val i (32 * q + t))
        [(vd.toNat + g, fun i j =>
            roundTo ((val i j).scale (127 - (scale i (j / 32) : Int))) fmt (rndOf rnd.toNat) (x1 == 1) (drawn st g i j)),
         (vd.toNat + u + g, fun i j => if j < 2 then scale i j else 0)] }
  | .vpack _ _ vd va x1 =>
    let n := if x1 = 1 then 4 else 2
    let w := if x1 = 1 then 4 else 8
    { groups := 1, r := 2, lat := 6, reads := [range2 va n], writes := [range2 vd 1], apart := true
      out := fun k _ _ => [(vd.toNat, fun i j => sumBy (fun t =>
        let c := n * j + t
        k.vget (va.toNat + c / 64) i (c % 64) % 2 ^ w * 2 ^ (w * t)) (List.range n))] }
  | .vunpk _ _ vd va x1 =>
    let n := if x1 = 1 then 4 else 2
    let w := if x1 = 1 then 4 else 8
    { groups := 1, r := 2 * n, lat := 6, reads := [range2 va 1], writes := [range2 vd n], apart := true
      out := fun k _ _ => (List.range n).map fun q => (vd.toNat + q, fun i j =>
        let c := 64 * q + j
        k.vget va.toNat i (c / n) / 2 ^ (w * (c % n)) % 2 ^ w) }
  | _ => { groups := 1, r := 1, lat := 1 }

/-! ### Issue from a context (R391, R392) -/

/-- Two register ranges have a register in common. -/
def rangesMeet (a b : Nat × Nat) : Bool := a.1 < b.1 + b.2 && b.1 < a.1 + a.2

/-- R391: REG_BOUND, then ILLEGAL_OP for ranges that overlap or a breach of the entry. -/
def vopCause (x : VOp) (regs : Nat) : Option U16 :=
  if (x.reads ++ x.writes).any fun r => regs < r.1 + r.2 then some Cause.regBound
  else if x.bad || x.writes.any fun w => x.reads.any fun r => rangesMeet w r && (x.apart || w != r) then some Cause.illegalOp
  else none

/-- Issue a vector command: sc names what it samples. -/
def vector (size : Nat) (tk g : BitVec 4) (u : Uses) (i : Instr) (s : State) (sc : State → Word) : Host.Outcome State Fault Refusal :=
  engine size false .VQ tk g u i s fun s =>
    match vopCause (vopOf i (sc s)) (s.runLimits s.coreNo s.bankNo).1 with
    | some c => .error (trapOf c)
    | none => .ok { vs := [sc s] }

/-- The scalar register in VB when Q = 1 (R392). -/
def vbUses (q : BitVec 1) (vb : BitVec 11) : Uses := if q = 1 then { s := [BitVec.ofNat 5 vb.toNat] } else {}
def vbScalar (q : BitVec 1) (vb : BitVec 11) (s : State) : Word := if q = 1 then s.getS (BitVec.ofNat 5 vb.toNat) else 0

def execVadd (tk g : BitVec 4) (vd : BitVec 11) (q : BitVec 1) (va vb : BitVec 11) (ty : BitVec 4) (nr : BitVec 2) (x3 : BitVec 3) (x1 : BitVec 1)
    (s : State) : Host.Outcome State Fault Refusal :=
  vector 2 tk g (vbUses q vb) (.vadd tk g vd q va vb ty nr x3 x1) s (vbScalar q vb)
def execVsub (tk g : BitVec 4) (vd : BitVec 11) (q : BitVec 1) (va vb : BitVec 11) (ty : BitVec 4) (nr : BitVec 2) (x3 : BitVec 3) (x1 : BitVec 1)
    (s : State) : Host.Outcome State Fault Refusal :=
  vector 2 tk g (vbUses q vb) (.vsub tk g vd q va vb ty nr x3 x1) s (vbScalar q vb)
def execVmul (tk g : BitVec 4) (vd : BitVec 11) (q : BitVec 1) (va vb : BitVec 11) (ty : BitVec 4) (nr : BitVec 2) (x3 : BitVec 3) (x1 : BitVec 1)
    (s : State) : Host.Outcome State Fault Refusal :=
  vector 2 tk g (vbUses q vb) (.vmul tk g vd q va vb ty nr x3 x1) s (vbScalar q vb)
def execVfma (tk g : BitVec 4) (vd : BitVec 11) (q : BitVec 1) (va vb : BitVec 11) (ty : BitVec 4) (nr : BitVec 2) (x3 : BitVec 3) (x1 : BitVec 1) (vc : BitVec 11)
    (s : State) : Host.Outcome State Fault Refusal :=
  vector 3 tk g (vbUses q vb) (.vfma tk g vd q va vb ty nr x3 x1 vc) s (vbScalar q vb)
def execVfms (tk g : BitVec 4) (vd : BitVec 11) (q : BitVec 1) (va vb : BitVec 11) (ty : BitVec 4) (nr : BitVec 2) (x3 : BitVec 3) (x1 : BitVec 1) (vc : BitVec 11)
    (s : State) : Host.Outcome State Fault Refusal :=
  vector 3 tk g (vbUses q vb) (.vfms tk g vd q va vb ty nr x3 x1 vc) s (vbScalar q vb)
def execVmin (tk g : BitVec 4) (vd : BitVec 11) (q : BitVec 1) (va vb : BitVec 11) (ty : BitVec 4) (nr : BitVec 2) (x1 : BitVec 1)
    (s : State) : Host.Outcome State Fault Refusal :=
  vector 2 tk g (vbUses q vb) (.vmin tk g vd q va vb ty nr x1) s (vbScalar q vb)
def execVmax (tk g : BitVec 4) (vd : BitVec 11) (q : BitVec 1) (va vb : BitVec 11) (ty : BitVec 4) (nr : BitVec 2) (x1 : BitVec 1)
    (s : State) : Host.Outcome State Fault Refusal :=
  vector 2 tk g (vbUses q vb) (.vmax tk g vd q va vb ty nr x1) s (vbScalar q vb)
def execVabs (tk g : BitVec 4) (vd va : BitVec 11) (ty : BitVec 4) (nr : BitVec 2) (x1 : BitVec 1)
    (s : State) : Host.Outcome State Fault Refusal :=
  vector 2 tk g {} (.vabs tk g vd va ty nr x1) s fun _ => 0
def execVneg (tk g : BitVec 4) (vd va : BitVec 11) (ty : BitVec 4) (nr : BitVec 2) (x1 : BitVec 1)
    (s : State) : Host.Outcome State Fault Refusal :=
  vector 2 tk g {} (.vneg tk g vd va ty nr x1) s fun _ => 0
def execVclamp (tk g : BitVec 4) (vd va vb : BitVec 11) (ty : BitVec 4) (nr : BitVec 2) (x1 : BitVec 1) (vc : BitVec 11)
    (s : State) : Host.Outcome State Fault Refusal :=
  vector 3 tk g {} (.vclamp tk g vd va vb ty nr x1 vc) s fun _ => 0
def execVcvt (tk g : BitVec 4) (vd va : BitVec 11) (dfmt : BitVec 8) (rnd : BitVec 3) (sfmt : BitVec 8) (sat : BitVec 1)
    (s : State) : Host.Outcome State Fault Refusal :=
  vector 2 tk g {} (.vcvt tk g vd va dfmt rnd sfmt sat) s fun _ => 0
def execVand (tk g : BitVec 4) (vd : BitVec 11) (q : BitVec 1) (va vb : BitVec 11) (ty : BitVec 4) (nr : BitVec 2)
    (s : State) : Host.Outcome State Fault Refusal :=
  vector 2 tk g (vbUses q vb) (.vand tk g vd q va vb ty nr) s (vbScalar q vb)
def execVor (tk g : BitVec 4) (vd : BitVec 11) (q : BitVec 1) (va vb : BitVec 11) (ty : BitVec 4) (nr : BitVec 2)
    (s : State) : Host.Outcome State Fault Refusal :=
  vector 2 tk g (vbUses q vb) (.vor tk g vd q va vb ty nr) s (vbScalar q vb)
def execVxor (tk g : BitVec 4) (vd : BitVec 11) (q : BitVec 1) (va vb : BitVec 11) (ty : BitVec 4) (nr : BitVec 2)
    (s : State) : Host.Outcome State Fault Refusal :=
  vector 2 tk g (vbUses q vb) (.vxor tk g vd q va vb ty nr) s (vbScalar q vb)
def execVnot (tk g : BitVec 4) (vd va : BitVec 11) (ty : BitVec 4) (nr : BitVec 2)
    (s : State) : Host.Outcome State Fault Refusal :=
  vector 2 tk g {} (.vnot tk g vd va ty nr) s fun _ => 0
def execVshl (tk g : BitVec 4) (vd : BitVec 11) (q : BitVec 1) (va vb : BitVec 11) (ty : BitVec 4) (nr : BitVec 2)
    (s : State) : Host.Outcome State Fault Refusal :=
  vector 2 tk g (vbUses q vb) (.vshl tk g vd q va vb ty nr) s (vbScalar q vb)
def execVshr (tk g : BitVec 4) (vd : BitVec 11) (q : BitVec 1) (va vb : BitVec 11) (ty : BitVec 4) (nr : BitVec 2)
    (s : State) : Host.Outcome State Fault Refusal :=
  vector 2 tk g (vbUses q vb) (.vshr tk g vd q va vb ty nr) s (vbScalar q vb)
def execVsar (tk g : BitVec 4) (vd : BitVec 11) (q : BitVec 1) (va vb : BitVec 11) (ty : BitVec 4) (nr : BitVec 2)
    (s : State) : Host.Outcome State Fault Refusal :=
  vector 2 tk g (vbUses q vb) (.vsar tk g vd q va vb ty nr) s (vbScalar q vb)
def execVcmp (tk g : BitVec 4) (vd : BitVec 11) (q : BitVec 1) (va vb : BitVec 11) (ty : BitVec 4) (nr : BitVec 2) (x3 : BitVec 3)
    (s : State) : Host.Outcome State Fault Refusal :=
  vector 2 tk g (vbUses q vb) (.vcmp tk g vd q va vb ty nr x3) s (vbScalar q vb)
def execVsel (tk g : BitVec 4) (vd : BitVec 11) (q : BitVec 1) (va vb : BitVec 11) (ty : BitVec 4) (nr : BitVec 2) (vc : BitVec 11)
    (s : State) : Host.Outcome State Fault Refusal :=
  vector 3 tk g (vbUses q vb) (.vsel tk g vd q va vb ty nr vc) s (vbScalar q vb)
def execVmov (tk g : BitVec 4) (vd : BitVec 11) (q : BitVec 1) (va vb : BitVec 11) (ty : BitVec 4) (nr : BitVec 2)
    (s : State) : Host.Outcome State Fault Refusal :=
  vector 2 tk g (vbUses q vb) (.vmov tk g vd q va vb ty nr) s (vbScalar q vb)
def execVmovi (tk g : BitVec 4) (vd : BitVec 11) (ty : BitVec 4) (nr : BitVec 2) (lit : BitVec 32)
    (s : State) : Host.Outcome State Fault Refusal :=
  vector 3 tk g {} (.vmovi tk g vd ty nr lit) s fun _ => 0
def execVrotr (tk g : BitVec 4) (vd : BitVec 11) (q : BitVec 1) (va vb : BitVec 11) (ty : BitVec 4) (nr : BitVec 2)
    (s : State) : Host.Outcome State Fault Refusal :=
  vector 2 tk g (vbUses q vb) (.vrotr tk g vd q va vb ty nr) s (vbScalar q vb)
def execVrotc (tk g : BitVec 4) (vd : BitVec 11) (q : BitVec 1) (va vb : BitVec 11) (ty : BitVec 4) (nr : BitVec 2)
    (s : State) : Host.Outcome State Fault Refusal :=
  vector 2 tk g (vbUses q vb) (.vrotc tk g vd q va vb ty nr) s (vbScalar q vb)
def execVbcr (tk g : BitVec 4) (vd : BitVec 11) (q : BitVec 1) (va vb : BitVec 11) (ty : BitVec 4) (nr : BitVec 2)
    (s : State) : Host.Outcome State Fault Refusal :=
  vector 2 tk g (vbUses q vb) (.vbcr tk g vd q va vb ty nr) s (vbScalar q vb)
def execVbcc (tk g : BitVec 4) (vd : BitVec 11) (q : BitVec 1) (va vb : BitVec 11) (ty : BitVec 4) (nr : BitVec 2)
    (s : State) : Host.Outcome State Fault Refusal :=
  vector 2 tk g (vbUses q vb) (.vbcc tk g vd q va vb ty nr) s (vbScalar q vb)
def execVshuf (tk g : BitVec 4) (vd va vb : BitVec 11) (ty : BitVec 4) (nr : BitVec 2)
    (s : State) : Host.Outcome State Fault Refusal :=
  vector 2 tk g {} (.vshuf tk g vd va vb ty nr) s fun _ => 0
def execVgath (tk g : BitVec 4) (vd vb : BitVec 11) (ty : BitVec 4) (nr : BitVec 2) (x3 : BitVec 3) (x1 : BitVec 1)
    (s : State) : Host.Outcome State Fault Refusal :=
  vector 2 tk g {} (.vgath tk g vd vb ty nr x3 x1) s fun s => (s.getA x3).setWidth 64
def execVscat (tk g : BitVec 4) (va vb : BitVec 11) (ty : BitVec 4) (nr : BitVec 2) (x3 : BitVec 3) (x1 : BitVec 1)
    (s : State) : Host.Outcome State Fault Refusal :=
  vector 2 tk g {} (.vscat tk g va vb ty nr x3 x1) s fun s => (s.getA x3).setWidth 64
def execVexp2 (tk g : BitVec 4) (vd va : BitVec 11) (ty : BitVec 4) (nr : BitVec 2) (x3 : BitVec 3) (x1 : BitVec 1)
    (s : State) : Host.Outcome State Fault Refusal :=
  vector 2 tk g {} (.vexp2 tk g vd va ty nr x3 x1) s fun _ => 0
def execVlog2 (tk g : BitVec 4) (vd va : BitVec 11) (ty : BitVec 4) (nr : BitVec 2) (x3 : BitVec 3) (x1 : BitVec 1)
    (s : State) : Host.Outcome State Fault Refusal :=
  vector 2 tk g {} (.vlog2 tk g vd va ty nr x3 x1) s fun _ => 0
def execVrcp (tk g : BitVec 4) (vd va : BitVec 11) (ty : BitVec 4) (nr : BitVec 2) (x3 : BitVec 3) (x1 : BitVec 1)
    (s : State) : Host.Outcome State Fault Refusal :=
  vector 2 tk g {} (.vrcp tk g vd va ty nr x3 x1) s fun _ => 0
def execVrsq (tk g : BitVec 4) (vd va : BitVec 11) (ty : BitVec 4) (nr : BitVec 2) (x3 : BitVec 3) (x1 : BitVec 1)
    (s : State) : Host.Outcome State Fault Refusal :=
  vector 2 tk g {} (.vrsq tk g vd va ty nr x3 x1) s fun _ => 0
def execVsin (tk g : BitVec 4) (vd va : BitVec 11) (ty : BitVec 4) (nr : BitVec 2) (x3 : BitVec 3) (x1 : BitVec 1)
    (s : State) : Host.Outcome State Fault Refusal :=
  vector 2 tk g {} (.vsin tk g vd va ty nr x3 x1) s fun _ => 0
def execVcos (tk g : BitVec 4) (vd va : BitVec 11) (ty : BitVec 4) (nr : BitVec 2) (x3 : BitVec 3) (x1 : BitVec 1)
    (s : State) : Host.Outcome State Fault Refusal :=
  vector 2 tk g {} (.vcos tk g vd va ty nr x3 x1) s fun _ => 0
def execVtanh (tk g : BitVec 4) (vd va : BitVec 11) (ty : BitVec 4) (nr : BitVec 2) (x3 : BitVec 3) (x1 : BitVec 1)
    (s : State) : Host.Outcome State Fault Refusal :=
  vector 2 tk g {} (.vtanh tk g vd va ty nr x3 x1) s fun _ => 0
def execVpack (tk g : BitVec 4) (vd va : BitVec 11) (x1 : BitVec 1) (s : State) : Host.Outcome State Fault Refusal :=
  vector 2 tk g {} (.vpack tk g vd va x1) s fun _ => 0
def execVunpk (tk g : BitVec 4) (vd va : BitVec 11) (x1 : BitVec 1) (s : State) : Host.Outcome State Fault Refusal :=
  vector 2 tk g {} (.vunpk tk g vd va x1) s fun _ => 0
def execVqnt (tk g : BitVec 4) (vd va : BitVec 11) (fmt : BitVec 8) (rnd : BitVec 3) (ty : BitVec 4) (nr : BitVec 2) (x1 : BitVec 1)
    (s : State) : Host.Outcome State Fault Refusal :=
  vector 2 tk g {} (.vqnt tk g vd va fmt rnd ty nr x1) s fun _ => 0
def execVseed (tk g : BitVec 4) (sa : BitVec 5) (s : State) : Host.Outcome State Fault Refusal :=
  vector 2 tk g { s := [sa] } (.vseed tk g sa) s fun s => s.getS sa

end Sys2Proof.Machine
end

