-- ==== Sys2Proof/Machine/Engines.lean ====
section
/-!
DEFINITION. The engines at work (08_cores.md, R186 to R193; 16_isa_vector.md, R394): issue of a command into its engine,
its steps and its retirement, and the stall of a core on tokens (R191).
-/

namespace Sys2Proof.Machine

open Sys2Proof

/-! ### Vector results on their way (R241, R252, R394) -/

/-- When a landing is next due: it reads at its issue cycle if it is a special function without values, else it is
written at the end of its cycle. -/
def Landing.due (l : Landing) : Nat := if l.sfu && !l.ready then 2 * l.issue else 2 * l.cycle + 1
/-- The state of the rounding generator that a vector command uses, after those before it in the queue (R272, R400). -/
def Bank.srFor (k : Bank) (ser : Nat) : Word :=
  (k.vq.takeWhile fun c => c.ser ≠ ser).foldl (fun st c => match c.instr with
    | .vseed .. => srState (c.vs.headD 0) 1
    | i => if (vopOf i (c.vs.headD 0)).sr then srAdvance st else st) k.srV

/-- The registers that row group u of a command writes, from the bank as it stands. -/
def Bank.groupRegs (k : Bank) (c : Cmd) (u : Nat) : List (Nat × List Byte) :=
  ((vopOf c.instr (c.vs.headD 0)).out k (k.srFor c.ser) u).map fun x =>
    (x.1, (List.range 16).flatMap fun i => (List.range 64).flatMap fun j => toBytes 2 (x.2 i j))

/-- The scratchpad bytes that row group u of a VSCAT writes, in element order (R408). -/
def Bank.groupScat (k : Bank) (c : Cmd) (u : Nat) : List (Nat × List Byte) :=
  match c.instr with
  | .vscat _ _ va vb ty _ _ x1 =>
    let eb := tyWidth ty / 8
    (List.range 16).flatMap fun i => (List.range 64).map fun j =>
      (indexOff k vb x1 (c.vs.headD 0).toNat eb u i j, toBytes eb (elemIn k ty va.toNat u i j))
  | _ => []

/-- A row group is written, all at once. -/
def Bank.land (k : Bank) (l : Landing) : Bank :=
  { k with
    vregs := l.regs.foldl (fun m x => mwrite m (2048 * x.1) x.2) k.vregs
    scratch := l.scat.foldl (fun m x => mwrite m x.1 x.2) k.scratch
    landings := k.landings.filter fun x => !(x.ser == l.ser && x.group == l.group) }

/-- What a landing is due to do, done. -/
def Bank.landOne (k : Bank) (l : Landing) : Bank :=
  if l.sfu && !l.ready then
    match k.vq.find? fun c => c.ser == l.ser with
    | some c =>
      let ready := fun (x : Landing) => if x.ser == l.ser && x.group == l.group then { x with ready := true, regs := k.groupRegs c l.group } else x
      { k with landings := k.landings.map ready }
    | none => { k with landings := k.landings.filter fun x => !(x.ser == l.ser && x.group == l.group) }
  else k.land l

/-- The order in which landings due in one cycle take effect: those issued later last. -/
def Landing.key (l : Landing) : Nat := l.due * 2 ^ 64 + l.ser * 256 + l.group

def Bank.landLoop (now : Nat) : Nat → Bank → Bank
  | 0, k => k
  | n + 1, k =>
    match leastBy Landing.key (k.landings.filter fun l => l.due ≤ 2 * now) with
    | none => k
    | some l => Bank.landLoop now n (k.landOne l)

/-- ESCV of the head: its row groups that have been written. -/
def Bank.countGroups (k : Bank) : Bank :=
  match k.vq with
  | [] => k
  | c :: _ =>
    if c.started then k.setCounter .VQ (max k.escv.toNat ((vopOf c.instr (c.vs.headD 0)).groups - (k.landings.filter fun l => l.ser == c.ser).length))
    else k

/-- Everything that is due by a cycle takes effect, in order. -/
def Bank.landDue (k : Bank) (now : Nat) : Bank := (Bank.landLoop now (2 * k.landings.length) k).countGroups
def State.landDue (s : State) (f : Nat) (b : BitVec 1) : State := s.setBank f b ((s.bank f b).landDue s.cycle)

/-- Registers of a list of ranges. -/
def regsOfRanges (l : List (Nat × Nat)) : List Nat := l.flatMap fun r => (List.range r.2).map fun j => r.1 + j

/-- An earlier command that is no special function still has to write a register that this one reads or writes, or the
scratchpad that it gathers from. -/
def Bank.interlocked (k : Bank) (x : VOp) : Bool :=
  !x.sfu && k.landings.any fun l => !l.sfu &&
    (l.wide.any (fun r => (x.reads ++ x.writes).any fun y => y.1 ≤ r && r < y.1 + y.2) || (x.scr == 1 && !l.scat.isEmpty))

/-- Row groups of a vector command issue, from group u on, from the current cycle. -/
def Bank.issueGroups (k : Bank) (c : Cmd) (u now : Nat) : Bank :=
  let x := vopOf c.instr (c.vs.headD 0)
  let one := fun (g : Nat) =>
    let at_ := now + x.r * (g - u)
    let regs := if x.sfu then [] else k.groupRegs c g
    ({ ser := c.ser, group := g, sfu := x.sfu, issue := at_, cycle := at_ + x.lat - 1, ready := !x.sfu, regs
       scat := k.groupScat c g, wide := regsOfRanges x.writes } : Landing)
  let ls := ((List.range x.groups).filter fun g => u ≤ g).map one
  { k with landings := k.landings ++ ls, nextV := now + x.r * (x.groups - u) }

/-- The cause of a gather or scatter whose offsets are not allowed (class E). -/
def Bank.scatCause (k : Bank) (c : Cmd) : Option U16 :=
  let size := (k.run.map fun r => r.scratch).getD 0
  match c.instr with
  | .vgath _ _ _ vb ty nr _ x1 => offsCause k vb x1 (c.vs.headD 0).toNat (tyWidth ty / 8) (groupsOf nr) size
  | .vscat _ _ _ vb ty nr _ x1 => offsCause k vb x1 (c.vs.headD 0).toNat (tyWidth ty / 8) (groupsOf nr) size
  | _ => none

/-! ### Issue into an engine (R101, R189, R190, R370) -/

/-- A command pops a format word (R367). -/
def isMatrix : Instr → Bool
  | .mma64 .. | .mma96 .. | .mmam64 .. | .mmam96 .. | .mzero .. | .mrd .. | .mwr .. | .mred .. | .mscan .. | .mtrn .. => true
  | _ => false

/-- Engine steps of a command. -/
def Cmd.steps (c : Cmd) : Nat :=
  match c.instr with
  | .ldt .. | .stt .. => dRows c.desc
  | .mma64 .. | .mma96 .. | .mmam64 .. | .mmam96 .. | .mzero .. | .mred .. | .mscan .. | .mtrn .. => 64
  | .mrd _ _ _ _ _ ng => 16 * (ng.toNat + 1)
  | .mwr _ _ _ _ _ ng => 16 * (ng.toNat + 1)
  | .rope _ _ _ _ _ _ _ ng => ng.toNat + 1
  | .xsend _ _ _ _ _ imm => imm.toNat / 64
  | i => (vopOf i (c.vs.headD 0)).groups

/-- The head has made its steps and its retirement is held for want of room in a counter (R189). -/
def Bank.headHeld (k : Bank) (q : QueueId) (now : Nat) : Bool :=
  (k.queue q).head?.any fun c => c.issued && c.steps ≤ k.counter q && !k.canPush q c now
/-- What holds a command back: tokens, a head whose retirement is held, the words and counters of the outgoing step, and a
world other than that of the last command that the engine of the core retired (R101). -/
def State.mayIssue (s : State) (f : Nat) (b : BitVec 1) (q : QueueId) (c : Cmd) : Bool :=
  let k := s.bank f b
  let head := (k.queue q).head?.any fun h => h.ser == c.ser
  (c.issued || k.canPop q c s.cycle) && (head || (c.world == (s.core f).worlds.toList.getD (qNum q) 0 && !k.headHeld q s.cycle))
    && !((c.tok ≠ 0 || isMatrix c.instr) && k.run.any fun r => r.fresh && r.id == c.run)

/-- Issue a command: its tokens are popped, the counter of a head starts at 0 (R192), and a matrix command takes the oldest
word of its step. -/
def issueCmd (f : Nat) (b : BitVec 1) (q : QueueId) (c : Cmd) (s : State) : Host.Outcome State Fault Refusal :=
  let k := s.bank f b
  let fail := fun (x : U16) => Host.Outcome.next (s.raise f b (engineSource q) c.pos c.task (trapOf x))
  let head := (k.queue q).head?.any fun h => h.ser == c.ser
  let pop := fun (k : Bank) =>
    if c.issued then k else (if head then k.setCounter q 0 else k).subTokens (popsOf q c.tok) s.cycle
  if isMatrix c.instr && !c.issued then
    match k.fmtq.find? fun x => x.2.1 == c.run with
    | none => fail Cause.fmtqEmpty
    | some w =>
      let k := { pop k with fmtq := k.fmtq.erase w }
      .next (s.setBank f b (k.mapCmd q c.ser fun c => { c with issued := true, issueCycle := s.cycle, word := some w.2.2 }))
  else if q = .VQ then
    let x := vopOf c.instr (c.vs.headD 0)
    let u := if head && c.issued then k.escv.toNat else 0
    if s.cycle < k.nextV || k.interlocked x then .next s
    else
      match k.scatCause c with
      | some e => fail e
      | none =>
        let k := ((pop k).issueGroups c u s.cycle).mapCmd q c.ser fun c => { c with issued := true, started := true, issueCycle := s.cycle }
        .next (s.setBank f b k)
  else .next (s.setBank f b ((pop k).mapCmd q c.ser fun c => { c with issued := true, issueCycle := s.cycle }))

/-- ENGINE_COMMAND_ISSUE: the first command of the queue that has not issued, behind those that have. -/
def execEngineCommandIssue (core : BitVec 9) (q : QueueId) (s : State) : Host.Outcome State Fault Refusal :=
  let f := core.toNat
  let b := (s.core f).active
  if !s.engineOn f b then .next s
  else
    let s := s.landDue f b
    let k := s.bank f b
    let gone := fun (c : Cmd) => c.skip || (if q = .VQ then c.started else c.issued)
    match (k.queue q).find? fun c => !gone c with
    | none => .next s
    | some c =>
      if s.mayIssue f b q c then issueCmd f b q c s else .next s

/-! ### Steps (R192, R193) -/

/-- A status word goes to the offset that the command names (R423, R458, R462). -/
def State.putStatus (s : State) (f : Nat) (b : BitVec 1) (off : Nat) (w : Word) : State :=
  let k := s.bank f b
  s.setBank f b { k with scratch := mwrite k.scratch off (toBytes 8 w.toNat) }

/-- The cause that the home of a command gave. -/
def Cmd.homeCause (c : Cmd) : Option U16 :=
  match c.snap with
  | [x] => some (x.setWidth 16)
  | _ => none
def Cmd.trapHome (c : Cmd) (p : Path) (x : U16) : TrapInfo := { cause := x, path := pathCode p, handle := c.handle }

/-- The one step of a near-bank command ends when its slice has completed it. -/
def nbWait (c : Cmd) (s : State) : Got Choices :=
  if c.status = 1 then .ok s []
  else if c.accepted && c.snap.length = 1 then .trap (c.trapHome .N ((c.homeCause).getD 0)) else .wait s

/-- The one step of a sequence command ends with its answer, and its status word. -/
def seqWait (f : Nat) (b : BitVec 1) (c : Cmd) (s : State) : Got Choices :=
  if !(c.accepted && c.started) then .wait s
  else
    match c.homeCause with
    | some x => .trap (c.trapHome .A x)
    | none =>
      match c.instr with
      | .kvapp .. | .retspan .. => .ok (s.putStatus f b c.off c.status) []
      | _ => .ok s []

/-- ATTN: at the head of the attention engine, with its snapshot, it computes and stores its rows; it ends when they
have performed. -/
def attnStep (f : Nat) (b : BitVec 1) (c : Cmd) (ch : Choices) (s : State) : Got Choices :=
  match c.word with
  | some w =>
    if s.objs.reqs.any fun r => r.run == c.run && r.ord == c.ord && r.path == .A then .wait s
    else .ok (((s.putStatus f b (c.off + 56) w).dropServed f b fun n => n == c.ser).attnRelease c) []
  | none =>
    let mine := (s.cluster (f / 8)).attn.queue.head?.any fun x => x.1 == f && x.2.1 == b && x.2.2 == c.ser
    if !(c.accepted && c.started && mine) then .wait s
    else
      match c.homeCause with
      | some x => .trap (c.trapHome .A x)
      | none => (attnRun f b c ch s).bind fun s w => .wait (s.setBank f b ((s.bank f b).mapCmd .XQ c.ser fun c => { c with word := some w }))

/-- The blocks that a KVPROMO names: entry, page and leaf. -/
def State.promoBlocks (s : State) (h : Word) (e : Entry) (mask : Nat) : List (Nat × Nat × Nat) :=
  (List.range (s.seqState h e).nent).filterMap fun i =>
    let w := s.seqEnt h e i
    if enHole w || !enNamed w mask then none
    else
      let blk := s.seqBlk h e i
      (s.blkLeaf e blk).map fun l => (i, eVbase e + qPool e + blk * 65536, l.1)

/-- Start the promotion of blocks that are not in HBM, to the frames given. -/
def State.promote (s : State) (h : Word) (f : Nat) : List (Nat × Nat × Nat) → List Nat → State
  | [], _ => s
  | (_, va, a) :: rest, pfns =>
    let l := s.leafNow a
    if leafTier l = 0 || leafHold l || leafLost l then s.promote h f rest pfns
    -- a frame that is not free waits for another choice (R83)
    else if !s.framesOk 0 false [pfns.headD 0] || !s.modeOk false (pfns.headD 0) then s.promote h f rest (pfns.drop 1)
    else (s.startMove h va a false 0 s.pkgNo (pfns.headD 0) (.promo f)).promote h f rest (pfns.drop 1)

/-- KVPROMO (R440): its blocks move; it ends when each is resident, poisoned or lost. Its snapshot holds the entries that
it promotes. -/
def kvpromoStep (f : Nat) (b : BitVec 1) (c : Cmd) (mask : BitVec 8) (ch : Choices) (s : State) : Got Choices :=
  let k := cmdAsker f b .XQ c .A
  let h := c.handle
  let put := fun (s : State) (g : Cmd → Cmd) => s.setBank f b ((s.bank f b).mapCmd .XQ c.ser g)
  (s.sequence k h rightR).bind fun s e =>
    if hHome h ≠ s.pkgNo then
      if c.accepted && c.started then
        match c.homeCause with
        | some x => .trap (c.trapHome .A x)
        | none => .ok (s.putStatus f b c.off c.status) []
      else if c.accepted then .wait s
      else
        let s := put s fun c => { c with accepted := true }
        .wait (s.issueReq (s.reqOf k (noPlace h (BitVec.ofNat 10 (hHome h)))
          (.command c.ser (.sequence (BitVec.ofNat 30 (hIndex h)) 5 [mask.setWidth 64] []))))
    else
      let blocks := s.promoBlocks h e mask.toNat
      let cold := blocks.filter fun x => leafTier (s.leafNow x.2.2) ≠ 0
      if !c.started then
        .wait ((put s fun c => { c with started := true, snap := 0 :: 0 :: cold.map fun x => BitVec.ofNat 64 x.1 }).promote h f cold ch)
      else
        let moving := blocks.any fun x => let l := s.leafNow x.2.2; (leafTier l ≠ 0 || leafHold l) && !leafLost l
        if moving then .wait (s.promote h f cold ch)
        else
          let es := (c.snap.drop 2).map fun (w : Word) => s.seqEnt h e w.toNat
          let bad := (es.filter enQuar).length
          .ok (s.putStatus f b c.off (BitVec.ofNat 64 (bad % 65536 * 2 ^ 32 + (es.length - bad) % 65536 * 65536))) []

/-- XSTEP: the plan starts, and the command ends with the plan and its status. -/
def xstepWait (f : Nat) (b : BitVec 1) (c : Cmd) (ld : BitVec 28) (s : State) : Got Choices :=
  if c.accepted then .ok s []
  else if !c.started then (xstepStart f b c ld s).bind fun s _ => .wait s
  else if c.snap = [1] then .ok (s.putStatus f b c.off c.status) []
  else
    match planEnd f b s with
    | some t => .wait t
    | none => .wait s

/-- Step i of a command. -/
def stepOf (f : Nat) (b : BitVec 1) (c : Cmd) (i : Nat) (ch : Choices) (s : State) : Got Choices :=
  match c.instr with
  | .ldt _ _ vd q _ _ rd => ldtStep f b c vd q rd i ch s
  | .stt _ _ vd q _ _ m => sttStep f b c vd q m i ch s
  | .pft _ _ _ rd => pftStep f b c rd ch s
  | .bmap _ _ _ all => bmapStep f b c all s
  | .bflush _ _ _ all => bflushStep f b c all s
  | .bdrop _ _ _ all => bdropStep f b c all s
  | .mma64 _ _ va vb acc z kl => mmaStep f b c va vb acc z kl 0 0 false i ch s
  | .mma96 _ _ va vb acc z kl ak bk _ _ => mmaStep f b c va vb acc z kl ak bk false i ch s
  | .mmam64 _ _ va vb acc z kl => mmaStep f b c va vb acc z kl 0 0 true i ch s
  | .mmam96 _ _ va vb acc z kl ak bk _ _ => mmaStep f b c va vb acc z kl ak bk true i ch s
  | .mzero _ _ acc => .ok (mzeroStep f b acc i s) ch
  | .mrd _ _ vd acc rg ng => mrdStep f b c vd acc rg ng i s
  | .mwr _ _ va acc rg ng => mwrStep f b c va acc rg ng i s
  | .mred _ _ va acc z ax => .ok (mredStep f b c va acc z ax i s) ch
  | .mscan _ _ va acc z ax ex => .ok (mscanStep f b c va acc z ax ex i s) ch
  | .mtrn _ _ va acc => .ok (mtrnStep f b c va acc i s) ch
  | .rope _ _ vd va _ _ pinc _ => (ropeStep f b c vd va pinc i s).bind fun s _ => .ok s ch
  | .attn .. => attnStep f b c ch s
  | .kvpromo _ _ _ _ mask => kvpromoStep f b c mask ch s
  | .kvapp .. | .spanopen .. | .spanclose .. | .retspan .. => seqWait f b c s
  | .nbfill .. | .nbcopy .. | .nbaxpy .. | .nbscale .. | .nbrelay .. | .rrzero .. | .rrcopy .. => nbWait c s
  | .xsend _ _ _ _ _ imm => xsendStep f b c imm.toNat i ch s
  | .xstep _ _ _ _ ld => xstepWait f b c ld s
  | .intk .. => let r := s.submit f b c; .ok (r.2.putStatus f b c.off r.1) ch
  | _ => .ok s ch

/-- A command that has stopped is offered again after an answer. -/
def Cmd.again (c : Cmd) : Cmd :=
  match c.instr with
  | .attn .. => if c.snap.length = 1 then { c with accepted := false, started := false, snap := [] } else { c with accepted := false }
  | .kvapp .. | .spanopen .. | .spanclose .. | .retspan .. | .kvpromo .. | .nbfill .. | .nbcopy .. | .nbaxpy .. | .nbscale .. | .nbrelay ..
  | .rrzero .. | .rrcopy .. => if c.snap.length = 1 then { c with accepted := false, started := false, snap := [] } else c
  | _ => c

/-- A step of a command of an engine raised a cause. -/
def State.engineStops (s : State) (f : Nat) (b : BitVec 1) (q : QueueId) (c : Cmd) (x : TrapInfo) : State :=
  let s := match c.instr with
    | .attn .. => s.dropServed f b fun n => n == c.ser
    | _ => s
  (s.setBank f b ((s.bank f b).mapCmd q c.ser Cmd.again)).raise f b (engineSource q) c.pos c.task x

/-- The next steps of the head of a queue, n of them at most. -/
def runSteps (f : Nat) (b : BitVec 1) (q : QueueId) : Nat → Choices → State → Host.Outcome State Fault Refusal
  | 0, _, s => .next s
  | n + 1, ch, s =>
    let k := s.bank f b
    match k.queue q with
    | [] => .next s
    | c :: _ =>
      if q = .VQ || c.skip || !c.issued || c.steps ≤ k.counter q then .next s
      else
        match stepOf f b c (k.counter q) ch s with
        | .ok t ch =>
          let m := t.bank f b
          runSteps f b q n ch (t.setBank f b (m.setCounter q (k.counter q + 1)))
        | .wait t => .next t
        | .trap x => .next (s.engineStops f b q c x)
        | .fault r => .fault r

/-! ### Offers of the auxiliary engine (log entry 42) -/

/-- The auxiliary engine offers near-bank commands to their slices, and ATTN requests to the attention engine, in order. -/
def offer (f : Nat) (b : BitVec 1) (s : State) : Host.Outcome State Fault Refusal :=
  let cs := (s.bank f b).xq
  match cs.find? fun c => !(c.accepted || c.skip) with
  | none => .next s
  | some c =>
    if !c.issued then .next s
    else if (nbOp c.instr).isSome then
      match nbAccept f b c s with
      | .ok t d => .next ((t.setBank f b ((t.bank f b).mapCmd .XQ c.ser fun _ => d)).nbEnter f b d)
      | .wait t => .next t
      | .trap x => .next (s.engineStops f b .XQ c x)
      | .fault r => .fault r
    else
      match c.instr with
      | .attn .. =>
        if seqFirst (cs.takeWhile fun x => x.ser ≠ c.ser) c then
          let x := s.cluster (f / 8)
          let s := s.setCluster (f / 8) { x with attn := { x.attn with queue := x.attn.queue ++ [(f, b, c.ser)] } }
          .next (s.setBank f b ((s.bank f b).mapCmd .XQ c.ser fun c => { c with accepted := true }))
        else .next s
      | _ => .next s

/-! ### Retirement (R101, R189, R192) -/

/-- The head has completed its steps, and what must follow them. -/
def finished (f : Nat) (b : BitVec 1) (q : QueueId) (c : Cmd) (s : State) : Option State :=
  let k := s.bank f b
  if c.skip then some s
  else if !c.issued || k.counter q < c.steps || k.landings.any (fun l => l.ser == c.ser && q == .VQ) then none
  else
    match c.instr with
    | .xsend .. => if c.started then xsendEnd c s else some s
    | _ => some s

/-- Registers of a generator that a retiring command changes (R272, R385, R400, R413). -/
def Bank.retireSr (k : Bank) (c : Cmd) : Bank :=
  match c.instr with
  | .vseed .. =>
    let v := c.vs.headD 0
    { k with srbase := v, srV := srState v 1, srM := srState v 2, srH := srState v 3 }
  | .mrd .. | .mwr .. => k.retireMatrix c
  | i => if (vopOf i (c.vs.headD 0)).sr then { k with srV := srAdvance k.srV } else k

/-- An engine of core f has retired a command of a world (R101). -/
def State.noteWorld (s : State) (f : Nat) (q : QueueId) (w : Byte) : State :=
  let c := s.core f
  s.setCore f { c with worlds := .ofFn fun n => if n.val = qNum q then w else c.worlds[n] }

/-- The head of a queue retires: it pushes its tokens, its counter is cleared, and its ring slots are released. -/
def retire (f : Nat) (b : BitVec 1) (q : QueueId) (s : State) : State :=
  let k := s.bank f b
  match k.queue q with
  | [] => s
  | c :: rest =>
    if !k.canPush q c s.cycle then s
    else
      match finished f b q c s with
      | none => s
      | some t =>
        let k := t.bank f b
        let k := ((k.addTokens (pushesOf q c.tok) s.cycle).setCounter q 0).setQueue q rest
        let k := if c.skip then k else k.retireSr c
        (((t.setBank f b k.settle).noteWorld f q c.world).dropLines (cmdKey f b c)).ringRetired f c.ser

/-- ENGINE_COMMAND_RETIRE: the head of the queue makes up to the given number of steps, and retires if it has made them
all. -/
def execEngineCommandRetire (core : BitVec 9) (q : QueueId) (steps : U16) (ch : Choices) (s : State) : Host.Outcome State Fault Refusal :=
  let f := core.toNat
  let b := (s.core f).active
  if !s.engineOn f b then .next s
  else
    let s := s.landDue f b
    match (if q = .XQ then offer f b s else .next s) with
    | .next s =>
      if (s.bank f b).fault.isSome then .next s
      else
        match runSteps f b q steps.toNat ch s with
        | .next s => if (s.bank f b).fault.isSome then .next s else .next (retire f b q s)
        | o => o
    | o => o

/-- SFU_WRITEBACK: special-function results, and all others that are due, are written (R252). -/
def execSfuWriteback (core : BitVec 9) (s : State) : Host.Outcome State Fault Refusal :=
  let f := core.toNat
  let b := (s.core f).active
  if s.engineOn f b then .next (s.landDue f b) else .next s

/-! ### TOKEN_STALL (R191) -/

/-- Every queue that is not empty waits on a token: its head has not issued for want of one, or cannot push. -/
def Bank.tokenBound (k : Bank) (now : Nat) : Bool :=
  !k.cmds.isEmpty && allQueues.all fun q =>
    match k.queue q with
    | [] => true
    | c :: _ => (!c.issued && !k.canPop q c now) || (c.issued && c.steps ≤ k.counter q && !k.canPush q c now)

/-- What must stand still: positions of the contexts, the place in step order, tokens, and commands. -/
def Bank.signature (k : Bank) : List Nat :=
  [posNat k.L.pos, posNat k.C.pos, posNat k.S.pos, (k.run.map fun r => r.ord).getD 0, (k.run.map fun r => r.id).getD 0]
    ++ k.tokens.toList ++ k.cmds.map (fun c => c.ser) ++ [k.fmtq.length, k.landings.length]

/-- A memory request of the core is outstanding: on its way, or at its handle unit (R191). -/
def State.coreBusy (s : State) (f : Nat) : Bool :=
  let mine := fun (w : Agent) => match w with
    | .core n _ => n.toNat == f
    | .sys _ => false
  let u := s.hunit (f / 8)
  s.objs.reqs.any (fun r => mine r.who) || u.held.any (fun w => mine w.who)
    || u.fills.any (fun x => x.joined.any fun w => mine w.who) || u.walks.any (fun x => x.joined.any fun w => mine w.who) || u.waiting.any (fun w => mine w.who)

/-- TOKEN_STALL: the count of the cycles in which nothing moves starts, starts again, or ends in the trap. -/
def execTokenStall (core : BitVec 9) (s : State) : Host.Outcome State Fault Refusal :=
  let f := core.toNat
  let b := (s.core f).active
  if !s.engineOn f b then .next s
  else
    let s := s.landDue f b
    let k := s.bank f b
    if !k.tokenBound s.cycle || s.coreBusy f then .next (s.setBank f b { k with stall := none })
    else
      match k.stall with
      | some (t, sig) =>
        if sig = k.signature then
          if s.cycle < t + 65536 then .next s
          else
            match (allQueues.filterMap fun q => (k.queue q).head?.map fun c => (q, c)).head? with
            | some (q, c) => .next ((s.setBank f b { k with stall := none }).raise f b (engineSource q) c.pos c.task (trapOf Cause.tokenStall))
            | none => .next s
        else .next (s.setBank f b { k with stall := some (s.cycle, k.signature) })
      | none => .next (s.setBank f b { k with stall := some (s.cycle, k.signature) })

end Sys2Proof.Machine
end

