-- ==== Sys2Proof/Machine/Faults.lean ====
section
/-!
DEFINITION. Faults of compute cores (10_faults.md): the drain and the frame, answers and resume, and uncorrectable errors.
-/

namespace Sys2Proof.Machine

open Sys2Proof

/-! ### The drain (R242, R253) -/

def Bank.landAll (k : Bank) : List Landing → Bank
  | [] => k
  | l :: ls => (k.land l).landAll ls

/-- Landings in the order of their cycles. -/
def sortLandings : Nat → List Landing → List Landing
  | 0, _ => []
  | n + 1, ls =>
    match leastBy Landing.key ls with
    | none => []
    | some l => l :: sortLandings n (ls.filter fun x => x.key ≠ l.key)

/-- Row groups that had not issued by the cycle of the fault are dropped; special functions land first, then the other
results. A command that has lost row groups starts again at its step. -/
def Bank.drainVector (k : Bank) (t : Nat) : Bank :=
  let k := k.landDue t
  let lost := k.landings.filter fun l => t < l.issue
  let ls := k.landings.filter fun l => l.issue ≤ t
  let order := fun (p : Landing → Bool) => sortLandings ls.length (ls.filter p)
  let k := (k.landAll (order fun l => l.sfu)).landAll (order fun l => !l.sfu)
  let k := k.countGroups
  let again := fun (c : Cmd) => if lost.any fun l => l.ser == c.ser then { c with started := false } else c
  { k with landings := [], nextV := 0, vq := k.vq.map again }

/-- A register of a context of the step still waits for an access that has left. -/
def State.valuesOut (s : State) (f : Nat) (b : BitVec 1) : Bool :=
  match (s.bank f b).run with
  | none => false
  | some r => s.objs.reqs.any fun q => q.run == r.id && q.bank == b && !q.kind.dsts.isEmpty && (match q.who with
      | .core n _ => n.toNat == f
      | .sys _ => false)

/-- The engines complete steps that were under way, and commands that have made all theirs retire; the engine that stopped makes none. -/
def drainEngines (f : Nat) (b : BitVec 1) (src : BitVec 3) (ch : Choices) : List (QueueId × Nat) → State → Host.Outcome State Fault Refusal
  | [], s => .next s
  | (q, n) :: rest, s =>
    if engineSource q = src then drainEngines f b src ch rest s
    else
      match runSteps f b q n ch s with
      | .next t => drainEngines f b src ch rest (retire f b q t)
      | o => o

def retireAll (f : Nat) (b : BitVec 1) : Nat → State → State
  | 0, s => s
  | n + 1, s => retireAll f b n (retire f b .VQ s)

/-! ### The frame (Table 10-2) -/

/-- The command that a fault names, if an engine raised it. -/
def Bank.faultCmd (k : Bank) (fi : FaultInfo) : Option (QueueId × Cmd) :=
  match allQueues.find? fun q => engineSource q == fi.source with
  | none => none
  | some q =>
    if fi.source.toNat < 3 then none
    else
      let l := (k.queue q).filter fun c => c.pos == fi.fpc && !c.skip
      let fresh := l.find? fun c => if q = .XQ then !c.accepted else if q = .VQ then !c.started else if fi.cause = Cause.fmtqEmpty then !c.issued else true
      (fresh.or l.head?).map fun c => (q, c)

/-- The sixteen words of a frame that hold something; heads gives the head entries, which no rule fixes. -/
def frameWords (s : State) (f : Nat) (b : BitVec 1) (fi : FaultInfo) (heads : Nat) : List Word :=
  let k := s.bank f b
  let c := k.faultCmd fi
  let step := (c.map fun x => x.2.step.toNat).getD ((k.run.map fun r => r.step.toNat).getD 0)
  let world := (c.map fun x => x.2.world.toNat).getD ((k.run.map fun r => r.world.toNat).getD 0)
  let n := fun j => ((fi.idx.getD j 0).toNat)
  let per := fun (w : Nat) (g : QueueId → Nat) => sumBy (fun q => g q * 2 ^ (w * qNum q)) allQueues
  let issued := fun q => (((k.queue q).drop 1).filter fun c => c.issued).length
  [fi.level.toNat * 2 ^ 44 + world * 2 ^ 32 + b2n fi.multi * 2 ^ 28 + fi.source.toNat * 2 ^ 25 + b.toNat * 2 ^ 24 + fi.path.toNat * 2 ^ 20 + fi.cause.toNat,
   fi.task.toNat,
   step * 2 ^ 32,
   fi.handle.toNat,
   n 1 * 2 ^ 32 + n 0,
   n 3 * 2 ^ 32 + n 2,
   fi.va.toNat,
   posNat k.C.pos * 2 ^ 32 + posNat k.L.pos,
   posNat fi.fpc * 2 ^ 32 + posNat k.S.pos,
   k.escs.toNat * 2 ^ 48 + k.escv.toNat * 2 ^ 32 + k.mrow.toNat % 128 * 2 ^ 16 + k.escl.toNat,
   heads % 2 ^ 25 * 2 ^ 16 + k.escx.toNat,
   k.fmtq.length * 2 ^ 40 + per 8 fun q => (k.queue q).length,
   per 8 issued,
   sumBy (fun j => k.token j * 16 ^ j) (List.range 10),
   b2n (k.run.any fun r => r.replay) * 2 + b2n (k.run.any fun r => r.committed),
   0].map (BitVec.ofNat 64)

/-- FAULT_FRAME_WRITE: the drain ends; the frame is written, the record appended, and the other bank runs. The numbers
say how many steps each engine still completes. -/
def execFaultFrameWrite (core : BitVec 9) (bank : BitVec 1) (nl nm ns nx : Byte) (ch : Choices) (s : State) : Host.Outcome State Fault Refusal :=
  let f := core.toNat
  let k := s.bank f bank
  match k.fault with
  | none => .next s
  | some fi =>
    if k.st ≠ .draining || s.valuesOut f bank || s.power.freqAct = 0 then .next s
    else
      match (if k.plan.isNone then some s else planEnd f bank s) with
      | none => .next s
      | some s =>
        let s := s.setBank f bank ((s.bank f bank).drainVector fi.cycle)
        let s := if fi.source = engineSource .VQ then s else retireAll f bank 32 s
        match drainEngines f bank fi.source ch [(.LQ, nl.toNat), (.MQ, nm.toNat), (.SQ, ns.toNat), (.XQ, nx.toNat)] s with
        | .next s =>
          let s := s.nbFinishAll f bank fun _ => true
          let attn := ((s.bank f bank).xq.filter fun c => match c.instr with
            | .attn .. => true
            | _ => false).map fun c => c.ser
          let s := (s.dropServed f bank fun n => attn.contains n).withdraw f bank
          let k := s.bank f bank
          let off := fun (c : Cmd) => if attn.contains c.ser then { c with accepted := false } else c
          let st := if fi.answered then .resumable else .parked
          let s := s.setBank f bank { k with xq := k.xq.map off, st, skip := false, stall := none }
          match (s.bank f bank).fault with
          | none => .next s
          | some fi =>
            let h := s.drawFree
            let ws := frameWords h.2 f bank fi h.1.toNat
            let a := s.frameAddr f bank
            let s1 := h.2
            let s : State := { s1 with mem := mwrite (mzero s1.mem a 256) a (bytesOfWords ws) }
            let t := s.appendRecord f bank
            .next (t.setCore f { t.core f with active := 1 - bank })
        | o => o

/-! ### Resume (R131, R247, R248) -/

/-- What the frame gives back: positions, step counters and tokens. -/
def Bank.restoreFrame (k : Bank) (w : Nat → Nat) : Bank :=
  { k with
    L := k.L.at_ (posOfNat (bits (w 7) 27 0))
    C := k.C.at_ (posOfNat (bits (w 7) 59 32))
    S := k.S.at_ (posOfNat (bits (w 8) 27 0))
    escl := BitVec.ofNat 16 (bits (w 9) 15 0)
    mrow := BitVec.ofNat 16 (bits (w 9) 31 16 % 128)
    escv := BitVec.ofNat 16 (bits (w 9) 47 32)
    escs := BitVec.ofNat 16 (bits (w 9) 63 48)
    escx := BitVec.ofNat 16 (bits (w 10) 15 0)
    tokens := .ofFn fun n => bits (w 13) (4 * n.val + 3) (4 * n.val)
    tokMark := none }

/-- An answer SKIP: FAULTCAUSE records the cause, and the instruction or command retires with no further effect. -/
def Bank.skipFault (k : Bank) (fi : FaultInfo) : Bank :=
  let k := { k with run := k.run.map fun (r : StepRun) => { r with skips := if r.skips = 0xFFFF then r.skips else r.skips + 1, cause := fi.cause } }
  match k.faultCmd fi with
  | some (q, c) => k.mapCmd q c.ser fun c => { c with skip := true }
  | none =>
    let mark := fun (x : Ctx) => if x.pos = fi.fpc then { x with skip := true } else x
    match fi.source.toNat with
    | 0 => { k with L := mark k.L }
    | 1 => { k with C := mark k.C }
    | _ => { k with S := mark k.S }

/-- PARKED_STEP_RESUME: an answered bank goes on when the other bank runs nothing. -/
def execParkedStepResume (core : BitVec 9) (bank : BitVec 1) (s : State) : Host.Outcome State Fault Refusal :=
  let f := core.toNat
  let k := s.bank f bank
  let o := s.bank f (1 - bank)
  match k.fault with
  | none => .next s
  | some fi =>
    if k.st ≠ .resumable || o.st = .running || o.st = .draining then .next s
    else
      let w := fun n => (mword s.mem (s.frameAddr f bank + 8 * n)).toNat
      let k := k.restoreFrame w
      let k := if k.skip then k.skipFault fi else k
      let k := { k with st := if k.runOnFault then .idle else .running, fault := none, skip := false }
      let t := s.setBank f bank k
      .next (t.setCore f { t.core f with active := bank })

def execFanswerResume (core : BitVec 9) (bank : BitVec 1) (s : State) : Host.Outcome State Fault Refusal := .next (s.fanswer core.toNat bank 0 0)
def execFanswerSkip (core : BitVec 9) (bank : BitVec 1) (s : State) : Host.Outcome State Fault Refusal := .next (s.fanswer core.toNat bank 1 0)
def execFanswerReplay (core : BitVec 9) (bank : BitVec 1) (s : State) : Host.Outcome State Fault Refusal := .next (s.fanswer core.toNat bank 2 0)
def execFanswerKill (core : BitVec 9) (bank : BitVec 1) (detail : U16) (s : State) : Host.Outcome State Fault Refusal :=
  .next (s.fanswer core.toNat bank 3 detail)

def execFqheadWrite (v : Word) (s : State) : Host.Outcome State Fault Refusal := .next (s.writeFqhead v)
def execStepCounterWrite (q : QueueId) (inst : BitVec 10) (v : Word) (s : State) : Host.Outcome State Fault Refusal :=
  .next (s.writeStepCounter q inst.toNat v)

/-! ### Uncorrectable errors (R257, R258) -/

/-- An uncorrectable error in an engine, or in data that a context (q = none) or the head of a queue has read: the step is
replayed; where the command runs on from an outgoing step, that step's task is killed, as it is past COMMIT (R185). -/
def State.replayReader (s : State) (f : Nat) (b : BitVec 1) (q : Option QueueId) (cause : U16) : State :=
  let k := s.bank f b
  match (q.bind fun q => (k.queue q).head?), k.run with
  | some c, some r => if c.run = r.id then s.replayStep f b cause false else s.killTask c.task Status.killed cause
  | some c, none => s.killTask c.task Status.killed cause
  | none, _ => s.replayStep f b cause false

/-- UE_ENGINE: the step that owns the bank is replayed, or its task is killed (Table 6-14). -/
def execUeEngine (core : BitVec 9) (bank : BitVec 1 × Option QueueId) (s : State) : Host.Outcome State Fault Refusal :=
  .next (s.replayReader core.toNat bank.1 bank.2 Cause.ueEngine)

/-- The line of va has another copy: a replica in another package, or a block of flash. -/
def State.otherCopy (s : State) (h : Word) (e : Entry) (leafPa : Nat) : Bool :=
  (tfind s.objs.flashHome leafPa).isSome
    || (1 < eReps e && (List.range (eShards e * eReps e)).any fun k => s.smapAt h e k != s.pkgNo)

/-- UE_MEM: the line is rewritten from another copy, or its segment and object are lost; the reading step is replayed. -/
def execUeMem (core : BitVec 9) (va : Option QueueId × BitVec 52) (s : State) : Host.Outcome State Fault Refusal :=
  let q := va.1
  let va := va.2
  let f := core.toNat
  let t := match s.objectAt va.toNat, s.walkTables va.toNat with
    | some (h, e), .ok (a, leaf, large) =>
      if s.otherCopy h e a then s
      else
        let pa := leafPaOf leaf large va.toNat
        ((s.setLeaf a fun l => putBits l 59 59 1).setErr 1 (BitVec.ofNat 64 (if pa < 2 ^ 40 then sliceOf pa else 0)) h).loseObject h
    | _, _ => s
  .next (t.replayReader f (t.core f).active q Cause.ueMem)

/-- UE_BASIN: a dirty Basin line is lost with its task. -/
def execUeBasin (core : BitVec 9) (bank : BitVec 1) (s : State) : Host.Outcome State Fault Refusal :=
  let f := core.toNat
  match (s.bank f bank).basin.find? fun l => !l.dirty.isEmpty with
  | none => .next s
  | some l =>
    let slice := match s.walkTables l.va.toNat with
      | .ok (_, leaf, large) => sliceOf (leafPaOf leaf large l.va.toNat)
      | .error _ => 0
    let t := s.dropBasin f bank fun x => x.handle == l.handle && x.va == l.va
    .next ((t.setErr 1 (BitVec.ofNat 64 slice) l.handle).killTask l.task Status.killed Cause.ueBasin)

/-- UE_CACHE_ENTRY: kind 0 an L2 line by address, 1 a clean Basin line by address, 2 entry key of a code cache, 3 an
object-cache entry by handle, else a TLB entry by address. -/
def execUeCacheEntry (kind : BitVec 3) (unit : BitVec 9) (key : Word) (s : State) : Host.Outcome State Fault Refusal :=
  let u := unit.toNat
  match kind.toNat with
  | 0 => .next (s.l2Drop u s.pkg key.toNat)
  | 1 => .next (([0, 1] : List (BitVec 1)).foldl (fun s b => s.dropBasin u b fun l => l.va.toNat == key.toNat / 64 * 64 && l.dirty.isEmpty) s)
  | 2 => let c := s.core u; .next (s.setCore u { c with codeCache := c.codeCache.eraseIdx key.toNat })
  | 3 => .next (s.setHunit u ((s.hunit u).dropEntry key false))
  | _ => .next (s.setHunit u ((s.hunit u).dropTlb key.toNat 1 false))

/-- UE_SLICE_BUFFER: the command, launch or record is reported. -/
def execUeSliceBuffer (slice : Byte) (handle : Word) (s : State) : Host.Outcome State Fault Refusal :=
  .next (s.setErr 1 (slice.setWidth 64) handle)

end Sys2Proof.Machine
end

