-- ==== Sys2Proof/Machine/Float.lean ====
section
/-!
DEFINITION. Scalar floating point (13_isa_scalar.md, R315 to R320).
-/

namespace Sys2Proof.Machine

open Sys2Proof

/-- The value of a register in a scalar format (R302). -/
def fval (fmt : Nat) (v : Word) : Val := decFlt (scalarFlt fmt) (scalarCode fmt v)
/-- RoundTo(exact, fmt, RND, OVFINF), as a register (R302, R316). -/
def fres (fmt : Nat) (r : Rnd) (x : Val) : Word := BitVec.ofNat 64 (roundFlt (scalarFlt fmt) r true 0 x)

/-- A two-operand arithmetic instruction (Table 13-5). -/
def floatRR (g : BitVec 4) (x y b : BitVec 5) (fm : BitVec 2) (rnd : BitVec 3) (s : State) (f : Rnd → Val → Val → Val) :
    Host.Outcome State Fault Refusal :=
  control { size := 2 } g { s := [x, y, b] } s fun s =>
    let r := rndOf rnd.toNat
    .done (s.setS x (fres fm.toNat r (f r (fval fm.toNat (s.getS y)) (fval fm.toNat (s.getS b)))))

def execFadd (g : BitVec 4) (x y : BitVec 5) (fm : BitVec 2) (b : BitVec 5) (rnd : BitVec 3) (s : State) :
    Host.Outcome State Fault Refusal :=
  floatRR g x y b fm rnd s fun r p q => p.add (r == .rdn) q
def execFsub (g : BitVec 4) (x y : BitVec 5) (fm : BitVec 2) (b : BitVec 5) (rnd : BitVec 3) (s : State) :
    Host.Outcome State Fault Refusal :=
  floatRR g x y b fm rnd s fun r p q => p.add (r == .rdn) q.neg
def execFmul (g : BitVec 4) (x y : BitVec 5) (fm : BitVec 2) (b : BitVec 5) (rnd : BitVec 3) (s : State) :
    Host.Outcome State Fault Refusal :=
  floatRR g x y b fm rnd s fun _ p q => p.mul q
def execFdiv (g : BitVec 4) (x y : BitVec 5) (fm : BitVec 2) (b : BitVec 5) (rnd : BitVec 3) (s : State) :
    Host.Outcome State Fault Refusal :=
  floatRR g x y b fm rnd s fun _ p q => p.div q

/-- FFMA rounds a × b + c once (R316). -/
def execFfma (g : BitVec 4) (x y : BitVec 5) (fm : BitVec 2) (b : BitVec 5) (rnd : BitVec 3) (c : BitVec 5) (s : State) :
    Host.Outcome State Fault Refusal :=
  control { size := 2 } g { s := [x, y, b, c] } s fun s =>
    let r := rndOf rnd.toNat
    let v := fun q => fval fm.toNat (s.getS q)
    .done (s.setS x (fres fm.toNat r (((v y).mul (v b)).add (r == .rdn) (v c))))

def execFsqrt (g : BitVec 4) (x y : BitVec 5) (fm : BitVec 2) (rnd : BitVec 3) (s : State) :
    Host.Outcome State Fault Refusal :=
  control { size := 2 } g { s := [x, y] } s fun s =>
    .done (s.setS x (fres fm.toNat (rndOf rnd.toNat) (fval fm.toNat (s.getS y)).sqrt))

/-- FMIN and FMAX by Table 11-8, the first source as old (R317). -/
def minMax (isMax : Bool) (g : BitVec 4) (x y z : BitVec 5) (f : BitVec 1) (s : State) : Host.Outcome State Fault Refusal :=
  control { size := 1 } g { s := [x, y, z] } s fun s =>
    let c := fun r => scalarCode f.toNat (s.getS r)
    .done (s.setS x (BitVec.ofNat 64 (fminCode (scalarFlt f.toNat) isMax (c y) (c z))))

def execFmin (g : BitVec 4) (x y z : BitVec 5) (f : BitVec 1) (s : State) : Host.Outcome State Fault Refusal :=
  minMax false g x y z f s
def execFmax (g : BitVec 4) (x y z : BitVec 5) (f : BitVec 1) (s : State) : Host.Outcome State Fault Refusal :=
  minMax true g x y z f s

def execFclass (g : BitVec 4) (x y : BitVec 5) (f : BitVec 1) (s : State) : Host.Outcome State Fault Refusal :=
  control { size := 1 } g { s := [x, y] } s fun s =>
    .done (s.setS x (BitVec.ofNat 64 (2 ^ fclassBit (scalarFlt f.toNat) (scalarCode f.toNat (s.getS y)))))

def execFcmp (g : BitVec 4) (x : BitVec 3) (y : BitVec 5) (fm : BitVec 2) (cc : BitVec 4) (b : BitVec 5) (s : State) :
    Host.Outcome State Fault Refusal :=
  control { size := 2 } g { s := [y, b], p := [x] } s fun s =>
    .done (s.setP x (fltCond cc.toNat (fval fm.toNat (s.getS y)) (fval fm.toNat (s.getS b))))

/-- A converted code in a register: sign-extended for a signed integer format (R320). -/
def codeWord (fmt : Byte) (code : Nat) : Word := extend (fmtSigned fmt) code (fmtWidth fmt)

def execFcvt (g : BitVec 4) (x y : BitVec 5) (dfmt sfmt : BitVec 8) (rnd : BitVec 3) (sat : BitVec 1) (s : State) :
    Host.Outcome State Fault Refusal :=
  control { size := 2 } g { s := [x, y] } s fun s =>
    let v := dec ((s.getS y).toNat % 2 ^ fmtWidth sfmt) sfmt
    .done (s.setS x (codeWord dfmt (roundTo v dfmt (rndOf rnd.toNat) (sat == 1) 0)))

end Sys2Proof.Machine
end

