-- ==== Sys2Proof/Machine/Flow.lean ====
section
/-!
DEFINITION. Control flow (13_isa_scalar.md, R321 to R324).
-/

namespace Sys2Proof.Machine

open Sys2Proof

/-- A branch that is taken when a condition holds (Table 13-7). -/
def branchIf (g : BitVec 4) (u : Uses) (slot : BitVec 4) (ld : BitVec 28) (s : State) (c : State → Bool) :
    Host.Outcome State Fault Refusal :=
  control { size := 2 } g u s fun s => if c s then s.branchTo ld slot else .done s

def execBr (g slot : BitVec 4) (ld : BitVec 28) (s : State) : Host.Outcome State Fault Refusal :=
  branchIf g {} slot ld s fun _ => true
def execBrp (g : BitVec 4) (x : BitVec 3) (n : BitVec 1) (slot : BitVec 4) (ld : BitVec 28) (s : State) :
    Host.Outcome State Fault Refusal :=
  branchIf g { p := [x] } slot ld s fun s => s.getP x != (n == 1)
def execBrz (g : BitVec 4) (x : BitVec 5) (slot : BitVec 4) (ld : BitVec 28) (s : State) :
    Host.Outcome State Fault Refusal :=
  branchIf g { s := [x] } slot ld s fun s => s.getS x == 0
def execBrnz (g : BitVec 4) (x : BitVec 5) (slot : BitVec 4) (ld : BitVec 28) (s : State) :
    Host.Outcome State Fault Refusal :=
  branchIf g { s := [x] } slot ld s fun s => s.getS x != 0

/-- The return stack with a position pushed: 8 entries, the oldest dropped (R322). -/
def pushRet (l : List Pos) (p : Pos) : List Pos := (p :: l).take 8

def execCall (g slot : BitVec 4) (ld : BitVec 28) (s : State) : Host.Outcome State Fault Refusal :=
  control { size := 2 } g {} s fun s =>
    match s.branchTo ld slot with
    | .goto t p => .goto (t.setCtx { t.ctx with ret := pushRet t.ctx.ret (t.after t.pos 2) }) p
    | r => r

def execRet (g : BitVec 4) (s : State) : Host.Outcome State Fault Refusal :=
  control { size := 1 } g {} s fun s =>
    match s.ctx.ret with
    | [] => .trap (trapOf Cause.codeBad)
    | p :: rest => .goto (s.setCtx { s.ctx with ret := rest }) p

/-- LOOP (R323). -/
def execLoop (g : BitVec 4) (x : BitVec 2) (slot : BitVec 4) (ld : BitVec 28) (s : State) :
    Host.Outcome State Fault Refusal :=
  control { size := 2 } g {} s fun s =>
    let n := s.ctx.getLc x
    if 1 < n.toNat then
      match s.branchTo ld slot with
      | .goto t p => .goto (t.setCtx (t.ctx.setLc x (n - 1))) p
      | r => r
    else .done (s.setCtx (s.ctx.setLc x 0))

def execNop (g : BitVec 4) (s : State) : Host.Outcome State Fault Refusal := control { size := 1 } g {} s fun s => .done s
/-- HINT has no architectural effect for any W (R324). -/
def execHint (g : BitVec 4) (_w : BitVec 16) (s : State) : Host.Outcome State Fault Refusal :=
  control { size := 1 } g {} s fun s => .done s

end Sys2Proof.Machine
end

