-- ==== Sys2Proof/Machine/Home.lean ====
section
/-!
DEFINITION. This package as the home of requests (02_links.md, R44): those of its own units at their slices (R215,
R430, R441), and those of other packages, which stand as requests under a run number of their own (farRun) and are
answered over the links.
-/

namespace Sys2Proof.Machine

open Sys2Proof

/-! ### Receipt -/

/-- Copies of lines of a page that package src holds are being recalled: its write-backs come past HOLD and past a near-bank
command (R91, R363). -/
def State.recalling (s : State) (src : Nat) (va : Nat) : Bool :=
  s.objs.reqs.any fun q => q.remote && q.place.pkg.toNat == src && (match q.kind with
    | .command _ (.recall a n) => a.toNat ≤ va && va < a.toNat + n.toNat
    | _ => false)

/-- The place of n bytes at va: unresolved (leaf 0) while the segment is held or not mapped here. -/
def State.farPlace (s : State) (src : Nat) (h : Word) (va n : Nat) : Place :=
  let p : Place := { noPlace h s.pkg with va := BitVec.ofNat 52 va, width := 8 * n }
  match s.walkTables va with
  | .ok (a, l, large) => if (leafHold l && !s.recalling src va) || leafLost l || leafUnav l || leafBusy l == 0xFFFF then p
                         else { p with pa := leafPaOf l large va, leafPa := a }
  | .error _ => p

/-- A request of package src stands here until it performs. -/
def State.farReq (s : State) (src : Nat) (q : RemoteReq) (p : Place) (kind : ReqKind) : State :=
  s.pushReq { id := 0, unit := 63, who := .sys 0, bank := 0, run := farRun src q.run, task := q.task, world := q.world, path := q.path,
              ord := s.reqId * 2 ^ 32 + q.tag.toNat, issued := s.now, place := p, floor := 0, fences := [], kind, remote := false }

/-- Handle of a live entry of this package by its index. -/
def State.handleIx (s : State) (i : BitVec 30) : Word := s.handleAt i.toNat (s.entryInMem i.toNat)

/-- An answer at receipt: type 2 RDRSP, 4 WRACK, 6 ATRSP. -/
def State.reply (s : State) (src ty : Nat) (q : RemoteReq) (data : List Byte) (old : Word) : State :=
  if q.tag = 0 then s else s.sendTo src ty (.response q.tag 0 data old)

/-- Bytes that an operation of a request reads or writes at its address. -/
def wideBytes (wide : Bool) : Nat := if wide then 8 else 4

/-- A request of package src arrives: what needs no place in an order is answered at once. The bytes that came ahead of it
are its body (R37). -/
def State.serveRemote (s : State) (src : Nat) (q : RemoteReq) : State :=
  let mine := fun (x : Nat × U32 × List Byte) => x.1 == src && x.2.1 == q.tag
  let part := match q.op with
    | .part _ => true
    | _ => false
  let body := if part then [] else (s.objs.parts.filter mine).flatMap fun x => x.2.2
  let s : State := if body.isEmpty then s else { s with objs := { s.objs with parts := s.objs.parts.filter fun x => !mine x } }
  let q := if body.isEmpty then q else { q with op := opWithBody body q.op }
  let q := { q with op := s.linkOp q.handle q.op }
  let at_ := fun (va : BitVec 52) (n : Nat) => s.farPlace src q.handle va.toNat n
  let on := fun (ix : BitVec 30) => noPlace (s.handleIx ix) s.pkg
  match q.op with
  | .entry ix =>
    -- words 0 and 2 to 15: word 1 stays at its slice (R72)
    if q.tag = 0 then s else s.sendData src q.tag (if s.objs.otCap ≤ ix.toNat then List.replicate 120 0 else bytesOfWords ((s.entryInMem ix.toNat).toList.eraseIdx 1))
  | .load va n => s.farReq src q (at_ va n.toNat) (.wload 0 false 0)
  | .store va data mask =>
    s.farReq src q (at_ va data.length) (.wstore (data.mapIdx fun j b => (va.toNat + j, b, byteAt mask j)))
  | .line va data =>
    let mapped := match s.walkTables va.toNat with
      | .ok _ => true
      | .error _ => false
    if q.path = .X && !mapped then
      -- the bytes of a segment on its way here (R118)
      (s.stashLine va.toNat data).reply src 4 q [] 0
    else s.farReq src q (at_ va 64) (.rawLine data)
  | .recall va n => (s.recallHere q.handle va.toNat n.toNat).farReq src q { noPlace q.handle s.pkg with va } (.command 0 q.op)
  | .strongLoad va n => s.farReq src q (at_ va n.toNat) (.sload 0 false false)
  | .strongStore va data => s.farReq src q (at_ va data.length) (.sstore (BitVec.ofNat 64 (ofBytes data)) false)
  | .atomic va wide op v => s.farReq src q (at_ va (wideBytes wide)) (.atomic wide op v none)
  | .fatomic va op v => s.farReq src q (at_ va 4) (.fatomic op v none)
  | .cas va wide x n => s.farReq src q (at_ va (wideBytes wide)) (.cas wide x n 0 0)
  | .casc va wide x n t ix w => s.farReq src { q with world := w } { at_ va (wideBytes wide) with idx := ix } (.casc wide x n 0 0 t)
  | .version ix op v t =>
    match op.toNat with
    | 0 => s.farReq src q (on ix) (.verq 0)
    | 1 => s.farReq src q (on ix) .openv
    | 2 => s.farReq src q (on ix) .pub
    | 3 => s.farReq src q (on ix) (.subv v t)
    | 4 => s.farReq src q (on ix) (.pinv v 0)
    | 5 => s.farReq src q (on ix) .unpv
    | 7 => s.bumpCfail ix.toNat
    | _ =>
      -- the task has ended: its draft closes and its subscriptions go (R226, R228)
      let key := objKey (s.handleIx ix)
      { s with objs := { s.objs with
          drafts := s.objs.drafts.filter fun d => !(d.1 == key && d.2.task == t)
          subs := s.objs.subs.filter fun x => !(x.index == key && x.task == t) } }
  | .nearbank _ _ => s.farReq src q (noPlace q.handle s.pkg) (.command 0 q.op)
  | .sequence ix op args _ =>
    match op.toNat with
    | 6 => s.releaseSpans fun p => 2 ^ 70 ≤ p.run && p.run % 1024 == src && p.ser == (args.getD 0 0).toNat
    | 7 => s.farReq src q (on ix) (.seqq (BitVec.ofNat 4 (args.getD 0 0).toNat) (args.getD 1 0) 0)
    | _ => s.farReq src q (on ix) (.command 0 q.op)
  | .decrement t k w sys poison => (s.decrement t k.toNat w sys poison).reply src 6 q [] 0
  | .taskq t item w sys => s.reply src 6 q [] (s.taskqValue t item.toNat w sys)
  | .invalidateTlb va all => (s.dropTlb va.toNat 1 all).reply src 4 q [] 0
  | .invalidateEntry h all => (s.dropEntry h all).reply src 4 q [] 0
  | .part bs => { s with objs := { s.objs with parts := s.objs.parts ++ [(src, q.tag, bs)] } }
  | .guest gone ws => if gone then s.farReq src q (noPlace q.handle s.pkg) (.command 0 q.op) else s.noteGuest q.handle (entryOfWords ws)
  | .lost ix => s.loseObject (s.handleIx ix)
  | .query ix => s.sendData src q.tag (if s.objs.otCap ≤ ix.toNat then List.replicate 128 0 else bytesOfWords (s.entryInMem ix.toNat).toList)
  | .forward ws world =>
    -- it waits for the object manager as a command of the source 511
    let c : OmCmd := { src := 511, words := .ofFn fun k => ws.getD k 0, world, started := false, result := 0, origin := some (BitVec.ofNat 10 src, q.tag) }
    ({ s with host := { s.host with cmds := s.host.cmds ++ [c] } } : State)
  | .walk va =>
    if q.tag = 0 then s
    else s.sendData src q.tag (bytesOfWords (match s.walkTables va.toNat with
      | .ok (_, l, large) => [0, l, BitVec.ofNat 64 (b2n large)]
      | .error level => [BitVec.ofNat 64 level, 0, 0]))
  | .replicate => s.farReq src q (noPlace q.handle s.pkg) (.command 0 q.op)
  | .handover step args data => s.serveHandover src step.toNat q.handle args data

/-- A request flit of type ty, which is that of its operation (Table 2-4). -/
def State.requestFlit (s : State) (p : BitVec 5) (ty : Nat) (h : Word) (crc : Bool) (q : RemoteReq) : State :=
  s.receive p.toNat ty h crc fun s => if flitTypeOf q = ty then s.serveRemote (hdrSrc h) q else s

def execRdreq (p : BitVec 5) (h : Word) (crc : Bool) (q : RemoteReq) (s : State) : Host.Outcome State Fault Refusal :=
  .next (s.requestFlit p 1 h crc q)
def execWrreq (p : BitVec 5) (h : Word) (crc : Bool) (q : RemoteReq) (s : State) : Host.Outcome State Fault Refusal :=
  .next (s.requestFlit p 3 h crc q)
def execAtreq (p : BitVec 5) (h : Word) (crc : Bool) (q : RemoteReq) (s : State) : Host.Outcome State Fault Refusal :=
  .next (s.requestFlit p 5 h crc q)

/-- XFER: a store of a peer transfer, or a block of a collective (Table 2-4). -/
def execXfer (p : BitVec 5) (h : Word) (crc : Bool) (data : Option RemoteReq × List Byte) (s : State) : Host.Outcome State Fault Refusal :=
  match data.1 with
  | some q => .next (s.requestFlit p 7 h crc q)
  | none => .next (s.receive p.toNat 7 h crc fun s => s.blockFlit p h data.2)

/-! ### Performing -/

/-- A request of another package with its place: one that was held, or not mapped, is resolved again. -/
def State.farResolve (s : State) (r : Req) : Option (State × Req) :=
  if r.place.leafPa ≠ 0 then some (s, r)
  else
    let p := s.farPlace r.farSrc r.place.handle r.place.va.toNat (r.place.width / 8)
    if p.leafPa = 0 then none
    else
      let r' := { r with place := { p with idx := r.place.idx } }
      let reqs := s.objs.reqs.map fun q => if q.id = r.id then r' else q
      some (({ s with objs := { s.objs with reqs } } : State).busyUp p.leafPa 1, r')

/-- KVPROMO at the home of its sequence (R440): the mask, then the entries that it promotes; ch gives the frames. -/
def State.farPromo (s : State) (r : Req) (ser : Nat) (ix : BitVec 30) (args : List Word) (ch : Choices) : State :=
  let h := s.handleIx ix
  let e := s.entryInMem ix.toNat
  let mask := (args.headD 0).toNat
  let blocks := s.promoBlocks h e mask
  let cold := blocks.filter fun x => leafTier (s.leafNow x.2.2) ≠ 0
  if ser = 0 then
    let args := args.take 1 ++ cold.map fun x => BitVec.ofNat 64 x.1
    (s.putReq { r with kind := .command 1 (.sequence ix 5 args []) }).promote h 320 cold ch
  else
    let moving := blocks.any fun x => let l := s.leafNow x.2.2; (leafTier l ≠ 0 || leafHold l) && !leafLost l
    if moving then s.promote h 320 cold ch
    else
      let es := (args.drop 1).map fun (w : Word) => s.seqEnt h e w.toNat
      let bad := (es.filter enQuar).length
      s.served r 0 (BitVec.ofNat 64 (bad % 65536 * 2 ^ 32 + (es.length - bad) % 65536 * 65536))

/-- A request of another package performs. -/
def State.farDone (s : State) (r : Req) (ch : Choices) : Host.Outcome State Fault Refusal :=
  if s.blocked r then .next s
  else
    match r.kind with
    | .wload _ _ _ | .wstore _ | .rawLine _ =>
      match s.farResolve r with
      | none => .next s
      | some (s, r) =>
        let p := r.place
        if !hasStorage p.pa then .fault (.noStorage p.pa)
        else if !s.cxlGoes r then .next s
        else
          let writes := s.nearbankHolds p.pa true && !s.recalling r.farSrc p.va.toNat
          let ack := fun (s : State) => (s.sendTo r.farSrc 4 (.response r.farTag 0 [] 0)).dropReq r
          match r.kind with
          | .wstore bs =>
            if writes then .next s else .next (ack (s.perform p.handle r.writer ((p.pa : Int) - p.va.toNat) bs))
          | .rawLine data => if writes then .next s else .next (ack (s.performRaw p.handle r.writer p.va.toNat p.pa data))
          | _ =>
            -- bytes as they are stored: the requester opens them (R104)
            if s.nearbankHolds p.pa false then .next s
            else .next ((s.sendTo r.farSrc 2 (.response r.farTag 0 (mread s.mem p.pa p.bytes) 0)).dropReq r)
    | .command _ (.recall va n) =>
      -- the write-backs of this package have been acknowledged
      let busy := s.objs.reqs.any fun q => q.id ≠ r.id && q.place.handle == r.place.handle && q.place.pkg ≠ s.pkg && q.place.width == 512
        && va.toNat ≤ q.place.va.toNat && q.place.va.toNat < va.toNat + n.toNat && (match q.kind with
          | .wstore _ => true
          | _ => false)
      if busy then .next s else .next ((s.sendTo r.farSrc 4 (.response r.farTag 0 [] 0)).dropReq r)
    | .command _ .replicate =>
      -- copies first (floor 1 notes that they have left); with the last of them the primary of the shard answers (R81)
      let h := r.place.handle
      let e := s.entryHere h
      let copying := s.objs.reqs.any fun q => q.id ≠ r.id && q.run == r.run && q.path == .X && q.place.handle == h
      match s.fetchMap (unitAsker 40 0 r.world .X) e 0 (eShards e * eReps e) with
      | .wait s => .next s
      | _ =>
        if r.floor = 0 then
          let s := (s.putReq { r with floor := 1 }).sendCopies r e
          .next { s with objs := { s.objs with versions := tset s.objs.versions (objKey h) ((0, s.objs.seq) :: tget s.objs.versions [] (objKey h)) } }
        else if copying then .next s
        else .next ((s.sendTo r.farSrc 4 (.response r.farTag 0 [] 0)).dropReq r)
    | .command _ (.nearbank args data) =>
      match s.nbFarJob args data with
      | none => .next s
      | some j =>
        -- copies on the packages of the domain are recalled first (R363); floor notes it
        if r.floor = 0 then .next ((s.putReq { r with floor := 1 }).recallFar j.dst j.dva j.dlen)
        else if s.recallOpen j.dva j.dlen then .next s
        else .next ((s.nearbank r.writer j).served r 0 1)
    | .command _ (.guest _ _) =>
      -- the segments of an object of another package that has been deleted go back once they are free (R96)
      let g := s.objs.guests.filter fun g => objKey g.1 == objKey r.place.handle
      let segs := g.flatMap fun g => s.segments g.2
      let large := g.any fun g => eLarge g.2
      if segs.any (fun x => leafBusy (s.leafNow x.2.1) ≠ 0 || leafHold (s.leafNow x.2.1)) then .next s
      else
        let s := segs.foldl (fun (s : State) x =>
          ((s.freeSegment (s.leafNow x.2.1) large).setLeaf x.2.1 fun l => putBits l 63 63 0).dropTlb x.1 (if large then 2097152 else 65536) false) s
        let s : State := { s with objs := { s.objs with guests := s.objs.guests.filter fun g => objKey g.1 ≠ objKey r.place.handle } }
        .next ((s.sendTo r.farSrc 4 (.response r.farTag 0 [] 0)).dropReq r)
    | .command ser (.sequence ix op args data) =>
      let h := s.handleIx ix
      let e := s.entryInMem ix.toNat
      match op.toNat with
      | 4 =>
        let req := attnReq (bytesOfWords (args.take 2))
        let snap := s.seqSnapshot h e
        let t := s.pinBlocks h req (args.getD 2 0).toNat snap r.run (args.getD 3 0) r.farTag.toNat
        .next ((t.sendData r.farSrc r.farTag (s.linkBytes h 0 (bytesOfWords snap))).dropReq r)
      | 5 => .next (s.farPromo r ser ix args ch)
      | n =>
        match s.seqServe h e r.writer n args data with
        | .done t st => .next (t.served r 0 st)
        | .trap x => .next (s.served r x.toNat 0)
        | .missing _ => .next (s.served r Cause.objMissing.toNat 0)
        | .wait => .next s
    | _ => .next s

/-- MEMORY_REQUEST_COMPLETE: a weak request performs at its segment (R90, R213), or a command of another package. -/
def execMemoryRequestComplete (id : U32) (ch : Choices) (s : State) : Host.Outcome State Fault Refusal :=
  match s.req? id.toNat with
  | none => .next s
  | some r => if r.far then s.farDone r ch else s.weakDone r ch

/-- A strong access with its place: none while it may not perform. -/
def State.strongPlace (s : State) (r : Req) : Option (State × Req) :=
  if r.far then s.farResolve r else some (s, r)

/-- CASC_ARRIVAL: a CASC that has reached its release point comes to its slice (R345). -/
def execCascArrival (id : U32) (s : State) : Host.Outcome State Fault Refusal :=
  match s.req? id.toNat with
  | none => .next s
  | some r =>
    match r.kind with
    | .casc _ _ _ _ _ _ =>
      if r.remote || s.blocked r || !s.released r || (s.slice (sliceOf r.place.pa)).waiting.any (fun w => w.req == r.id) then .next s
      else if r.place.pkg ≠ s.pkg then .next (s.sendWaiting r)
      else
        match s.strongPlace r with
        | none => .next s
        | some (t, r) => if !hasStorage r.place.pa then .fault (.noStorage r.place.pa) else .next (t.cascArrive r)
    | _ => .next s

/-- SLICE_STRONG_ACCESS: a strong access, an atomic, a version request or a query of a sequence performs at its slice, in
the order of its path (R215). -/
def execSliceStrongAccess (id : U32) (s : State) : Host.Outcome State Fault Refusal :=
  match s.req? id.toNat with
  | none => .next s
  | some r =>
    if r.remote || s.blocked r then .next s
    else if r.kind.isSlice && !r.waits && r.place.pkg ≠ s.pkg then .next (s.sendWaiting r)
    else
      match r.kind with
      | .sload _ _ _ | .sstore _ _ | .atomic _ _ _ _ | .fatomic _ _ _ | .cas _ _ _ _ _ =>
        let rel := match r.kind with
          | .sstore _ true => true
          | _ => false
        if rel && !s.released r then .next s
        else if r.place.pkg ≠ s.pkg then .next (s.sendWaiting r)
        else
          match s.strongPlace r with
          | none => .next s
          | some (t, r) =>
            if !hasStorage r.place.pa then .fault (.noStorage r.place.pa)
            else if t.nearbankHolds r.place.pa true then .next s
            else .next (t.strongEffect r)
      | .openv | .subv _ _ | .pinv _ _ | .unpv | .verq _ => .next ((s.versionEffect r).getD s)
      | .seqq item x dst =>
        let h := r.place.handle
        let v := s.seqQuery h (s.entryInMem (hIndex h)) item.toNat x.toNat
        .next ((s.deliver r (Ctx.landS dst v)).served r 0 (s.linkWord h 0 v))
      | _ => .next s

end Sys2Proof.Machine
end

