-- ==== Sys2Proof/Machine/ObjCmds.lean ====
section
/-!
DEFINITION. Object-manager commands (03_host_interface.md, R60 to R62, R67, R485): from command slots and from OMCALL.
-/

namespace Sys2Proof.Machine

open Sys2Proof

/-! ### Commands -/

def OmCmd.word (c : OmCmd) (k : Nat) : Nat := (c.words.toList.getD k 0).toNat
def OmCmd.opc (c : OmCmd) : Nat := bits (c.word 0) 63 56
def OmCmd.cq (c : OmCmd) : Nat := bits (c.word 0) 47 42
def OmCmd.tag (c : OmCmd) : U32 := BitVec.ofNat 32 (c.word 0)
def OmCmd.handle (c : OmCmd) : Word := c.words[1]
def OmCmd.fromTask (c : OmCmd) : Bool := c.src == 256

/-- Operand bits that Table 3-9 uses in words 1 to 7; none for an unknown OPC. -/
def omUsed (opc : Nat) : Option (List Nat) :=
  let all := 2 ^ 64 - 1
  match opc with
  | 0x01 => some [0x07FF0F3F, 0xFFFFFFFF]
  | 0x02 => some [0x3F]
  | 0x10 => some [all, 3]
  | 0x11 => some [all]
  | 0x12 => some [all, all, all, all, 1]
  | 0x13 => some [all, all, all, all]
  | 0x14 => some [all, 0x000003FF00000003]
  | 0x15 => some [all, 0xFFFFFFFF00000007]
  | 0x16 => some [all, all]
  | 0x20 => some [0x00FF07FF]
  | 0x30 => some [all, all, 0x3FF, 0x3FF, all]
  | _ => none

/-- Reserved bits of a command are clear; an OMCALL request uses words 3 and 4 for its result element (R467). -/
def OmCmd.wellFormed (c : OmCmd) : Bool :=
  match omUsed c.opc with
  | none => false
  | some l =>
    let l := if c.fromTask then (l ++ [0]).take 2 ++ [2 ^ 64 - 1, 2 ^ 64 - 1] else l
    bits (c.word 0) 55 48 == 0 && (if c.fromTask then bits (c.word 0) 47 32 == 0 && (c.opc == 0x11 || c.opc == 0x14) else bits (c.word 0) 41 32 == 0)
      && (List.range 7).all fun k => c.word (k + 1) ||| l.getD k 0 == l.getD k 0

/-- The object manager carries out commands: from Ready on, but not in PS3 (R60, R22). -/
def State.omRuns (s : State) : Bool := s.ready && s.power.pstate != .ps3

/-- The task that holds the draft of a command: a number that no task of any package has. -/
def State.omTask (s : State) (src : BitVec 9) : Word := BitVec.ofNat 64 (2 ^ 64 - 2 ^ 20 + s.pkgNo * 512 + src.toNat)
/-- The commands that a drive carries out for a command: 0 Write, 1 Flush, 2 Dataset Management. -/
def omCid (src : BitVec 9) (k : Nat) : Nat := 32768 + src.toNat * 4 + k

def State.mapCmds (s : State) (c : OmCmd) (f : List OmCmd → List OmCmd) : State :=
  if c.fromTask then { s with host := { s.host with omcalls := f s.host.omcalls } } else { s with host := { s.host with cmds := f s.host.cmds } }
def State.putCmd (s : State) (old new : OmCmd) : State := s.mapCmds old (lmap1 (· == old) fun _ => new)
def State.cmdsOf (s : State) (src : BitVec 9) : List OmCmd :=
  if src = 256 then s.host.omcalls else s.host.cmds.filter fun c => c.src == src

/-- The result of an OMCALL request: TAG and status, written with STE.rel, if its element still passes its check. -/
def State.writeResult (s : State) (c : OmCmd) (status : U16) : State :=
  let h := c.words[3]
  let i := c.word 4
  let v := toBytes 8 (c.tag.toNat * 2 ^ 32 + status.toNat)
  match s.known h with
  | none => s
  | some e =>
    if eState e ≠ 1 || !hasRight e c.world.toNat rightW || eKind e = 1 || eFmt e ≠ 0x03 || outside e (tupleOf e i) then s
    else
      let l := locate e (tupleOf e i)
      let j := ((s.versionHeld (omKey 256) h).getD 0).toNat % eBufs e
      let va := bufVa e j (layoutOffset (eLayout e) 64 (eCols e) l.2.1 l.2.2).1
      let pkg := s.packageOf (unitAsker 40 0 0 .C) h e l.1 false
      if pkg = s.pkgNo then
        match s.walkTables va with
        | .ok (_, leaf, large) => (s.touchPages [va]).perform h { run := omRun 256, task := 0, path := .C, ord := 0 } ((leafPaOf leaf large va : Int) - va) (bytesAt va v)
        | .error _ => s
      else
        let lines := s.objs.lines.filter fun l => !(l.1 == omKey 256 && l.2.1 == h && versionLine ≤ l.2.2.1)
        ({ s with objs := { s.objs with lines } } : State).sendReq pkg
          { plainReq .C (.strongStore (BitVec.ofNat 52 va) v) with handle := h, world := c.world }

/-- A command completes: its OMCMD record, the result element of its OMCALL, or an answer to the package that forwarded it. A
GANG command that ends so gives back the credit of its GANG record. -/
def State.omEnd (s : State) (c : OmCmd) (status : U16) (result : Word) : State :=
  let s := s.mapCmds c fun l => l.eraseP (· == c)
  match c.origin with
  | some (pkg, tag) => s.sendTo pkg.toNat 6 (.response tag 0 [] (status.setWidth 64))
  | none =>
  if c.fromTask then s.writeResult c status
  else
    let s := s.cqWrite c.cq { kind := 3, status, tag := c.tag, result }
    if c.opc = 0x30 then s.dropCredits c.cq 1 else s

/-- The next command of a source that the event for opc may carry out: one of that opc in progress, else the first that
has not started, if no command before it on the same handle is in progress (R61). -/
def State.pickCmd (s : State) (src : BitVec 9) (opc : Nat) : Option OmCmd :=
  let l := s.cmdsOf src
  match l.find? fun c => c.started && c.opc == opc && (opc ≠ 0x11 || 0x100 ≤ c.result.toNat) with
  | some c => some c
  | none =>
    match l.find? fun c => !c.started with
    | some c =>
      let same := l.any fun d => d.started && d.handle == c.handle && 0x11 ≤ d.opc && d.opc ≤ 0x16 && 0x11 ≤ c.opc && c.opc ≤ 0x16
      if same then none else some c
    | none => none

/-- The entry of the result object of an OMCALL, and its VERSION, are at hand: of another package they are asked for. -/
def State.askResult (s : State) (c : OmCmd) : State × Bool :=
  let h := c.words[3]
  let y := s.askEntries [h]
  match y.1.known h with
  | some e =>
    if !y.2 || eBufs e = 1 then y
    else
      match y.1.versionRead (unitAsker 40 0 0 .C) (omKey 256) h with
      | .wait t => (t, false)
      | _ => y
  | none => y

/-- Carry out the next command of a source if it is one of this opc. A malformed one, or one of an unknown OPC, ends with
OM_BADOP; one that world 0 alone may send ends with OM_RIGHTS. -/
def State.runCmd (s : State) (src : BitVec 9) (opc : Nat) (f : OmCmd → Host.Outcome State Fault Refusal) : Host.Outcome State Fault Refusal :=
  if !s.omRuns then .next s
  else
    match s.pickCmd src opc with
    | none => .next s
    | some c =>
      let y := if c.fromTask then s.askResult c else (s, true)
      if !y.2 then .next y.1
      else
      let s := y.1
      if !c.started && !c.wellFormed && ((omUsed c.opc).isNone || c.opc = opc || c.fromTask) then .next (s.omEnd c Status.omBadOp 0)
      else if c.opc ≠ opc then .next s
      else if c.world ≠ 0 && (opc = 0x01 || opc = 0x02 || opc = 0x20) then .next (s.omEnd c Status.omRights 0)
      else f c

/-! ### Completion objects and slots -/

def execSlotbind (src : BitVec 9) (s : State) : Host.Outcome State Fault Refusal :=
  s.runCmd src 0x20 fun c =>
    let w := c.word 1
    let n := bits w 9 0
    let world := BitVec.ofNat 8 (bits w 23 16)
    let h := s.host
    let bind := fun (t : Table Slot) => tset t n { tget t .initial n with world }
    if bit w 10 then
      if 256 ≤ n then .next (s.omEnd c Status.omBadOp 0)
      else .next (({ s with host := { h with cmdSlots := bind h.cmdSlots } } : State).omEnd c Status.ok 0)
    else .next (({ s with host := { h with launchSlots := bind h.launchSlots } } : State).omEnd c Status.ok 0)

/-! ### Images (R75, R103, R123, R182, R415) -/

/-- A code image by its lines: the trailer is the last line and no other, and the entry lines belong to their streams. -/
def codeImageOk (e : Entry) (line : Nat → List Byte) (n : Nat) : Bool :=
  let l := fun k => linkOf (line k)
  let t := line (n - 1)
  let w := fun k => ofBytes ((t.drop (4 + 4 * k)).take 4)
  let entry := fun (k stream : Nat) => k < n && (l k).stream == stream
  1 ≤ n && (l (n - 1)).stream == 3 && !(l (n - 1)).e && (l (n - 1)).t && (l (n - 1)).dist == 0
    && (List.range (n - 1)).all (fun k => !(l k).t)
    && bits (w 0) 31 5 == 0 && bits (w 1) 31 24 == 0 && bits (w 1) 23 0 == n && (List.range 13).all (fun k => w (k + 2) == 0)
    && entry (tLentry e) 0 && entry (tCentry e) 1 && entry (tSentry e) 2

/-- KSPEC of a template (R123). -/
def templateOk (e : Entry) : Bool :=
  let w := eSpec e 11
  bits (eSpec e 10) 63 32 == 0 && bits w 63 46 == 0 && !bit w 15 && tRegs e ≤ 1536 && tBars e ≤ 4
    && (List.range 4).all (fun j => !bit (tAuto e) j || j < tBars e)
    && (bits w 23 21 ≠ 7 || eOwner e == 0) && bits w 27 24 ≠ 0 && bits w 37 28 ≠ 0
    && tScratch e % 64 == 0 && tBasin e % 64 == 0 && tBasin e ≤ 2097152 && tScratch e + tBasin e ≤ 4194304

/-- The image of a sequence (R415). -/
def sequenceOk (e : Entry) : Bool :=
  let a := eSpec e 9
  let rope := bits a 63 32
  let kf := bits a 23 16
  let nblk := bits (eSpec e 10) 63 32
  let maxent := bits (eSpec e 10) 31 0
  let pool := eSpec e 11
  eLayout e == 0 && eFmt e == 0x00 && eNdim e == 0 && eBufs e == 1 && !eLarge e && !eMemside e && !eCompute e && !ePinned e
    && eShards e == 1 && eReps e == 1
    && bits a 31 24 == 0 && bits a 15 10 == 0 && bits a 7 0 == 0 && eSpec e 12 == 0 && eSpec e 13 == 0
    && (kf == 0x40 || kf == 0x41) && bits a 9 8 ≠ 3 && (rope == 0 || (0x3F800000 < rope && rope < 0x7F800000))
    && 1 ≤ nblk && nblk ≤ 16384 && 1 ≤ maxent && maxent ≤ 65536 && pool % 65536 == 0 && 4096 + 32 * maxent ≤ pool
    && pool + nblk * 65536 ≤ eExt e 3

/-- The packages of a shard map, in order. -/
def State.mapPackages (s : State) (h : Word) (e : Entry) : List Nat := (List.range (eShards e * eReps e)).map fun k => s.smapAt h e k

/-- The shard map of an image: a live object of KIND 5 of the same owner (R75), within the limits of R80: no package holds
two replicas of one shard. -/
def State.shardsOk (s : State) (e : Entry) : Bool :=
  if eShards e = 1 ∧ eReps e = 1 then eSmap e == 0
  else
    match s.known (eSmap e) with
    | none => false
    | some m => eKind m == 5 && eOwner m == eOwner e && eShards e * eReps e ≤ 576
        && (let l := s.mapPackages (handleOf (eOwner e) 1 s.pkgNo 0) e
            (List.range (eShards e)).all fun k => let g := (l.drop (k * eReps e)).take (eReps e); g.eraseDups.length == g.length)

/-- An image as the object manager completes it (R73), with its world and tier. -/
def completeImage (img : Entry) (world : Byte) (gen tier vbase : Nat) : Entry :=
  eput (eput (eput (eput (eput (img.set 1 0) 0 63 56 world.toNat) 0 55 40 gen) 0 35 32 (4 + tier)) 5 51 0 vbase) 15 63 0 0

/-- R75, R76 (the row pitch of BSTRIPE) and R103 on a completed image; line gives the lines of a template's code image. -/
def State.imageOk (s : State) (e : Entry) (rsv15 : Nat) (line : Nat → List Byte) : Bool :=
  let share := fun k => efield e 8 (27 + 12 * k) (16 + 12 * k)
  let ext := (List.range 4).map (eExt e)
  eKind e ≤ 5 && efield e 0 19 18 ≠ 3 && WellFormed.isFormat (eFmt e) && efield e 0 16 16 == 0 && efield e 0 10 0 == 0
    && (eKind e == 1 || !eWrap e) && efield e 5 63 52 == 0 && efield e 6 49 0 == 0 && efield e 8 15 4 == 0
    && efield e 14 63 0 == 0 && rsv15 == 0
    && ext.all (· ≠ 0) && (List.range (3 - eNdim e)).all (fun k => eExt e k == 1)
    && (ePad e).toNat < 2 ^ eWidth e
    && (eLayout e ≠ 3 || eWidth e == 8 || eWidth e == 4)
    && (eLayout e ≠ 2 || pitchOf 2 (eWidth e) (eCols e) ≤ 131072)
    && (!(eLayout e == 2 || eCompute e) || ePinned e)
    && (!ePinned e || (eLarge e && eTier e == 0))
    && (!eCompute e || eNocomp e)
    && (!eMemside e || eBufs e == 1)
    && s.shardsOk e && eStorage e ≤ 2 ^ 44
    && (eOwner e == 0 || (!eCompute e && eNocomp e && (List.range 4).all fun k => share k / 16 ≠ 0 || share k % 16 == 0))
    && (match eKind e with
        | 1 => sequenceOk e
        | 2 => eLayout e == 0 && eFmt e == 0x00 && templateOk e && codeImageOk e line (tLines e)
        | 3 | 4 => (List.range 5).all fun k => eSpec e (9 + k) == 0
        | _ => true)

/-! ### Creation (R73, R75, R80, R83, R97) -/

/-- Map pages to frames of a tier, zeroed (R75). -/
def State.mapFrames (s : State) (tier : Nat) (large striped : Bool) (tabs : List (BitVec 40)) : List (Nat × Nat) → State × List (BitVec 40)
  | [] => (s, tabs)
  | (va, pfn) :: rest =>
    let s := s.takeFrames tier pfn (if large then 32 else 1)
    let s := if tier = 0 then s.setMode striped pfn else s
    let r := s.mapPage va large (BitVec.ofNat 64 (2 ^ 63 + tier * 2 ^ 61 + pfn)) tabs
    r.1.mapFrames tier large striped r.2 rest
/-- Map pages to blocks of a flash port (R86, R89). -/
def State.mapFlash (s : State) (port : Nat) (large : Bool) (tabs : List (BitVec 40)) : List (Nat × Nat) → State × List (BitVec 40)
  | [] => (s, tabs)
  | (va, pfn) :: rest =>
    let r := s.mapPage va large (BitVec.ofNat 64 (2 ^ 63 + 3 * 2 ^ 61 + port * 2 ^ 32 + pfn)) tabs
    r.1.mapFlash port large r.2 rest

/-- A choice of index and base that the object manager can make: a free entry, and addresses that no object uses. -/
def State.choiceOk (s : State) (e : Entry) (al : Alloc) : Bool :=
  let i := al.index.toNat
  let lo := al.vbase.toNat
  let hi := lo + eBufs e * eSpan e
  i < s.objs.otCap && eState (s.entryInMem i) == 0 && !s.objs.retired.contains i && lo % ePage e == 0 && hi ≤ 2 ^ 52
    && s.heldObjects.all fun x => eVbase x.2 + eBufs x.2 * eSpan x.2 ≤ lo || hi ≤ eVbase x.2

/-- No entry of the table is free. -/
def State.tableFull (s : State) : Bool :=
  (List.range s.objs.otCap).all fun i => eState (s.entryInMem i) ≠ 0 || s.objs.retired.contains i

/-- GEN of the next object of an index (R70). -/
def State.nextGen (s : State) (index : Nat) : Nat := max 1 (eGen (s.entryInMem index))

/-- The entry of a new object is written; what the index's last object left goes. -/
def State.writeEntry (s : State) (h : Word) (e : Entry) : State :=
  let i := hIndex h
  let s := (s.putEntry i e)
  let s := ({ s with mem := mputWord s.mem (s.objAddr i + 8) 0 } : State).entryChanged h
  let key := objKey h
  { s with objs := { s.objs with
      born := tset s.objs.born key s.objs.seq
      versions := tset s.objs.versions key []
      drafts := tdel s.objs.drafts key
      pins := s.objs.pins.filter fun p => p.index ≠ key
      subs := s.objs.subs.filter fun x => x.index ≠ key
      spans := tdel s.objs.spans key
      stored := s.objs.stored.filter fun x => x.2 ≠ key
      attnFree := s.objs.attnFree.filter fun x => x.1 ≠ key
      away := s.objs.away.filter fun x => x.1 ≠ key } }

/-- The packages that hold a shard of the object learn of its entry; the object manager of each maps its segments, zeroed
(HANDOVER_REBIND; log entry 48). -/
def State.offerShards (s : State) (h : Word) (e : Entry) : State :=
  ((s.mapPackages h e).filter fun p => p ≠ s.pkgNo).eraseDups.foldl (fun s p =>
    s.sendReq p { plainReq .C (.guest false (e.toList.eraseIdx 1)) with handle := h }) s

/-- This package holds some shard of the object. -/
def State.holdsShard (s : State) (h : Word) (e : Entry) : Bool :=
  (eShards e == 1 && eReps e == 1) || (s.mapPackages h e).contains s.pkgNo

/-- A new object: its entry, its segments zeroed, and, for a sequence, its FREE count (R416). -/
def State.createObject (s : State) (h : Word) (e : Entry) (al : Alloc) : State :=
  let s := s.writeEntry h e
  let large := eLarge e
  let striped := eCompute e || eLayout e == 2
  let s := if s.holdsShard h e then (s.mapFrames (eTier e) large striped al.tabs ((pagesOf e).zip (al.pfns.map fun p => p.toNat))).1 else s
  let s := ((pagesOf e).foldl (fun (s : State) va => s.leafChanged va 1) (s.touchStack (s.objAddr (hIndex h)))).touchPages (pagesOf e)
  let s := if eShards e = 1 ∧ eReps e = 1 then s else s.offerShards h e
  if eKind e = 1 then
    s.putSeqState h e { run := 0, task := 0, path := .A, ord := 0 }
      { next := 0, nent := 0, tail := false, ctag := 0, qcount := 0, free := bits (eSpec e 10) 63 32 }
  else s

/-- A page of host memory as words of an image. -/
def State.hostImage (s : State) (a : Nat) : Entry := .ofFn fun k => mword s.hostMem (a + 8 * k.val)

/-! ### Completion objects (R62, R63) -/

/-- The entry of a completion object: a pinned object of KIND 6 in HBM, of world 0, that holds the records as rows of 64
bytes of .z8 (log entry 57). -/
def ringEntry (records vbase : Nat) : Entry :=
  let e := eput (eput (eput (eput (Vector.replicate 16 0) 0 39 36 6) 0 55 40 1) 0 35 34 1) 0 21 20 1
  let e := eput (eput (eput (eput e 0 17 17 1) 0 13 13 1) 0 12 12 1) 8 3 0 0x8
  eput (eput (eput e 3 63 0 (records * 2 ^ 32 + 64)) 4 63 0 (2 ^ 32 + 1)) 5 51 0 vbase

/-- A completion object with its ring in HBM, zeroed. -/
def State.createRing (s : State) (n : Nat) (q : CompletionObj) (al : Alloc) : State :=
  let i := al.index.toNat
  let gen := s.nextGen i
  let h := handleOf 0 gen s.pkgNo i
  let e := eput (ringEntry (64 * 2 ^ q.log2.toNat) al.vbase.toNat) 0 55 40 gen
  (s.createObject h e { al with pfns := al.pfns.take 1 }).setCq n { q with handle := h, base := frameBase 0 0 ((al.pfns.headD 0).toNat) }

/-- The choices for a ring are ones that the object manager can make. -/
def State.ringOk (s : State) (al : Alloc) : Bool :=
  let e := ringEntry 64 al.vbase.toNat
  let p := (al.pfns.take 1).map fun p => p.toNat
  p.length == 1 && s.choiceOk e al && s.tabsOk (pagesOf e) al.tabs && s.framesOk 0 true p && p.all (s.modeOk false)

/-- CQCREATE: the ring takes a large page of HBM (R62). -/
def execCqcreate (src : BitVec 9 × Alloc) (s : State) : Host.Outcome State Fault Refusal :=
  let al := src.2
  let src := src.1
  s.runCmd src 0x01 fun c =>
    let w := c.word 1
    let n := bits w 5 0
    let m := bits (c.word 2) 15 0
    if n = 0 || 8 < bits w 11 8 || bits w 26 16 < 64 || m = 0 || 4096 < m || (s.cq n).isSome then .next (s.omEnd c Status.omBadOp 0)
    else if s.tableFull || (al.pfns.isEmpty && s.framesLeft 0 true false < 1) then .next (s.omEnd c Status.omNoSpace 0)
    else if !s.ringOk al then .next s
    else
      let q : CompletionObj := { log2 := BitVec.ofNat 4 (bits w 11 8), vector := BitVec.ofNat 11 (bits w 26 16), modcnt := BitVec.ofNat 16 m,
                                 modus := BitVec.ofNat 16 (bits (c.word 2) 31 16), head := 0, tail := 0, count := 0, held := 0, events := 0,
                                 phase := true, kinds := [], irqCount := 0, irqFirst := none, cqerr := false, handle := 0, base := 0 }
      .next ((s.createRing n q al).omEnd c Status.ok 0)

/-- The object of a ring ends: its frame goes back, and its index is free with the next generation. -/
def State.endRing (s : State) (q : CompletionObj) : State :=
  let i := hIndex q.handle
  let e := s.entryInMem i
  let s := (s.segments e).foldl (fun (s : State) x =>
    ((s.freeSegment (s.leafNow x.2.1) (eLarge e)).setLeaf x.2.1 fun l => putBits l 63 63 0).leafChanged x.1 1) s
  let last := eGen e == 0xFFFF
  let s := (s.putEntry i (eput (eput e 0 35 34 0) 0 55 40 (if last then 0xFFFF else eGen e + 1))).entryChanged q.handle
  if last then { s with objs := { s.objs with retired := i :: s.objs.retired } } else s

def execCqdestroy (src : BitVec 9) (s : State) : Host.Outcome State Fault Refusal :=
  s.runCmd src 0x02 fun c =>
    let n := bits (c.word 1) 5 0
    if n = 0 then .next (s.omEnd c Status.omBadOp 0)
    else
      match s.cq n with
      | none => .next (s.omEnd c Status.omNoObj 0)
      | some q =>
        if q.held + q.count ≠ 0 then .next (s.omEnd c Status.omBusy 0)
        else .next (({ s.endRing q with host := { (s.endRing q).host with cqs := tdel s.host.cqs n } } : State).omEnd c Status.ok 0)

def execObjcreate (src : BitVec 9) (al : Alloc) (dma : Bool) (s : State) : Host.Outcome State Fault Refusal :=
  s.runCmd src 0x10 fun c =>
    let a := c.word 1
    let tier := bits (c.word 2) 1 0
    if !dma then .next (s.omEnd c Status.omDma 0)
    else
      let img := s.hostImage a
      let gen := s.nextGen al.index.toNat
      let e := completeImage img c.world gen tier al.vbase.toNat
      let h := handleOf c.world.toNat gen s.pkgNo al.index.toNat
      let pages := if s.holdsShard h e then (pagesOf e).length else 0
      let pfns := (al.pfns.map fun p => p.toNat).take pages
      let striped := eCompute e || eLayout e == 2
      match s.fetchMap (unitAsker 40 0 c.world .C) e 0 (eShards e * eReps e) with
      | .wait s => .next s
      | _ =>
      -- the code image lies behind the entry image (log entry 51)
      if tier = 3 || !s.imageOk e (efield img 15 63 32) (fun k => mread s.hostMem (a + 128 + 64 * k) 64) then .next (s.omEnd c Status.omBadOp 0)
      else if s.tableFull || (pfns.length < pages && s.framesLeft tier (eLarge e) striped < pages) then .next (s.omEnd c Status.omNoSpace 0)
      else if pfns.length < pages || !s.choiceOk e al || !s.tabsOk (if pages = 0 then [] else pagesOf e) al.tabs
          || !s.framesOk tier (eLarge e) pfns || (tier = 0 && !pfns.all (s.modeOk striped)) then .next s
      else .next ((s.createObject h e { al with pfns := al.pfns.take pages }).omEnd c Status.ok h)

/-- FLASHREG: a read-only object over the blocks of a port (R89). -/
def execFlashreg (src : BitVec 9) (al : Alloc) (dma : Bool) (s : State) : Host.Outcome State Fault Refusal :=
  s.runCmd src 0x15 fun c =>
    let port := bits (c.word 2) 2 0
    let lba := bits (c.word 2) 63 32
    if !dma then .next (s.omEnd c Status.omDma 0)
    else
      let img := s.hostImage (c.word 1)
      let gen := s.nextGen al.index.toNat
      let e := completeImage img c.world gen 3 al.vbase.toNat
      let h := handleOf c.world.toNat gen s.pkgNo al.index.toNat
      let a := c.word 1
      -- the first block of a segment: a multiple of 16 blocks, and of 512 for a large page (R86; log entry 85)
      if lba % (ePage e / 4096) ≠ 0 || !s.imageOk e (efield img 15 63 32) (fun k => mread s.hostMem (a + 128 + 64 * k) 64) then .next (s.omEnd c Status.omBadOp 0)
      else if s.tableFull || (s.flashPort port).st ≠ 2 then .next (s.omEnd c Status.omNoSpace 0)
      else if !s.choiceOk e al || !s.tabsOk (pagesOf e) al.tabs then .next s
      else
        let w8 := (List.range 4).foldl (fun w k => putBits w (18 + 12 * k) (17 + 12 * k) 0) (putBits (efield e 8 63 0) 2 1 0)
        let e := eput e 8 63 0 w8
        let n := ePage e / 65536
        let s := s.writeEntry h e
        let s := (s.mapFlash port (eLarge e) al.tabs ((pagesOf e).mapIdx fun k va => (va, lba / 16 + k * n))).1
        let s := ((pagesOf e).foldl (fun (s : State) va => s.leafChanged va 1) (s.touchStack (s.objAddr (hIndex h)))).touchPages (pagesOf e)
        .next (s.omEnd c Status.ok h)

/-! ### Commands on objects (R60, R61) -/

/-- How a command may act on an object (R60). -/
inductive OmNeed where
  | manage | read | write | publish
deriving DecidableEq, Repr

/-- The rights of world w on an entry for a command (R60). A LOST object can only be deleted (R95). -/
def omCheck (w : Nat) (e : Entry) (n : OmNeed) (del : Bool) : Except U16 Entry :=
  let need := match n with
    | .manage => 16
    | .read => rightR
    | .write => rightW
    | .publish => rightW ||| rightA
  if eState e = 2 && !del then .error Status.objLost
  else if eOwner e = w || (n ≠ .manage && hasRight e w need) then .ok e
  else .error Status.omRights

/-- The object of a command: its entry, or the status that refuses it. The source of a handover that its home forwards finds
the entry among its guests (R118). -/
def State.omObject (s : State) (c : OmCmd) (n : OmNeed) (del : Bool) : Except U16 Entry :=
  let e := if hHome c.handle = s.pkgNo then s.known c.handle
    else (s.objs.guests.find? fun g => g.1 == c.handle && c.origin.isSome).map fun g => g.2
  match e with
  | none => .error Status.omNoObj
  | some e => omCheck c.world.toNat e n del

/-- The object manager reads the entry of an object of this package (R22). -/
def State.reachEntry (s : State) (h : Word) : State := if hHome h = s.pkgNo ∧ hIndex h < s.objs.otCap then s.touchStack (s.objAddr (hIndex h)) else s

/-- Give f the object of a command, as the table here or, for one of another package, a handle unit resolves it (R71); give
bad the status that refuses it. -/
def State.onObject (s : State) (c : OmCmd) (n : OmNeed) (bad : State → U16 → State)
    (f : State → Entry → Host.Outcome State Fault Refusal) : Host.Outcome State Fault Refusal :=
  let give := fun (s : State) (x : Except U16 Entry) =>
    match x with
    | .error st => .next (bad s st)
    | .ok e => f s e
  if hHome c.handle = s.pkgNo then give (s.reachEntry c.handle) (s.omObject c n false)
  else
    match s.getEntry (unitAsker 40 0 c.world .C) c.handle with
    | .ok s e => give s (omCheck c.world.toNat e n false)
    | .wait s => .next s
    | .trap x => give s (.error (if x.cause = Cause.objLost then Status.objLost else Status.omNoObj))
    | .fault r => .fault r

/-- A command that its home must carry out: it goes there, and its answer ends it. One whose link times out ends with
LINK_TIMEOUT (DESIGN CHOICE, log entry 83). -/
def State.forwardCmd (s : State) (c : OmCmd) (dst : Nat) : Host.Outcome State Fault Refusal :=
  if 0x100 ≤ c.result.toNat then .next (s.omEnd c (c.result - 0x100) 0)
  else if c.started then .next s
  else if c.handle = 0 || 576 ≤ dst then .next (s.omEnd c Status.omNoObj 0)
  else
    .next ((s.putCmd c { c with started := true }).issueReq
      { id := 0, unit := 40, who := .sys 0, bank := 0, run := omRun c.src, task := 0, world := c.world, path := .C, ord := 0, issued := s.now,
        place := noPlace c.handle (BitVec.ofNat 10 dst), floor := 0, fences := [],
        kind := .command (omKey c.src) (.forward (c.words.toList.take 3) c.world), remote := true })

/-- The state of a page for the object manager: its leaf, or why it has to wait or fails. -/
inductive OmPage where
  | ok (leaf : Word) (pa : Nat)
  | wait
  | lost
deriving DecidableEq, Repr

def State.omPage (s : State) (va : Nat) : OmPage :=
  match s.walkTables va with
  | .error _ => .lost
  | .ok (_, l, large) => if leafLost l then .lost else if leafHold l || leafUnav l then .wait else .ok l (leafPaOf l large va)

/-- Pieces of a range [o, o + n) of the storage: package, virtual address, length, and place in the data; no piece leaves a
64-byte line. -/
def State.omPieces (s : State) (h : Word) (e : Entry) (j off len : Nat) (read : Bool) : List (Nat × Nat × Nat × Nat) :=
  (List.range (ceilDiv (off + len) 64 - off / 64)).map fun k =>
    let a := max off ((off / 64 + k) * 64)
    let z := min (off + len) ((off / 64 + k + 1) * 64)
    (s.packageOf (unitAsker 40 0 0 .C) h e (a / eSpan e) read, bufVa e j (a % eSpan e), z - a, a - off)

/-- Length and offset of a command (R485, R107). -/
def rangeOk (e : Entry) (off len : Nat) : Bool :=
  len ≠ 0 && off + len ≤ eShards e * eSpan e && (eOwner e == 0 || (off % 64 == 0 && len % 64 == 0))

/-- Write bytes of storage as they are stored: ciphertext for a protected object (R107). -/
def State.storeRaw (s : State) (h : Word) (w : Writer) (va pa : Nat) (bs : List Byte) : State :=
  let s := s.touchStack pa
  if hWorld h = 0 then s.perform h w ((pa : Int) - va) (bytesAt va bs) else s.performRaw h w va pa bs

/-- The leaf, in flash, of the page at va: its own, or the one to which a promoted segment returns (R89). -/
def State.flashLeaf (s : State) (va : Nat) : Option (Word × Bool) :=
  match s.walkTables va with
  | .ok (a, l, large) => if leafTier l = 3 then some (l, large) else (tfind s.objs.flashHome a).map fun l => (l, large)
  | .error _ => none

/-- OBJWRITE writes a piece of storage here, and, of a flash segment that is promoted, its blocks as well. -/
def State.storePiece (s : State) (h : Word) (w : Writer) (va : Nat) (bs : List Byte) : State :=
  match s.omPage va with
  | .ok l pa =>
    let s := s.storeRaw h w va pa bs
    match s.flashLeaf va with
    | some (f, large) => if leafTier l = 3 then s else { s with mem := mwrite s.mem (leafPaOf f large va) bs }
    | none => s
  | _ => s

/-- The drives that hold pages. -/
def State.flashPorts (s : State) (vas : List Nat) : List Nat := ((vas.filterMap s.flashLeaf).map fun x => leafPort x.1).eraseDups

/-- A drive still carries out a command for the command of a source. -/
def State.driveBusy (s : State) (src : BitVec 9) : Bool :=
  (List.range 8).any fun p => (List.range 3).any fun k => (s.flashPort p).nvmeOpen (omCid src k)

/-- Lines of a template leave every code cache and L2 (R183). -/
def State.dropCode (s : State) (h : Word) : State :=
  { s.l2DropAll (fun l => l.handle == h) with cores := s.cores.map fun c => (c.1, { c.2 with codeCache := c.2.codeCache.filter fun x => x.1 / 2 ^ 24 ≠ h.toNat }) }

/-- The draft that a command holds closes unpublished (R485), at its home too. -/
def State.closeDraft (s : State) (c : OmCmd) : State :=
  let mine := fun (d : Nat × Draft) => d.1 == objKey c.handle && d.2.task == s.omTask c.src
  let t : State := { s with objs := { s.objs with drafts := s.objs.drafts.filter fun d => !mine d } }
  if hHome c.handle ≠ s.pkgNo && s.objs.drafts.any mine then
    t.sendReq (hHome c.handle) { plainReq .C (.version (BitVec.ofNat 30 (hIndex c.handle)) 6 0 (s.omTask c.src)) with handle := c.handle }
  else t

/-- A request of a command on the entry of its object. -/
def State.omReq (s : State) (c : OmCmd) (ord : Nat) (kind : ReqKind) : Req where
  id := 0
  unit := 40
  who := .sys 0
  bank := 0
  run := omRun c.src
  task := s.omTask c.src
  world := c.world
  path := .C
  ord := ord
  issued := s.now
  place := noPlace c.handle (BitVec.ofNat 10 (hHome c.handle))
  floor := 0
  fences := []
  kind := kind
  remote := hHome c.handle ≠ s.pkgNo

/-- The end of an OBJWRITE: once its writes have performed, with PUB it publishes, and then answers with the version; without,
its draft closes. -/
def State.writeDone (s : State) (c : OmCmd) : Host.Outcome State Fault Refusal :=
  let pub := bit (c.word 5) 0
  if 0x100 ≤ c.result.toNat then .next ((s.closeDraft c).omEnd c (c.result - 0x100) 0)
  else if (s.objs.reqs.any fun q => q.run == omRun c.src) || s.driveBusy c.src then .next s
  else if pub && c.result = 0 then
    -- the publication stands as a request of its own, with the copies of R81; result notes that it has been made
    .next ((s.putCmd c { c with result := 1 }).issueReq (s.omReq c 1 .pub))
  else
    match s.versionRead (unitAsker 40 0 c.world .C) (omKey c.src) c.handle with
    | .ok s v => .next (((if pub then s else s.closeDraft c).dropLines (omKey c.src)).omEnd c Status.ok (v.setWidth 64))
    | .wait s => .next s
    | _ => .next s

/-- The draft of an OBJWRITE on an object with k buffers (R485): give f the buffer, once the draft is the command's. At another
package it is asked for; result 2 notes that the command waits so. -/
def State.writeBuffer (s : State) (c : OmCmd) (e : Entry) (f : State → Nat → Host.Outcome State Fault Refusal) : Host.Outcome State Fault Refusal :=
  let h := c.handle
  if eBufs e = 1 then f s 0
  else if hHome h = s.pkgNo then
    let v := s.verOf h
    if s.canOpen v (s.omTask c.src) then f (s.openDraft v (s.omTask c.src)) ((v.now + 1).toNat % eBufs e) else .next s
  else if s.objs.reqs.any fun q => q.run == omRun c.src then .next s
  else if (s.draftOf h).any fun d => d.task == s.omTask c.src then
    match s.versionRead (unitAsker 40 0 c.world .C) (omKey c.src) h with
    | .ok s v => f (s.dropLines (omKey c.src)) ((v + 1).toNat % eBufs e)
    | .wait s => .next s
    | _ => .next s
  else .next ((s.putCmd c { c with started := true, result := 2 }).issueReq (s.omReq c 0 .openv))

/-- The pieces of an OBJWRITE are written: here, with the commands that the drives of flash segments take (R35), or at the
packages of the other shards. -/
def State.writePieces (s : State) (c : OmCmd) (data : List Byte) (pieces : List (Nat × Nat × Nat × Nat)) : State :=
  let w : Writer := { run := omRun c.src, task := s.omTask c.src, path := .C, ord := 0 }
  let here := (pieces.filter fun p => p.1 = s.pkgNo).map fun p => p.2.1
  let s := s.touchPages here
  let s := (s.flashPorts here).foldl (fun (s : State) p => (s.nvmeIssue p (omCid c.src 0) .write).nvmeIssue p (omCid c.src 1) .flush) s
  pieces.foldl (fun (s : State) p =>
    let bs := (data.drop p.2.2.2).take p.2.2.1
    if p.1 = s.pkgNo then s.storePiece c.handle w p.2.1 bs
    else
      s.issueReq { s.omReq c 0 (if hWorld c.handle = 0 then .wstore (bytesAt p.2.1 bs) else .rawLine bs) with
        place := { noPlace c.handle (BitVec.ofNat 10 p.1) with va := BitVec.ofNat 52 p.2.1, width := 512 }, remote := true }) s

/-- OBJWRITE (R485, R235): the draft is taken, the bytes are written here or at other packages, and at the end the object is
published if PUB is set. -/
def execObjwrite (src : BitVec 9) (dma : Bool) (s : State) : Host.Outcome State Fault Refusal :=
  s.runCmd src 0x12 fun c =>
    let bad := fun (s : State) (st : U16) => (s.closeDraft c).omEnd c st 0
    s.onObject c (if bit (c.word 5) 0 then .publish else .write) bad fun s e =>
      let off := c.word 2
      let len := c.word 4
      if c.started && c.result ≠ 2 then s.writeDone c
      else if !rangeOk e off len then .next (s.omEnd c Status.omBadOp 0)
      else if !dma then .next (bad s Status.omDma)
      else
        s.writeBuffer c e fun s j =>
          let pieces := s.omPieces c.handle e j off len false
          let here := pieces.filter fun p => p.1 = s.pkgNo
          if here.any fun p => s.omPage p.2.1 == .wait then .next s
          else if here.any fun p => s.omPage p.2.1 == .lost then .next (bad s Status.objLost)
          else
            let s := s.writePieces c (mread s.hostMem (c.word 3) len) pieces
            let s := if eKind e = 2 then s.dropCode c.handle else s
            let d := { c with started := true, result := 0 }
            (s.putCmd c d).writeDone d

/-- Bytes of storage as they are stored, in pieces; lines of other packages come over the links. -/
def State.readPieces (s : State) (key : Nat) : List (Nat × Nat × Nat × Nat) → Got (Option (List Byte))
  | [] => .ok s (some [])
  | p :: rest =>
    if p.1 = s.pkgNo then
      match s.omPage p.2.1 with
      | .wait => .wait s
      | .lost => .ok s none
      | .ok _ pa =>
        let bs := mread s.mem pa p.2.2.1
        ((s.touchStack pa).readPieces key rest).bind fun s r => .ok s (r.map fun x => bs ++ x)
    else
      (s.remoteLine (unitAsker 40 0 0 .C) key { noPlace 0 (BitVec.ofNat 10 p.1) with va := BitVec.ofNat 52 p.2.1 }).bind fun s b =>
        (s.readPieces key rest).bind fun s r => .ok s (r.map fun x => (b.drop (p.2.1 % 64)).take p.2.2.1 ++ x)

/-- OBJREAD: VERSION is read once, at the start (R485); word 7 then keeps it. -/
def execObjread (src : BitVec 9) (dma : Bool) (s : State) : Host.Outcome State Fault Refusal :=
  s.runCmd src 0x13 fun c0 =>
    s.onObject c0 .read (fun s st => s.omEnd c0 st 0) fun s e =>
      let h := c0.handle
      let key := omKey src
      let off := c0.word 2
      let len := c0.word 4
      if !rangeOk e off len then .next (s.omEnd c0 Status.omBadOp 0)
      else
        let ver : Got U32 := if c0.started then .ok s (BitVec.ofNat 32 (c0.word 7)) else s.versionRead (unitAsker 40 0 c0.world .C) key h
        let got := ver.bind fun s v =>
          let c := if c0.started then c0 else { c0 with started := true, result := 0, words := c0.words.set 7 (v.setWidth 64) }
          let pieces := s.omPieces h e (v.toNat % eBufs e) off len true
          let s := (if c0.started then s else s.putCmd c0 c).touchPages ((pieces.filter fun p => p.1 = s.pkgNo).map fun p => p.2.1)
          (s.readPieces key pieces).bind fun s bs => .ok s (c, v, bs)
        match got with
        | .ok s (c, v, some bs) =>
          let s := s.dropLines key
          if dma then .next (({ s with hostMem := mwrite s.hostMem (c.word 3) bs } : State).omEnd c Status.ok (v.setWidth 64))
          else .next (s.omEnd c Status.omDma 0)
        | .ok s (c, _, none) => .next (s.omEnd c Status.objLost 0)
        | .wait s => .next s
        | .trap _ => .next s
        | .fault r => .fault r

/-- OBJQUERY: words 0 to 15 of the entry as its home holds them, word 1 included. -/
def execObjquery (src : BitVec 9) (dma : Bool) (s : State) : Host.Outcome State Fault Refusal :=
  s.runCmd src 0x16 fun c =>
    s.onObject c .read (fun s st => s.omEnd c st 0) fun s _ =>
      let i := hIndex c.handle
      let give := fun (s : State) (bs : List Byte) =>
        ({ s with hostMem := mwrite s.hostMem (c.word 2) bs } : State).omEnd c Status.ok ((wordAt bs 1) >>> 32)
      if !dma then .next (s.omEnd c Status.omDma 0)
      else if hHome c.handle = s.pkgNo then .next (give s (bytesOfWords (s.entryInMem i).toList))
      else
        let key := omKey src
        match s.objs.lines.find? fun l => l.1 == key && l.2.1 == c.handle && l.2.2.1 == 0 with
        | some l => .next (give (s.dropLines key) l.2.2.2)
        | none =>
          if s.objs.reqs.any fun q => q.run == omRun src then .next s
          else .next (s.issueReq (s.omReq c 0 (.command key (.query (BitVec.ofNat 30 i)))))

/-! ### Deletion (R96) -/

/-- The other packages that have segments of an object: those of its shard map, or the one to which it has moved. -/
def State.otherHolders (s : State) (h : Word) (e : Entry) : List Nat :=
  let l := if eShards e = 1 ∧ eReps e = 1 then (tfind s.objs.away (objKey h)).toList else s.mapPackages h e
  (l.filter fun p => p ≠ s.pkgNo).eraseDups

/-- OBJDELETE: the entry is DELETING with the next GEN, and the domain forgets it; drives deallocate the blocks of a flash
object (R35), and the other packages with segments are told. -/
def execObjdelete (src : BitVec 9) (s : State) : Host.Outcome State Fault Refusal :=
  s.runCmd src 0x11 fun c =>
    let h := c.handle
    if hHome h ≠ s.pkgNo then s.forwardCmd c (hHome h)
    else
      let s := s.reachEntry h
      match s.omObject c .manage true with
      | .error st => .next (s.omEnd c st 0)
      | .ok e =>
        let i := hIndex h
        let last := eGen e == 0xFFFF
        let s := s.putEntry i (eput (eput e 0 35 34 3) 0 55 40 (if last then 0xFFFF else eGen e + 1))
        let s : State := if last then { s with objs := { s.objs with retired := i :: s.objs.retired } } else s
        let s := s.entryChanged h
        let s := (s.flashPorts (pagesOf e)).foldl (fun (s : State) p => s.nvmeIssue p (omCid src 2) .deallocate) s
        let s := (s.otherHolders h e).foldl (fun (s : State) p =>
          s.issueReq { s.omReq c 0 (.command 0 (.guest true [])) with run := 0, place := noPlace h (BitVec.ofNat 10 p), remote := true }) s
        .next (s.putCmd c { c with started := true })

/-- OBJDELETE_COMPLETE: no segment is busy, here or elsewhere, and no drive; the frames go back, and the entry is FREE. -/
def execObjdeleteComplete (index : BitVec 30) (s : State) : Host.Outcome State Fault Refusal :=
  let i := index.toNat
  let e := s.entryInMem i
  let mine := fun (c : OmCmd) => c.started && c.opc == 0x11 && hIndex c.handle == i && hHome c.handle == s.pkgNo
  let cs := (s.host.cmds ++ s.host.omcalls).filter mine
  let segs := s.segments e
  let told := s.objs.reqs.any fun q => q.kind == .command 0 (.guest true []) && hIndex q.place.handle == i && hHome q.place.handle == s.pkgNo
  if eState e ≠ 3 || segs.any (fun x => leafBusy (s.leafNow x.2.1) ≠ 0 || leafHold (s.leafNow x.2.1)) || told
      || cs.any (fun c => s.driveBusy c.src) then .next s
  else
    let s := (s.touchStack (s.objAddr i)).touchPages (segs.map fun x => x.1)
    let s := segs.foldl (fun (s : State) x =>
      ((s.freeSegment (s.leafNow x.2.1) (eLarge e)).setLeaf x.2.1 fun l => putBits l 63 63 0).leafChanged x.1 (ePage e)) s
    let gone := segs.map fun x => x.2.1
    let s : State := { s with objs := { s.objs with flashHome := s.objs.flashHome.filter fun x => !gone.contains x.1 } }
    let s := s.putEntry i (eput (s.entryInMem i) 0 35 34 0)
    .next (cs.foldl (fun s c => s.omEnd c Status.ok 0) s)

/-! ### OBJMOVE (R92, R118) -/

/-- OBJMOVE: every segment that lies elsewhere moves; one that is held waits until HOLD clears. An object whose segments have
moved to another package is moved by that package, at the word of its home (R118). -/
def execObjmove (src : BitVec 9) (al : Alloc) (s : State) : Host.Outcome State Fault Refusal :=
  s.runCmd src 0x14 fun c =>
    let h := c.handle
    let s := s.reachEntry h
    if hHome h ≠ s.pkgNo && c.origin.isNone then s.forwardCmd c (hHome h)
    else
      match s.omObject c .manage false with
      | .error st => .next (s.omEnd c (if c.started && c.result ≠ 0 && c.result.toNat < 0x100 then c.result else st) 0)
      | .ok e =>
        let tier := bits (c.word 2) 1 0
        let pkg := bits (c.word 2) 41 32
        if tier = 3 || ePinned e || 576 ≤ pkg then .next (s.omEnd c Status.omBadOp 0)
        else
          match (if hHome h = s.pkgNo then tfind s.objs.away (objKey h) else none) with
          | some d => s.forwardCmd c d
          | none =>
            let striped := eCompute e || eLayout e == 2
            let segs := (s.segments e).filter fun x => pkg ≠ s.pkgNo || leafTier (s.leafNow x.2.1) ≠ tier
            let moving := s.objs.migrations.any fun m => m.handle == h && m.why == .command src
            if c.result ≠ 0 then (if moving then .next s else .next (s.omEnd c c.result 0))
            else if segs.isEmpty then .next (if moving then s else s.omEnd c Status.ok 0)
            else
              let todo := segs.filter fun x => !leafHold (s.leafNow x.2.1)
              let pfns := (al.pfns.map fun p => p.toNat).take todo.length
              let here := pkg = s.pkgNo
              if todo.isEmpty then .next s
              else if here && pfns.length < todo.length then
                .next (if !c.started && s.framesLeft tier (eLarge e) striped < todo.length then s.omEnd c Status.omNoSpace 0 else s)
              else if here && (!s.framesOk tier (eLarge e) pfns || (tier = 0 && !pfns.all (s.modeOk striped))) then .next s
              else
                let s := (s.putCmd c { c with started := true }).touchPages (todo.map fun x => x.1)
                .next ((todo.zip (pfns ++ List.replicate todo.length 0)).foldl (fun s x =>
                  s.startMove h x.1.1 x.1.2.1 (eLarge e) tier pkg x.2 (.command src)) s)

/-! ### GANG (R67) -/

/-- The launch record of a member: GANG holds GID and GSIZE, and MPKG is 1 (R142). -/
def memberRecord (lr : LaunchRec) (gid n : Nat) : LaunchRec :=
  lr.set 5 (BitVec.ofNat 64 (putBits (gid % 65536 * 2 ^ 48 + n % 65536 * 2 ^ 32 + lrField lr 5 30 0) 31 31 1))

/-- GANG: the coordinator reads the record and the list, and sends the prepares. A member record that breaks Table 3-5 ends
the command with LR_BAD, and one of PRIO 7 with LR_PRIO (Table 6-2): the status is DESIGN CHOICE (log entry 62). -/
def execGang (src : BitVec 9) (gid : U16) (dma : Bool) (s : State) : Host.Outcome State Fault Refusal :=
  s.runCmd src 0x30 fun c =>
    let n := bits (c.word 3) 9 0
    let dl := bits (c.word 4) 9 0
    if !dma then .next (s.omEnd c Status.omDma 0)
    else
      let lr : LaunchRec := .ofFn fun k => mword s.hostMem (c.word 1 + 8 * k.val)
      let list := (List.range n).map fun k => ofBytes (mread s.hostMem (c.word 2 + 2 * k) 2)
      let bad := n < 2 || 576 < n || dl = 0 || 1000 < dl || list.any (fun p => 576 ≤ p) || list.eraseDups.length ≠ n || !list.contains s.pkgNo
      if bad then .next (s.omEnd c Status.omBadOp 0)
      else if lrWorld lr ≠ 0 && lrWorld lr ≠ c.world.toNat then .next (s.omEnd c Status.omRights 0)
      else if lrReserved lr || lrDie lr = 0 || lrCl lr = 0 || lrPipe lr ≠ 0 then .next (s.omEnd c Status.lrBad 0)
      else if lrPrio lr = 7 then .next (s.omEnd c Status.lrPrio 0)
      else if s.host.coords.any fun g => g.gid == gid then .next s
      else
        let lr := memberRecord lr gid.toNat n
        let g : GangCoord := { gid, members := list.map fun p => { pkg := BitVec.ofNat 10 p, state := 0, lastHeard := 0 }, lr,
                               deadline := s.tether.toNat + dl * 1000, phase := 1, t := 0, lastPrepared := 0, reason := 0, present := c.words[5],
                               tag := c.tag, cq := BitVec.ofNat 6 c.cq, abortAt := 0, replays := 0, preempts := 0, lastAlive := 0 }
        let s := s.mapCmds c fun l => l.eraseP (· == c)
        let s : State := { s with host := { s.host with coords := s.host.coords ++ [g] } }
        .next (list.foldl (fun s p => s.sendGang p 0 gid 0 0 0 0 (lr.toList ++ list.map fun q => BitVec.ofNat 64 q)) s)

end Sys2Proof.Machine
end

