-- ==== Sys2Proof/Machine/HostWin.lean ====
section
/-!
DEFINITION. The host's windows (03_host_interface.md, R54 to R64, R66; 02_links.md, R28, R29): launch and command slots,
completion objects, and registers of the control window.
-/

namespace Sys2Proof.Machine

open Sys2Proof

/-! ### Slots (R57 to R60) -/

def State.launchSlot (s : State) (n : Nat) : Slot := tget s.host.launchSlots .initial n
def State.setLaunchSlot (s : State) (n : Nat) (x : Slot) : State := { s with host := { s.host with launchSlots := tset s.host.launchSlots n x } }
def State.cmdSlot (s : State) (n : Nat) : Slot := tget s.host.cmdSlots .initial n
def State.setCmdSlot (s : State) (n : Nat) (x : Slot) : State := { s with host := { s.host with cmdSlots := tset s.host.cmdSlots n x } }

/-- Word k of a slot takes a value. -/
def Slot.put (x : Slot) (k : Nat) (w : Word) : Slot :=
  { x with words := .ofFn fun j => if j.val = k then w else x.words[j], mask := x.mask ||| (1#8 <<< k) }
/-- Words 0 to 6 have been written since the last submission. -/
def Slot.whole (x : Slot) : Bool := x.mask &&& 0x7F == 0x7F
/-- A submission is processed: LSTAT or CSTAT (Table 3-7). -/
def Slot.report (x : Slot) (status : U16) : Slot :=
  { x with mask := 0, seq := x.seq + 1, status
           rejcnt := if status = Status.ok then x.rejcnt else if x.rejcnt = 0xFFFF then 0xFFFF else x.rejcnt + 1 }

/-- Launches are turned away (Table 3-6 order 2). -/
def Power.noLaunch (p : Power) : Bool := p.pstate == .ps2 || p.pstate == .ps3 || p.trans.any fun t => t.target == .ps2

/-- Table 3-6 from order 2. -/
def State.launchStatus (s : State) (lr : LaunchRec) (bound : Byte) : U16 :=
  if s.power.noLaunch then Status.pwrState
  else if lrReserved lr || lrDie lr = 0 || lrCl lr = 0 || lrGang lr ≠ 0 || lrMpkg lr then Status.lrBad
  else if lrPrio lr = 7 then Status.lrPrio
  else if lrWorld lr ≠ 0 && bound.toNat ≠ lrWorld lr then Status.lrWorld
  else
    let st := s.launchObjects lr false
    if st ≠ Status.ok then st else if 4096 ≤ s.host.hlq.length then Status.lrFull else Status.ok

/-- Word 7 of launch slot n is written (R57). -/
def State.submitLaunch (s : State) (n : Nat) (w : Word) : State :=
  let x := (s.launchSlot n).put 7 w
  if !s.ready then s.setLaunchSlot n { x with mask := 0 }
  else
    let lr : LaunchRec := x.words
    let st := if !x.whole then Status.lrPartial else s.launchStatus lr x.world
    let s := s.setLaunchSlot n (x.report st)
    if st ≠ Status.ok then s
    else { s.takeCredits (lrCq lr) (lrNeeds lr) with host := { (s.takeCredits (lrCq lr) (lrNeeds lr)).host with hlq := s.host.hlq ++ [lr] } }

/-- What the record of a launch slot names is at hand once its word 7 is w (log entry 29). -/
def State.askLaunch (s : State) (n : Nat) (w : Word) : State × Bool :=
  let x := (s.launchSlot n).put 7 w
  if s.ready && x.whole then s.askHandles (x.words : LaunchRec) false else (s, true)

/-- LAUNCH_SUBMIT: word 7 of a launch slot is written. While an entry of another package that its record names is on its
way, the submission waits, and the event comes again (log entry 29). -/
def execLaunchSubmit (slot : BitVec 10) (w : Word) (s : State) : Host.Outcome State Fault Refusal :=
  let y := s.askLaunch slot.toNat w
  if y.2 then .next (y.1.submitLaunch slot.toNat w) else .next y.1

/-- Credits that a command holds (R62). -/
def cmdNeeds (w0 : Word) : Nat := if bits w0.toNat 63 56 = 0x30 then 2 else 1

/-- Word 7 of command slot n is written (R60). -/
def State.submitCommand (s : State) (n : Nat) (w : Word) : State :=
  let x := (s.cmdSlot n).put 7 w
  if !s.ready then s.setCmdSlot n { x with mask := 0 }
  else
    let w0 := x.words[0]
    let cq := bits w0.toNat 47 42
    let st :=
      if !x.whole then Status.lrPartial
      else if s.power.pstate = .ps3 then Status.pwrState
      else if (s.cq cq).isNone then Status.lrCq
      else if s.cqFree cq < cmdNeeds w0 then Status.lrCqFull
      else Status.ok
    let s := s.setCmdSlot n (x.report st)
    if st ≠ Status.ok then s
    else
      let c : OmCmd := { src := BitVec.ofNat 9 n, words := x.words, world := x.world, started := false, result := 0 }
      let s := s.takeCredits cq (cmdNeeds w0)
      ({ s with host := { s.host with cmds := s.host.cmds ++ [c] } } : State).wake 2

/-- COMMAND_SLOT_SUBMIT: word 7 of a command slot is written. -/
def execCommandSlotSubmit (slot : Byte) (w : Word) (s : State) : Host.Outcome State Fault Refusal := .next (s.submitCommand slot.toNat w)

/-! ### Completion objects (R63, R64) -/

/-- CQHEAD_WRITE: the head moves on by no more than the records written, or CQERR is set. -/
def execCqheadWrite (n : BitVec 6) (v : Word) (s : State) : Host.Outcome State Fault Refusal :=
  match s.cq n.toNat with
  | none => .next s
  | some c =>
    let i := bits v.toNat 13 0
    let d := (i + c.size - c.head.toNat) % c.size
    if c.size ≤ i || c.count < d then .next (s.setCq n.toNat { c with cqerr := true })
    else
      let events := ((c.kinds.take d).filter id).length
      .next (s.setCq n.toNat { c with head := BitVec.ofNat 14 i, count := c.count - d, kinds := c.kinds.drop d, events := c.events - events })

/-- CQTAIL_READ: the read clears CQERR. -/
def execCqtailRead (n : BitVec 6) (s : State) : Host.Outcome State Fault Refusal :=
  match s.cq n.toNat with
  | none => .next s
  | some c => .next (s.setCq n.toNat { c with cqerr := false })

/-- COMPLETION_MODERATION_TIMER: MODUS microseconds after the first unsignalled record. -/
def execCompletionModerationTimer (n : BitVec 6) (s : State) : Host.Outcome State Fault Refusal :=
  match s.cq n.toNat with
  | none => .next s
  | some c =>
    match c.irqFirst with
    | none => .next s
    | some t =>
      if c.modus = 0 || s.now < t + c.modus.toNat * 1000 then .next s
      else .next ((s.setCq n.toNat { c with irqCount := 0, irqFirst := none }).signal c.vector.toNat)

/-! ### Registers -/

def execErrstatClear (v : Word) (s : State) : Host.Outcome State Fault Refusal :=
  .next { s with host := { s.host with errstat := s.host.errstat &&& ~~~v } }
def execPwrstatClear (v : Word) (s : State) : Host.Outcome State Fault Refusal := .next (s.clearPwrstat v)
def execSlstatClear (n : BitVec 8) (v : Word) (s : State) : Host.Outcome State Fault Refusal := .next (s.clearSlstat n.toNat v)

/-- A vector that is pending and no longer masked is signalled (R64). -/
def State.unmask (s : State) (v : Nat) : State :=
  if s.links.pba.contains v && !s.msixMasked v then
    ({ s with links := { s.links with pba := s.links.pba.filter (· ≠ v) } } : State).signal v
  else s

/-- A write of n bytes to the MSI-X table (R54): 4 or 8 bytes, aligned. -/
def State.writeMsix (s : State) (off n : Nat) (v : Word) : State :=
  ({ s with links := { s.links with msixTable := mwrite s.links.msixTable off (toBytes n v.toNat) } } : State).unmask (off / 16)

/-- MSI-X Enable and Function Mask, bits 15 and 14 of the capability's message control (log entry 15): what is pending and
no longer masked is signalled. -/
def State.writeMsixControl (s : State) (v : Word) : State :=
  let t : State := { s with links := { s.links with msixEnable := v.getLsbD 15, msixFuncMask := v.getLsbD 14 } }
  t.links.pba.foldl State.unmask t

/-- A word of a slot, at its offset in the submission window (Table 3-1); word 7 submits; words from 8 on, and LSTAT and
CSTAT, ignore writes. -/
def State.writeSlot (s : State) (off : Nat) (v : Word) : State :=
  let k := off % 4096 / 8
  if 0x500000 ≤ off || 7 < k then s
  else if k = 7 then (if off < 0x400000 then s.submitLaunch (off / 4096) v else s.submitCommand (off / 4096 - 1024) v)
  else if off < 0x400000 then s.setLaunchSlot (off / 4096) ((s.launchSlot (off / 4096)).put k v)
  else if off < 0x500000 then s.setCmdSlot (off / 4096 - 1024) ((s.cmdSlot (off / 4096 - 1024)).put k v)
  else s

/-- REGISTER_WRITE: one word, or several in ascending order, of a slot (R57), or a word of the MSI-X table; a write of
another size or alignment is dropped, one to a read-only or unassigned offset ignored, and the registers that act on a write
have events of their own (R54). Window 7 stands for the configuration space, of which MSI-X's message control is held. -/
def execRegisterWrite (bar : BitVec 3) (off : BitVec 26) (size : BitVec 7) (v : Word × List Word) (s : State) :
    Host.Outcome State Fault Refusal :=
  let more := v.2
  let v := v.1
  let a := off.toNat
  let n := size.toNat
  let aligned := (n = 8 && a % 8 = 0)
  let whole := a % 8 = 0 && n = 8 * (1 + more.length)
  match bar.toNat with
  | 0 => if (aligned || (n = 4 && a % 4 = 0)) && 0x10000 ≤ a && a < 0x18000 then .next (s.writeMsix (a - 0x10000) n v) else .next s
  | 2 =>
    let words := (v :: more).mapIdx fun j w => (a + 8 * j, w)
    let put := fun (s : State) (l : List (Nat × Word)) => l.foldl (fun (s : State) x => s.writeSlot x.1 x.2) s
    let y := match words.find? fun x => x.1 < 0x400000 && x.1 % 4096 = 56 with
      | some x => (put s (words.takeWhile fun z => z.1 ≠ x.1)).askLaunch (x.1 / 4096) x.2
      | none => (s, true)
    if !whole then .next s else if y.2 then .next (put s words) else .next y.1
  | 7 => .next (s.writeMsixControl v)
  | _ => .next s

/-! ### What a host read returns (R25, R54, R55, R58, R63) -/

/-- BOOTSTAT (Table 3-3). -/
def Power.bootstat (p : Power) : Word :=
  let fail := match p.bootFail with
    | .none => 0 | .rail => 1 | .lock => 2 | .auth => 3 | .sys => 4 | .mem => 5 | .om => 8
  BitVec.ofNat 64 (p.bootDetail.toNat * 65536 + fail * 256 + p.bootStep.toNat)

/-- LSTAT and CSTAT (Table 3-7). -/
def Slot.stat (x : Slot) : Word := BitVec.ofNat 64 (x.seq.toNat * 2 ^ 32 + x.rejcnt.toNat * 65536 + x.status.toNat)

/-- CQTAILn. -/
def CompletionObj.tailWord (c : CompletionObj) : Word := BitVec.ofNat 64 (b2n c.cqerr * 2 ^ 31 + c.tail.toNat)

/-- A register of the control window (Table 3-2): an unassigned offset reads as zero, and PWRCMD, which is only written, as
a free value (log entry 7). -/
def State.controlWord (s : State) (a : Nat) : Word :=
  let at_ := fun (base n : Nat) => base ≤ a && a < base + 8 * n
  let k := fun (base : Nat) => (a - base) / 8
  let cq := fun (f : CompletionObj → Word) => ((s.cq ((a - 0x1000) / 16)).map f).getD 0
  if at_ 0x100 18 then (s.peer (k 0x100)).plstat
  else if at_ 0x200 4 then (s.cxlPort (k 0x200)).stat
  else if at_ 0x220 8 then (s.flashPort (k 0x220)).stat
  else if at_ 0x300 18 then BitVec.ofNat 64 (b2n (s.peer (k 0x300)).dis)
  else if at_ 0x1000 128 then
    (if a % 16 = 0 then cq fun c => c.head.setWidth 64 else cq CompletionObj.tailWord)
  else
    match a with
    | 0x00 => s.power.bootstat
    | 0x08 => s.power.pwrstat
    | 0x10 => Config.freeWord s.free
    | 0x18 => s.power.pwrres
    | 0x20 => s.links.tetherstat
    | 0x28 => s.tether
    | 0x30 => s.host.errstat
    | 0x38 => s.host.replaycnt
    | 0x40 => BitVec.ofNat 64 s.host.hlq.length
    | 0x48 => BitVec.ofNat 64 (s.links.master.toNat * 2 ^ 22 + b2n s.links.tetherEn)
    | _ => 0

/-- The pending bits of the vectors from 8 * k on. -/
def State.pbaByte (s : State) (k : Nat) : Byte :=
  BitVec.ofNat 8 (sumBy (fun j => b2n (s.links.pba.contains (8 * k + j)) * 2 ^ j) (List.range 8))

/-- A word of the submission window: the words of a slot, and LSTAT or CSTAT behind them. The spec does not say what a read
of words 0 to 7 returns: it returns the latest value written, DESIGN CHOICE (log entry 82). -/
def State.slotRead (s : State) (off : Nat) : Word :=
  let k := off % 4096 / 8
  let of_ := fun (x : Slot) => if k < 8 then x.words.toList.getD k 0 else if k = 8 then x.stat else 0
  if off < 0x400000 then of_ (s.launchSlot (off / 4096))
  else if off < 0x500000 then of_ (s.cmdSlot (off / 4096 - 1024)) else 0

/-- An offset of the control window lies in a register of Table 3-2. -/
def assigned (a : Nat) : Bool :=
  let at_ := fun (base n : Nat) => base ≤ a && a < base + 8 * n
  at_ 0 10 || at_ 0x100 18 || at_ 0x200 4 || at_ 0x220 8 || at_ 0x300 18 || at_ 0x1000 128
/-- An offset of the submission window lies in a word of a slot, or in its LSTAT or CSTAT. -/
def slotAssigned (a : Nat) : Bool := a < 0x500000 && a % 4096 < 72

/-- The bytes that a host read of a window returns: none before Ready, but for BOOTSTAT. The read of CQTAILn also clears
CQERR, by the event CQTAIL_READ. -/
def State.hostRead (s : State) (bar off size : Nat) : Option (List Byte) :=
  let word := fun (reg : Nat → Bool) (w : Word) =>
    if size = 8 && off % 8 = 0 then toBytes 8 w.toNat
    else List.replicate size (if (List.range size).any fun j => reg (off + j) then 0xFF else 0)
  let small := (size = 8 && off % 8 = 0) || (size = 4 && off % 4 = 0)
  if !s.ready && !(bar = 0 && off = 0) then none
  else
    match bar with
    | 0 =>
      if 0x10000 ≤ off && off < 0x18000 then some (if small then mread s.links.msixTable (off - 0x10000) size else List.replicate size 0xFF)
      else if 0x18000 ≤ off && off < 0x18100 then
        some (if small then (List.range size).map fun j => s.pbaByte (off - 0x18000 + j) else List.replicate size 0xFF)
      else some (word assigned (s.controlWord off))
    | 2 => some (word slotAssigned (s.slotRead off))
    | 4 => some (((s.cq (off / 2 ^ 20)).map fun c => (List.range size).map fun j =>
          if off % 2 ^ 20 + j < 64 * c.size then mget s.mem (c.base + off % 2 ^ 20 + j) else 0).getD (List.replicate size 0))
    | _ => none

/-! ### The host link (R27 to R29) -/

/-- Capabilities that the host link reports in configuration space (Table 2-1). -/
structure HostCaps where
  classCode : Byte
  functions : Nat
  maxPayload : Nat
  maxReadRequest : Nat
  tagBits : Nat
  maxOutstanding : Nat
  msixVectors : Nat
  msi : Bool
  intx : Bool
  sriov : Bool
  ats : Bool
  pasid : Bool
  aer : Bool
  ecrc : Bool
  aspm : Bool
deriving DecidableEq, Repr

/-- Table 2-1. -/
def hostCaps : HostCaps where
  classCode := 0x12
  functions := 1
  maxPayload := 512
  maxReadRequest := 4096
  tagBits := 10
  maxOutstanding := 768
  msixVectors := 2048
  msi := false
  intx := false
  sriov := false
  ats := false
  pasid := false
  aer := true
  ecrc := true
  aspm := false

/-- HOST_LINK_DOWN: launch records that are only partly written are discarded. -/
def execHostLinkDown (s : State) : Host.Outcome State Fault Refusal :=
  let slots := s.host.launchSlots.map fun x => (x.1, { x.2 with mask := 0 })
  .next { s with links := { s.links with hostUp := false }, host := { s.host with launchSlots := slots } }

/-- HOST_LINK_UP: the held messages are sent. -/
def execHostLinkUp (s : State) : Host.Outcome State Fault Refusal :=
  let held := s.links.heldMsix
  .next (held.foldl State.signal { s with links := { s.links with hostUp := true, heldMsix := [] } })

/-- PMCSR_WRITE: D3hot is honoured in PS3 alone; D1 and D2 are not supported. -/
def execPmcsrWrite (d : BitVec 2) (s : State) : Host.Outcome State Fault Refusal :=
  if d = 3 && s.power.pstate = .ps3 then .next { s with links := { s.links with d3hot := true } }
  else if d = 0 then .next { s with links := { s.links with d3hot := false } }
  else .next s

end Sys2Proof.Machine
end

