-- ==== Sys2Proof/Machine/Power.lean ====
section
/-!
DEFINITION. Power, temperature, reset and bring-up (01_package.md, R15 to R25; 03_host_interface.md, R69).
-/

namespace Sys2Proof.Machine

open Sys2Proof

/-! ### Clock limits (R15, R17, R18) -/

/-- The power controller holds the clock below the commanded point (Table 1-8 PWRLIM). -/
def Power.limited (p : Power) : Bool := decide (p.powerCap.toNat < p.freqCmd.toNat)
/-- A thermal action holds the clock below the commanded point or stopped (Table 1-8 THERM). -/
def Power.hot (p : Power) : Bool := p.thermStopped || decide (p.thermCap.toNat < p.freqCmd.toNat)

/-- The power controller takes new values: PWRLIM_SEEN and THERM_SEEN are set when their bits become 1, and vector 1
signals that one of them rose. -/
def State.setPower (s : State) (p : Power) : State :=
  let lim := p.limited && !s.power.limited
  let hot := p.hot && !s.power.hot
  let t : State := { s with power := { p with pwrlimSeen := p.pwrlimSeen || lim, thermSeen := p.thermSeen || hot } }
  if lim || hot then t.signal 1 else t

/-- One step of 100 MHz down, to no less than 1.0 GHz; the limit starts from the commanded point. -/
def capDown (cap cmd : U16) : U16 := BitVec.ofNat 16 (max 1000 (min cap.toNat cmd.toNat - 100))
/-- One step of 100 MHz up; at the commanded point the limit is lifted. -/
def capUp (cap cmd : U16) : U16 :=
  let up := cap.toNat + 100
  if cmd.toNat ≤ up then 2400 else BitVec.ofNat 16 up

/-- POWER_SAMPLE: every 1 µs; 1,000 samples make a window. -/
def execPowerSample (mw : U32) (s : State) : Host.Outcome State Fault Refusal :=
  let p := s.power
  if s.now < p.lastSample + 1000 then .next s
  else
    let sum := p.windowSum + mw.toNat
    let full := 1000 ≤ p.windowCount + 1
    .next { s with power := { p with
      lastSample := s.now
      windowSum := if full then 0 else sum
      windowCount := if full then 0 else p.windowCount + 1
      windowMean := if full then sum / (p.windowCount + 1) else p.windowMean } }

/-- POWER_THROTTLE_STEP, with the controller's estimate of the next window in mW: at most one step each 10 µs. -/
def execPowerThrottleStep (estimate : U32) (s : State) : Host.Outcome State Fault Refusal :=
  let p := s.power
  if s.now < p.lastPowerStep + 10000 then .next s
  else if 3600000 < estimate.toNat then
    .next (s.setPower { p with powerCap := capDown p.powerCap p.freqCmd, lastPowerStep := s.now })
  else if p.windowMean < 3450000 && p.powerCap ≠ 2400 then
    .next (s.setPower { p with powerCap := capUp p.powerCap p.freqCmd, lastPowerStep := s.now })
  else .next s

/-- THERMAL_STEP, with the hottest junction in thousandths of a degree (log entry 49): every 10 µs. -/
def execThermalStep (t : U32) (s : State) : Host.Outcome State Fault Refusal :=
  let p := s.power
  if p.thermStopped || s.now < p.lastThermStep + 10000 then .next s
  else if 105000 < t.toNat then .next (s.setPower { p with thermCap := capDown p.thermCap p.freqCmd, lastThermStep := s.now })
  else if t.toNat < 100000 && p.thermCap ≠ 2400 then
    .next (s.setPower { p with thermCap := capUp p.thermCap p.freqCmd, lastThermStep := s.now })
  else .next s

/-- THERMAL_STOP: above 115 °C the compute-die clock stops, THERM is set, the thermal vector and a THERMSTOP event are
raised (Table 1-4); THERM_SEEN is set where THERM becomes 1 (Table 1-8). -/
def execThermalStop (t : U32) (s : State) : Host.Outcome State Fault Refusal :=
  let p := s.power
  if p.thermStopped || t.toNat ≤ 115000 then .next s
  else
    let u := s.setPower { p with thermStopped := true }
    let u := if p.hot then u.signal 1 else u
    .next (u.setErr 4 u.power.pwrstat 0)

/-- THERMAL_RESTART: below 110 °C after a stop, the clock restarts at 1.0 GHz. -/
def execThermalRestart (t : U32) (s : State) : Host.Outcome State Fault Refusal :=
  let p := s.power
  if !p.thermStopped || 110000 ≤ t.toNat then .next s
  else .next { s with power := { p with thermStopped := false, thermCap := 1000, lastThermStep := s.now } }

/-! ### Power commands (R20, R69) -/

/-- Table 1-6. -/
def transitionOk : PState → PState → Bool
  | .ps0, .ps0 | .ps0, .ps1 | .ps1, .ps0 | .ps1, .ps2 | .ps2, .ps1 | .ps2, .ps3 | .ps3, .ps0 => true
  | _, _ => false

/-- A command that R20 or Table 3-13 rejects with PWR_BADCMD. -/
def Power.badCommand (p : Power) (target : PState) (freq rsvHi : U16) (rsvLo : BitVec 14) : Bool :=
  let f := freq.toNat
  rsvHi ≠ 0 || rsvLo ≠ 0 || !transitionOk p.pstate target
    || (if target = .ps0 then f < 1000 || 2400 < f || f % 100 ≠ 0 else f ≠ 0)

/-- A power command: rejected while a transition or bring-up is in progress, or if it is bad; else its transition starts. -/
def State.powerCommand (s : State) (target : PState) (seq freq rsvHi : U16) (rsvLo : BitVec 14) : State :=
  if !s.ready || s.power.trans.isSome then s.setPwrres seq Status.pwrBusy
  else if s.power.badCommand target freq rsvHi rsvLo then s.setPwrres seq Status.pwrBadCmd
  else
    let s := s.setPwrres seq Status.pwrOk
    let p := s.power
    let t : Transition := { target, was := p.freqCmd, seq, start := s.tether.toNat }
    s.setPower { p with trans := some t, freqCmd := if target = .ps0 then freq else p.freqCmd }

/-- PS3 to PS0 runs bring-up from step 3. -/
def State.restart (s : State) : State :=
  { s with power := { s.power with bootStep := 3, bootFail := .none, bootDetail := 0, backupTried := false, memRetried := []
                                   resumeFreq := some s.power.freqCmd } }

def execPwrCmdPs0 (seq freq rsvHi : U16) (rsvLo : BitVec 14) (s : State) : Host.Outcome State Fault Refusal :=
  let t := s.powerCommand .ps0 seq freq rsvHi rsvLo
  .next (if s.power.trans.isNone && t.power.trans.isSome && s.power.pstate == .ps3 then t.restart else t)

def execPwrCmdPs1 (seq freq rsvHi : U16) (rsvLo : BitVec 14) (s : State) : Host.Outcome State Fault Refusal :=
  .next (s.powerCommand .ps1 seq freq rsvHi rsvLo)
def execPwrCmdPs2 (seq freq rsvHi : U16) (rsvLo : BitVec 14) (s : State) : Host.Outcome State Fault Refusal :=
  .next (s.powerCommand .ps2 seq freq rsvHi rsvLo)
def execPwrCmdPs3 (seq freq rsvHi : U16) (rsvLo : BitVec 14) (s : State) : Host.Outcome State Fault Refusal :=
  .next (s.powerCommand .ps3 seq freq rsvHi rsvLo)

/-- A transition completes: the new state, and PWR_DONE. -/
def State.arrivePs (s : State) (t : Transition) : State :=
  ({ s with power := { s.power with pstate := t.target, trans := none } } : State).setPwrres t.seq Status.pwrDone

/-! ### PS0 to PS1 (R20, R21) -/

/-- The banks whose step runs or is parked. -/
def State.busyBanks (s : State) : List (Nat × BitVec 1) :=
  s.cores.flatMap fun c => ([0, 1] : List (BitVec 1)).filterMap fun b => if (c.2.bank b).st ≠ .idle then some (c.1, b) else none

def execPs1DrainComplete (s : State) : Host.Outcome State Fault Refusal :=
  match s.power.trans with
  | some t => if t.target = .ps1 ∧ s.power.pstate = .ps0 ∧ s.busyBanks.isEmpty then .next (s.arrivePs t) else .next s
  | none => .next s

/-- A bank that a run-on command has parked: the task of the command is killed, and what it has there goes. -/
def State.drainRunOn (s : State) (f : Nat) (b : BitVec 1) : State :=
  match (s.bank f b).fault with
  | some fi => (s.killTask fi.task Status.killed Cause.pwrDrain).dropRunOn f b fi.task
  | none => s

/-- A step that is left at the limit: returned to its task before COMMIT; past it, stopped where it stands, and its task
killed with PWR_DRAIN. -/
def State.drainStep (s : State) (f : Nat) (b : BitVec 1) : State :=
  match (s.bank f b).run with
  | none => if (s.bank f b).st = .idle then s else s.drainRunOn f b
  | some r =>
    if (s.bank f b).st = .idle then s
    else if (s.bank f b).runOnFault then s.drainRunOn f b
    else if r.committed then
      let quiet := fun (g : GangHere) => if g.task = some r.task then { g with silent := true } else g
      let s : State := { s with host := { s.host with members := s.host.members.map quiet } }
      (s.dropStepOf f b r.task).killTask r.task Status.killed Cause.pwrDrain
    else ((s.discardStep f b).noteFree f).requeue r true

/-- A local gang of which no member has a step on a core gathers again. -/
def State.regather (s : State) : State :=
  let at_ := fun (m : Word) => !(s.banksOf m).isEmpty
  { s with sched := { s.sched with gangs := s.sched.gangs.map fun g => if g.started && !g.members.any at_ then { g with started := false } else g } }

/-- PS1_DRAIN_TIMEOUT: 100 ms of TETHERCNT after the command. -/
def execPs1DrainTimeout (s : State) : Host.Outcome State Fault Refusal :=
  match s.power.trans with
  | some t =>
    if t.target = .ps1 ∧ s.power.pstate = .ps0 ∧ t.start + 100000000 ≤ s.tether.toNat ∧ !s.busyBanks.isEmpty then
      let u := (s.busyBanks.foldl (fun s x => s.drainStep x.1 x.2) s).regather
      .next ({ u with sched := { u.sched with grants := [] } }.arrivePs t)
    else .next s
  | none => .next s

/-! ### The other transitions (R20, R69, R98) -/

/-- A record of the host launch queue ends (R69). -/
def State.endQueued (s : State) (lr : LaunchRec) : State :=
  let s := if lrAck lr then s.dropCredits (lrCq lr) 1 else s
  if lrNocmpl lr then s else s.cqWrite (lrCq lr) { kind := 1, status := Status.killed, tag := lrTag lr, result := 0, irq := lrIrq lr }

/-- The commands of a bank that still run on go, with what they hold. -/
def State.dropCmds (s : State) (f : Nat) (b : BitVec 1) : State :=
  let s := s.nbFinishAll f b fun _ => true
  let s := (s.bank f b).xq.foldl (fun s c => (s.releaseFar c).releaseBusy c) (s.dropPlan f b)
  let s := (s.releaseSpans fun p => (s.bank f b).cmds.any fun c => c.task == p.task).dropServed f b fun _ => true
  s.setBank f b { (s.bank f b).keepCmds fun _ => false with landings := [], fmtq := [] }

/-- The tasks that are still queued or wait on a dependence. -/
def State.queuedTasks (s : State) : List Word := (s.allTasks.filter fun x => x.2.killed.isNone && !x.2.allEnded).map fun x => x.1

/-- PS1 to PS2: what is queued ends, and the cores are emptied of commands; dirty Basin lines go home. -/
def State.endQueue (s : State) : State :=
  let s := s.queuedTasks.foldl (fun s t => s.killTask t Status.killed 0) s
  let s := s.host.hlq.foldl State.endQueued s
  let s : State := { s with host := { s.host with hlq := [] } }
  s.cores.foldl (fun s c => ([0, 1] : List (BitVec 1)).foldl (fun s b =>
    let s := (s.dropCmds c.1 b).flushBasin c.1 b fun _ => true
    s.setCore c.1 { s.core c.1 with rings := [] }) s) s

/-- Requests of cores that have not performed. -/
def State.coreReqs (s : State) : Bool := s.objs.reqs.any fun q => match q.who with
  | .core _ _ => true
  | .sys _ => false

/-- Something on the compute dies has still to end before they are gated. -/
def State.gateWaits (s : State) : Bool :=
  !s.allTasks.isEmpty || s.coreReqs || s.cores.any fun c => ([0, 1] : List (BitVec 1)).any fun b =>
    !(c.2.bank b).cmds.isEmpty || (c.2.bank b).basin.any fun l => !l.dirty.isEmpty

/-- The compute dies are gated: their units are zero-pending (R98), their caches lost, memory in self-refresh. -/
def State.gate (s : State) : State :=
  { s with
    cores := s.cores.map fun c => (c.1, { c.2 with zeroPending := true, codeCache := [] })
    clusters := s.clusters.map fun c => (c.1, { c.2 with l2 := [] })
    objs := { s.objs with units := s.objs.units.filter fun u => 40 ≤ u.1 }
    power := { s.power with selfRefresh := BitVec.allOnes 14, lastAccess := [] } }

/-- Units that are marked are zeroed as they are powered (R98). -/
def State.ungate (s : State) : State :=
  { s with
    cores := s.cores.map fun c => (c.1, if c.2.zeroPending then { c.2 with banks := .replicate 2 Bank.initial, zeroPending := false } else c.2)
    clusters := s.clusters.map fun c => (c.1, { c.2 with l2 := [] })
    power := { s.power with selfRefresh := 0, lastAccess := [] } }

/-- HBM and LPDDR6 lose their contents, every object ends, and the object manager and its records stop (R20, R22). -/
def State.powerOff (s : State) : State :=
  { s with
    mem := s.mem.filter fun x => 2 ^ 53 ≤ x.1
    objs := { Objects.initial with nextReq := s.objs.nextReq, seq := s.objs.seq }
    sched := .initial
    host := { s.host with cqs := [], coords := [], members := [] }
    cores := []
    clusters := []
    chains := []
    slices := s.slices.map fun x => (x.1, { Slice.initial with inv := x.2.inv })
    faults := { frameBase := 0, fqBase := 0, fqTail := 0, fqHead := 0 } }

/-- POWER_TRANSITION_COMPLETE: the work of a transition other than PS0 to PS1. PS3 to PS0 completes at Ready. -/
def execPowerTransitionComplete (s : State) : Host.Outcome State Fault Refusal :=
  match s.power.trans with
  | none => .next s
  | some t =>
    match s.power.pstate, t.target with
    | .ps0, .ps0 | .ps1, .ps0 => .next (s.arrivePs t)
    | .ps1, .ps2 =>
      if !s.queuedTasks.isEmpty || !s.host.hlq.isEmpty || s.cores.any (fun c => ([0, 1] : List (BitVec 1)).any fun b =>
          !(c.2.bank b).cmds.isEmpty || (c.2.bank b).basin.any fun l => !l.dirty.isEmpty) then .next s.endQueue
      else if s.gateWaits then .next s
      else .next (s.gate.arrivePs t)
    | .ps2, .ps1 => .next (s.ungate.arrivePs t)
    | .ps2, .ps3 => if s.host.cmds.isEmpty && s.host.omcalls.isEmpty then .next (s.powerOff.arrivePs t) else .next s
    | _, _ => .next s

/-- SELF_REFRESH_IDLE: in PS2, no access for 100 µs (R22). -/
def execSelfRefreshIdle (u : BitVec 4) (s : State) : Host.Outcome State Fault Refusal :=
  let p := s.power
  if p.pstate = .ps2 ∧ u.toNat < 14 ∧ tget p.lastAccess 0 u.toNat + 100000 ≤ s.now then
    .next { s with power := { p with selfRefresh := p.selfRefresh ||| (1#14 <<< u.toNat) } }
  else .next s

/-! ### Reset (R24) -/

/-- The state after a reset: every unit as at reset; what stands outside the package and on its flash stays. -/
def State.afterReset (s : State) : State :=
  let x := State.reset
  { x with
    agenda := s.agenda
    turn := s.turn
    pkg := s.pkg
    free := s.free
    runs := s.runs
    hostMem := s.hostMem
    mem := s.mem.filter fun e => 2 ^ 53 ≤ e.1
    firmware := s.firmware
    objs := { x.objs with nextReq := s.objs.nextReq, seq := s.objs.seq }
    links := { x.links with
      hostUp := s.links.hostUp
      msixSent := s.links.msixSent
      peers := s.links.peers.map fun p => (p.1, { PeerPort.initial with sent := p.2.sent }) }
    sec := { x.sec with
      devSecret := s.sec.devSecret, devId := s.sec.devId, vroot := s.sec.vroot, minfw := s.sec.minfw, life := s.sec.life
      bootKey := s.sec.bootKey, fwHash := s.sec.fwHash, fwVersion := s.sec.fwVersion, nextRes := s.sec.nextRes
      exhausted := s.sec.exhausted, keyGen := s.sec.keyGen, cert := s.sec.cert } }

/-- COLD_RESET. -/
def execColdReset (s : State) : Host.Outcome State Fault Refusal := .next s.afterReset

/-- WARM_RESET: the stored training results are used again if their CRC passes. -/
def execWarmReset (crcOk : Bool) (s : State) : Host.Outcome State Fault Refusal :=
  let t := s.afterReset
  .next { t with power := { t.power with trained := s.power.trained, warm := crcOk && s.power.trained } }

/-! ### Bring-up (Table 1-7) -/

/-- Bring-up stops and reports its code. -/
def State.bootFails (s : State) (f : BootFail) (detail : U16) : State :=
  { s with power := { s.power with bootFail := f, bootDetail := detail } }
def State.bootNext (s : State) (n : BitVec 8) : State := { s with power := { s.power with bootStep := n } }

/-- The security version that MINFW stands for: its ones (R109). -/
def minVersion (w : Word) : Nat := ((List.range 64).filter fun k => w.getLsbD k).length
/-- A version as a thermometer. -/
def thermometer (v : Nat) : Word := BitVec.ofNat 64 (2 ^ min v 64 - 1)

/-- A firmware image passes the check of R111: its vendor key is that of VROOT, its signature verifies, and its version is at
least MINFW. -/
def State.imageTrusted (s : State) (img : FwImage) : Bool :=
  ofBytes (shake256 img.key 64) == s.sec.vroot.toNat && xmssVerify img.key img.bytes img.sig && minVersion s.sec.minfw ≤ img.version.toNat

/-- An image is verified (R111): MINFW rises to its version, it is the one that runs (R115), a boot key pair is made (R109),
and the next signature index is the stored NEXTRES (R116). -/
def State.verified (s : State) (img : FwImage) : State :=
  let c := s.sec
  { s with sec := { c with
      minfw := c.minfw ||| thermometer img.version.toNat, bootKey := c.bootKey + 1, nextIdx := c.nextRes, request := none, faulted := false
      fwHash := BitVec.ofNat 512 (ofBytes (shake256 img.bytes 64)), fwVersion := img.version.setWidth 64 } }

/-- Step 6: every page and every compute-die unit is zero-pending, so that nobody reads what it held (R98). -/
def State.zeroAll (s : State) : State :=
  { s with
    mem := s.mem.filter fun x => 2 ^ 53 ≤ x.1
    cores := []
    clusters := []
    links := { s.links with peers := (List.range 18).map fun n =>
      let p := s.peer n
      (n, if p.st = 0 then { p with st := if p.dis then 3 else 1 } else p) } }

/-- Step 7: the ports of a mask have trained or go on; the others are reported down. The time master locks (R48). -/
def State.portsTrained (s : State) (ports : BitVec 18) : State :=
  let s : State := { s with links := { s.links with peers := s.links.peers.map fun x =>
    (x.1, if ports.getLsbD x.1 || x.2.st ≠ 1 then x.2 else { x.2 with st := 0 }) } }
  if s.isMaster then { s with links := { s.links with lock := true } } else s

/-- The security service object (R112): 128 KiB, ROW, .z8, world 0, rights R, W and A. -/
def serviceEntry (vbase : Nat) : Entry :=
  eput (eput (eput (eput (eput (Vector.replicate 16 0) 0 55 40 1) 0 35 34 1) 3 63 0 (2 ^ 32 + 131072)) 4 63 0 (2 ^ 32 + 1)) 5 51 0 vbase
    |> fun e => eput e 8 3 0 0xE

/-- Step 8: the object manager starts with an empty table; completion object 0 and the security service object exist. -/
def State.startManager (s : State) (om : OmLayout) : State :=
  let s : State := { s with
    objs := { Objects.initial with
      nextReq := s.objs.nextReq, seq := s.objs.seq
      otBase := om.otBase.toNat, otCap := om.otCap.toNat, ptRoot := om.ptRoot.setWidth 64 }
    faults := { frameBase := om.frameBase.setWidth 64, fqBase := om.fqBase.setWidth 64, fqTail := 0, fqHead := 0 }
    host := { s.host with cqs := tset s.host.cqs 0 {
      log2 := 6, vector := 64, modcnt := 1, modus := 0, head := 0, tail := 0, count := 0, held := 0, events := 0, phase := true
      kinds := [], irqCount := 0, irqFirst := none, cqerr := false, handle := 0, base := 0 } }
    sec := { s.sec with answered := 0 } }
  let s := s.createObject (handleOf 0 1 s.pkgNo 1) (serviceEntry om.svc.vbase.toNat) { om.svc with index := 1 }
  match s.cq 0 with
  | some q => s.createRing 0 q { om.cq0 with index := 0 }
  | none => s

/-- Ready: PS0 at its clock point; a transition from PS3 completes, and the PMCSR is at D0 as in every state but PS3 (R28). -/
def State.bootReady (s : State) : State :=
  let p := s.power
  let s : State := { s with
    power := { p with bootStep := 9, pstate := .ps0, freqCmd := p.resumeFreq.getD 2200, resumeFreq := none }
    links := { s.links with d3hot := false }
    host := { s.host with replaycnt := 0 } }
  match p.trans with
  | some t => s.arrivePs t
  | none => s

/-- The choices of the object manager for the security service object are ones it can make (R75, R83). -/
def layoutOk (om : OmLayout) : Bool :=
  2 ≤ om.otCap.toNat && 2 ≤ om.svc.pfns.length && (om.svc.pfns.take 2).eraseDups.length == 2
    && (om.svc.pfns.take 2).all (fun p => p.toNat / 65536 < 192) && om.svc.vbase.toNat % 65536 == 0
    && om.svc.vbase.toNat + 131072 ≤ 2 ^ 52
    && om.otCap.toNat ≤ 2 ^ 22
    && om.cq0.pfns.length == 1 && om.cq0.pfns.all (fun p => p.toNat / 65536 < 192 && p.toNat % 32 == 0
        && (om.svc.pfns.take 2).all fun q => q.toNat / 32 ≠ p.toNat / 32)
    && om.cq0.vbase.toNat % 2097152 == 0 && om.cq0.vbase.toNat + 2097152 ≤ 2 ^ 52
    && (om.svc.vbase.toNat + 131072 ≤ om.cq0.vbase.toNat || om.cq0.vbase.toNat + 2097152 ≤ om.svc.vbase.toNat)
    && (om.svc.tabs ++ om.cq0.tabs).eraseDups.length == om.svc.tabs.length + om.cq0.tabs.length
    && (om.svc.tabs ++ om.cq0.tabs).all (fun t => t.toNat % 8192 == 0 && t ≠ 0)
    && 3 ≤ om.svc.tabs.length && 3 ≤ om.cq0.tabs.length

/-- BRINGUP_STEP_COMPLETE: the step that runs ends well or fails; img is the image of step 3, and ports and om are what steps
7 and 8 come to. -/
def execBringupStepComplete (ok : Bool) (detail : U16) (ports : BitVec 18) (om : OmLayout × FwImage) (s : State) : Host.Outcome State Fault Refusal :=
  let img := om.2
  let om := om.1
  let p := s.power
  if p.bootFail ≠ .none then .next s
  else
    match p.bootStep.toNat with
    | 1 => .next (if ok then s.bootNext 2 else s.bootFails .rail 0)
    | 2 => .next (if ok then s.bootNext 3 else s.bootFails .lock 0)
    | 3 =>
      if s.imageTrusted img then .next ((s.verified img).bootNext 4)
      else if p.backupTried then .next (s.bootFails .auth 0)
      else .next { s with power := { p with backupTried := true } }
    | 4 => .next (if ok then ({ s with sys := [] } : State).bootNext 5 else s.bootFails .sys 0)
    | 5 =>
      if ok then .next (({ s with power := { p with trained := true } } : State).bootNext 6)
      else if p.memRetried.contains detail then .next (s.bootFails .mem detail)
      else .next { s with power := { p with memRetried := detail :: p.memRetried } }
    | 6 => .next (s.zeroAll.bootNext 7)
    | 7 => .next ((s.portsTrained ports).bootNext 8)
    | 8 =>
      if !ok then .next (s.bootFails .om 0)
      else if !layoutOk om then .next s
      else .next ((s.startManager { om with svc := { om.svc with pfns := om.svc.pfns.take 2 } }).bootReady)
    | _ => .next s

/-! ### The Tether (R468) -/

/-- TETHER_MS_TICK: TETHERCNT is a multiple of 1,000,000 ns. -/
def execTetherMsTick (s : State) : Host.Outcome State Fault Refusal :=
  if s.tether.toNat % 1000000 = 0 then .next (s.wake 5) else .next s

end Sys2Proof.Machine
end

