-- ==== Sys2Proof/Machine/Scalar.lean ====
section
/-!
DEFINITION. Integer arithmetic, moves, selection and predicates (13_isa_scalar.md, R301 to R314).
-/

namespace Sys2Proof.Machine

open Sys2Proof

/-! ### Shared forms -/

/-- A register-register operation (R304). -/
def aluRR (g : BitVec 4) (x y z : BitVec 5) (s : State) (f : Word → Word → Word) : Host.Outcome State Fault Refusal :=
  control { size := 1 } g { s := [x, y, z] } s fun s => .done (s.setS x (f (s.getS y) (s.getS z)))

/-- A unary operation (R307). -/
def aluR (g : BitVec 4) (x y : BitVec 5) (s : State) (f : Word → Word) : Host.Outcome State Fault Refusal :=
  control { size := 1 } g { s := [x, y] } s fun s => .done (s.setS x (f (s.getS y)))

/-- A register-immediate operation on s registers (R308). -/
def aluRI (g : BitVec 4) (x y : BitVec 5) (s : State) (f : Word → Word) : Host.Outcome State Fault Refusal :=
  control { size := 2 } g { s := [x, y] } s fun s => .done (s.setS x (f (s.getS y)))

/-- SignExt(IMM, 32) mod 2^64. -/
def simm (imm : BitVec 32) : Word := imm.signExtend 64

/-! ### Operations (R304 to R307) -/

/-- Bits [127:64] of the product of two integers. -/
def mulHigh (a b : Int) : Word := BitVec.ofInt 64 (a * b / 2 ^ 64)
/-- R305. -/
def divOf (signed : Bool) (a b : Word) : Word :=
  if b = 0 then BitVec.allOnes 64
  else if signed then BitVec.ofInt 64 (a.toInt.tdiv b.toInt)
  else BitVec.ofNat 64 (a.toNat / b.toNat)
def remOf (signed : Bool) (a b : Word) : Word :=
  if b = 0 then a
  else if signed then BitVec.ofInt 64 (a.toInt.tmod b.toInt)
  else BitVec.ofNat 64 (a.toNat % b.toNat)
/-- R306, with n = b[5:0]. -/
def shlOf (a b : Word) : Word := a <<< (b.toNat % 64)
def shrOf (a b : Word) : Word := a >>> (b.toNat % 64)
def sarOf (a b : Word) : Word := a.sshiftRight (b.toNat % 64)
def rotlOf (a b : Word) : Word := a.rotateLeft (b.toNat % 64)
/-- R307. -/
def clzOf (a : Word) : Word := if a = 0 then 64 else BitVec.ofNat 64 (63 - a.toNat.log2)
def ctzOf (a : Word) : Word := if a = 0 then 64 else BitVec.ofNat 64 (a &&& -a).toNat.log2
def popcOf (a : Word) : Word := BitVec.ofNat 64 (sumBy (fun k => b2n (a.getLsbD k)) (List.range 64))
def bswapOf (a : Word) : Word := BitVec.ofNat 64 (ofBytes (toBytes 8 a.toNat).reverse)
/-- Width of a code of SEXT and ZEXT (R307). -/
def extWidth (z : BitVec 5) : Nat := 8 * 2 ^ z.toNat

/-! ### Register-register operations -/

def execAdd (g : BitVec 4) (x y z : BitVec 5) (s : State) : Host.Outcome State Fault Refusal :=
  aluRR g x y z s fun a b => a + b
def execSub (g : BitVec 4) (x y z : BitVec 5) (s : State) : Host.Outcome State Fault Refusal :=
  aluRR g x y z s fun a b => a - b
def execMul (g : BitVec 4) (x y z : BitVec 5) (s : State) : Host.Outcome State Fault Refusal :=
  aluRR g x y z s fun a b => a * b
def execMulh (g : BitVec 4) (x y z : BitVec 5) (s : State) : Host.Outcome State Fault Refusal :=
  aluRR g x y z s fun a b => mulHigh a.toInt b.toInt
def execMulhz (g : BitVec 4) (x y z : BitVec 5) (s : State) : Host.Outcome State Fault Refusal :=
  aluRR g x y z s fun a b => mulHigh a.toNat b.toNat
def execDiv (g : BitVec 4) (x y z : BitVec 5) (s : State) : Host.Outcome State Fault Refusal :=
  aluRR g x y z s (divOf true)
def execDivz (g : BitVec 4) (x y z : BitVec 5) (s : State) : Host.Outcome State Fault Refusal :=
  aluRR g x y z s (divOf false)
def execRem (g : BitVec 4) (x y z : BitVec 5) (s : State) : Host.Outcome State Fault Refusal :=
  aluRR g x y z s (remOf true)
def execRemz (g : BitVec 4) (x y z : BitVec 5) (s : State) : Host.Outcome State Fault Refusal :=
  aluRR g x y z s (remOf false)
def execAnd (g : BitVec 4) (x y z : BitVec 5) (s : State) : Host.Outcome State Fault Refusal :=
  aluRR g x y z s fun a b => a &&& b
def execOr (g : BitVec 4) (x y z : BitVec 5) (s : State) : Host.Outcome State Fault Refusal :=
  aluRR g x y z s fun a b => a ||| b
def execXor (g : BitVec 4) (x y z : BitVec 5) (s : State) : Host.Outcome State Fault Refusal :=
  aluRR g x y z s fun a b => a ^^^ b
def execAndn (g : BitVec 4) (x y z : BitVec 5) (s : State) : Host.Outcome State Fault Refusal :=
  aluRR g x y z s fun a b => a &&& ~~~b
def execShl (g : BitVec 4) (x y z : BitVec 5) (s : State) : Host.Outcome State Fault Refusal :=
  aluRR g x y z s shlOf
def execShr (g : BitVec 4) (x y z : BitVec 5) (s : State) : Host.Outcome State Fault Refusal :=
  aluRR g x y z s shrOf
def execSar (g : BitVec 4) (x y z : BitVec 5) (s : State) : Host.Outcome State Fault Refusal :=
  aluRR g x y z s sarOf
def execRotl (g : BitVec 4) (x y z : BitVec 5) (s : State) : Host.Outcome State Fault Refusal :=
  aluRR g x y z s rotlOf
def execMin (g : BitVec 4) (x y z : BitVec 5) (s : State) : Host.Outcome State Fault Refusal :=
  aluRR g x y z s fun a b => if a.toInt ≤ b.toInt then a else b
def execMinz (g : BitVec 4) (x y z : BitVec 5) (s : State) : Host.Outcome State Fault Refusal :=
  aluRR g x y z s fun a b => if a.toNat ≤ b.toNat then a else b
def execMax (g : BitVec 4) (x y z : BitVec 5) (s : State) : Host.Outcome State Fault Refusal :=
  aluRR g x y z s fun a b => if a.toInt ≤ b.toInt then b else a
def execMaxz (g : BitVec 4) (x y z : BitVec 5) (s : State) : Host.Outcome State Fault Refusal :=
  aluRR g x y z s fun a b => if a.toNat ≤ b.toNat then b else a

/-! ### Unary operations -/

def execClz (g : BitVec 4) (x y : BitVec 5) (s : State) : Host.Outcome State Fault Refusal := aluR g x y s clzOf
def execCtz (g : BitVec 4) (x y : BitVec 5) (s : State) : Host.Outcome State Fault Refusal := aluR g x y s ctzOf
def execPopc (g : BitVec 4) (x y : BitVec 5) (s : State) : Host.Outcome State Fault Refusal := aluR g x y s popcOf
def execBswap (g : BitVec 4) (x y : BitVec 5) (s : State) : Host.Outcome State Fault Refusal := aluR g x y s bswapOf
def execSext (g : BitVec 4) (x y z : BitVec 5) (s : State) : Host.Outcome State Fault Refusal :=
  aluR g x y s fun a => extend true a.toNat (extWidth z)
def execZext (g : BitVec 4) (x y z : BitVec 5) (s : State) : Host.Outcome State Fault Refusal :=
  aluR g x y s fun a => extend false a.toNat (extWidth z)

/-! ### Register-immediate operations -/

/-- ADDI on a register of class rc: 0 s, modulo 2^64; 1 a and 2 lc, modulo 2^32 (R308). -/
def execAddi (g : BitVec 4) (x y : BitVec 5) (rc : BitVec 2) (imm : BitVec 32) (s : State) :
    Host.Outcome State Fault Refusal :=
  control { size := 2 } g { s := if rc = 0 then [x, y] else [] } s fun s =>
    if rc = 0 then .done (s.setS x (s.getS y + simm imm))
    else if rc = 1 then .done (s.setA (x.setWidth 3) (s.getA (y.setWidth 3) + imm))
    else .done (s.setCtx (s.ctx.setLc (x.setWidth 2) (s.ctx.getLc (y.setWidth 2) + imm)))
def execAndi (g : BitVec 4) (x y : BitVec 5) (imm : BitVec 32) (s : State) : Host.Outcome State Fault Refusal :=
  aluRI g x y s fun a => a &&& simm imm
def execOri (g : BitVec 4) (x y : BitVec 5) (imm : BitVec 32) (s : State) : Host.Outcome State Fault Refusal :=
  aluRI g x y s fun a => a ||| simm imm
def execXori (g : BitVec 4) (x y : BitVec 5) (imm : BitVec 32) (s : State) : Host.Outcome State Fault Refusal :=
  aluRI g x y s fun a => a ^^^ simm imm
def execShli (g : BitVec 4) (x y : BitVec 5) (n : BitVec 6) (s : State) : Host.Outcome State Fault Refusal :=
  aluRI g x y s fun a => shlOf a (n.setWidth 64)
def execShri (g : BitVec 4) (x y : BitVec 5) (n : BitVec 6) (s : State) : Host.Outcome State Fault Refusal :=
  aluRI g x y s fun a => shrOf a (n.setWidth 64)
def execSari (g : BitVec 4) (x y : BitVec 5) (n : BitVec 6) (s : State) : Host.Outcome State Fault Refusal :=
  aluRI g x y s fun a => sarOf a (n.setWidth 64)

/-- BFX (R309): wm is W − 1. -/
def execBfx (g : BitVec 4) (x y : BitVec 5) (sg : BitVec 1) (lo wm : BitVec 6) (s : State) :
    Host.Outcome State Fault Refusal :=
  control { size := 2 } g { s := [x, y] } s fun s =>
    let w := wm.toNat + 1
    if 64 < lo.toNat + w then .trap (trapOf Cause.illegalOp)
    else .done (s.setS x (extend (sg == 1) (bits (s.getS y).toNat (lo.toNat + w - 1) lo.toNat) w))

/-- BFI (R309), which reads its destination. -/
def execBfi (g : BitVec 4) (x y : BitVec 5) (lo wm : BitVec 6) (s : State) : Host.Outcome State Fault Refusal :=
  control { size := 2 } g { s := [x, y] } s fun s =>
    let w := wm.toNat + 1
    if 64 < lo.toNat + w then .trap (trapOf Cause.illegalOp)
    else .done (s.setS x (BitVec.ofNat 64 (putBits (s.getS x).toNat (lo.toNat + w - 1) lo.toNat (s.getS y).toNat)))

/-! ### Moves and selection -/

/-- The value of a register of a class, as a word: 0 s, 1 a, 2 lc, 3 p (R310). -/
def State.readClass (s : State) (c : BitVec 2) (r : BitVec 5) : Word :=
  match c.toNat with
  | 0 => s.getS r
  | 1 => (s.getA (r.setWidth 3)).setWidth 64
  | 2 => (s.ctx.getLc (r.setWidth 2)).setWidth 64
  | _ => if s.getP (r.setWidth 3) then 1 else 0
/-- Write a word to a register of a class (R310). -/
def State.writeClass (s : State) (c : BitVec 2) (r : BitVec 5) (v : Word) : State :=
  match c.toNat with
  | 0 => s.setS r v
  | 1 => s.setA (r.setWidth 3) (v.setWidth 32)
  | 2 => s.setCtx (s.ctx.setLc (r.setWidth 2) (v.setWidth 32))
  | _ => s.setP (r.setWidth 3) (v != 0)

/-- The registers that an operand of a class makes an instruction wait for. -/
def usesClass (c : BitVec 2) (r : BitVec 5) : Uses :=
  if c = 0 then { s := [r] } else if c = 3 then { p := [r.setWidth 3] } else {}

def execMov (g : BitVec 4) (x y : BitVec 5) (dc sc : BitVec 2) (s : State) : Host.Outcome State Fault Refusal :=
  let u := usesClass dc x
  let v := usesClass sc y
  control { size := 1 } g { s := u.s ++ v.s, p := u.p ++ v.p } s fun s => .done (s.writeClass dc x (s.readClass sc y))

def execMovi64 (g : BitVec 4) (x : BitVec 5) (imm : BitVec 32) (s : State) : Host.Outcome State Fault Refusal :=
  control { size := 2 } g { s := [x] } s fun s => .done (s.setS x (simm imm))
def execMovi96 (g : BitVec 4) (x : BitVec 5) (imm lit : BitVec 32) (s : State) : Host.Outcome State Fault Refusal :=
  control { size := 3 } g { s := [x] } s fun s => .done (s.setS x (lit ++ imm))
def execMovhi (g : BitVec 4) (x y : BitVec 5) (imm : BitVec 32) (s : State) : Host.Outcome State Fault Refusal :=
  control { size := 2 } g { s := [x, y] } s fun s => .done (s.setS x (imm ++ (s.getS y).setWidth 32))
def execSel (g : BitVec 4) (x y : BitVec 5) (pr : BitVec 3) (z : BitVec 5) (s : State) :
    Host.Outcome State Fault Refusal :=
  control { size := 2 } g { s := [x, y, z], p := [pr] } s fun s =>
    .done (s.setS x (if s.getP pr then s.getS y else s.getS z))

/-! ### Predicates -/

def execCmp (g : BitVec 4) (x : BitVec 3) (y : BitVec 5) (cc : BitVec 4) (ii : BitVec 1) (imm : BitVec 32) (s : State) :
    Host.Outcome State Fault Refusal :=
  let z : BitVec 5 := imm.setWidth 5
  control { size := 2 } g { s := if ii = 1 then [y] else [y, z], p := [x] } s fun s =>
    .done (s.setP x (intCond cc.toNat (s.getS y) (if ii = 1 then simm imm else s.getS z)))

/-- A predicate operation (R314). -/
def predOp (g : BitVec 4) (x y z : BitVec 3) (s : State) (f : Bool → Bool → Bool) : Host.Outcome State Fault Refusal :=
  control { size := 1 } g { p := [x, y, z] } s fun s => .done (s.setP x (f (s.getP y) (s.getP z)))

def execPand (g : BitVec 4) (x y z : BitVec 3) (s : State) : Host.Outcome State Fault Refusal :=
  predOp g x y z s fun a b => a && b
def execPor (g : BitVec 4) (x y z : BitVec 3) (s : State) : Host.Outcome State Fault Refusal :=
  predOp g x y z s fun a b => a || b
def execPxor (g : BitVec 4) (x y z : BitVec 3) (s : State) : Host.Outcome State Fault Refusal :=
  predOp g x y z s fun a b => a != b
def execPnot (g : BitVec 4) (x y : BitVec 3) (s : State) : Host.Outcome State Fault Refusal :=
  predOp g x y y s fun a _ => !a

end Sys2Proof.Machine
end

