-- ==== Sys2Proof/Machine/Security.lean ====
section
/-!
DEFINITION. The security service (05_worlds.md, R108, R112 to R117): its request and response in the service object, and
what each request does.
-/

namespace Sys2Proof.Machine

open Sys2Proof

/-! ### The service object (R112) -/

/-- The handle of the security service object. -/
def State.svcHandle (s : State) : Word := handleOf 0 1 s.pkgNo 1

/-- Bytes of the service object from an offset. -/
def State.svcRead (s : State) (off n : Nat) : Option (List Byte) :=
  match s.known s.svcHandle with
  | none => none
  | some e =>
    if (List.range 2).all fun k => match s.omPage (eVbase e + 65536 * k) with
      | .ok _ _ => true
      | _ => false
    then
      some ((List.range n).map fun k =>
        let va := eVbase e + off + k
        match s.omPage va with
        | .ok _ pa => s.plainByte s.svcHandle va pa
        | _ => 0)
    else none

/-- The service writes bytes of its object. -/
def State.svcWrite (s : State) (off : Nat) (bs : List Byte) : State :=
  match s.known s.svcHandle with
  | none => s
  | some e =>
    (List.range (ceilDiv (off % 65536 + bs.length) 65536)).foldl (fun (s : State) k =>
      let lo := if k = 0 then 0 else 65536 * k - off % 65536
      let part := (bs.drop lo).take (65536 * (k + 1) - off % 65536 - lo)
      let va := eVbase e + off + lo
      match s.omPage va with
      | .ok _ pa => s.perform s.svcHandle { run := 0, task := 0, path := .X, ord := 0 } ((pa : Int) - va) (bytesAt va part)
      | _ => s) s

/-- Publish the service object n times. -/
def State.svcPublish (s : State) : Nat → State
  | 0 => s
  | n + 1 => (s.advanceVersion (s.verOf s.svcHandle) 0).svcPublish n

/-- The response from offset 0x1000, its body at offset 64 of it; then VERSION is made even: one publication, or two where
the requester has published too (R112). The answer wakes the system cores (R468). -/
def State.respond (s : State) (number status : Nat) (body : List Byte) : State :=
  let s := s.svcWrite 0x1000 (toBytes 8 (number * 2 ^ 32 + status) ++ List.replicate 56 0 ++ body)
  let odd := (s.versionAt 1).getLsbD 0
  let s := s.svcPublish (if odd then 1 else 2)
  ({ s with sec := { s.sec with request := none, faulted := false, answered := s.versionAt 1 } } : State).wake 3

/-- The service works on the request of an opc: it starts one that is pending, by a copy of it; it answers BUSY where
the requester has published again before the start; it carries out the one that it has started. A request of no opc of
Table 5-4 is taken by the event of opc 1. -/
def State.service (s : State) (opc : Nat) (f : List Byte → State → State × Nat × List Byte) : State :=
  if !s.ready then s
  else
    let mine := fun (r : List Byte) => reqOpc r == opc || (opc == 1 && !(1 ≤ reqOpc r && reqOpc r ≤ 6))
    match s.sec.request with
    | some r =>
      if !mine r || (s.svcRead 0 8).isNone then s
      else if s.sec.faulted then s.respond (reqNumber r) SecStatus.secFault []
      else if 1 ≤ reqOpc r ∧ reqOpc r ≤ 6 then
        let x := f r s
        x.1.respond (reqNumber r) x.2.1 x.2.2
      else s.respond (reqNumber r) SecStatus.badReq []
    | none =>
      if s.versionAt 1 = s.sec.answered then s
      else
        match s.svcRead 0 4096 with
        | none => s
        | some r =>
          if !mine r then s
          else if (s.versionAt 1).getLsbD 0 then { s with sec := { s.sec with request := some r } }
          else s.respond (reqNumber r) SecStatus.busy []

/-! ### World keys (R113, R114) -/

/-- WCREATE. -/
def worldCreate (r : List Byte) (s : State) : State × Nat × List Byte :=
  let w := (reqWorld r).toNat
  if w = 0 then (s, SecStatus.badReq, [])
  else if (tfind s.sec.keys w).isSome then (s, SecStatus.worldExists, [])
  else
    let k := s.unwrap r
    if k.2 then (s.loadKey w k.1, SecStatus.ok, []) else (s, SecStatus.badKey, [])

/-- A world is in use: a segment, a task, or a slot bound to it (R114). -/
def State.worldInUse (s : State) (w : Nat) : Bool :=
  s.worldHasSegment w (fun _ => false) || s.allTasks.any (fun x => lrWorld x.2.lr == w)
    || s.host.hlq.any (fun lr => lrWorld lr == w)
    || s.host.launchSlots.any (fun x => x.2.world.toNat == w) || s.host.cmdSlots.any fun x => x.2.world.toNat == w

/-- WDESTROY. -/
def worldDestroy (r : List Byte) (s : State) : State × Nat × List Byte :=
  let w := (reqWorld r).toNat
  if w = 0 then (s, SecStatus.badReq, [])
  else if (tfind s.sec.keys w).isNone then (s, SecStatus.noWorld, [])
  else if s.worldInUse w then (s, SecStatus.worldBusy, [])
  else (s.eraseKey w, SecStatus.ok, [])

/-! ### Attestation (R115 to R117) -/

/-- The next signature index, reserved in blocks of 1,024; none when the key is exhausted. -/
def State.nextSignature (s : State) : Option Nat × State :=
  let c := s.sec
  let writes := c.nextRes / 1024
  if c.exhausted then (none, s)
  else if 2 ^ 40 ≤ c.nextIdx || (c.nextIdx = c.nextRes && Config.flashWrites c.keyGen ≤ writes) then
    (none, { s with sec := { c with exhausted := true } })
  else
    let nextRes := if c.nextIdx = c.nextRes then c.nextRes + 1024 else c.nextRes
    (some c.nextIdx, { s with sec := { c with nextRes, nextIdx := c.nextIdx + 1 } })

/-- Bytes 0 to 2,047 of a report (Table 5-6). -/
def State.reportBody (s : State) (r : List Byte) (idx : Nat) : List Byte :=
  let c := s.sec
  let w := reqWorld r
  let kw := tfind c.keys w.toNat
  let kc := match kw with
    | some k => keyCheck k
    | none => List.replicate 8 0
  toBytes 32 c.devId.toNat ++ reqPart r 64 64 ++ toBytes 64 c.fwHash.toNat
    ++ toBytes 4 c.fwVersion.toNat ++ toBytes 4 (minVersion c.minfw)
    ++ toBytes 8 (b2n kw.isSome * 65536 + w.toNat * 256 + c.life.toNat) ++ kc ++ toBytes 8 idx
    ++ s.bootEk ++ List.replicate 288 0

/-- ATTEST. -/
def attestReport (r : List Byte) (s : State) : State × Nat × List Byte :=
  if s.sec.cert.isNone && !s.sec.exhausted then (s, SecStatus.noCert, [])
  else
    match s.nextSignature with
    | (none, t) => (t, SecStatus.sigExhausted, [])
    | (some idx, t) =>
      let b := s.reportBody r idx
      (t, SecStatus.ok, b ++ xmssSignature (sized 132 (Config.xmssPublic s.sec.keyGen)) idx b)

/-- KEYGEN: after exhaustion, a new key with index 0, without a certificate. -/
def keyGenerate (_ : List Byte) (s : State) : State × Nat × List Byte :=
  let c := s.sec
  if !c.exhausted then (s, SecStatus.badReq, [])
  else
    let t : State := { s with sec := { c with keyGen := c.keyGen + 1, nextIdx := 0, nextRes := 0, exhausted := false, cert := none } }
    (t, SecStatus.ok, sized 132 (Config.xmssPublic (c.keyGen + 1)))

/-- CERTSET: a certificate of the key, checked against VROOT. One that fails the check is answered BADREQ: DESIGN CHOICE (log
entry 82). -/
def certInstall (r : List Byte) (s : State) : State × Nat × List Byte :=
  let cert := reqPart r 64 4032
  if Config.certOk s.sec.vroot (sized 132 (Config.xmssPublic s.sec.keyGen)) cert then
    ({ s with sec := { s.sec with cert := some cert } }, SecStatus.ok, [])
  else (s, SecStatus.badReq, [])

/-! ### Events -/

def execAttest (s : State) : Host.Outcome State Fault Refusal := .next (s.service 1 attestReport)
def execWcreate (s : State) : Host.Outcome State Fault Refusal := .next (s.service 2 worldCreate)
def execWdestroy (s : State) : Host.Outcome State Fault Refusal := .next (s.service 3 worldDestroy)
def execKeygen (s : State) : Host.Outcome State Fault Refusal := .next (s.service 4 keyGenerate)
def execCertset (s : State) : Host.Outcome State Fault Refusal := .next (s.service 5 certInstall)
def execKeyxfer (s : State) : Host.Outcome State Fault Refusal := .next (s.service 6 keyTransfer)

/-- SECURITY_LOCKSTEP_MISMATCH (R108): the complex resets, so that the rest of its block of signature indices is never used
(R116); requests in progress, of the service and of KEYSET, end with SEC_FAULT; UEMEM is raised. Loaded keys stay. -/
def execSecurityLockstepMismatch (s : State) : Host.Outcome State Fault Refusal :=
  let s : State := { s with sec := { s.sec with nextIdx := s.sec.nextRes } }
  let s := match s.sec.request with
    | some r => if (s.svcRead 0 8).isSome then s.respond (reqNumber r) SecStatus.secFault [] else { s with sec := { s.sec with faulted := true } }
    | none => s
  let sys := s.sys.map fun x => (x.1, if x.2.ctx.fence.isSome then { x.2 with secFault := true } else x.2)
  .next (({ s with sys } : State).setErr 1 0xFFFFFFFF 0)

end Sys2Proof.Machine
end

