-- ==== Sys2Proof/Machine/Dispatch.lean ====
section
/-!
DEFINITION. Which meaning each instruction has: one arm per constructor, in the order of Sys2Proof/Syntax.lean.
-/

namespace Sys2Proof.Machine

open Sys2Proof

/-- The effect of an instruction, or of an event, on the machine. -/
def exec (i : Instr) (s : State) : Host.Outcome State Fault Refusal :=
  match i with
  | .add g x y z => Sys2Proof.Machine.execAdd g x y z s
  | .sub g x y z => Sys2Proof.Machine.execSub g x y z s
  | .mul g x y z => Sys2Proof.Machine.execMul g x y z s
  | .mulh g x y z => Sys2Proof.Machine.execMulh g x y z s
  | .mulhz g x y z => Sys2Proof.Machine.execMulhz g x y z s
  | .div g x y z => Sys2Proof.Machine.execDiv g x y z s
  | .divz g x y z => Sys2Proof.Machine.execDivz g x y z s
  | .rem g x y z => Sys2Proof.Machine.execRem g x y z s
  | .remz g x y z => Sys2Proof.Machine.execRemz g x y z s
  | .and g x y z => Sys2Proof.Machine.execAnd g x y z s
  | .or g x y z => Sys2Proof.Machine.execOr g x y z s
  | .xor g x y z => Sys2Proof.Machine.execXor g x y z s
  | .andn g x y z => Sys2Proof.Machine.execAndn g x y z s
  | .shl g x y z => Sys2Proof.Machine.execShl g x y z s
  | .shr g x y z => Sys2Proof.Machine.execShr g x y z s
  | .sar g x y z => Sys2Proof.Machine.execSar g x y z s
  | .rotl g x y z => Sys2Proof.Machine.execRotl g x y z s
  | .min g x y z => Sys2Proof.Machine.execMin g x y z s
  | .minz g x y z => Sys2Proof.Machine.execMinz g x y z s
  | .max g x y z => Sys2Proof.Machine.execMax g x y z s
  | .maxz g x y z => Sys2Proof.Machine.execMaxz g x y z s
  | .clz g x y => Sys2Proof.Machine.execClz g x y s
  | .ctz g x y => Sys2Proof.Machine.execCtz g x y s
  | .popc g x y => Sys2Proof.Machine.execPopc g x y s
  | .bswap g x y => Sys2Proof.Machine.execBswap g x y s
  | .sext g x y z => Sys2Proof.Machine.execSext g x y z s
  | .zext g x y z => Sys2Proof.Machine.execZext g x y z s
  | .mov g x y dc sc => Sys2Proof.Machine.execMov g x y dc sc s
  | .pand g x y z => Sys2Proof.Machine.execPand g x y z s
  | .por g x y z => Sys2Proof.Machine.execPor g x y z s
  | .pxor g x y z => Sys2Proof.Machine.execPxor g x y z s
  | .pnot g x y => Sys2Proof.Machine.execPnot g x y s
  | .addi g x y rc imm => Sys2Proof.Machine.execAddi g x y rc imm s
  | .andi g x y imm => Sys2Proof.Machine.execAndi g x y imm s
  | .ori g x y imm => Sys2Proof.Machine.execOri g x y imm s
  | .xori g x y imm => Sys2Proof.Machine.execXori g x y imm s
  | .shli g x y n => Sys2Proof.Machine.execShli g x y n s
  | .shri g x y n => Sys2Proof.Machine.execShri g x y n s
  | .sari g x y n => Sys2Proof.Machine.execSari g x y n s
  | .bfx g x y sg lo wm => Sys2Proof.Machine.execBfx g x y sg lo wm s
  | .bfi g x y lo wm => Sys2Proof.Machine.execBfi g x y lo wm s
  | .movi64 g x imm => Sys2Proof.Machine.execMovi64 g x imm s
  | .movi96 g x imm lit => Sys2Proof.Machine.execMovi96 g x imm lit s
  | .movhi g x y imm => Sys2Proof.Machine.execMovhi g x y imm s
  | .sel g x y pr z => Sys2Proof.Machine.execSel g x y pr z s
  | .cmp g x y cc ii imm => Sys2Proof.Machine.execCmp g x y cc ii imm s
  | .fadd g x y fm b rnd => Sys2Proof.Machine.execFadd g x y fm b rnd s
  | .fsub g x y fm b rnd => Sys2Proof.Machine.execFsub g x y fm b rnd s
  | .fmul g x y fm b rnd => Sys2Proof.Machine.execFmul g x y fm b rnd s
  | .ffma g x y fm b rnd c => Sys2Proof.Machine.execFfma g x y fm b rnd c s
  | .fdiv g x y fm b rnd => Sys2Proof.Machine.execFdiv g x y fm b rnd s
  | .fsqrt g x y fm rnd => Sys2Proof.Machine.execFsqrt g x y fm rnd s
  | .fmin g x y z f => Sys2Proof.Machine.execFmin g x y z f s
  | .fmax g x y z f => Sys2Proof.Machine.execFmax g x y z f s
  | .fclass g x y f => Sys2Proof.Machine.execFclass g x y f s
  | .fcmp g x y fm cc b => Sys2Proof.Machine.execFcmp g x y fm cc b s
  | .fcvt g x y dfmt sfmt rnd sat => Sys2Proof.Machine.execFcvt g x y dfmt sfmt rnd sat s
  | .br g slot ld => Sys2Proof.Machine.execBr g slot ld s
  | .brp g x n slot ld => Sys2Proof.Machine.execBrp g x n slot ld s
  | .brz g x slot ld => Sys2Proof.Machine.execBrz g x slot ld s
  | .brnz g x slot ld => Sys2Proof.Machine.execBrnz g x slot ld s
  | .call g slot ld => Sys2Proof.Machine.execCall g slot ld s
  | .ret g => Sys2Proof.Machine.execRet g s
  | .loop g x slot ld => Sys2Proof.Machine.execLoop g x slot ld s
  | .nop g => Sys2Proof.Machine.execNop g s
  | .hint g w => Sys2Proof.Machine.execHint g w s
  | .ldp g x wd sg off => Sys2Proof.Machine.execLdp g x wd sg off s
  | .lds g x y wd sg imm => Sys2Proof.Machine.execLds g x y wd sg imm s
  | .sts g x y wd imm => Sys2Proof.Machine.execSts g x y wd imm s
  | .dmov g x y => Sys2Proof.Machine.execDmov g x y s
  | .hld g x y src imm => Sys2Proof.Machine.execHld g x y src imm s
  | .hqry g x y item => Sys2Proof.Machine.execHqry g x y item s
  | .dset g x y rows cols col0 lit => Sys2Proof.Machine.execDset g x y rows cols col0 lit s
  | .didx g x y k ii imm => Sys2Proof.Machine.execDidx g x y k ii imm s
  | .dadd g x y k ii imm => Sys2Proof.Machine.execDadd g x y k ii imm s
  | .dshp g x rows cols => Sys2Proof.Machine.execDshp g x rows cols s
  | .dpad g x clr imm lit => Sys2Proof.Machine.execDpad g x clr imm lit s
  | .lde g x y h str rd => Sys2Proof.Machine.execLde g x y h str rd s
  | .ste g x y h str => Sys2Proof.Machine.execSte g x y h str s
  | .atom g x y h w v opc => Sys2Proof.Machine.execAtom g x y h w v opc s
  | .fatom g x y h v fop => Sys2Proof.Machine.execFatom g x y h v fop s
  | .atomnr g x y h w opc f => Sys2Proof.Machine.execAtomnr g x y h w opc f s
  | .cas g x y h w e nv pd => Sys2Proof.Machine.execCas g x y h w e nv pd s
  | .casc g x y h w e nv t st => Sys2Proof.Machine.execCasc g x y h w e nv t st s
  | .ldt tk g vd q d a rd => Sys2Proof.Machine.execLdt tk g vd q d a rd s
  | .stt tk g vd q d a m => Sys2Proof.Machine.execStt tk g vd q d a m s
  | .pft tk g d rd => Sys2Proof.Machine.execPft tk g d rd s
  | .bmap tk g d all => Sys2Proof.Machine.execBmap tk g d all s
  | .bflush tk g d all => Sys2Proof.Machine.execBflush tk g d all s
  | .bdrop tk g d all => Sys2Proof.Machine.execBdrop tk g d all s
  | .openv g h => Sys2Proof.Machine.execOpenv g h s
  | .pub g h => Sys2Proof.Machine.execPub g h s
  | .subv g x y h => Sys2Proof.Machine.execSubv g x y h s
  | .pinv g x y h => Sys2Proof.Machine.execPinv g x y h s
  | .unpv g h => Sys2Proof.Machine.execUnpv g h s
  | .verq g x h => Sys2Proof.Machine.execVerq g x h s
  | .fenceP g s1 s2 => Sys2Proof.Machine.execFenceP g s1 s2 s
  | .nbfill tk g hd a imm lit => Sys2Proof.Machine.execNbfill tk g hd a imm lit s
  | .nbcopy tk g hd hs a => Sys2Proof.Machine.execNbcopy tk g hd hs a s
  | .nbaxpy tk g hd hs a imm rnd sat => Sys2Proof.Machine.execNbaxpy tk g hd hs a imm rnd sat s
  | .nbscale tk g hd a imm rnd sat => Sys2Proof.Machine.execNbscale tk g hd a imm rnd sat s
  | .nbrelay tk g hd hs a => Sys2Proof.Machine.execNbrelay tk g hd hs a s
  | .rrzero tk g hd a => Sys2Proof.Machine.execRrzero tk g hd a s
  | .rrcopy tk g hd hs a => Sys2Proof.Machine.execRrcopy tk g hd hs a s
  | .fmtqReg g x => Sys2Proof.Machine.execFmtqReg g x s
  | .fmtqImm g imm lit => Sys2Proof.Machine.execFmtqImm g imm lit s
  | .mma64 tk g va vb acc z kl => Sys2Proof.Machine.execMma64 tk g va vb acc z kl s
  | .mma96 tk g va vb acc z kl ak bk al bl => Sys2Proof.Machine.execMma96 tk g va vb acc z kl ak bk al bl s
  | .mmam64 tk g va vb acc z kl => Sys2Proof.Machine.execMmam64 tk g va vb acc z kl s
  | .mmam96 tk g va vb acc z kl ak bk al bl => Sys2Proof.Machine.execMmam96 tk g va vb acc z kl ak bk al bl s
  | .mzero tk g acc => Sys2Proof.Machine.execMzero tk g acc s
  | .mrd tk g vd acc rg ng => Sys2Proof.Machine.execMrd tk g vd acc rg ng s
  | .mwr tk g va acc rg ng => Sys2Proof.Machine.execMwr tk g va acc rg ng s
  | .mred tk g va acc z ax => Sys2Proof.Machine.execMred tk g va acc z ax s
  | .mscan tk g va acc z ax ex => Sys2Proof.Machine.execMscan tk g va acc z ax ex s
  | .mtrn tk g va acc => Sys2Proof.Machine.execMtrn tk g va acc s
  | .vadd tk g vd q va vb ty nr x3 x1 => Sys2Proof.Machine.execVadd tk g vd q va vb ty nr x3 x1 s
  | .vsub tk g vd q va vb ty nr x3 x1 => Sys2Proof.Machine.execVsub tk g vd q va vb ty nr x3 x1 s
  | .vmul tk g vd q va vb ty nr x3 x1 => Sys2Proof.Machine.execVmul tk g vd q va vb ty nr x3 x1 s
  | .vfma tk g vd q va vb ty nr x3 x1 vc => Sys2Proof.Machine.execVfma tk g vd q va vb ty nr x3 x1 vc s
  | .vfms tk g vd q va vb ty nr x3 x1 vc => Sys2Proof.Machine.execVfms tk g vd q va vb ty nr x3 x1 vc s
  | .vmin tk g vd q va vb ty nr x1 => Sys2Proof.Machine.execVmin tk g vd q va vb ty nr x1 s
  | .vmax tk g vd q va vb ty nr x1 => Sys2Proof.Machine.execVmax tk g vd q va vb ty nr x1 s
  | .vabs tk g vd va ty nr x1 => Sys2Proof.Machine.execVabs tk g vd va ty nr x1 s
  | .vneg tk g vd va ty nr x1 => Sys2Proof.Machine.execVneg tk g vd va ty nr x1 s
  | .vclamp tk g vd va vb ty nr x1 vc => Sys2Proof.Machine.execVclamp tk g vd va vb ty nr x1 vc s
  | .vcvt tk g vd va dfmt rnd sfmt sat => Sys2Proof.Machine.execVcvt tk g vd va dfmt rnd sfmt sat s
  | .vand tk g vd q va vb ty nr => Sys2Proof.Machine.execVand tk g vd q va vb ty nr s
  | .vor tk g vd q va vb ty nr => Sys2Proof.Machine.execVor tk g vd q va vb ty nr s
  | .vxor tk g vd q va vb ty nr => Sys2Proof.Machine.execVxor tk g vd q va vb ty nr s
  | .vnot tk g vd va ty nr => Sys2Proof.Machine.execVnot tk g vd va ty nr s
  | .vshl tk g vd q va vb ty nr => Sys2Proof.Machine.execVshl tk g vd q va vb ty nr s
  | .vshr tk g vd q va vb ty nr => Sys2Proof.Machine.execVshr tk g vd q va vb ty nr s
  | .vsar tk g vd q va vb ty nr => Sys2Proof.Machine.execVsar tk g vd q va vb ty nr s
  | .vcmp tk g vd q va vb ty nr x3 => Sys2Proof.Machine.execVcmp tk g vd q va vb ty nr x3 s
  | .vsel tk g vd q va vb ty nr vc => Sys2Proof.Machine.execVsel tk g vd q va vb ty nr vc s
  | .vmov tk g vd q va vb ty nr => Sys2Proof.Machine.execVmov tk g vd q va vb ty nr s
  | .vmovi tk g vd ty nr lit => Sys2Proof.Machine.execVmovi tk g vd ty nr lit s
  | .vrotr tk g vd q va vb ty nr => Sys2Proof.Machine.execVrotr tk g vd q va vb ty nr s
  | .vrotc tk g vd q va vb ty nr => Sys2Proof.Machine.execVrotc tk g vd q va vb ty nr s
  | .vbcr tk g vd q va vb ty nr => Sys2Proof.Machine.execVbcr tk g vd q va vb ty nr s
  | .vbcc tk g vd q va vb ty nr => Sys2Proof.Machine.execVbcc tk g vd q va vb ty nr s
  | .vshuf tk g vd va vb ty nr => Sys2Proof.Machine.execVshuf tk g vd va vb ty nr s
  | .vgath tk g vd vb ty nr x3 x1 => Sys2Proof.Machine.execVgath tk g vd vb ty nr x3 x1 s
  | .vscat tk g va vb ty nr x3 x1 => Sys2Proof.Machine.execVscat tk g va vb ty nr x3 x1 s
  | .vexp2 tk g vd va ty nr x3 x1 => Sys2Proof.Machine.execVexp2 tk g vd va ty nr x3 x1 s
  | .vlog2 tk g vd va ty nr x3 x1 => Sys2Proof.Machine.execVlog2 tk g vd va ty nr x3 x1 s
  | .vrcp tk g vd va ty nr x3 x1 => Sys2Proof.Machine.execVrcp tk g vd va ty nr x3 x1 s
  | .vrsq tk g vd va ty nr x3 x1 => Sys2Proof.Machine.execVrsq tk g vd va ty nr x3 x1 s
  | .vsin tk g vd va ty nr x3 x1 => Sys2Proof.Machine.execVsin tk g vd va ty nr x3 x1 s
  | .vcos tk g vd va ty nr x3 x1 => Sys2Proof.Machine.execVcos tk g vd va ty nr x3 x1 s
  | .vtanh tk g vd va ty nr x3 x1 => Sys2Proof.Machine.execVtanh tk g vd va ty nr x3 x1 s
  | .vpack tk g vd va x1 => Sys2Proof.Machine.execVpack tk g vd va x1 s
  | .vunpk tk g vd va x1 => Sys2Proof.Machine.execVunpk tk g vd va x1 s
  | .vqnt tk g vd va fmt rnd ty nr x1 => Sys2Proof.Machine.execVqnt tk g vd va fmt rnd ty nr x1 s
  | .vseed tk g sa => Sys2Proof.Machine.execVseed tk g sa s
  | .attn tk g h a dq dd => Sys2Proof.Machine.execAttn tk g h a dq dd s
  | .kvapp tk g h a vk vv n => Sys2Proof.Machine.execKvapp tk g h a vk vv n s
  | .rope tk g vd va sb h pinc ng => Sys2Proof.Machine.execRope tk g vd va sb h pinc ng s
  | .spanopen tk g h tag => Sys2Proof.Machine.execSpanopen tk g h tag s
  | .spanclose tk g h => Sys2Proof.Machine.execSpanclose tk g h s
  | .retspan tk g h a mode mask => Sys2Proof.Machine.execRetspan tk g h a mode mask s
  | .kvpromo tk g h a mask => Sys2Proof.Machine.execKvpromo tk g h a mask s
  | .seqq g x y h item => Sys2Proof.Machine.execSeqq g x y h item s
  | .spawn g x y a => Sys2Proof.Machine.execSpawn g x y a s
  | .spawnRec g x y a => Sys2Proof.Machine.execSpawnRec g x y a s
  | .depdec g x y ii k => Sys2Proof.Machine.execDepdec g x y ii k s
  | .taskq g x y item => Sys2Proof.Machine.execTaskq g x y item s
  | .commit g => Sys2Proof.Machine.execCommit g s
  | .exit g => Sys2Proof.Machine.execExit g s
  | .arrive g slot p => Sys2Proof.Machine.execArrive g slot p s
  | .racqP g a k => Sys2Proof.Machine.execRacqP g a k s
  | .racqC g a k => Sys2Proof.Machine.execRacqC g a k s
  | .rrelP g k => Sys2Proof.Machine.execRrelP g k s
  | .rrelC g k => Sys2Proof.Machine.execRrelC g k s
  | .tokq g x => Sys2Proof.Machine.execTokq g x s
  | .put g x y a k => Sys2Proof.Machine.execPut g x y a k s
  | .intk tk g a imm => Sys2Proof.Machine.execIntk tk g a imm s
  | .sumprd g x a ch => Sys2Proof.Machine.execSumprd g x a ch s
  | .xsend tk g hd hs a imm => Sys2Proof.Machine.execXsend tk g hd hs a imm s
  | .xstep tk g sr a ld => Sys2Proof.Machine.execXstep tk g sr a ld s
  | .xsync g x y w => Sys2Proof.Machine.execXsync g x y w s
  | .trap g w => Sys2Proof.Machine.execTrap g w s
  | .omcall g x y => Sys2Proof.Machine.execOmcall g x y s
  | .sysrd g x y num => Sys2Proof.Machine.execSysrd g x y num s
  | .syswr g x y num => Sys2Proof.Machine.execSyswr g x y num s
  | .eret g => Sys2Proof.Machine.execEret g s
  | .waiti g x => Sys2Proof.Machine.execWaiti g x s
  | .halt g => Sys2Proof.Machine.execHalt g s
  | .decmap g x y h slot => Sys2Proof.Machine.execDecmap g x y h slot s
  | .tlbinv g x y sc all => Sys2Proof.Machine.execTlbinv g x y sc all s
  | .otinv g x y sc all => Sys2Proof.Machine.execOtinv g x y sc all s
  | .migr g x a => Sys2Proof.Machine.execMigr g x a s
  | .zerob g x y kind => Sys2Proof.Machine.execZerob g x y kind s
  | .keyset g x op wl => Sys2Proof.Machine.execKeyset g x op wl s
  | .coldReset => Sys2Proof.Machine.execColdReset s
  | .warmReset crcOk => Sys2Proof.Machine.execWarmReset crcOk s
  | .bringupStepComplete ok detail ports om => Sys2Proof.Machine.execBringupStepComplete ok detail ports om s
  | .pwrCmdPs0 seq freq rsvHi rsvLo => Sys2Proof.Machine.execPwrCmdPs0 seq freq rsvHi rsvLo s
  | .pwrCmdPs1 seq freq rsvHi rsvLo => Sys2Proof.Machine.execPwrCmdPs1 seq freq rsvHi rsvLo s
  | .pwrCmdPs2 seq freq rsvHi rsvLo => Sys2Proof.Machine.execPwrCmdPs2 seq freq rsvHi rsvLo s
  | .pwrCmdPs3 seq freq rsvHi rsvLo => Sys2Proof.Machine.execPwrCmdPs3 seq freq rsvHi rsvLo s
  | .ps1DrainComplete => Sys2Proof.Machine.execPs1DrainComplete s
  | .ps1DrainTimeout => Sys2Proof.Machine.execPs1DrainTimeout s
  | .powerTransitionComplete => Sys2Proof.Machine.execPowerTransitionComplete s
  | .selfRefreshIdle u => Sys2Proof.Machine.execSelfRefreshIdle u s
  | .powerSample mw => Sys2Proof.Machine.execPowerSample mw s
  | .powerThrottleStep estimate => Sys2Proof.Machine.execPowerThrottleStep estimate s
  | .thermalStep t => Sys2Proof.Machine.execThermalStep t s
  | .thermalStop t => Sys2Proof.Machine.execThermalStop t s
  | .thermalRestart t => Sys2Proof.Machine.execThermalRestart t s
  | .hostLinkDown => Sys2Proof.Machine.execHostLinkDown s
  | .hostLinkUp => Sys2Proof.Machine.execHostLinkUp s
  | .pmcsrWrite d => Sys2Proof.Machine.execPmcsrWrite d s
  | .launchSubmit slot w => Sys2Proof.Machine.execLaunchSubmit slot w s
  | .hostQueueAccept pos => Sys2Proof.Machine.execHostQueueAccept pos s
  | .cqcreate src => Sys2Proof.Machine.execCqcreate src s
  | .cqdestroy src => Sys2Proof.Machine.execCqdestroy src s
  | .objcreate src al dma => Sys2Proof.Machine.execObjcreate src al dma s
  | .objdelete src => Sys2Proof.Machine.execObjdelete src s
  | .objdeleteComplete index => Sys2Proof.Machine.execObjdeleteComplete index s
  | .objwrite src dma => Sys2Proof.Machine.execObjwrite src dma s
  | .objread src dma => Sys2Proof.Machine.execObjread src dma s
  | .objmove src al => Sys2Proof.Machine.execObjmove src al s
  | .flashreg src al dma => Sys2Proof.Machine.execFlashreg src al dma s
  | .objquery src dma => Sys2Proof.Machine.execObjquery src dma s
  | .slotbind src => Sys2Proof.Machine.execSlotbind src s
  | .gang src gid dma => Sys2Proof.Machine.execGang src gid dma s
  | .cqheadWrite n v => Sys2Proof.Machine.execCqheadWrite n v s
  | .cqtailRead n => Sys2Proof.Machine.execCqtailRead n s
  | .completionModerationTimer n => Sys2Proof.Machine.execCompletionModerationTimer n s
  | .errstatClear v => Sys2Proof.Machine.execErrstatClear v s
  | .pwrstatClear v => Sys2Proof.Machine.execPwrstatClear v s
  | .tetherstatClear v => Sys2Proof.Machine.execTetherstatClear v s
  | .plstatClear n v => Sys2Proof.Machine.execPlstatClear n v s
  | .slstatClear n v => Sys2Proof.Machine.execSlstatClear n v s
  | .tetherctlWrite v => Sys2Proof.Machine.execTetherctlWrite v s
  | .plctlDisable n => Sys2Proof.Machine.execPlctlDisable n s
  | .plctlEnable n => Sys2Proof.Machine.execPlctlEnable n s
  | .stepCounterWrite q inst v => Sys2Proof.Machine.execStepCounterWrite q inst v s
  | .fqheadWrite v => Sys2Proof.Machine.execFqheadWrite v s
  | .fanswerResume core bank => Sys2Proof.Machine.execFanswerResume core bank s
  | .fanswerSkip core bank => Sys2Proof.Machine.execFanswerSkip core bank s
  | .fanswerReplay core bank => Sys2Proof.Machine.execFanswerReplay core bank s
  | .fanswerKill core bank detail => Sys2Proof.Machine.execFanswerKill core bank detail s
  | .registerWrite bar off size v => Sys2Proof.Machine.execRegisterWrite bar off size v s
  | .cxlPortDown p why => Sys2Proof.Machine.execCxlPortDown p why s
  | .cxlPortUp p => Sys2Proof.Machine.execCxlPortUp p s
  | .cxlDownTimeout p => Sys2Proof.Machine.execCxlDownTimeout p s
  | .cxlExtentAdd p base len => Sys2Proof.Machine.execCxlExtentAdd p base len s
  | .cxlExtentRelease p base => Sys2Proof.Machine.execCxlExtentRelease p base s
  | .nvmeCompletion p cid => Sys2Proof.Machine.execNvmeCompletion p cid s
  | .nvmeTimeout p cid => Sys2Proof.Machine.execNvmeTimeout p cid s
  | .peerPortTrained p nbr => Sys2Proof.Machine.execPeerPortTrained p nbr s
  | .idle p h crc => Sys2Proof.Machine.execIdle p h crc s
  | .rdreq p h crc q => Sys2Proof.Machine.execRdreq p h crc q s
  | .rdrsp p h crc tag data => Sys2Proof.Machine.execRdrsp p h crc tag data s
  | .wrreq p h crc q => Sys2Proof.Machine.execWrreq p h crc q s
  | .wrack p h crc tag => Sys2Proof.Machine.execWrack p h crc tag s
  | .atreq p h crc q => Sys2Proof.Machine.execAtreq p h crc q s
  | .atrsp p h crc tag status old => Sys2Proof.Machine.execAtrsp p h crc tag status old s
  | .xfer p h crc data => Sys2Proof.Machine.execXfer p h crc data s
  | .tsync p h crc count rtt => Sys2Proof.Machine.execTsync p h crc count rtt s
  | .tsyncTimer => Sys2Proof.Machine.execTsyncTimer s
  | .lctlNak p h crc seq => Sys2Proof.Machine.execLctlNak p h crc seq s
  | .lctlCredit p h crc vc n => Sys2Proof.Machine.execLctlCredit p h crc vc n s
  | .portRxTimeout p => Sys2Proof.Machine.execPortRxTimeout p s
  | .requestTimeout id => Sys2Proof.Machine.execRequestTimeout id s
  | .gangPrepare p h crc gid lr => Sys2Proof.Machine.execGangPrepare p h crc gid lr s
  | .gangPrepared p h crc gid => Sys2Proof.Machine.execGangPrepared p h crc gid s
  | .gangRefused p h crc gid status => Sys2Proof.Machine.execGangRefused p h crc gid status s
  | .gangCommit p h crc gid t => Sys2Proof.Machine.execGangCommit p h crc gid t s
  | .gangAbort p h crc gid => Sys2Proof.Machine.execGangAbort p h crc gid s
  | .gangAlive p h crc gid => Sys2Proof.Machine.execGangAlive p h crc gid s
  | .gangDone p h crc gid status replays preempts => Sys2Proof.Machine.execGangDone p h crc gid status replays preempts s
  | .gangPrepareDeadline gid => Sys2Proof.Machine.execGangPrepareDeadline gid s
  | .gangStartT src gid => Sys2Proof.Machine.execGangStartT src gid s
  | .gangCommitWaitTimeout src gid => Sys2Proof.Machine.execGangCommitWaitTimeout src gid s
  | .gangAliveTimer => Sys2Proof.Machine.execGangAliveTimer s
  | .gangMemberSilent gid pkg => Sys2Proof.Machine.execGangMemberSilent gid pkg s
  | .gangCoordinatorSilent src gid => Sys2Proof.Machine.execGangCoordinatorSilent src gid s
  | .gangAbortCollect gid dma => Sys2Proof.Machine.execGangAbortCollect gid dma s
  | .hopplanSendSlot core => Sys2Proof.Machine.execHopplanSendSlot core s
  | .hopplanRecvStep core => Sys2Proof.Machine.execHopplanRecvStep core s
  | .hopplanRecvDeadline core => Sys2Proof.Machine.execHopplanRecvDeadline core s
  | .objectCacheFill unit handle => Sys2Proof.Machine.execObjectCacheFill unit handle s
  | .pageWalkComplete unit va => Sys2Proof.Machine.execPageWalkComplete unit va s
  | .memoryRequestComplete id ch => Sys2Proof.Machine.execMemoryRequestComplete id ch s
  | .sliceStrongAccess id => Sys2Proof.Machine.execSliceStrongAccess id s
  | .migrationBusyZero id => Sys2Proof.Machine.execMigrationBusyZero id s
  | .migrationCopyDone id => Sys2Proof.Machine.execMigrationCopyDone id s
  | .eviction victim pfn => Sys2Proof.Machine.execEviction victim pfn s
  | .accessBitSample => Sys2Proof.Machine.execAccessBitSample s
  | .memoryScrub slice => Sys2Proof.Machine.execMemoryScrub slice s
  | .handoverKeyxferAnswer id ok => Sys2Proof.Machine.execHandoverKeyxferAnswer id ok s
  | .handoverDataok id => Sys2Proof.Machine.execHandoverDataok id s
  | .handoverRebind va leaf al => Sys2Proof.Machine.execHandoverRebind va leaf al s
  | .handoverConfirm id => Sys2Proof.Machine.execHandoverConfirm id s
  | .handoverStepTimeout id => Sys2Proof.Machine.execHandoverStepTimeout id s
  | .handoverTimeout id => Sys2Proof.Machine.execHandoverTimeout id s
  | .attest => Sys2Proof.Machine.execAttest s
  | .wcreate => Sys2Proof.Machine.execWcreate s
  | .wdestroy => Sys2Proof.Machine.execWdestroy s
  | .keygen => Sys2Proof.Machine.execKeygen s
  | .certset => Sys2Proof.Machine.execCertset s
  | .keyxfer => Sys2Proof.Machine.execKeyxfer s
  | .securityLockstepMismatch => Sys2Proof.Machine.execSecurityLockstepMismatch s
  | .dependenceDecrement id => Sys2Proof.Machine.execDependenceDecrement id s
  | .paramImageLoaded task ch => Sys2Proof.Machine.execParamImageLoaded task ch s
  | .stepDispatch core ch => Sys2Proof.Machine.execStepDispatch core ch s
  | .agingStep task => Sys2Proof.Machine.execAgingStep task s
  | .preemptGrace task => Sys2Proof.Machine.execPreemptGrace task s
  | .preemptDiscardDone core => Sys2Proof.Machine.execPreemptDiscardDone core s
  | .gatherRelease => Sys2Proof.Machine.execGatherRelease s
  | .pipelineGathered => Sys2Proof.Machine.execPipelineGathered s
  | .localGangGathered ch => Sys2Proof.Machine.execLocalGangGathered ch s
  | .pipelineRebalance task => Sys2Proof.Machine.execPipelineRebalance task s
  | .taskEnd task => Sys2Proof.Machine.execTaskEnd task s
  | .parkedStepResume core bank => Sys2Proof.Machine.execParkedStepResume core bank s
  | .cascArrival id => Sys2Proof.Machine.execCascArrival id s
  | .spoutGrant slice => Sys2Proof.Machine.execSpoutGrant slice s
  | .cascHoldTimeout slice => Sys2Proof.Machine.execCascHoldTimeout slice s
  | .spoutLaunchTaken slice => Sys2Proof.Machine.execSpoutLaunchTaken slice s
  | .spoutNoRecord slice => Sys2Proof.Machine.execSpoutNoRecord slice s
  | .chainMessageStart chain ch => Sys2Proof.Machine.execChainMessageStart chain ch s
  | .chainStageFault chain => Sys2Proof.Machine.execChainStageFault chain s
  | .batchDeliver chain => Sys2Proof.Machine.execBatchDeliver chain s
  | .consumerGone chain entry => Sys2Proof.Machine.execConsumerGone chain entry s
  | .engineCommandIssue core q => Sys2Proof.Machine.execEngineCommandIssue core q s
  | .engineCommandRetire core q steps ch => Sys2Proof.Machine.execEngineCommandRetire core q steps ch s
  | .sfuWriteback core => Sys2Proof.Machine.execSfuWriteback core s
  | .stepBoundaryRelease core bank => Sys2Proof.Machine.execStepBoundaryRelease core bank s
  | .tokenStall core => Sys2Proof.Machine.execTokenStall core s
  | .faultFrameWrite core bank nl nm ns nx ch => Sys2Proof.Machine.execFaultFrameWrite core bank nl nm ns nx ch s
  | .ueEngine core bank => Sys2Proof.Machine.execUeEngine core bank s
  | .ueMem core va => Sys2Proof.Machine.execUeMem core va s
  | .ueBasin core bank => Sys2Proof.Machine.execUeBasin core bank s
  | .ueCacheEntry kind unit key => Sys2Proof.Machine.execUeCacheEntry kind unit key s
  | .ueSliceBuffer slice handle => Sys2Proof.Machine.execUeSliceBuffer slice handle s
  | .pubEffect id => Sys2Proof.Machine.execPubEffect id s
  | .draftOpen id => Sys2Proof.Machine.execDraftOpen id s
  | .spawnArrival id => Sys2Proof.Machine.execSpawnArrival id s
  | .nearbankStart core bank n => Sys2Proof.Machine.execNearbankStart core bank n s
  | .nearbankComplete core bank n => Sys2Proof.Machine.execNearbankComplete core bank n s
  | .seqCommandExecute core bank n => Sys2Proof.Machine.execSeqCommandExecute core bank n s
  | .attnRequestStart cluster ch => Sys2Proof.Machine.execAttnRequestStart cluster ch s
  | .pinReleaseFree handle blk => Sys2Proof.Machine.execPinReleaseFree handle blk s
  | .ringTransfer core k => Sys2Proof.Machine.execRingTransfer core k s
  | .tetherMsTick => Sys2Proof.Machine.execTetherMsTick s
  | .commandSlotSubmit slot w => Sys2Proof.Machine.execCommandSlotSubmit slot w s
  | .xsyncWaitRelease core c => Sys2Proof.Machine.execXsyncWaitRelease core c s

end Sys2Proof.Machine
end

