-- ==== Sys2Proof/Machine/Place.lean ====
section
/-!
DEFINITION. Placing one instruction where the next step fetches it (log entry 6): in a line of the code cache of core 0
for the instructions of steps, in the firmware of system core 0 for those that only system mode runs.
-/

namespace Sys2Proof.Machine

open Sys2Proof

/-- The instructions that only a system core runs (R288). -/
def onlySys : Instr → Bool
  | .syswr .. | .eret .. | .waiti .. | .halt .. | .decmap .. | .tlbinv .. | .otinv .. | .migr .. | .zerob .. | .keyset .. => true
  | _ => false

/-- A step that has been dispatched and has issued nothing, for the placing of one instruction. -/
def probeRun : StepRun where
  id := 0
  task := 0
  world := 0
  system := false
  step := 0
  prio := 0
  committed := true
  replay := false
  replays := 0
  preempted := false
  skips := 0
  cause := 0
  rowlim := 0x40
  tileRec := 0
  idx := .replicate 6 0
  maps := 0b001001001
  template := 0
  nlines := 2
  regs := 1536
  nbars := 4
  scratch := 4194304
  basin := 0
  qmask := 0x1F
  ord := 0
  acqs := []
  fences := []
  waitStart := 0
  dispatched := 0
  held := false
  boundary := 0
  fresh := false
  ringsAt := []
  ended := false
  discarding := false

/-- A line of stream C that ends its stream (Table 8-1) and holds w from slot 0. -/
def probeLine (w : Nat) : List Byte := toBytes 4 0x60000000 ++ toBytes 12 w ++ List.replicate 48 0

/-- The step of core 0, context C, fetches w. -/
def State.placeCore (s : State) (w : Nat) : State :=
  let c := s.core 0
  let k := c.bank 0
  let t := s.setCore 0 { (c.setBank 0 { k with st := .running, run := some probeRun, fault := none, C := { k.C with line := 0, slot := 0, xsync := none } }) with
    active := 0
    codeCache := tset c.codeCache (codeKey 0 0) (probeLine w) }
  { t with turn := .core 0 .C, agenda := .turn (.core 0 .C) :: t.agenda,
           power := { t.power with bootStep := 9, pstate := .ps0, thermStopped := false } }

/-- System core 0 fetches w. -/
def State.placeSys (s : State) (w : Nat) : State :=
  let c := s.sysCore 0
  let t := s.setSys 0 { c with ctx := { c.ctx with line := 0, slot := 0 }, sleeping := false, halted := false }
  { t with turn := .sys 0, agenda := .turn (.sys 0) :: t.agenda, firmware := mwrite t.firmware 0 (probeLine w),
           power := { t.power with bootStep := 9 } }

end Sys2Proof.Machine
end

