-- ==== Sys2Proof/Machine/Step.lean ====
section
/-!
DEFINITION. One step of the package (log entry 1): the first action of the agenda, or, with an empty agenda, one
instruction of the agent whose turn it is, or one nanosecond.
-/

namespace Sys2Proof.Machine

open Sys2Proof

/-- The agent whose turn it is fetches an instruction and executes it. -/
def issue (s : State) : Host.Outcome State Fault Refusal :=
  match fetch s with
  | .run i => exec i s
  | .next t => .next t
  | .fault r => .fault r

/-- One step. -/
def step (s : State) : Host.Outcome State Fault Refusal :=
  match s.agenda with
  | .event i :: rest => if i.size = 0 then exec i { s with agenda := rest } else .next { s with agenda := rest }
  | .turn a :: rest => issue { s with agenda := rest, turn := a }
  | .wait n :: rest => .next ({ s with agenda := rest }.pass n)
  | .toSelf m :: rest => .next (deliverSelf m { s with agenda := rest })
  | [] => if s.runnable then issue s else .next (s.pass 1)

/-- s with an instruction where the next step fetches it. -/
def State.withFetchWord (s : State) (nbits w : Nat) : State :=
  match decodeTableWord nbits w with
  | some i => if onlySys i then s.placeSys w else s.placeCore w
  | none => s.placeCore w

end Sys2Proof.Machine
end

