-- ==== Sys2Proof/Laws/Tables.lean ====
section
/-!
SUPPORT. Sparse tables and byte memories: what is read after a write, and that every memory operation keeps the
canonical form.
-/

namespace Sys2Proof.Machine

open Sys2Proof

/-! ### Tables -/

theorem tfind_tset_same {α : Type} (t : List (Nat × α)) (k : Nat) (v : α) : tfind (tset t k v) k = some v := by
  induction t with
  | nil => simp [tset, tfind]
  | cons e t ih =>
    obtain ⟨j, w⟩ := e
    simp only [tset]
    split
    · simp [tfind]
    · split
      · simp [tfind]
      · rename_i h _; simp [tfind, h, ih]

theorem tfind_tset_other {α : Type} (t : List (Nat × α)) (k j : Nat) (v : α) (h : j ≠ k) :
    tfind (tset t k v) j = tfind t j := by
  induction t with
  | nil => simp [tset, tfind, Ne.symm h]
  | cons e t ih =>
    obtain ⟨i, w⟩ := e
    simp only [tset]
    split
    · rename_i hi; subst hi; simp [tfind, Ne.symm h]
    · split
      · simp [tfind, Ne.symm h]
      · simp [tfind, ih]

@[simp] theorem tget_tset_same {α : Type} (t : List (Nat × α)) (d : α) (k : Nat) (v : α) : tget (tset t k v) d k = v := by
  simp [tget, tfind_tset_same]

theorem tget_tset_other {α : Type} (t : List (Nat × α)) (d : α) (k j : Nat) (v : α) (h : j ≠ k) :
    tget (tset t k v) d j = tget t d j := by
  simp [tget, tfind_tset_other t k j v h]

theorem tfind_filter {α : Type} (t : List (Nat × α)) (p : Nat → Bool) (k : Nat) :
    tfind (t.filter fun e => p e.1) k = if p k then tfind t k else none := by
  induction t with
  | nil => simp [tfind]
  | cons e t ih =>
    obtain ⟨i, w⟩ := e
    by_cases hp : p i
    · by_cases hi : i = k
      · subst hi; simp [hp, tfind]
      · simp [hp, tfind, hi, ih]
    · by_cases hi : i = k
      · subst hi; simp [hp, ih]
      · simp [hp, tfind, hi, ih]

@[simp] theorem tfind_tdel_same {α : Type} (t : List (Nat × α)) (k : Nat) : tfind (tdel t k) k = none := by
  have h := tfind_filter t (fun i => decide (i ≠ k)) k
  simpa [tdel] using h

theorem tfind_tdel_other {α : Type} (t : List (Nat × α)) (k j : Nat) (h : j ≠ k) : tfind (tdel t k) j = tfind t j := by
  have h' := tfind_filter t (fun i => decide (i ≠ k)) j
  simpa [tdel, h] using h'

/-! ### Bytes -/

theorem mget_mset_same (m : Memory) (a : Nat) (b : Byte) : mget (mset m a b) a = b := by
  unfold mget mset
  split
  · rename_i h; subst h; simp [tget]
  · simp

theorem mget_mset_other (m : Memory) (a c : Nat) (b : Byte) (h : c ≠ a) : mget (mset m a b) c = mget m c := by
  unfold mget mset
  split
  · simp [tget, tfind_tdel_other m a c h]
  · exact tget_tset_other m 0 a c b h

theorem mget_mwrite_below (bs : List Byte) (m : Memory) (a c : Nat) (h : c < a) : mget (mwrite m a bs) c = mget m c := by
  induction bs generalizing m a with
  | nil => rfl
  | cons b bs ih => rw [mwrite, ih (mset m a b) (a + 1) (by omega), mget_mset_other m a c b (by omega)]

theorem mget_mwrite_above (bs : List Byte) (m : Memory) (a c : Nat) (h : a + bs.length ≤ c) :
    mget (mwrite m a bs) c = mget m c := by
  induction bs generalizing m a with
  | nil => rfl
  | cons b bs ih =>
    simp only [List.length_cons] at h
    rw [mwrite, ih (mset m a b) (a + 1) (by omega), mget_mset_other m a c b (by omega)]

/-- A byte outside the range written reads as before. -/
theorem mget_mwrite_outside (bs : List Byte) (m : Memory) (a c : Nat) (h : c < a ∨ a + bs.length ≤ c) :
    mget (mwrite m a bs) c = mget m c :=
  h.elim (mget_mwrite_below bs m a c) (mget_mwrite_above bs m a c)

/-- A byte inside the range written reads as the byte written. -/
theorem mget_mwrite_inside (bs : List Byte) (m : Memory) (a k : Nat) (h : k < bs.length) :
    mget (mwrite m a bs) (a + k) = bs[k] := by
  induction bs generalizing m a k with
  | nil => simp at h
  | cons b bs ih =>
    rw [mwrite]
    cases k with
    | zero =>
      show mget (mwrite (mset m a b) (a + 1) bs) a = b
      rw [mget_mwrite_below bs _ (a + 1) a (by omega), mget_mset_same]
    | succ k =>
      have h' : k < bs.length := by simpa using h
      have := ih (mset m a b) (a + 1) k h'
      rw [show a + (k + 1) = a + 1 + k by omega, this]
      rfl

theorem mread_length (m : Memory) (a n : Nat) : (mread m a n).length = n := by
  induction n generalizing a with
  | zero => rfl
  | succ n ih => simp [mread, ih]

/-- Bytes written are read back. -/
theorem mread_mwrite_same (bs : List Byte) (m : Memory) (a : Nat) : mread (mwrite m a bs) a bs.length = bs := by
  have key : ∀ (n : Nat) (l : Memory) (b : Nat), mread l b n = (List.range n).map fun k => mget l (b + k) := by
    intro n
    induction n with
    | zero => intro l b; rfl
    | succ n ih =>
      intro l b
      rw [mread, ih, List.range_succ_eq_map]
      simp [Function.comp_def, Nat.add_assoc, Nat.add_comm 1]
  rw [key]
  apply List.ext_getElem
  · simp
  · intro k h1 h2
    simp [mget_mwrite_inside bs m a k h2]

theorem mget_mzero (m : Memory) (a n c : Nat) : mget (mzero m a n) c = if a ≤ c ∧ c < a + n then 0 else mget m c := by
  have h := tfind_filter m (fun i => !(decide (a ≤ i) && decide (i < a + n))) c
  by_cases hc : a ≤ c ∧ c < a + n
  · simp only [mget, mzero, tget, h, if_pos hc]
    simp [hc.1, hc.2]
  · have hb : (!(decide (a ≤ c) && decide (c < a + n))) = true := by
      by_cases h1 : a ≤ c
      · have h2 : ¬ c < a + n := fun h2 => hc ⟨h1, h2⟩
        simp [h2]
      · simp [h1]
    simp only [mget, mzero, tget, h, if_neg hc, if_pos hb]

/-! ### The canonical form -/

theorem Memory.wf_iff (m : Memory) :
    Memory.wf m = true ↔ m.Pairwise (fun x y => x.1 < y.1) ∧ ∀ e ∈ m, e.2 ≠ 0 := by
  induction m with
  | nil => simp [Memory.wf]
  | cons e t ih =>
    cases t with
    | nil => simp [Memory.wf]
    | cons f u =>
      rw [Memory.wf, Bool.and_eq_true, Bool.and_eq_true, ih]
      simp only [decide_eq_true_eq, List.pairwise_cons, List.mem_cons, forall_eq_or_imp, ne_eq]
      constructor
      · rintro ⟨⟨he, hlt⟩, ⟨hf, hu⟩, hzf, hzu⟩
        exact ⟨⟨⟨hlt, fun x hx => Nat.lt_trans hlt (hf x hx)⟩, hf, hu⟩, he, hzf, hzu⟩
      · rintro ⟨⟨⟨hlt, _⟩, hf, hu⟩, he, hzf, hzu⟩
        exact ⟨⟨he, hlt⟩, ⟨hf, hu⟩, hzf, hzu⟩

theorem Memory.wf_filter (m : Memory) (p : Host.Cell → Bool) (h : Memory.wf m = true) : Memory.wf (m.filter p) = true := by
  rw [Memory.wf_iff] at *
  exact ⟨h.1.filter p, fun e he => h.2 e (List.mem_filter.mp he).1⟩

theorem mem_tset {α : Type} (t : List (Nat × α)) (k : Nat) (v : α) (e : Nat × α) (h : e ∈ tset t k v) :
    e = (k, v) ∨ e ∈ t := by
  induction t with
  | nil => simpa [tset] using h
  | cons f t ih =>
    obtain ⟨j, w⟩ := f
    simp only [tset] at h
    split at h
    · rcases List.mem_cons.mp h with h | h
      · exact .inl h
      · exact .inr (List.mem_cons_of_mem _ h)
    · split at h
      · rcases List.mem_cons.mp h with h | h
        · exact .inl h
        · exact .inr h
      · rcases List.mem_cons.mp h with h | h
        · exact .inr (h ▸ List.mem_cons_self)
        · exact (ih h).imp id (List.mem_cons_of_mem _)

theorem pairwise_tset {α : Type} (t : List (Nat × α)) (k : Nat) (v : α) (h : t.Pairwise fun x y => x.1 < y.1) :
    (tset t k v).Pairwise fun x y => x.1 < y.1 := by
  induction t with
  | nil => simp [tset]
  | cons f t ih =>
    obtain ⟨j, w⟩ := f
    rw [List.pairwise_cons] at h
    simp only [tset]
    split
    · rename_i hj; subst hj; exact List.pairwise_cons.mpr ⟨h.1, h.2⟩
    · split
      · rename_i _ hk
        refine List.pairwise_cons.mpr ⟨?_, List.pairwise_cons.mpr ⟨h.1, h.2⟩⟩
        intro e he
        rcases List.mem_cons.mp he with he | he
        · subst he; exact hk
        · exact Nat.lt_trans hk (h.1 e he)
      · rename_i hj hk
        refine List.pairwise_cons.mpr ⟨?_, ih h.2⟩
        intro e he
        rcases mem_tset t k v e he with he | he
        · subst he; simp only; omega
        · exact h.1 e he

theorem Memory.wf_tset (m : Memory) (k : Nat) (b : Byte) (hb : b ≠ 0) (h : Memory.wf m = true) :
    Memory.wf (tset m k b) = true := by
  rw [Memory.wf_iff] at *
  refine ⟨pairwise_tset m k b h.1, fun e he => ?_⟩
  rcases mem_tset m k b e he with he | he
  · subst he; exact hb
  · exact h.2 e he

theorem Memory.wf_mset (m : Memory) (a : Nat) (b : Byte) (h : Memory.wf m = true) : Memory.wf (mset m a b) = true := by
  unfold mset
  split
  · exact Memory.wf_filter m _ h
  · rename_i hb; exact Memory.wf_tset m a b hb h

theorem Memory.wf_mwrite (bs : List Byte) (m : Memory) (a : Nat) (h : Memory.wf m = true) :
    Memory.wf (mwrite m a bs) = true := by
  induction bs generalizing m a with
  | nil => exact h
  | cons b bs ih => exact ih _ _ (Memory.wf_mset m a b h)

theorem Memory.wf_mputWord (m : Memory) (a : Nat) (w : Word) (h : Memory.wf m = true) :
    Memory.wf (mputWord m a w) = true := Memory.wf_mwrite _ m a h

theorem Memory.wf_mzero (m : Memory) (a n : Nat) (h : Memory.wf m = true) : Memory.wf (mzero m a n) = true :=
  Memory.wf_filter m _ h

end Sys2Proof.Machine
end

