-- ==== Sys2Proof/Laws/State.lean ====
section
/-!
SUPPORT. One lemma per field for each update of the state, and what is read after an update.
-/

namespace Sys2Proof.Machine

open Sys2Proof

/-! ### Fields that an update of a unit leaves -/

@[simp] theorem State.setCore_agenda (s : State) (f : Nat) (c : Core) : (s.setCore f c).agenda = s.agenda := rfl
@[simp] theorem State.setCore_turn (s : State) (f : Nat) (c : Core) : (s.setCore f c).turn = s.turn := rfl
@[simp] theorem State.setCore_now (s : State) (f : Nat) (c : Core) : (s.setCore f c).now = s.now := rfl
@[simp] theorem State.setCore_cycle (s : State) (f : Nat) (c : Core) : (s.setCore f c).cycle = s.cycle := rfl
@[simp] theorem State.setCore_phase (s : State) (f : Nat) (c : Core) : (s.setCore f c).phase = s.phase := rfl
@[simp] theorem State.setCore_tether (s : State) (f : Nat) (c : Core) : (s.setCore f c).tether = s.tether := rfl
@[simp] theorem State.setCore_pkg (s : State) (f : Nat) (c : Core) : (s.setCore f c).pkg = s.pkg := rfl
@[simp] theorem State.setCore_free (s : State) (f : Nat) (c : Core) : (s.setCore f c).free = s.free := rfl
@[simp] theorem State.setCore_runs (s : State) (f : Nat) (c : Core) : (s.setCore f c).runs = s.runs := rfl
@[simp] theorem State.setCore_power (s : State) (f : Nat) (c : Core) : (s.setCore f c).power = s.power := rfl
@[simp] theorem State.setCore_links (s : State) (f : Nat) (c : Core) : (s.setCore f c).links = s.links := rfl
@[simp] theorem State.setCore_host (s : State) (f : Nat) (c : Core) : (s.setCore f c).host = s.host := rfl
@[simp] theorem State.setCore_mem (s : State) (f : Nat) (c : Core) : (s.setCore f c).mem = s.mem := rfl
@[simp] theorem State.setCore_hostMem (s : State) (f : Nat) (c : Core) : (s.setCore f c).hostMem = s.hostMem := rfl
@[simp] theorem State.setCore_objs (s : State) (f : Nat) (c : Core) : (s.setCore f c).objs = s.objs := rfl
@[simp] theorem State.setCore_sec (s : State) (f : Nat) (c : Core) : (s.setCore f c).sec = s.sec := rfl
@[simp] theorem State.setCore_sched (s : State) (f : Nat) (c : Core) : (s.setCore f c).sched = s.sched := rfl
@[simp] theorem State.setCore_chains (s : State) (f : Nat) (c : Core) : (s.setCore f c).chains = s.chains := rfl
@[simp] theorem State.setCore_clusters (s : State) (f : Nat) (c : Core) : (s.setCore f c).clusters = s.clusters := rfl
@[simp] theorem State.setCore_slices (s : State) (f : Nat) (c : Core) : (s.setCore f c).slices = s.slices := rfl
@[simp] theorem State.setCore_faults (s : State) (f : Nat) (c : Core) : (s.setCore f c).faults = s.faults := rfl
@[simp] theorem State.setCore_sys (s : State) (f : Nat) (c : Core) : (s.setCore f c).sys = s.sys := rfl
@[simp] theorem State.setCore_firmware (s : State) (f : Nat) (c : Core) : (s.setCore f c).firmware = s.firmware := rfl
@[simp] theorem State.setSys_agenda (s : State) (n : Nat) (c : SysCore) : (s.setSys n c).agenda = s.agenda := rfl
@[simp] theorem State.setSys_turn (s : State) (n : Nat) (c : SysCore) : (s.setSys n c).turn = s.turn := rfl
@[simp] theorem State.setSys_now (s : State) (n : Nat) (c : SysCore) : (s.setSys n c).now = s.now := rfl
@[simp] theorem State.setSys_cycle (s : State) (n : Nat) (c : SysCore) : (s.setSys n c).cycle = s.cycle := rfl
@[simp] theorem State.setSys_phase (s : State) (n : Nat) (c : SysCore) : (s.setSys n c).phase = s.phase := rfl
@[simp] theorem State.setSys_tether (s : State) (n : Nat) (c : SysCore) : (s.setSys n c).tether = s.tether := rfl
@[simp] theorem State.setSys_pkg (s : State) (n : Nat) (c : SysCore) : (s.setSys n c).pkg = s.pkg := rfl
@[simp] theorem State.setSys_free (s : State) (n : Nat) (c : SysCore) : (s.setSys n c).free = s.free := rfl
@[simp] theorem State.setSys_runs (s : State) (n : Nat) (c : SysCore) : (s.setSys n c).runs = s.runs := rfl
@[simp] theorem State.setSys_power (s : State) (n : Nat) (c : SysCore) : (s.setSys n c).power = s.power := rfl
@[simp] theorem State.setSys_links (s : State) (n : Nat) (c : SysCore) : (s.setSys n c).links = s.links := rfl
@[simp] theorem State.setSys_host (s : State) (n : Nat) (c : SysCore) : (s.setSys n c).host = s.host := rfl
@[simp] theorem State.setSys_mem (s : State) (n : Nat) (c : SysCore) : (s.setSys n c).mem = s.mem := rfl
@[simp] theorem State.setSys_hostMem (s : State) (n : Nat) (c : SysCore) : (s.setSys n c).hostMem = s.hostMem := rfl
@[simp] theorem State.setSys_objs (s : State) (n : Nat) (c : SysCore) : (s.setSys n c).objs = s.objs := rfl
@[simp] theorem State.setSys_sec (s : State) (n : Nat) (c : SysCore) : (s.setSys n c).sec = s.sec := rfl
@[simp] theorem State.setSys_sched (s : State) (n : Nat) (c : SysCore) : (s.setSys n c).sched = s.sched := rfl
@[simp] theorem State.setSys_chains (s : State) (n : Nat) (c : SysCore) : (s.setSys n c).chains = s.chains := rfl
@[simp] theorem State.setSys_cores (s : State) (n : Nat) (c : SysCore) : (s.setSys n c).cores = s.cores := rfl
@[simp] theorem State.setSys_clusters (s : State) (n : Nat) (c : SysCore) : (s.setSys n c).clusters = s.clusters := rfl
@[simp] theorem State.setSys_slices (s : State) (n : Nat) (c : SysCore) : (s.setSys n c).slices = s.slices := rfl
@[simp] theorem State.setSys_faults (s : State) (n : Nat) (c : SysCore) : (s.setSys n c).faults = s.faults := rfl
@[simp] theorem State.setSys_firmware (s : State) (n : Nat) (c : SysCore) : (s.setSys n c).firmware = s.firmware := rfl
@[simp] theorem State.setSlice_agenda (s : State) (n : Nat) (x : Slice) : (s.setSlice n x).agenda = s.agenda := rfl
@[simp] theorem State.setSlice_turn (s : State) (n : Nat) (x : Slice) : (s.setSlice n x).turn = s.turn := rfl
@[simp] theorem State.setSlice_now (s : State) (n : Nat) (x : Slice) : (s.setSlice n x).now = s.now := rfl
@[simp] theorem State.setSlice_cycle (s : State) (n : Nat) (x : Slice) : (s.setSlice n x).cycle = s.cycle := rfl
@[simp] theorem State.setSlice_phase (s : State) (n : Nat) (x : Slice) : (s.setSlice n x).phase = s.phase := rfl
@[simp] theorem State.setSlice_tether (s : State) (n : Nat) (x : Slice) : (s.setSlice n x).tether = s.tether := rfl
@[simp] theorem State.setSlice_pkg (s : State) (n : Nat) (x : Slice) : (s.setSlice n x).pkg = s.pkg := rfl
@[simp] theorem State.setSlice_free (s : State) (n : Nat) (x : Slice) : (s.setSlice n x).free = s.free := rfl
@[simp] theorem State.setSlice_runs (s : State) (n : Nat) (x : Slice) : (s.setSlice n x).runs = s.runs := rfl
@[simp] theorem State.setSlice_power (s : State) (n : Nat) (x : Slice) : (s.setSlice n x).power = s.power := rfl
@[simp] theorem State.setSlice_links (s : State) (n : Nat) (x : Slice) : (s.setSlice n x).links = s.links := rfl
@[simp] theorem State.setSlice_host (s : State) (n : Nat) (x : Slice) : (s.setSlice n x).host = s.host := rfl
@[simp] theorem State.setSlice_mem (s : State) (n : Nat) (x : Slice) : (s.setSlice n x).mem = s.mem := rfl
@[simp] theorem State.setSlice_hostMem (s : State) (n : Nat) (x : Slice) : (s.setSlice n x).hostMem = s.hostMem := rfl
@[simp] theorem State.setSlice_objs (s : State) (n : Nat) (x : Slice) : (s.setSlice n x).objs = s.objs := rfl
@[simp] theorem State.setSlice_sec (s : State) (n : Nat) (x : Slice) : (s.setSlice n x).sec = s.sec := rfl
@[simp] theorem State.setSlice_sched (s : State) (n : Nat) (x : Slice) : (s.setSlice n x).sched = s.sched := rfl
@[simp] theorem State.setSlice_chains (s : State) (n : Nat) (x : Slice) : (s.setSlice n x).chains = s.chains := rfl
@[simp] theorem State.setSlice_cores (s : State) (n : Nat) (x : Slice) : (s.setSlice n x).cores = s.cores := rfl
@[simp] theorem State.setSlice_clusters (s : State) (n : Nat) (x : Slice) : (s.setSlice n x).clusters = s.clusters := rfl
@[simp] theorem State.setSlice_faults (s : State) (n : Nat) (x : Slice) : (s.setSlice n x).faults = s.faults := rfl
@[simp] theorem State.setSlice_sys (s : State) (n : Nat) (x : Slice) : (s.setSlice n x).sys = s.sys := rfl
@[simp] theorem State.setSlice_firmware (s : State) (n : Nat) (x : Slice) : (s.setSlice n x).firmware = s.firmware := rfl
@[simp] theorem State.setCluster_agenda (s : State) (n : Nat) (x : Cluster) : (s.setCluster n x).agenda = s.agenda := rfl
@[simp] theorem State.setCluster_turn (s : State) (n : Nat) (x : Cluster) : (s.setCluster n x).turn = s.turn := rfl
@[simp] theorem State.setCluster_now (s : State) (n : Nat) (x : Cluster) : (s.setCluster n x).now = s.now := rfl
@[simp] theorem State.setCluster_cycle (s : State) (n : Nat) (x : Cluster) : (s.setCluster n x).cycle = s.cycle := rfl
@[simp] theorem State.setCluster_phase (s : State) (n : Nat) (x : Cluster) : (s.setCluster n x).phase = s.phase := rfl
@[simp] theorem State.setCluster_tether (s : State) (n : Nat) (x : Cluster) : (s.setCluster n x).tether = s.tether := rfl
@[simp] theorem State.setCluster_pkg (s : State) (n : Nat) (x : Cluster) : (s.setCluster n x).pkg = s.pkg := rfl
@[simp] theorem State.setCluster_free (s : State) (n : Nat) (x : Cluster) : (s.setCluster n x).free = s.free := rfl
@[simp] theorem State.setCluster_runs (s : State) (n : Nat) (x : Cluster) : (s.setCluster n x).runs = s.runs := rfl
@[simp] theorem State.setCluster_power (s : State) (n : Nat) (x : Cluster) : (s.setCluster n x).power = s.power := rfl
@[simp] theorem State.setCluster_links (s : State) (n : Nat) (x : Cluster) : (s.setCluster n x).links = s.links := rfl
@[simp] theorem State.setCluster_host (s : State) (n : Nat) (x : Cluster) : (s.setCluster n x).host = s.host := rfl
@[simp] theorem State.setCluster_mem (s : State) (n : Nat) (x : Cluster) : (s.setCluster n x).mem = s.mem := rfl
@[simp] theorem State.setCluster_hostMem (s : State) (n : Nat) (x : Cluster) : (s.setCluster n x).hostMem = s.hostMem := rfl
@[simp] theorem State.setCluster_objs (s : State) (n : Nat) (x : Cluster) : (s.setCluster n x).objs = s.objs := rfl
@[simp] theorem State.setCluster_sec (s : State) (n : Nat) (x : Cluster) : (s.setCluster n x).sec = s.sec := rfl
@[simp] theorem State.setCluster_sched (s : State) (n : Nat) (x : Cluster) : (s.setCluster n x).sched = s.sched := rfl
@[simp] theorem State.setCluster_chains (s : State) (n : Nat) (x : Cluster) : (s.setCluster n x).chains = s.chains := rfl
@[simp] theorem State.setCluster_cores (s : State) (n : Nat) (x : Cluster) : (s.setCluster n x).cores = s.cores := rfl
@[simp] theorem State.setCluster_slices (s : State) (n : Nat) (x : Cluster) : (s.setCluster n x).slices = s.slices := rfl
@[simp] theorem State.setCluster_faults (s : State) (n : Nat) (x : Cluster) : (s.setCluster n x).faults = s.faults := rfl
@[simp] theorem State.setCluster_sys (s : State) (n : Nat) (x : Cluster) : (s.setCluster n x).sys = s.sys := rfl
@[simp] theorem State.setCluster_firmware (s : State) (n : Nat) (x : Cluster) : (s.setCluster n x).firmware = s.firmware := rfl
@[simp] theorem State.setChain_agenda (s : State) (n : Nat) (x : Chain) : (s.setChain n x).agenda = s.agenda := rfl
@[simp] theorem State.setChain_turn (s : State) (n : Nat) (x : Chain) : (s.setChain n x).turn = s.turn := rfl
@[simp] theorem State.setChain_now (s : State) (n : Nat) (x : Chain) : (s.setChain n x).now = s.now := rfl
@[simp] theorem State.setChain_cycle (s : State) (n : Nat) (x : Chain) : (s.setChain n x).cycle = s.cycle := rfl
@[simp] theorem State.setChain_phase (s : State) (n : Nat) (x : Chain) : (s.setChain n x).phase = s.phase := rfl
@[simp] theorem State.setChain_tether (s : State) (n : Nat) (x : Chain) : (s.setChain n x).tether = s.tether := rfl
@[simp] theorem State.setChain_pkg (s : State) (n : Nat) (x : Chain) : (s.setChain n x).pkg = s.pkg := rfl
@[simp] theorem State.setChain_free (s : State) (n : Nat) (x : Chain) : (s.setChain n x).free = s.free := rfl
@[simp] theorem State.setChain_runs (s : State) (n : Nat) (x : Chain) : (s.setChain n x).runs = s.runs := rfl
@[simp] theorem State.setChain_power (s : State) (n : Nat) (x : Chain) : (s.setChain n x).power = s.power := rfl
@[simp] theorem State.setChain_links (s : State) (n : Nat) (x : Chain) : (s.setChain n x).links = s.links := rfl
@[simp] theorem State.setChain_host (s : State) (n : Nat) (x : Chain) : (s.setChain n x).host = s.host := rfl
@[simp] theorem State.setChain_mem (s : State) (n : Nat) (x : Chain) : (s.setChain n x).mem = s.mem := rfl
@[simp] theorem State.setChain_hostMem (s : State) (n : Nat) (x : Chain) : (s.setChain n x).hostMem = s.hostMem := rfl
@[simp] theorem State.setChain_objs (s : State) (n : Nat) (x : Chain) : (s.setChain n x).objs = s.objs := rfl
@[simp] theorem State.setChain_sec (s : State) (n : Nat) (x : Chain) : (s.setChain n x).sec = s.sec := rfl
@[simp] theorem State.setChain_sched (s : State) (n : Nat) (x : Chain) : (s.setChain n x).sched = s.sched := rfl
@[simp] theorem State.setChain_cores (s : State) (n : Nat) (x : Chain) : (s.setChain n x).cores = s.cores := rfl
@[simp] theorem State.setChain_clusters (s : State) (n : Nat) (x : Chain) : (s.setChain n x).clusters = s.clusters := rfl
@[simp] theorem State.setChain_slices (s : State) (n : Nat) (x : Chain) : (s.setChain n x).slices = s.slices := rfl
@[simp] theorem State.setChain_faults (s : State) (n : Nat) (x : Chain) : (s.setChain n x).faults = s.faults := rfl
@[simp] theorem State.setChain_sys (s : State) (n : Nat) (x : Chain) : (s.setChain n x).sys = s.sys := rfl
@[simp] theorem State.setChain_firmware (s : State) (n : Nat) (x : Chain) : (s.setChain n x).firmware = s.firmware := rfl
@[simp] theorem State.setUnit_agenda (s : State) (n : Nat) (x : SchedUnit) : (s.setUnit n x).agenda = s.agenda := rfl
@[simp] theorem State.setUnit_turn (s : State) (n : Nat) (x : SchedUnit) : (s.setUnit n x).turn = s.turn := rfl
@[simp] theorem State.setUnit_now (s : State) (n : Nat) (x : SchedUnit) : (s.setUnit n x).now = s.now := rfl
@[simp] theorem State.setUnit_cycle (s : State) (n : Nat) (x : SchedUnit) : (s.setUnit n x).cycle = s.cycle := rfl
@[simp] theorem State.setUnit_phase (s : State) (n : Nat) (x : SchedUnit) : (s.setUnit n x).phase = s.phase := rfl
@[simp] theorem State.setUnit_tether (s : State) (n : Nat) (x : SchedUnit) : (s.setUnit n x).tether = s.tether := rfl
@[simp] theorem State.setUnit_pkg (s : State) (n : Nat) (x : SchedUnit) : (s.setUnit n x).pkg = s.pkg := rfl
@[simp] theorem State.setUnit_free (s : State) (n : Nat) (x : SchedUnit) : (s.setUnit n x).free = s.free := rfl
@[simp] theorem State.setUnit_runs (s : State) (n : Nat) (x : SchedUnit) : (s.setUnit n x).runs = s.runs := rfl
@[simp] theorem State.setUnit_power (s : State) (n : Nat) (x : SchedUnit) : (s.setUnit n x).power = s.power := rfl
@[simp] theorem State.setUnit_links (s : State) (n : Nat) (x : SchedUnit) : (s.setUnit n x).links = s.links := rfl
@[simp] theorem State.setUnit_host (s : State) (n : Nat) (x : SchedUnit) : (s.setUnit n x).host = s.host := rfl
@[simp] theorem State.setUnit_mem (s : State) (n : Nat) (x : SchedUnit) : (s.setUnit n x).mem = s.mem := rfl
@[simp] theorem State.setUnit_hostMem (s : State) (n : Nat) (x : SchedUnit) : (s.setUnit n x).hostMem = s.hostMem := rfl
@[simp] theorem State.setUnit_objs (s : State) (n : Nat) (x : SchedUnit) : (s.setUnit n x).objs = s.objs := rfl
@[simp] theorem State.setUnit_sec (s : State) (n : Nat) (x : SchedUnit) : (s.setUnit n x).sec = s.sec := rfl
@[simp] theorem State.setUnit_chains (s : State) (n : Nat) (x : SchedUnit) : (s.setUnit n x).chains = s.chains := rfl
@[simp] theorem State.setUnit_cores (s : State) (n : Nat) (x : SchedUnit) : (s.setUnit n x).cores = s.cores := rfl
@[simp] theorem State.setUnit_clusters (s : State) (n : Nat) (x : SchedUnit) : (s.setUnit n x).clusters = s.clusters := rfl
@[simp] theorem State.setUnit_slices (s : State) (n : Nat) (x : SchedUnit) : (s.setUnit n x).slices = s.slices := rfl
@[simp] theorem State.setUnit_faults (s : State) (n : Nat) (x : SchedUnit) : (s.setUnit n x).faults = s.faults := rfl
@[simp] theorem State.setUnit_sys (s : State) (n : Nat) (x : SchedUnit) : (s.setUnit n x).sys = s.sys := rfl
@[simp] theorem State.setUnit_firmware (s : State) (n : Nat) (x : SchedUnit) : (s.setUnit n x).firmware = s.firmware := rfl
@[simp] theorem State.setHunit_agenda (s : State) (n : Nat) (x : HandleUnit) : (s.setHunit n x).agenda = s.agenda := rfl
@[simp] theorem State.setHunit_turn (s : State) (n : Nat) (x : HandleUnit) : (s.setHunit n x).turn = s.turn := rfl
@[simp] theorem State.setHunit_now (s : State) (n : Nat) (x : HandleUnit) : (s.setHunit n x).now = s.now := rfl
@[simp] theorem State.setHunit_cycle (s : State) (n : Nat) (x : HandleUnit) : (s.setHunit n x).cycle = s.cycle := rfl
@[simp] theorem State.setHunit_phase (s : State) (n : Nat) (x : HandleUnit) : (s.setHunit n x).phase = s.phase := rfl
@[simp] theorem State.setHunit_tether (s : State) (n : Nat) (x : HandleUnit) : (s.setHunit n x).tether = s.tether := rfl
@[simp] theorem State.setHunit_pkg (s : State) (n : Nat) (x : HandleUnit) : (s.setHunit n x).pkg = s.pkg := rfl
@[simp] theorem State.setHunit_free (s : State) (n : Nat) (x : HandleUnit) : (s.setHunit n x).free = s.free := rfl
@[simp] theorem State.setHunit_runs (s : State) (n : Nat) (x : HandleUnit) : (s.setHunit n x).runs = s.runs := rfl
@[simp] theorem State.setHunit_power (s : State) (n : Nat) (x : HandleUnit) : (s.setHunit n x).power = s.power := rfl
@[simp] theorem State.setHunit_links (s : State) (n : Nat) (x : HandleUnit) : (s.setHunit n x).links = s.links := rfl
@[simp] theorem State.setHunit_host (s : State) (n : Nat) (x : HandleUnit) : (s.setHunit n x).host = s.host := rfl
@[simp] theorem State.setHunit_mem (s : State) (n : Nat) (x : HandleUnit) : (s.setHunit n x).mem = s.mem := rfl
@[simp] theorem State.setHunit_hostMem (s : State) (n : Nat) (x : HandleUnit) : (s.setHunit n x).hostMem = s.hostMem := rfl
@[simp] theorem State.setHunit_sec (s : State) (n : Nat) (x : HandleUnit) : (s.setHunit n x).sec = s.sec := rfl
@[simp] theorem State.setHunit_sched (s : State) (n : Nat) (x : HandleUnit) : (s.setHunit n x).sched = s.sched := rfl
@[simp] theorem State.setHunit_chains (s : State) (n : Nat) (x : HandleUnit) : (s.setHunit n x).chains = s.chains := rfl
@[simp] theorem State.setHunit_cores (s : State) (n : Nat) (x : HandleUnit) : (s.setHunit n x).cores = s.cores := rfl
@[simp] theorem State.setHunit_clusters (s : State) (n : Nat) (x : HandleUnit) : (s.setHunit n x).clusters = s.clusters := rfl
@[simp] theorem State.setHunit_slices (s : State) (n : Nat) (x : HandleUnit) : (s.setHunit n x).slices = s.slices := rfl
@[simp] theorem State.setHunit_faults (s : State) (n : Nat) (x : HandleUnit) : (s.setHunit n x).faults = s.faults := rfl
@[simp] theorem State.setHunit_sys (s : State) (n : Nat) (x : HandleUnit) : (s.setHunit n x).sys = s.sys := rfl
@[simp] theorem State.setHunit_firmware (s : State) (n : Nat) (x : HandleUnit) : (s.setHunit n x).firmware = s.firmware := rfl
@[simp] theorem State.setPeer_agenda (s : State) (n : Nat) (x : PeerPort) : (s.setPeer n x).agenda = s.agenda := rfl
@[simp] theorem State.setPeer_turn (s : State) (n : Nat) (x : PeerPort) : (s.setPeer n x).turn = s.turn := rfl
@[simp] theorem State.setPeer_now (s : State) (n : Nat) (x : PeerPort) : (s.setPeer n x).now = s.now := rfl
@[simp] theorem State.setPeer_cycle (s : State) (n : Nat) (x : PeerPort) : (s.setPeer n x).cycle = s.cycle := rfl
@[simp] theorem State.setPeer_phase (s : State) (n : Nat) (x : PeerPort) : (s.setPeer n x).phase = s.phase := rfl
@[simp] theorem State.setPeer_tether (s : State) (n : Nat) (x : PeerPort) : (s.setPeer n x).tether = s.tether := rfl
@[simp] theorem State.setPeer_pkg (s : State) (n : Nat) (x : PeerPort) : (s.setPeer n x).pkg = s.pkg := rfl
@[simp] theorem State.setPeer_free (s : State) (n : Nat) (x : PeerPort) : (s.setPeer n x).free = s.free := rfl
@[simp] theorem State.setPeer_runs (s : State) (n : Nat) (x : PeerPort) : (s.setPeer n x).runs = s.runs := rfl
@[simp] theorem State.setPeer_power (s : State) (n : Nat) (x : PeerPort) : (s.setPeer n x).power = s.power := rfl
@[simp] theorem State.setPeer_host (s : State) (n : Nat) (x : PeerPort) : (s.setPeer n x).host = s.host := rfl
@[simp] theorem State.setPeer_mem (s : State) (n : Nat) (x : PeerPort) : (s.setPeer n x).mem = s.mem := rfl
@[simp] theorem State.setPeer_hostMem (s : State) (n : Nat) (x : PeerPort) : (s.setPeer n x).hostMem = s.hostMem := rfl
@[simp] theorem State.setPeer_objs (s : State) (n : Nat) (x : PeerPort) : (s.setPeer n x).objs = s.objs := rfl
@[simp] theorem State.setPeer_sec (s : State) (n : Nat) (x : PeerPort) : (s.setPeer n x).sec = s.sec := rfl
@[simp] theorem State.setPeer_sched (s : State) (n : Nat) (x : PeerPort) : (s.setPeer n x).sched = s.sched := rfl
@[simp] theorem State.setPeer_chains (s : State) (n : Nat) (x : PeerPort) : (s.setPeer n x).chains = s.chains := rfl
@[simp] theorem State.setPeer_cores (s : State) (n : Nat) (x : PeerPort) : (s.setPeer n x).cores = s.cores := rfl
@[simp] theorem State.setPeer_clusters (s : State) (n : Nat) (x : PeerPort) : (s.setPeer n x).clusters = s.clusters := rfl
@[simp] theorem State.setPeer_slices (s : State) (n : Nat) (x : PeerPort) : (s.setPeer n x).slices = s.slices := rfl
@[simp] theorem State.setPeer_faults (s : State) (n : Nat) (x : PeerPort) : (s.setPeer n x).faults = s.faults := rfl
@[simp] theorem State.setPeer_sys (s : State) (n : Nat) (x : PeerPort) : (s.setPeer n x).sys = s.sys := rfl
@[simp] theorem State.setPeer_firmware (s : State) (n : Nat) (x : PeerPort) : (s.setPeer n x).firmware = s.firmware := rfl
@[simp] theorem State.setBank_agenda (s : State) (f : Nat) (b : BitVec 1) (k : Bank) : (s.setBank f b k).agenda = s.agenda := rfl
@[simp] theorem State.setBank_turn (s : State) (f : Nat) (b : BitVec 1) (k : Bank) : (s.setBank f b k).turn = s.turn := rfl
@[simp] theorem State.setBank_now (s : State) (f : Nat) (b : BitVec 1) (k : Bank) : (s.setBank f b k).now = s.now := rfl
@[simp] theorem State.setBank_cycle (s : State) (f : Nat) (b : BitVec 1) (k : Bank) : (s.setBank f b k).cycle = s.cycle := rfl
@[simp] theorem State.setBank_phase (s : State) (f : Nat) (b : BitVec 1) (k : Bank) : (s.setBank f b k).phase = s.phase := rfl
@[simp] theorem State.setBank_tether (s : State) (f : Nat) (b : BitVec 1) (k : Bank) : (s.setBank f b k).tether = s.tether := rfl
@[simp] theorem State.setBank_pkg (s : State) (f : Nat) (b : BitVec 1) (k : Bank) : (s.setBank f b k).pkg = s.pkg := rfl
@[simp] theorem State.setBank_free (s : State) (f : Nat) (b : BitVec 1) (k : Bank) : (s.setBank f b k).free = s.free := rfl
@[simp] theorem State.setBank_runs (s : State) (f : Nat) (b : BitVec 1) (k : Bank) : (s.setBank f b k).runs = s.runs := rfl
@[simp] theorem State.setBank_power (s : State) (f : Nat) (b : BitVec 1) (k : Bank) : (s.setBank f b k).power = s.power := rfl
@[simp] theorem State.setBank_links (s : State) (f : Nat) (b : BitVec 1) (k : Bank) : (s.setBank f b k).links = s.links := rfl
@[simp] theorem State.setBank_host (s : State) (f : Nat) (b : BitVec 1) (k : Bank) : (s.setBank f b k).host = s.host := rfl
@[simp] theorem State.setBank_mem (s : State) (f : Nat) (b : BitVec 1) (k : Bank) : (s.setBank f b k).mem = s.mem := rfl
@[simp] theorem State.setBank_hostMem (s : State) (f : Nat) (b : BitVec 1) (k : Bank) : (s.setBank f b k).hostMem = s.hostMem := rfl
@[simp] theorem State.setBank_objs (s : State) (f : Nat) (b : BitVec 1) (k : Bank) : (s.setBank f b k).objs = s.objs := rfl
@[simp] theorem State.setBank_sec (s : State) (f : Nat) (b : BitVec 1) (k : Bank) : (s.setBank f b k).sec = s.sec := rfl
@[simp] theorem State.setBank_sched (s : State) (f : Nat) (b : BitVec 1) (k : Bank) : (s.setBank f b k).sched = s.sched := rfl
@[simp] theorem State.setBank_chains (s : State) (f : Nat) (b : BitVec 1) (k : Bank) : (s.setBank f b k).chains = s.chains := rfl
@[simp] theorem State.setBank_clusters (s : State) (f : Nat) (b : BitVec 1) (k : Bank) : (s.setBank f b k).clusters = s.clusters := rfl
@[simp] theorem State.setBank_slices (s : State) (f : Nat) (b : BitVec 1) (k : Bank) : (s.setBank f b k).slices = s.slices := rfl
@[simp] theorem State.setBank_faults (s : State) (f : Nat) (b : BitVec 1) (k : Bank) : (s.setBank f b k).faults = s.faults := rfl
@[simp] theorem State.setBank_sys (s : State) (f : Nat) (b : BitVec 1) (k : Bank) : (s.setBank f b k).sys = s.sys := rfl
@[simp] theorem State.setBank_firmware (s : State) (f : Nat) (b : BitVec 1) (k : Bank) : (s.setBank f b k).firmware = s.firmware := rfl
@[simp] theorem State.setCurBank_agenda (s : State) (k : Bank) : (s.setCurBank k).agenda = s.agenda := rfl
@[simp] theorem State.setCurBank_turn (s : State) (k : Bank) : (s.setCurBank k).turn = s.turn := rfl
@[simp] theorem State.setCurBank_now (s : State) (k : Bank) : (s.setCurBank k).now = s.now := rfl
@[simp] theorem State.setCurBank_cycle (s : State) (k : Bank) : (s.setCurBank k).cycle = s.cycle := rfl
@[simp] theorem State.setCurBank_phase (s : State) (k : Bank) : (s.setCurBank k).phase = s.phase := rfl
@[simp] theorem State.setCurBank_tether (s : State) (k : Bank) : (s.setCurBank k).tether = s.tether := rfl
@[simp] theorem State.setCurBank_pkg (s : State) (k : Bank) : (s.setCurBank k).pkg = s.pkg := rfl
@[simp] theorem State.setCurBank_free (s : State) (k : Bank) : (s.setCurBank k).free = s.free := rfl
@[simp] theorem State.setCurBank_runs (s : State) (k : Bank) : (s.setCurBank k).runs = s.runs := rfl
@[simp] theorem State.setCurBank_power (s : State) (k : Bank) : (s.setCurBank k).power = s.power := rfl
@[simp] theorem State.setCurBank_links (s : State) (k : Bank) : (s.setCurBank k).links = s.links := rfl
@[simp] theorem State.setCurBank_host (s : State) (k : Bank) : (s.setCurBank k).host = s.host := rfl
@[simp] theorem State.setCurBank_mem (s : State) (k : Bank) : (s.setCurBank k).mem = s.mem := rfl
@[simp] theorem State.setCurBank_hostMem (s : State) (k : Bank) : (s.setCurBank k).hostMem = s.hostMem := rfl
@[simp] theorem State.setCurBank_objs (s : State) (k : Bank) : (s.setCurBank k).objs = s.objs := rfl
@[simp] theorem State.setCurBank_sec (s : State) (k : Bank) : (s.setCurBank k).sec = s.sec := rfl
@[simp] theorem State.setCurBank_sched (s : State) (k : Bank) : (s.setCurBank k).sched = s.sched := rfl
@[simp] theorem State.setCurBank_chains (s : State) (k : Bank) : (s.setCurBank k).chains = s.chains := rfl
@[simp] theorem State.setCurBank_clusters (s : State) (k : Bank) : (s.setCurBank k).clusters = s.clusters := rfl
@[simp] theorem State.setCurBank_slices (s : State) (k : Bank) : (s.setCurBank k).slices = s.slices := rfl
@[simp] theorem State.setCurBank_faults (s : State) (k : Bank) : (s.setCurBank k).faults = s.faults := rfl
@[simp] theorem State.setCurBank_sys (s : State) (k : Bank) : (s.setCurBank k).sys = s.sys := rfl
@[simp] theorem State.setCurBank_firmware (s : State) (k : Bank) : (s.setCurBank k).firmware = s.firmware := rfl

/-! ### Fields that an update of the issuing context leaves -/

@[simp] theorem State.setCtx_agenda (s : State) (x : Ctx) : (s.setCtx x).agenda = s.agenda := by unfold State.setCtx; split <;> rfl
@[simp] theorem State.setCtx_turn (s : State) (x : Ctx) : (s.setCtx x).turn = s.turn := by unfold State.setCtx; split <;> rfl
@[simp] theorem State.setCtx_now (s : State) (x : Ctx) : (s.setCtx x).now = s.now := by unfold State.setCtx; split <;> rfl
@[simp] theorem State.setCtx_cycle (s : State) (x : Ctx) : (s.setCtx x).cycle = s.cycle := by unfold State.setCtx; split <;> rfl
@[simp] theorem State.setCtx_phase (s : State) (x : Ctx) : (s.setCtx x).phase = s.phase := by unfold State.setCtx; split <;> rfl
@[simp] theorem State.setCtx_tether (s : State) (x : Ctx) : (s.setCtx x).tether = s.tether := by unfold State.setCtx; split <;> rfl
@[simp] theorem State.setCtx_pkg (s : State) (x : Ctx) : (s.setCtx x).pkg = s.pkg := by unfold State.setCtx; split <;> rfl
@[simp] theorem State.setCtx_free (s : State) (x : Ctx) : (s.setCtx x).free = s.free := by unfold State.setCtx; split <;> rfl
@[simp] theorem State.setCtx_runs (s : State) (x : Ctx) : (s.setCtx x).runs = s.runs := by unfold State.setCtx; split <;> rfl
@[simp] theorem State.setCtx_power (s : State) (x : Ctx) : (s.setCtx x).power = s.power := by unfold State.setCtx; split <;> rfl
@[simp] theorem State.setCtx_links (s : State) (x : Ctx) : (s.setCtx x).links = s.links := by unfold State.setCtx; split <;> rfl
@[simp] theorem State.setCtx_host (s : State) (x : Ctx) : (s.setCtx x).host = s.host := by unfold State.setCtx; split <;> rfl
@[simp] theorem State.setCtx_mem (s : State) (x : Ctx) : (s.setCtx x).mem = s.mem := by unfold State.setCtx; split <;> rfl
@[simp] theorem State.setCtx_hostMem (s : State) (x : Ctx) : (s.setCtx x).hostMem = s.hostMem := by unfold State.setCtx; split <;> rfl
@[simp] theorem State.setCtx_objs (s : State) (x : Ctx) : (s.setCtx x).objs = s.objs := by unfold State.setCtx; split <;> rfl
@[simp] theorem State.setCtx_sec (s : State) (x : Ctx) : (s.setCtx x).sec = s.sec := by unfold State.setCtx; split <;> rfl
@[simp] theorem State.setCtx_sched (s : State) (x : Ctx) : (s.setCtx x).sched = s.sched := by unfold State.setCtx; split <;> rfl
@[simp] theorem State.setCtx_chains (s : State) (x : Ctx) : (s.setCtx x).chains = s.chains := by unfold State.setCtx; split <;> rfl
@[simp] theorem State.setCtx_clusters (s : State) (x : Ctx) : (s.setCtx x).clusters = s.clusters := by unfold State.setCtx; split <;> rfl
@[simp] theorem State.setCtx_slices (s : State) (x : Ctx) : (s.setCtx x).slices = s.slices := by unfold State.setCtx; split <;> rfl
@[simp] theorem State.setCtx_faults (s : State) (x : Ctx) : (s.setCtx x).faults = s.faults := by unfold State.setCtx; split <;> rfl
@[simp] theorem State.setCtx_firmware (s : State) (x : Ctx) : (s.setCtx x).firmware = s.firmware := by unfold State.setCtx; split <;> rfl
@[simp] theorem State.setS_agenda (s : State) (r : BitVec 5) (v : Word) : (s.setS r v).agenda = s.agenda := State.setCtx_agenda _ _
@[simp] theorem State.setS_turn (s : State) (r : BitVec 5) (v : Word) : (s.setS r v).turn = s.turn := State.setCtx_turn _ _
@[simp] theorem State.setS_now (s : State) (r : BitVec 5) (v : Word) : (s.setS r v).now = s.now := State.setCtx_now _ _
@[simp] theorem State.setS_cycle (s : State) (r : BitVec 5) (v : Word) : (s.setS r v).cycle = s.cycle := State.setCtx_cycle _ _
@[simp] theorem State.setS_phase (s : State) (r : BitVec 5) (v : Word) : (s.setS r v).phase = s.phase := State.setCtx_phase _ _
@[simp] theorem State.setS_tether (s : State) (r : BitVec 5) (v : Word) : (s.setS r v).tether = s.tether := State.setCtx_tether _ _
@[simp] theorem State.setS_pkg (s : State) (r : BitVec 5) (v : Word) : (s.setS r v).pkg = s.pkg := State.setCtx_pkg _ _
@[simp] theorem State.setS_free (s : State) (r : BitVec 5) (v : Word) : (s.setS r v).free = s.free := State.setCtx_free _ _
@[simp] theorem State.setS_runs (s : State) (r : BitVec 5) (v : Word) : (s.setS r v).runs = s.runs := State.setCtx_runs _ _
@[simp] theorem State.setS_power (s : State) (r : BitVec 5) (v : Word) : (s.setS r v).power = s.power := State.setCtx_power _ _
@[simp] theorem State.setS_links (s : State) (r : BitVec 5) (v : Word) : (s.setS r v).links = s.links := State.setCtx_links _ _
@[simp] theorem State.setS_host (s : State) (r : BitVec 5) (v : Word) : (s.setS r v).host = s.host := State.setCtx_host _ _
@[simp] theorem State.setS_mem (s : State) (r : BitVec 5) (v : Word) : (s.setS r v).mem = s.mem := State.setCtx_mem _ _
@[simp] theorem State.setS_hostMem (s : State) (r : BitVec 5) (v : Word) : (s.setS r v).hostMem = s.hostMem := State.setCtx_hostMem _ _
@[simp] theorem State.setS_objs (s : State) (r : BitVec 5) (v : Word) : (s.setS r v).objs = s.objs := State.setCtx_objs _ _
@[simp] theorem State.setS_sec (s : State) (r : BitVec 5) (v : Word) : (s.setS r v).sec = s.sec := State.setCtx_sec _ _
@[simp] theorem State.setS_sched (s : State) (r : BitVec 5) (v : Word) : (s.setS r v).sched = s.sched := State.setCtx_sched _ _
@[simp] theorem State.setS_chains (s : State) (r : BitVec 5) (v : Word) : (s.setS r v).chains = s.chains := State.setCtx_chains _ _
@[simp] theorem State.setS_clusters (s : State) (r : BitVec 5) (v : Word) : (s.setS r v).clusters = s.clusters := State.setCtx_clusters _ _
@[simp] theorem State.setS_slices (s : State) (r : BitVec 5) (v : Word) : (s.setS r v).slices = s.slices := State.setCtx_slices _ _
@[simp] theorem State.setS_faults (s : State) (r : BitVec 5) (v : Word) : (s.setS r v).faults = s.faults := State.setCtx_faults _ _
@[simp] theorem State.setS_firmware (s : State) (r : BitVec 5) (v : Word) : (s.setS r v).firmware = s.firmware := State.setCtx_firmware _ _
@[simp] theorem State.setP_agenda (s : State) (r : BitVec 3) (v : Bool) : (s.setP r v).agenda = s.agenda := State.setCtx_agenda _ _
@[simp] theorem State.setP_turn (s : State) (r : BitVec 3) (v : Bool) : (s.setP r v).turn = s.turn := State.setCtx_turn _ _
@[simp] theorem State.setP_now (s : State) (r : BitVec 3) (v : Bool) : (s.setP r v).now = s.now := State.setCtx_now _ _
@[simp] theorem State.setP_cycle (s : State) (r : BitVec 3) (v : Bool) : (s.setP r v).cycle = s.cycle := State.setCtx_cycle _ _
@[simp] theorem State.setP_phase (s : State) (r : BitVec 3) (v : Bool) : (s.setP r v).phase = s.phase := State.setCtx_phase _ _
@[simp] theorem State.setP_tether (s : State) (r : BitVec 3) (v : Bool) : (s.setP r v).tether = s.tether := State.setCtx_tether _ _
@[simp] theorem State.setP_pkg (s : State) (r : BitVec 3) (v : Bool) : (s.setP r v).pkg = s.pkg := State.setCtx_pkg _ _
@[simp] theorem State.setP_free (s : State) (r : BitVec 3) (v : Bool) : (s.setP r v).free = s.free := State.setCtx_free _ _
@[simp] theorem State.setP_runs (s : State) (r : BitVec 3) (v : Bool) : (s.setP r v).runs = s.runs := State.setCtx_runs _ _
@[simp] theorem State.setP_power (s : State) (r : BitVec 3) (v : Bool) : (s.setP r v).power = s.power := State.setCtx_power _ _
@[simp] theorem State.setP_links (s : State) (r : BitVec 3) (v : Bool) : (s.setP r v).links = s.links := State.setCtx_links _ _
@[simp] theorem State.setP_host (s : State) (r : BitVec 3) (v : Bool) : (s.setP r v).host = s.host := State.setCtx_host _ _
@[simp] theorem State.setP_mem (s : State) (r : BitVec 3) (v : Bool) : (s.setP r v).mem = s.mem := State.setCtx_mem _ _
@[simp] theorem State.setP_hostMem (s : State) (r : BitVec 3) (v : Bool) : (s.setP r v).hostMem = s.hostMem := State.setCtx_hostMem _ _
@[simp] theorem State.setP_objs (s : State) (r : BitVec 3) (v : Bool) : (s.setP r v).objs = s.objs := State.setCtx_objs _ _
@[simp] theorem State.setP_sec (s : State) (r : BitVec 3) (v : Bool) : (s.setP r v).sec = s.sec := State.setCtx_sec _ _
@[simp] theorem State.setP_sched (s : State) (r : BitVec 3) (v : Bool) : (s.setP r v).sched = s.sched := State.setCtx_sched _ _
@[simp] theorem State.setP_chains (s : State) (r : BitVec 3) (v : Bool) : (s.setP r v).chains = s.chains := State.setCtx_chains _ _
@[simp] theorem State.setP_clusters (s : State) (r : BitVec 3) (v : Bool) : (s.setP r v).clusters = s.clusters := State.setCtx_clusters _ _
@[simp] theorem State.setP_slices (s : State) (r : BitVec 3) (v : Bool) : (s.setP r v).slices = s.slices := State.setCtx_slices _ _
@[simp] theorem State.setP_faults (s : State) (r : BitVec 3) (v : Bool) : (s.setP r v).faults = s.faults := State.setCtx_faults _ _
@[simp] theorem State.setP_firmware (s : State) (r : BitVec 3) (v : Bool) : (s.setP r v).firmware = s.firmware := State.setCtx_firmware _ _
@[simp] theorem State.setA_agenda (s : State) (r : BitVec 3) (v : U32) : (s.setA r v).agenda = s.agenda := State.setCtx_agenda _ _
@[simp] theorem State.setA_turn (s : State) (r : BitVec 3) (v : U32) : (s.setA r v).turn = s.turn := State.setCtx_turn _ _
@[simp] theorem State.setA_now (s : State) (r : BitVec 3) (v : U32) : (s.setA r v).now = s.now := State.setCtx_now _ _
@[simp] theorem State.setA_cycle (s : State) (r : BitVec 3) (v : U32) : (s.setA r v).cycle = s.cycle := State.setCtx_cycle _ _
@[simp] theorem State.setA_phase (s : State) (r : BitVec 3) (v : U32) : (s.setA r v).phase = s.phase := State.setCtx_phase _ _
@[simp] theorem State.setA_tether (s : State) (r : BitVec 3) (v : U32) : (s.setA r v).tether = s.tether := State.setCtx_tether _ _
@[simp] theorem State.setA_pkg (s : State) (r : BitVec 3) (v : U32) : (s.setA r v).pkg = s.pkg := State.setCtx_pkg _ _
@[simp] theorem State.setA_free (s : State) (r : BitVec 3) (v : U32) : (s.setA r v).free = s.free := State.setCtx_free _ _
@[simp] theorem State.setA_runs (s : State) (r : BitVec 3) (v : U32) : (s.setA r v).runs = s.runs := State.setCtx_runs _ _
@[simp] theorem State.setA_power (s : State) (r : BitVec 3) (v : U32) : (s.setA r v).power = s.power := State.setCtx_power _ _
@[simp] theorem State.setA_links (s : State) (r : BitVec 3) (v : U32) : (s.setA r v).links = s.links := State.setCtx_links _ _
@[simp] theorem State.setA_host (s : State) (r : BitVec 3) (v : U32) : (s.setA r v).host = s.host := State.setCtx_host _ _
@[simp] theorem State.setA_mem (s : State) (r : BitVec 3) (v : U32) : (s.setA r v).mem = s.mem := State.setCtx_mem _ _
@[simp] theorem State.setA_hostMem (s : State) (r : BitVec 3) (v : U32) : (s.setA r v).hostMem = s.hostMem := State.setCtx_hostMem _ _
@[simp] theorem State.setA_objs (s : State) (r : BitVec 3) (v : U32) : (s.setA r v).objs = s.objs := State.setCtx_objs _ _
@[simp] theorem State.setA_sec (s : State) (r : BitVec 3) (v : U32) : (s.setA r v).sec = s.sec := State.setCtx_sec _ _
@[simp] theorem State.setA_sched (s : State) (r : BitVec 3) (v : U32) : (s.setA r v).sched = s.sched := State.setCtx_sched _ _
@[simp] theorem State.setA_chains (s : State) (r : BitVec 3) (v : U32) : (s.setA r v).chains = s.chains := State.setCtx_chains _ _
@[simp] theorem State.setA_clusters (s : State) (r : BitVec 3) (v : U32) : (s.setA r v).clusters = s.clusters := State.setCtx_clusters _ _
@[simp] theorem State.setA_slices (s : State) (r : BitVec 3) (v : U32) : (s.setA r v).slices = s.slices := State.setCtx_slices _ _
@[simp] theorem State.setA_faults (s : State) (r : BitVec 3) (v : U32) : (s.setA r v).faults = s.faults := State.setCtx_faults _ _
@[simp] theorem State.setA_firmware (s : State) (r : BitVec 3) (v : U32) : (s.setA r v).firmware = s.firmware := State.setCtx_firmware _ _
@[simp] theorem State.goto_agenda (s : State) (p : Pos) : (s.goto p).agenda = s.agenda := State.setCtx_agenda _ _
@[simp] theorem State.goto_turn (s : State) (p : Pos) : (s.goto p).turn = s.turn := State.setCtx_turn _ _
@[simp] theorem State.goto_now (s : State) (p : Pos) : (s.goto p).now = s.now := State.setCtx_now _ _
@[simp] theorem State.goto_cycle (s : State) (p : Pos) : (s.goto p).cycle = s.cycle := State.setCtx_cycle _ _
@[simp] theorem State.goto_phase (s : State) (p : Pos) : (s.goto p).phase = s.phase := State.setCtx_phase _ _
@[simp] theorem State.goto_tether (s : State) (p : Pos) : (s.goto p).tether = s.tether := State.setCtx_tether _ _
@[simp] theorem State.goto_pkg (s : State) (p : Pos) : (s.goto p).pkg = s.pkg := State.setCtx_pkg _ _
@[simp] theorem State.goto_free (s : State) (p : Pos) : (s.goto p).free = s.free := State.setCtx_free _ _
@[simp] theorem State.goto_runs (s : State) (p : Pos) : (s.goto p).runs = s.runs := State.setCtx_runs _ _
@[simp] theorem State.goto_power (s : State) (p : Pos) : (s.goto p).power = s.power := State.setCtx_power _ _
@[simp] theorem State.goto_links (s : State) (p : Pos) : (s.goto p).links = s.links := State.setCtx_links _ _
@[simp] theorem State.goto_host (s : State) (p : Pos) : (s.goto p).host = s.host := State.setCtx_host _ _
@[simp] theorem State.goto_mem (s : State) (p : Pos) : (s.goto p).mem = s.mem := State.setCtx_mem _ _
@[simp] theorem State.goto_hostMem (s : State) (p : Pos) : (s.goto p).hostMem = s.hostMem := State.setCtx_hostMem _ _
@[simp] theorem State.goto_objs (s : State) (p : Pos) : (s.goto p).objs = s.objs := State.setCtx_objs _ _
@[simp] theorem State.goto_sec (s : State) (p : Pos) : (s.goto p).sec = s.sec := State.setCtx_sec _ _
@[simp] theorem State.goto_sched (s : State) (p : Pos) : (s.goto p).sched = s.sched := State.setCtx_sched _ _
@[simp] theorem State.goto_chains (s : State) (p : Pos) : (s.goto p).chains = s.chains := State.setCtx_chains _ _
@[simp] theorem State.goto_clusters (s : State) (p : Pos) : (s.goto p).clusters = s.clusters := State.setCtx_clusters _ _
@[simp] theorem State.goto_slices (s : State) (p : Pos) : (s.goto p).slices = s.slices := State.setCtx_slices _ _
@[simp] theorem State.goto_faults (s : State) (p : Pos) : (s.goto p).faults = s.faults := State.setCtx_faults _ _
@[simp] theorem State.goto_firmware (s : State) (p : Pos) : (s.goto p).firmware = s.firmware := State.setCtx_firmware _ _
@[simp] theorem State.advance_agenda (s : State) (n : Nat) : (s.advance n).agenda = s.agenda := State.setCtx_agenda _ _
@[simp] theorem State.advance_turn (s : State) (n : Nat) : (s.advance n).turn = s.turn := State.setCtx_turn _ _
@[simp] theorem State.advance_now (s : State) (n : Nat) : (s.advance n).now = s.now := State.setCtx_now _ _
@[simp] theorem State.advance_cycle (s : State) (n : Nat) : (s.advance n).cycle = s.cycle := State.setCtx_cycle _ _
@[simp] theorem State.advance_phase (s : State) (n : Nat) : (s.advance n).phase = s.phase := State.setCtx_phase _ _
@[simp] theorem State.advance_tether (s : State) (n : Nat) : (s.advance n).tether = s.tether := State.setCtx_tether _ _
@[simp] theorem State.advance_pkg (s : State) (n : Nat) : (s.advance n).pkg = s.pkg := State.setCtx_pkg _ _
@[simp] theorem State.advance_free (s : State) (n : Nat) : (s.advance n).free = s.free := State.setCtx_free _ _
@[simp] theorem State.advance_runs (s : State) (n : Nat) : (s.advance n).runs = s.runs := State.setCtx_runs _ _
@[simp] theorem State.advance_power (s : State) (n : Nat) : (s.advance n).power = s.power := State.setCtx_power _ _
@[simp] theorem State.advance_links (s : State) (n : Nat) : (s.advance n).links = s.links := State.setCtx_links _ _
@[simp] theorem State.advance_host (s : State) (n : Nat) : (s.advance n).host = s.host := State.setCtx_host _ _
@[simp] theorem State.advance_mem (s : State) (n : Nat) : (s.advance n).mem = s.mem := State.setCtx_mem _ _
@[simp] theorem State.advance_hostMem (s : State) (n : Nat) : (s.advance n).hostMem = s.hostMem := State.setCtx_hostMem _ _
@[simp] theorem State.advance_objs (s : State) (n : Nat) : (s.advance n).objs = s.objs := State.setCtx_objs _ _
@[simp] theorem State.advance_sec (s : State) (n : Nat) : (s.advance n).sec = s.sec := State.setCtx_sec _ _
@[simp] theorem State.advance_sched (s : State) (n : Nat) : (s.advance n).sched = s.sched := State.setCtx_sched _ _
@[simp] theorem State.advance_chains (s : State) (n : Nat) : (s.advance n).chains = s.chains := State.setCtx_chains _ _
@[simp] theorem State.advance_clusters (s : State) (n : Nat) : (s.advance n).clusters = s.clusters := State.setCtx_clusters _ _
@[simp] theorem State.advance_slices (s : State) (n : Nat) : (s.advance n).slices = s.slices := State.setCtx_slices _ _
@[simp] theorem State.advance_faults (s : State) (n : Nat) : (s.advance n).faults = s.faults := State.setCtx_faults _ _
@[simp] theorem State.advance_firmware (s : State) (n : Nat) : (s.advance n).firmware = s.firmware := State.setCtx_firmware _ _
@[simp] theorem State.setH_agenda (s : State) (r : BitVec 4) (v : Word) : (s.setH r v).agenda = s.agenda := by unfold State.setH; split <;> rfl
@[simp] theorem State.setH_turn (s : State) (r : BitVec 4) (v : Word) : (s.setH r v).turn = s.turn := by unfold State.setH; split <;> rfl
@[simp] theorem State.setH_now (s : State) (r : BitVec 4) (v : Word) : (s.setH r v).now = s.now := by unfold State.setH; split <;> rfl
@[simp] theorem State.setH_cycle (s : State) (r : BitVec 4) (v : Word) : (s.setH r v).cycle = s.cycle := by unfold State.setH; split <;> rfl
@[simp] theorem State.setH_phase (s : State) (r : BitVec 4) (v : Word) : (s.setH r v).phase = s.phase := by unfold State.setH; split <;> rfl
@[simp] theorem State.setH_tether (s : State) (r : BitVec 4) (v : Word) : (s.setH r v).tether = s.tether := by unfold State.setH; split <;> rfl
@[simp] theorem State.setH_pkg (s : State) (r : BitVec 4) (v : Word) : (s.setH r v).pkg = s.pkg := by unfold State.setH; split <;> rfl
@[simp] theorem State.setH_free (s : State) (r : BitVec 4) (v : Word) : (s.setH r v).free = s.free := by unfold State.setH; split <;> rfl
@[simp] theorem State.setH_runs (s : State) (r : BitVec 4) (v : Word) : (s.setH r v).runs = s.runs := by unfold State.setH; split <;> rfl
@[simp] theorem State.setH_power (s : State) (r : BitVec 4) (v : Word) : (s.setH r v).power = s.power := by unfold State.setH; split <;> rfl
@[simp] theorem State.setH_links (s : State) (r : BitVec 4) (v : Word) : (s.setH r v).links = s.links := by unfold State.setH; split <;> rfl
@[simp] theorem State.setH_host (s : State) (r : BitVec 4) (v : Word) : (s.setH r v).host = s.host := by unfold State.setH; split <;> rfl
@[simp] theorem State.setH_mem (s : State) (r : BitVec 4) (v : Word) : (s.setH r v).mem = s.mem := by unfold State.setH; split <;> rfl
@[simp] theorem State.setH_hostMem (s : State) (r : BitVec 4) (v : Word) : (s.setH r v).hostMem = s.hostMem := by unfold State.setH; split <;> rfl
@[simp] theorem State.setH_objs (s : State) (r : BitVec 4) (v : Word) : (s.setH r v).objs = s.objs := by unfold State.setH; split <;> rfl
@[simp] theorem State.setH_sec (s : State) (r : BitVec 4) (v : Word) : (s.setH r v).sec = s.sec := by unfold State.setH; split <;> rfl
@[simp] theorem State.setH_sched (s : State) (r : BitVec 4) (v : Word) : (s.setH r v).sched = s.sched := by unfold State.setH; split <;> rfl
@[simp] theorem State.setH_chains (s : State) (r : BitVec 4) (v : Word) : (s.setH r v).chains = s.chains := by unfold State.setH; split <;> rfl
@[simp] theorem State.setH_clusters (s : State) (r : BitVec 4) (v : Word) : (s.setH r v).clusters = s.clusters := by unfold State.setH; split <;> rfl
@[simp] theorem State.setH_slices (s : State) (r : BitVec 4) (v : Word) : (s.setH r v).slices = s.slices := by unfold State.setH; split <;> rfl
@[simp] theorem State.setH_faults (s : State) (r : BitVec 4) (v : Word) : (s.setH r v).faults = s.faults := by unfold State.setH; split <;> rfl
@[simp] theorem State.setH_firmware (s : State) (r : BitVec 4) (v : Word) : (s.setH r v).firmware = s.firmware := by unfold State.setH; split <;> rfl
@[simp] theorem State.setD_agenda (s : State) (r : BitVec 4) (v : DescW) : (s.setD r v).agenda = s.agenda := rfl
@[simp] theorem State.setD_turn (s : State) (r : BitVec 4) (v : DescW) : (s.setD r v).turn = s.turn := rfl
@[simp] theorem State.setD_now (s : State) (r : BitVec 4) (v : DescW) : (s.setD r v).now = s.now := rfl
@[simp] theorem State.setD_cycle (s : State) (r : BitVec 4) (v : DescW) : (s.setD r v).cycle = s.cycle := rfl
@[simp] theorem State.setD_phase (s : State) (r : BitVec 4) (v : DescW) : (s.setD r v).phase = s.phase := rfl
@[simp] theorem State.setD_tether (s : State) (r : BitVec 4) (v : DescW) : (s.setD r v).tether = s.tether := rfl
@[simp] theorem State.setD_pkg (s : State) (r : BitVec 4) (v : DescW) : (s.setD r v).pkg = s.pkg := rfl
@[simp] theorem State.setD_free (s : State) (r : BitVec 4) (v : DescW) : (s.setD r v).free = s.free := rfl
@[simp] theorem State.setD_runs (s : State) (r : BitVec 4) (v : DescW) : (s.setD r v).runs = s.runs := rfl
@[simp] theorem State.setD_power (s : State) (r : BitVec 4) (v : DescW) : (s.setD r v).power = s.power := rfl
@[simp] theorem State.setD_links (s : State) (r : BitVec 4) (v : DescW) : (s.setD r v).links = s.links := rfl
@[simp] theorem State.setD_host (s : State) (r : BitVec 4) (v : DescW) : (s.setD r v).host = s.host := rfl
@[simp] theorem State.setD_mem (s : State) (r : BitVec 4) (v : DescW) : (s.setD r v).mem = s.mem := rfl
@[simp] theorem State.setD_hostMem (s : State) (r : BitVec 4) (v : DescW) : (s.setD r v).hostMem = s.hostMem := rfl
@[simp] theorem State.setD_objs (s : State) (r : BitVec 4) (v : DescW) : (s.setD r v).objs = s.objs := rfl
@[simp] theorem State.setD_sec (s : State) (r : BitVec 4) (v : DescW) : (s.setD r v).sec = s.sec := rfl
@[simp] theorem State.setD_sched (s : State) (r : BitVec 4) (v : DescW) : (s.setD r v).sched = s.sched := rfl
@[simp] theorem State.setD_chains (s : State) (r : BitVec 4) (v : DescW) : (s.setD r v).chains = s.chains := rfl
@[simp] theorem State.setD_clusters (s : State) (r : BitVec 4) (v : DescW) : (s.setD r v).clusters = s.clusters := rfl
@[simp] theorem State.setD_slices (s : State) (r : BitVec 4) (v : DescW) : (s.setD r v).slices = s.slices := rfl
@[simp] theorem State.setD_faults (s : State) (r : BitVec 4) (v : DescW) : (s.setD r v).faults = s.faults := rfl
@[simp] theorem State.setD_sys (s : State) (r : BitVec 4) (v : DescW) : (s.setD r v).sys = s.sys := rfl
@[simp] theorem State.setD_firmware (s : State) (r : BitVec 4) (v : DescW) : (s.setD r v).firmware = s.firmware := rfl
@[simp] theorem State.noteIssue_agenda (s : State) : s.noteIssue.agenda = s.agenda := by unfold State.noteIssue; split <;> rfl
@[simp] theorem State.noteIssue_turn (s : State) : s.noteIssue.turn = s.turn := by unfold State.noteIssue; split <;> rfl
@[simp] theorem State.noteIssue_now (s : State) : s.noteIssue.now = s.now := by unfold State.noteIssue; split <;> rfl
@[simp] theorem State.noteIssue_cycle (s : State) : s.noteIssue.cycle = s.cycle := by unfold State.noteIssue; split <;> rfl
@[simp] theorem State.noteIssue_phase (s : State) : s.noteIssue.phase = s.phase := by unfold State.noteIssue; split <;> rfl
@[simp] theorem State.noteIssue_tether (s : State) : s.noteIssue.tether = s.tether := by unfold State.noteIssue; split <;> rfl
@[simp] theorem State.noteIssue_pkg (s : State) : s.noteIssue.pkg = s.pkg := by unfold State.noteIssue; split <;> rfl
@[simp] theorem State.noteIssue_free (s : State) : s.noteIssue.free = s.free := by unfold State.noteIssue; split <;> rfl
@[simp] theorem State.noteIssue_runs (s : State) : s.noteIssue.runs = s.runs := by unfold State.noteIssue; split <;> rfl
@[simp] theorem State.noteIssue_power (s : State) : s.noteIssue.power = s.power := by unfold State.noteIssue; split <;> rfl
@[simp] theorem State.noteIssue_links (s : State) : s.noteIssue.links = s.links := by unfold State.noteIssue; split <;> rfl
@[simp] theorem State.noteIssue_host (s : State) : s.noteIssue.host = s.host := by unfold State.noteIssue; split <;> rfl
@[simp] theorem State.noteIssue_mem (s : State) : s.noteIssue.mem = s.mem := by unfold State.noteIssue; split <;> rfl
@[simp] theorem State.noteIssue_hostMem (s : State) : s.noteIssue.hostMem = s.hostMem := by unfold State.noteIssue; split <;> rfl
@[simp] theorem State.noteIssue_objs (s : State) : s.noteIssue.objs = s.objs := by unfold State.noteIssue; split <;> rfl
@[simp] theorem State.noteIssue_sec (s : State) : s.noteIssue.sec = s.sec := by unfold State.noteIssue; split <;> rfl
@[simp] theorem State.noteIssue_sched (s : State) : s.noteIssue.sched = s.sched := by unfold State.noteIssue; split <;> rfl
@[simp] theorem State.noteIssue_chains (s : State) : s.noteIssue.chains = s.chains := by unfold State.noteIssue; split <;> rfl
@[simp] theorem State.noteIssue_clusters (s : State) : s.noteIssue.clusters = s.clusters := by unfold State.noteIssue; split <;> rfl
@[simp] theorem State.noteIssue_slices (s : State) : s.noteIssue.slices = s.slices := by unfold State.noteIssue; split <;> rfl
@[simp] theorem State.noteIssue_faults (s : State) : s.noteIssue.faults = s.faults := by unfold State.noteIssue; split <;> rfl
@[simp] theorem State.noteIssue_sys (s : State) : s.noteIssue.sys = s.sys := by unfold State.noteIssue; split <;> rfl
@[simp] theorem State.noteIssue_firmware (s : State) : s.noteIssue.firmware = s.firmware := by unfold State.noteIssue; split <;> rfl

/-! ### Units read after an update -/

@[simp] theorem State.core_setCore_same (s : State) (f : Nat) (c : Core) : (s.setCore f c).core f = c := by
  simp [State.core, State.setCore]
theorem State.core_setCore_other (s : State) (f g : Nat) (c : Core) (h : g ≠ f) : (s.setCore f c).core g = s.core g :=
  tget_tset_other _ _ _ _ _ h
@[simp] theorem State.sysCore_setSys_same (s : State) (n : Nat) (c : SysCore) : (s.setSys n c).sysCore n = c := by
  simp [State.sysCore, State.setSys]
theorem State.sysCore_setSys_other (s : State) (n m : Nat) (c : SysCore) (h : m ≠ n) : (s.setSys n c).sysCore m = s.sysCore m :=
  tget_tset_other _ _ _ _ _ h
@[simp] theorem State.chain_setChain_same (s : State) (n : Nat) (c : Chain) : (s.setChain n c).chain n = c := by
  simp [State.chain, State.setChain]
@[simp] theorem State.slice_setSlice_same (s : State) (n : Nat) (c : Slice) : (s.setSlice n c).slice n = c := by
  simp [State.slice, State.setSlice]
@[simp] theorem State.peer_setPeer_same (s : State) (n : Nat) (c : PeerPort) : (s.setPeer n c).peer n = c := by
  simp [State.peer, State.setPeer]

@[simp] theorem Core.bank_setBank_same (c : Core) (b : BitVec 1) (k : Bank) : (c.setBank b k).bank b = k := by
  simp [Core.bank, Core.setBank]
theorem Core.bank_setBank_other (c : Core) (a b : BitVec 1) (k : Bank) (h : a ≠ b) : (c.setBank b k).bank a = c.bank a := by
  have h' : b.toNat ≠ a.toNat := fun e => h (BitVec.eq_of_toNat_eq e.symm)
  simp [Core.bank, Core.setBank, h']
@[simp] theorem Core.active_setBank (c : Core) (b : BitVec 1) (k : Bank) : (c.setBank b k).active = c.active := rfl
@[simp] theorem State.bank_setBank_same (s : State) (f : Nat) (b : BitVec 1) (k : Bank) : (s.setBank f b k).bank f b = k := by
  simp [State.bank, State.setBank]
@[simp] theorem Bank.ctx_setCtx_same (k : Bank) (c : CtxId) (x : Ctx) : (k.setCtx c x).ctx c = x := by cases c <;> rfl
theorem Bank.ctx_setCtx_other (k : Bank) (c d : CtxId) (x : Ctx) (h : d ≠ c) : (k.setCtx c x).ctx d = k.ctx d := by
  cases c <;> cases d <;> first | rfl | exact absurd rfl h

/-- The issuing context reads as it was set. -/
@[simp] theorem State.ctx_setCtx (s : State) (x : Ctx) : (s.setCtx x).ctx = x := by
  unfold State.setCtx
  split <;> rename_i h <;> simp [State.ctx, h]

/-! ### Registers read after a write (R290) -/

@[simp] theorem Ctx.getS_zero (x : Ctx) : x.getS 0 = 0 := rfl
@[simp] theorem Ctx.getP_zero (x : Ctx) : x.getP 0 = true := rfl
@[simp] theorem Ctx.setS_zero (x : Ctx) (v : Word) : x.setS 0 v = x := rfl
@[simp] theorem Ctx.setP_zero (x : Ctx) (v : Bool) : x.setP 0 v = x := rfl
theorem Ctx.getS_setS_same (x : Ctx) (r : BitVec 5) (v : Word) (h : r ≠ 0) : (x.setS r v).getS r = v := by
  unfold Ctx.getS Ctx.setS
  rw [if_neg h, if_neg h]
  simp
theorem Ctx.getS_setS_other (x : Ctx) (r q : BitVec 5) (v : Word) (h : q ≠ r) : (x.setS r v).getS q = x.getS q := by
  have h' : r.toNat ≠ q.toNat := fun e => h (BitVec.eq_of_toNat_eq e.symm)
  unfold Ctx.getS Ctx.setS
  split
  · rfl
  · split
    · rfl
    · simp [h']
theorem State.getS_setS_same (s : State) (r : BitVec 5) (v : Word) (h : r ≠ 0) : (s.setS r v).getS r = v := by
  simp [State.getS, State.setS, Ctx.getS_setS_same _ _ _ h]
theorem State.getS_setS_other (s : State) (r q : BitVec 5) (v : Word) (h : q ≠ r) : (s.setS r v).getS q = s.getS q := by
  simp [State.getS, State.setS, Ctx.getS_setS_other _ _ _ _ h]
theorem Ctx.getA_setA_same (x : Ctx) (r : BitVec 3) (v : U32) : (x.setA r v).getA r = v := by simp [Ctx.getA, Ctx.setA]
theorem Ctx.getLc_setLc_same (x : Ctx) (r : BitVec 2) (v : U32) : (x.setLc r v).getLc r = v := by simp [Ctx.getLc, Ctx.setLc]
theorem Ctx.getP_setP_same (x : Ctx) (r : BitVec 3) (v : Bool) (h : r ≠ 0) : (x.setP r v).getP r = v := by
  have key : ∀ (r : BitVec 3) (p : BitVec 8),
      (p ||| (1#8 <<< r.toNat)).getLsbD r.toNat = true ∧ (p &&& ~~~(1#8 <<< r.toNat)).getLsbD r.toNat = false := by decide
  unfold Ctx.getP Ctx.setP
  rw [if_neg h, if_neg h]
  cases v
  · exact (key r x.p).2
  · exact (key r x.p).1

end Sys2Proof.Machine
end

