-- ==== Sys2Proof/Safety.lean ====
section
/-!
DEFINITION. The terms of the statements: what it means that an instruction issues, where it goes on, what a frame leaves
alone, and the invariants.
-/

namespace Sys2Proof.Safety

open Sys2Proof Sys2Proof.Machine

/-! ### Issue -/

/-- No register that an instruction names awaits a result (R176), and its guard holds (R282). -/
def Issues (s : State) (g : BitVec 4) (u : Uses) : Prop := s.awaits g u = false ∧ s.guardHolds g = true

/-- The turn is that of a context of a compute core. -/
def OnCore (s : State) : Prop := s.isSys = false
/-- The turn is that of a system core. -/
def OnSys (s : State) : Prop := s.isSys = true

/-- The step of the issuing context is past COMMIT (R447), or it is a system core. -/
def Committed (s : State) : Prop := s.isSys = true ∨ s.committed = true

/-- The instruction of n words has had its effect, and its context goes on after it (R279). -/
def goOn (s : State) (n : Nat) : State := s.noteIssue.advance n

/-- A cause is taken in place of the instruction (R242, R466). -/
def causes (s : State) (c : U16) : Host.Outcome State Fault Refusal := .next (s.trap (trapOf c))

/-- The outcome is a next state of which P holds. -/
def Ends (o : Host.Outcome State Fault Refusal) (P : State → Prop) : Prop := ∃ t, o = .next t ∧ P t

/-- The target of a branch (R321). -/
def target (s : State) (ld : BitVec 28) (slot : BitVec 4) : Pos :=
  { line := BitVec.ofInt 24 ((s.pos.line.toNat : Int) + ld.toInt), slot }

/-- The target of a branch lies in the image, its line is in the code cache and is one of the context's, and an instruction
starts there (R181, R321). -/
def AtHand (s : State) (ld : BitVec 28) (slot : BitVec 4) : Prop :=
  0 ≤ (s.pos.line.toNat : Int) + ld.toInt ∧ (s.pos.line.toNat : Int) + ld.toInt < s.nLines
    ∧ s.lineHeld (target s ld slot).line = true ∧ s.lineBad (linkOf (s.lineBytes (target s ld slot).line)) = false
    ∧ startsInstr (s.lineBytes (target s ld slot).line) slot.toNat 15 0 = true

/-! ### Registers of a vector command (R391) -/

/-- n registers from v lie below REGS of the issuing step. -/
def Fits (s : State) (v : BitVec 11) (n : Nat) : Prop := v.toNat + n ≤ (s.runLimits s.coreNo s.bankNo).1
/-- n registers from v and k from w have none in common. -/
def Apart (v : BitVec 11) (n : Nat) (w : BitVec 11) (k : Nat) : Prop := v.toNat + n ≤ w.toNat ∨ w.toNat + k ≤ v.toNat
/-- The n registers from v and from w are the same, or have none in common. -/
def Clear (v w : BitVec 11) (n : Nat) : Prop := v = w ∨ Apart v n w n

/-! ### Resolution -/

/-- The handle unit passes the handle in register h (checks 1 to 3 of Table 4-2), with entry e; t is the state after. -/
def Finds (s t : State) (h : BitVec 4) (e : Entry) : Prop := s.getEntry (s.asker .C) (s.getH h) = .ok t e

/-- The element of linear index i of the object in register h passes Table 4-2 and translation for an access that needs n
(R336); t is the state after, in which the access has its place in step order. -/
def Reaches (s t : State) (h : BitVec 4) (i : Word) (n : Need) (e : Entry) (p : Option Place) : Prop :=
  ∃ u, ((s.getEntry (s.asker .C) (s.getH h)).bind fun v e =>
      v.resolve (s.asker .C) (s.getH h) (tupleOf e i.toNat) i.toNat n) = .ok u { entry := e, place := p } ∧ t = u.bumpOrd

/-- The version instructions find the object in register h with right A; t is the state after. -/
def FindsVersion (s t : State) (h : BitVec 4) (e : Entry) : Prop :=
  ∃ u, Finds s u h e ∧ hasRight e s.world.toNat rightA = true ∧ t = u.bumpOrd

/-- The package has at hand the entries of these handles: they are 0, of this package or of none, or an object cache of it holds
their entries (log entry 29). -/
def Here (s : State) (hs : List Word) : Prop :=
  ∀ h ∈ hs, h = 0 ∨ hHome h = s.pkgNo ∨ 576 ≤ hHome h ∨ (s.cached h).isSome = true

/-- The object manager takes command c, of operation opc and well formed, from a source (R60, R61). -/
def Serves (s : State) (src : BitVec 9) (opc : Nat) (c : OmCmd) : Prop :=
  s.omRuns = true ∧ s.pickCmd src opc = some c ∧ c.opc = opc ∧ c.wellFormed = true
    ∧ (c.world = 0 ∨ (opc ≠ 0x01 ∧ opc ≠ 0x02 ∧ opc ≠ 0x20)) ∧ (c.fromTask = true → s.askResult c = (s, true))

/-- A flit of type ty arrives in order, with a good header, on port p, and is for this package if it names one (R39 to R41). -/
def Arrives (s : State) (p : BitVec 5) (ty : Nat) (h : Word) : Prop :=
  p.toNat < 18 ∧ (s.peer p.toNat).st = 2 ∧ hdrOk ty h = true ∧ hdrSeq h = (s.peer p.toNat).rxSeq
    ∧ (((ty < 8 ∨ ty = 9) ∧ ty ≠ 0) → hdrDst h = s.pkgNo)

/-- The state in which a flit that has arrived has its effect: received, acknowledged and its credit returned (R40). -/
def afterFlit (s : State) (p : BitVec 5) (ty : Nat) (h : Word) : State := s.receive p.toNat ty h true id

/-! ### Frames -/

/-- A register of the issuing context that a scalar instruction writes. -/
inductive Dest where
  | s (r : BitVec 5)
  | p (r : BitVec 3)
  | a (r : BitVec 3)
  | lc (r : BitVec 2)
deriving DecidableEq, Repr

/-- The destination of class c (R310). -/
def Dest.ofClass (c : BitVec 2) (r : BitVec 5) : Dest :=
  if c = 0 then .s r else if c = 1 then .a (r.setWidth 3) else if c = 2 then .lc (r.setWidth 2) else .p (r.setWidth 3)

/-- The one register that an instruction of the scalar families writes (13_isa_scalar.md), LDP and LDS among them. -/
def dest : Instr → Option Dest
  | .add _ x _ _ => some (.s x) | .sub _ x _ _ => some (.s x) | .mul _ x _ _ => some (.s x) | .mulh _ x _ _ => some (.s x)
  | .mulhz _ x _ _ => some (.s x) | .div _ x _ _ => some (.s x) | .divz _ x _ _ => some (.s x) | .rem _ x _ _ => some (.s x)
  | .remz _ x _ _ => some (.s x) | .and _ x _ _ => some (.s x) | .or _ x _ _ => some (.s x) | .xor _ x _ _ => some (.s x)
  | .andn _ x _ _ => some (.s x) | .shl _ x _ _ => some (.s x) | .shr _ x _ _ => some (.s x) | .sar _ x _ _ => some (.s x)
  | .rotl _ x _ _ => some (.s x) | .min _ x _ _ => some (.s x) | .minz _ x _ _ => some (.s x) | .max _ x _ _ => some (.s x)
  | .maxz _ x _ _ => some (.s x) | .clz _ x _ => some (.s x) | .ctz _ x _ => some (.s x) | .popc _ x _ => some (.s x)
  | .bswap _ x _ => some (.s x) | .sext _ x _ _ => some (.s x) | .zext _ x _ _ => some (.s x)
  | .mov _ x _ dc _ => some (Dest.ofClass dc x)
  | .pand _ x _ _ => some (.p x) | .por _ x _ _ => some (.p x) | .pxor _ x _ _ => some (.p x) | .pnot _ x _ => some (.p x)
  | .addi _ x _ rc _ => some (if rc = 0 then .s x else if rc = 1 then .a (x.setWidth 3) else .lc (x.setWidth 2))
  | .andi _ x _ _ => some (.s x) | .ori _ x _ _ => some (.s x) | .xori _ x _ _ => some (.s x) | .shli _ x _ _ => some (.s x)
  | .shri _ x _ _ => some (.s x) | .sari _ x _ _ => some (.s x) | .bfx _ x _ _ _ _ => some (.s x) | .bfi _ x _ _ _ => some (.s x)
  | .movi64 _ x _ => some (.s x) | .movi96 _ x _ _ => some (.s x) | .movhi _ x _ _ => some (.s x) | .sel _ x _ _ _ => some (.s x)
  | .cmp _ x _ _ _ _ => some (.p x) | .fadd _ x _ _ _ _ => some (.s x) | .fsub _ x _ _ _ _ => some (.s x)
  | .fmul _ x _ _ _ _ => some (.s x) | .ffma _ x _ _ _ _ _ => some (.s x) | .fdiv _ x _ _ _ _ => some (.s x)
  | .fsqrt _ x _ _ _ => some (.s x) | .fmin _ x _ _ _ => some (.s x) | .fmax _ x _ _ _ => some (.s x)
  | .fclass _ x _ _ => some (.s x) | .fcmp _ x _ _ _ _ => some (.p x) | .fcvt _ x _ _ _ _ _ => some (.s x)
  | .ldp _ x _ _ _ => some (.s x) | .lds _ x _ _ _ _ => some (.s x)
  | _ => none

/-- The registers of a context but the position are as before, apart from the destination d. -/
def SameBut (x y : Ctx) (d : Dest) : Prop :=
  (∀ r, d ≠ .s r → y.getS r = x.getS r) ∧ (∀ r, d ≠ .p r → y.getP r = x.getP r) ∧ (∀ r, d ≠ .a r → y.getA r = x.getA r)
    ∧ (∀ r, d ≠ .lc r → y.getLc r = x.getLc r) ∧ y.ret = x.ret ∧ y.pendS = x.pendS ∧ y.pendP = x.pendP ∧ y.fence = x.fence
    ∧ y.xsync = x.xsync ∧ y.skip = x.skip

/-- t has every register, unit and byte of memory of s, apart from the context that issues: of its bank only that context and
the note that its core waits change, of a system core only that context. -/
def ContextOnly (s t : State) : Prop :=
  t = { s with cores := t.cores, sys := t.sys }
    ∧ (∀ f, s.isSys = true ∨ f ≠ s.coreNo → t.core f = s.core f)
    ∧ t.core s.coreNo = { s.core s.coreNo with banks := (t.core s.coreNo).banks }
    ∧ (∀ b, b ≠ s.bankNo → t.bank s.coreNo b = s.bank s.coreNo b)
    ∧ t.curBank = { s.curBank with L := t.curBank.L, C := t.curBank.C, S := t.curBank.S, stall := t.curBank.stall }
    ∧ (∀ c, c ≠ s.ctxNo → t.curBank.ctx c = s.curBank.ctx c)
    ∧ (∀ n, s.turn ≠ .sys n → t.sysCore n.toNat = s.sysCore n.toNat)
    ∧ (∀ n, t.sysCore n = { s.sysCore n with ctx := (t.sysCore n).ctx })

/-- The cores that pre-emption has given away are these (R149). -/
def withGrants (s : State) (l : List (Nat × Word)) : State := { s with sched := { s.sched with grants := l } }

/-- A local gang has gathered, and starts (R143). -/
def gangStarted (s : State) (x : LocalGang) : State :=
  let gangs := s.sched.gangs.map fun y => if y = x then { y with started := true } else y
  { s with sched := { s.sched with gather := none, gangs } }

/-- Every byte of memory is as before, apart from the record that completion object n takes at its tail (R63). -/
def MemoryBut (s t : State) (n : Nat) : Prop :=
  ∀ a, (∀ q, s.cq n = some q → a < q.base + 64 * q.tail.toNat ∨ q.base + 64 * q.tail.toNat + 64 ≤ a) → mget t.mem a = mget s.mem a

/-! ### Invariants -/

/-- The memory of the package and that of the host have their canonical form: rising addresses, no zero byte. -/
def MemoryCanonical (s : State) : Prop := Memory.wf s.mem = true ∧ Memory.wf s.hostMem = true

end Sys2Proof.Safety
end

