-- ==== Sys2Proof/Laws/Ops.lean ====
section
/-!
SUPPORT. What each shared operation can do: the issue of an instruction, the issue of an engine command, and taking an
exception.
-/

namespace Sys2Proof.Laws

open Sys2Proof Sys2Proof.Machine Sys2Proof.Safety

/-! ### Issue -/

/-- An instruction that may issue has its own effect. -/
theorem control_issues (F : Form) (g : BitVec 4) (u : Uses) (s : State) (body : State → Res) (h : Issues s g u)
    (hc : F.compute = true → OnCore s) (hs : F.sys = true → OnSys s) (hm : F.commit = true → Committed s) :
    Machine.control F g u s body = finish s F.size (body s) := by
  obtain ⟨ha, hg⟩ := h
  simp only [OnCore, OnSys, Committed] at hc hs hm
  have h1 : (F.compute && s.isSys) = false := by cases hF : F.compute <;> simp_all
  have h2 : (F.sys && !s.isSys) = false := by cases hF : F.sys <;> simp_all
  have h3 : (F.commit && !s.isSys && !s.committed) = false := by cases hF : F.commit <;> cases hi : s.isSys <;> simp_all
  simp [Machine.control, h1, h2, h3, ha, hg]

/-- An instruction that any core may issue has its own effect. -/
theorem plain_issues (n : Nat) (g : BitVec 4) (u : Uses) (s : State) (body : State → Res) (h : Issues s g u) :
    Machine.control { size := n } g u s body = finish s n (body s) :=
  control_issues _ g u s body h (fun e => nomatch e) (fun e => nomatch e) fun e => nomatch e

/-- An instruction of compute cores has its own effect on one. -/
theorem compute_issues (n : Nat) (g : BitVec 4) (u : Uses) (s : State) (body : State → Res) (h : Issues s g u) (hc : OnCore s) :
    Machine.control { size := n, compute := true } g u s body = finish s n (body s) :=
  control_issues _ g u s body h (fun _ => hc) (fun e => nomatch e) fun e => nomatch e

/-- An instruction that needs COMMIT has its own effect past it. -/
theorem commit_issues (n : Nat) (g : BitVec 4) (u : Uses) (s : State) (body : State → Res) (h : Issues s g u) (hm : Committed s) :
    Machine.control { size := n, commit := true } g u s body = finish s n (body s) :=
  control_issues _ g u s body h (fun e => nomatch e) (fun e => nomatch e) fun _ => hm

/-- A system instruction has its own effect on a system core. -/
theorem system_issues (n : Nat) (g : BitVec 4) (u : Uses) (s : State) (body : State → Res) (h : Issues s g u) (hs : OnSys s) :
    Machine.control { size := n, sys := true } g u s body = finish s n (body s) :=
  control_issues _ g u s body h (fun e => nomatch e) (fun _ => hs) fun e => nomatch e

/-- What the issue of an instruction can answer: the state as it is while a register is awaited, the position after it
where the guard does not hold, a cause, or what its effect makes of the state. -/
theorem control_cases (F : Form) (g : BitVec 4) (u : Uses) (s : State) (body : State → Res) :
    Machine.control F g u s body = .next s ∨ Machine.control F g u s body = .next (goOn s F.size)
      ∨ (∃ c, Machine.control F g u s body = .next (s.trap (trapOf c))) ∨ Machine.control F g u s body = finish s F.size (body s) := by
  unfold Machine.control goOn
  split
  · exact .inr (.inr (.inl ⟨_, rfl⟩))
  split
  · exact .inr (.inr (.inl ⟨_, rfl⟩))
  split
  · exact .inl rfl
  split
  · exact .inr (.inl rfl)
  split
  · exact .inr (.inr (.inl ⟨_, rfl⟩))
  · exact .inr (.inr (.inr rfl))

/-- A context without awaited results issues any instruction without a guard. -/
theorem issues_quiet (s : State) (u : Uses) (hs : s.ctx.pendS = 0) (hp : s.ctx.pendP = 0) : Issues s 0 u := by
  constructor
  · simp [State.awaits, hs, hp]
  · simp [State.guardHolds, State.getP, Ctx.getP]

/-- An engine command with room in its queue enters it. -/
theorem engine_issues (n : Nat) (commit : Bool) (q : QueueId) (tk g : BitVec 4) (u : Uses) (i : Instr) (s : State)
    (sample : State → Except TrapInfo Sample) (m : Sample) (h : Issues s g u) (hc : OnCore s)
    (hm : commit = true → Committed s) (hq : (s.curBank.queue q).length < 32) (hsm : sample s = .ok m) :
    engine n commit q tk g u i s sample = .next (goOn (s.pushCmd q tk i m) n) := by
  unfold engine
  rw [control_issues _ _ _ _ _ h (fun _ => hc) (by simp) hm]
  have : ¬ 32 ≤ (s.curBank.queue q).length := by omega
  simp only [this, if_false, hsm, finish, goOn]

/-- An engine command waits while its queue holds 32 commands. -/
theorem engine_waits (n : Nat) (commit : Bool) (q : QueueId) (tk g : BitVec 4) (u : Uses) (i : Instr) (s : State)
    (sample : State → Except TrapInfo Sample) (h : Issues s g u) (hc : OnCore s)
    (hm : commit = true → Committed s) (hq : 32 ≤ (s.curBank.queue q).length) :
    engine n commit q tk g u i s sample = .next s := by
  unfold engine
  rw [control_issues _ _ _ _ _ h (fun _ => hc) (by simp) hm]
  simp only [hq, if_true, finish]

/-! ### Taking an exception -/

/-- The first cause of a bank is recorded. -/
theorem raise_first (s : State) (f : Nat) (b : BitVec 1) (src : BitVec 3) (p : Pos) (t : Word) (x : TrapInfo)
    (h : (s.bank f b).fault = none) :
    ∃ fi, ((s.raise f b src p t x).bank f b).fault = some fi ∧ fi.cause = x.cause ∧ fi.fpc = p ∧ fi.source = src
      ∧ fi.multi = false ∧ ((s.raise f b src p t x).bank f b).st = .draining := by
  unfold State.raise
  simp [h]

/-- A later cause only sets MULTI. -/
theorem raise_later (s : State) (f : Nat) (b : BitVec 1) (src : BitVec 3) (p : Pos) (t : Word) (x : TrapInfo) (fi : FaultInfo)
    (h : (s.bank f b).fault = some fi) :
    s.raise f b src p t x = s.setBank f b { s.bank f b with fault := some { fi with multi := true } } := by
  unfold State.raise
  simp [h]

/-- Taking an exception leaves memory alone. -/
theorem raise_mem (s : State) (f : Nat) (b : BitVec 1) (src : BitVec 3) (p : Pos) (t : Word) (x : TrapInfo) :
    (s.raise f b src p t x).mem = s.mem ∧ (s.raise f b src p t x).hostMem = s.hostMem := by
  cases h : (s.bank f b).fault with
  | none => simp only [State.raise, h]; exact ⟨rfl, rfl⟩
  | some fi => simp only [State.raise, h]; exact ⟨rfl, rfl⟩

@[simp] theorem trap_mem (s : State) (x : TrapInfo) : (s.trap x).mem = s.mem := by
  unfold State.trap
  split
  · exact (raise_mem _ _ _ _ _ _ _).1
  · rfl
@[simp] theorem trap_hostMem (s : State) (x : TrapInfo) : (s.trap x).hostMem = s.hostMem := by
  unfold State.trap
  split
  · exact (raise_mem _ _ _ _ _ _ _).2
  · rfl

end Sys2Proof.Laws
end

