-- ==== Sys2Proof/Laws/Encode.lean ====
section
/-!
SUPPORT. The parts of the encoder and the decoder undo each other: words and numbers, segments and numbers.
-/

namespace Sys2Proof

theorem splitWords_length (n x : Nat) : (splitWords n x).length = n := by
  induction n generalizing x with
  | zero => rfl
  | succ n ih => simp [splitWords, ih]

namespace Decode

theorem join_splitWords (n x : Nat) : join (splitWords n x) = x % 2 ^ (32 * n) := by
  induction n generalizing x with
  | zero => simp [splitWords, join, Nat.mod_one]
  | succ n ih =>
    simp only [splitWords, join, ih, BitVec.toNat_ofNat]
    rw [show 32 * (n + 1) = 32 + 32 * n by omega, Nat.pow_add, Nat.mod_mul]

/-- The width of a list of segments. -/
def width : List (Nat × Nat) → Nat
  | [] => 0
  | f :: rest => f.1 + width rest

theorem pack_lt (l : List (Nat × Nat)) : pack l < 2 ^ width l := by
  induction l with
  | nil => simp [pack, width]
  | cons f rest ih =>
    obtain ⟨w, v⟩ := f
    simp only [pack, width, Nat.pow_add]
    have h : v % 2 ^ w < 2 ^ w := Nat.mod_lt _ (Nat.two_pow_pos w)
    calc v % 2 ^ w + 2 ^ w * pack rest < 2 ^ w + 2 ^ w * pack rest := by omega
      _ = 2 ^ w * (pack rest + 1) := by rw [Nat.mul_add, Nat.mul_one, Nat.add_comm]
      _ ≤ 2 ^ w * 2 ^ width rest := Nat.mul_le_mul_left _ ih

/-- Segments that are packed come back, each modulo its width. -/
theorem unpack_pack (l : List (Nat × Nat)) : unpack (l.map fun f => f.1) (pack l) = l.map fun f => f.2 % 2 ^ f.1 := by
  induction l with
  | nil => rfl
  | cons f rest ih =>
    obtain ⟨w, v⟩ := f
    have h : v % 2 ^ w < 2 ^ w := Nat.mod_lt _ (Nat.two_pow_pos w)
    simp only [List.map_cons, unpack, pack]
    rw [Nat.add_mul_mod_self_left, Nat.mod_mod, Nat.add_mul_div_left _ _ (Nat.two_pow_pos w), Nat.div_eq_of_lt h, Nat.zero_add, ih]

/-- A field of an instruction that is packed and read back is the field. -/
theorem ofNat_toNat_mod {n : Nat} (x : BitVec n) : BitVec.ofNat n (x.toNat % 2 ^ n) = x := by
  rw [Nat.mod_eq_of_lt x.isLt, BitVec.ofNat_toNat, BitVec.setWidth_eq]

/-- The decoder reads an encoded instruction back, where the first row of its opcode and length that fits its number builds
it. -/
theorem words_encode (i : Instr) (n : Nat) (op : Nat) (l : List (Nat × Nat)) (r : Row)
   (hs : segments i = (2, n) :: (10, op) :: l) (hn : 0 < n) (hn3 : n < 4) (hop : op < 1024) (hw : width (segments i) = 32 * n)
   (hsize : i.size = n)
   (hr : rows.find? (fun r => r.op == op && r.words == n && r.fits (pack (segments i))) = some r)
   (hb : r.build (unpack r.widths (pack (segments i))) = i) (hwf : i.wf = true) :
   words (encode i) = .ok i := by
  have hlt : encodeNat i < 2 ^ (32 * n) := by rw [← hw]; exact pack_lt _
  have hj : join (encode i) = encodeNat i := by
    rw [encode, join_splitWords, hsize, Nat.mod_eq_of_lt hlt]
  have hp : encodeNat i = n + 4 * (op + 1024 * pack l) := by
    simp only [encodeNat, hs, pack]
    rw [Nat.mod_eq_of_lt (by omega : n < 2 ^ 2), Nat.mod_eq_of_lt (by omega : op < 2 ^ 10)] <;> rfl
  have hlen : lenOf (encodeNat i) = n := by rw [hp, lenOf]; omega
  have hopo : opOf (encodeNat i) = op := by rw [hp, opOf]; omega
  have hl : (encode i).length = n := by rw [encode, splitWords_length, hsize]
  unfold Decode.words
  simp only [hj, hlen, hopo, hl, Nat.mod_eq_of_lt hlt]
  have : (n == 0 || decide (n < n)) = false := by simp; omega
  simp only [this]
  unfold Decode.operation
  rw [encodeNat, hr]
  simp [hb, hwf]

end Decode

end Sys2Proof
end

