-- ==== Sys2Proof/Laws/PerInstr.lean ====
section
/-!
SUPPORT. What the encoding of every instruction is like (R279): it has as many words as its length says, and as one number
they are its fields put together. An event has no words.
-/

namespace Sys2Proof.Laws.Encoding

open Sys2Proof

/-- The words of an instruction, as many as its length, make the number of its fields. -/
def Statement (i : Instr) : Prop :=
  (encode i).length = i.size ∧ Decode.join (encode i) = encodeNat i % 2 ^ (32 * i.size)

theorem any (i : Instr) : Statement i := ⟨splitWords_length _ _, Decode.join_splitWords _ _⟩

theorem add : ∀ a0 a1 a2 a3, Statement (.add a0 a1 a2 a3) := fun _ _ _ _ => any _
theorem sub : ∀ a0 a1 a2 a3, Statement (.sub a0 a1 a2 a3) := fun _ _ _ _ => any _
theorem mul : ∀ a0 a1 a2 a3, Statement (.mul a0 a1 a2 a3) := fun _ _ _ _ => any _
theorem mulh : ∀ a0 a1 a2 a3, Statement (.mulh a0 a1 a2 a3) := fun _ _ _ _ => any _
theorem mulhz : ∀ a0 a1 a2 a3, Statement (.mulhz a0 a1 a2 a3) := fun _ _ _ _ => any _
theorem div : ∀ a0 a1 a2 a3, Statement (.div a0 a1 a2 a3) := fun _ _ _ _ => any _
theorem divz : ∀ a0 a1 a2 a3, Statement (.divz a0 a1 a2 a3) := fun _ _ _ _ => any _
theorem rem : ∀ a0 a1 a2 a3, Statement (.rem a0 a1 a2 a3) := fun _ _ _ _ => any _
theorem remz : ∀ a0 a1 a2 a3, Statement (.remz a0 a1 a2 a3) := fun _ _ _ _ => any _
theorem and : ∀ a0 a1 a2 a3, Statement (.and a0 a1 a2 a3) := fun _ _ _ _ => any _
theorem or : ∀ a0 a1 a2 a3, Statement (.or a0 a1 a2 a3) := fun _ _ _ _ => any _
theorem xor : ∀ a0 a1 a2 a3, Statement (.xor a0 a1 a2 a3) := fun _ _ _ _ => any _
theorem andn : ∀ a0 a1 a2 a3, Statement (.andn a0 a1 a2 a3) := fun _ _ _ _ => any _
theorem shl : ∀ a0 a1 a2 a3, Statement (.shl a0 a1 a2 a3) := fun _ _ _ _ => any _
theorem shr : ∀ a0 a1 a2 a3, Statement (.shr a0 a1 a2 a3) := fun _ _ _ _ => any _
theorem sar : ∀ a0 a1 a2 a3, Statement (.sar a0 a1 a2 a3) := fun _ _ _ _ => any _
theorem rotl : ∀ a0 a1 a2 a3, Statement (.rotl a0 a1 a2 a3) := fun _ _ _ _ => any _
theorem min : ∀ a0 a1 a2 a3, Statement (.min a0 a1 a2 a3) := fun _ _ _ _ => any _
theorem minz : ∀ a0 a1 a2 a3, Statement (.minz a0 a1 a2 a3) := fun _ _ _ _ => any _
theorem max : ∀ a0 a1 a2 a3, Statement (.max a0 a1 a2 a3) := fun _ _ _ _ => any _
theorem maxz : ∀ a0 a1 a2 a3, Statement (.maxz a0 a1 a2 a3) := fun _ _ _ _ => any _
theorem clz : ∀ a0 a1 a2, Statement (.clz a0 a1 a2) := fun _ _ _ => any _
theorem ctz : ∀ a0 a1 a2, Statement (.ctz a0 a1 a2) := fun _ _ _ => any _
theorem popc : ∀ a0 a1 a2, Statement (.popc a0 a1 a2) := fun _ _ _ => any _
theorem bswap : ∀ a0 a1 a2, Statement (.bswap a0 a1 a2) := fun _ _ _ => any _
theorem sext : ∀ a0 a1 a2 a3, Statement (.sext a0 a1 a2 a3) := fun _ _ _ _ => any _
theorem zext : ∀ a0 a1 a2 a3, Statement (.zext a0 a1 a2 a3) := fun _ _ _ _ => any _
theorem mov : ∀ a0 a1 a2 a3 a4, Statement (.mov a0 a1 a2 a3 a4) := fun _ _ _ _ _ => any _
theorem pand : ∀ a0 a1 a2 a3, Statement (.pand a0 a1 a2 a3) := fun _ _ _ _ => any _
theorem por : ∀ a0 a1 a2 a3, Statement (.por a0 a1 a2 a3) := fun _ _ _ _ => any _
theorem pxor : ∀ a0 a1 a2 a3, Statement (.pxor a0 a1 a2 a3) := fun _ _ _ _ => any _
theorem pnot : ∀ a0 a1 a2, Statement (.pnot a0 a1 a2) := fun _ _ _ => any _
theorem addi : ∀ a0 a1 a2 a3 a4, Statement (.addi a0 a1 a2 a3 a4) := fun _ _ _ _ _ => any _
theorem andi : ∀ a0 a1 a2 a3, Statement (.andi a0 a1 a2 a3) := fun _ _ _ _ => any _
theorem ori : ∀ a0 a1 a2 a3, Statement (.ori a0 a1 a2 a3) := fun _ _ _ _ => any _
theorem xori : ∀ a0 a1 a2 a3, Statement (.xori a0 a1 a2 a3) := fun _ _ _ _ => any _
theorem shli : ∀ a0 a1 a2 a3, Statement (.shli a0 a1 a2 a3) := fun _ _ _ _ => any _
theorem shri : ∀ a0 a1 a2 a3, Statement (.shri a0 a1 a2 a3) := fun _ _ _ _ => any _
theorem sari : ∀ a0 a1 a2 a3, Statement (.sari a0 a1 a2 a3) := fun _ _ _ _ => any _
theorem bfx : ∀ a0 a1 a2 a3 a4 a5, Statement (.bfx a0 a1 a2 a3 a4 a5) := fun _ _ _ _ _ _ => any _
theorem bfi : ∀ a0 a1 a2 a3 a4, Statement (.bfi a0 a1 a2 a3 a4) := fun _ _ _ _ _ => any _
theorem movi64 : ∀ a0 a1 a2, Statement (.movi64 a0 a1 a2) := fun _ _ _ => any _
theorem movi96 : ∀ a0 a1 a2 a3, Statement (.movi96 a0 a1 a2 a3) := fun _ _ _ _ => any _
theorem movhi : ∀ a0 a1 a2 a3, Statement (.movhi a0 a1 a2 a3) := fun _ _ _ _ => any _
theorem sel : ∀ a0 a1 a2 a3 a4, Statement (.sel a0 a1 a2 a3 a4) := fun _ _ _ _ _ => any _
theorem cmp : ∀ a0 a1 a2 a3 a4 a5, Statement (.cmp a0 a1 a2 a3 a4 a5) := fun _ _ _ _ _ _ => any _
theorem fadd : ∀ a0 a1 a2 a3 a4 a5, Statement (.fadd a0 a1 a2 a3 a4 a5) := fun _ _ _ _ _ _ => any _
theorem fsub : ∀ a0 a1 a2 a3 a4 a5, Statement (.fsub a0 a1 a2 a3 a4 a5) := fun _ _ _ _ _ _ => any _
theorem fmul : ∀ a0 a1 a2 a3 a4 a5, Statement (.fmul a0 a1 a2 a3 a4 a5) := fun _ _ _ _ _ _ => any _
theorem ffma : ∀ a0 a1 a2 a3 a4 a5 a6, Statement (.ffma a0 a1 a2 a3 a4 a5 a6) := fun _ _ _ _ _ _ _ => any _
theorem fdiv : ∀ a0 a1 a2 a3 a4 a5, Statement (.fdiv a0 a1 a2 a3 a4 a5) := fun _ _ _ _ _ _ => any _
theorem fsqrt : ∀ a0 a1 a2 a3 a4, Statement (.fsqrt a0 a1 a2 a3 a4) := fun _ _ _ _ _ => any _
theorem fmin : ∀ a0 a1 a2 a3 a4, Statement (.fmin a0 a1 a2 a3 a4) := fun _ _ _ _ _ => any _
theorem fmax : ∀ a0 a1 a2 a3 a4, Statement (.fmax a0 a1 a2 a3 a4) := fun _ _ _ _ _ => any _
theorem fclass : ∀ a0 a1 a2 a3, Statement (.fclass a0 a1 a2 a3) := fun _ _ _ _ => any _
theorem fcmp : ∀ a0 a1 a2 a3 a4 a5, Statement (.fcmp a0 a1 a2 a3 a4 a5) := fun _ _ _ _ _ _ => any _
theorem fcvt : ∀ a0 a1 a2 a3 a4 a5 a6, Statement (.fcvt a0 a1 a2 a3 a4 a5 a6) := fun _ _ _ _ _ _ _ => any _
theorem br : ∀ a0 a1 a2, Statement (.br a0 a1 a2) := fun _ _ _ => any _
theorem brp : ∀ a0 a1 a2 a3 a4, Statement (.brp a0 a1 a2 a3 a4) := fun _ _ _ _ _ => any _
theorem brz : ∀ a0 a1 a2 a3, Statement (.brz a0 a1 a2 a3) := fun _ _ _ _ => any _
theorem brnz : ∀ a0 a1 a2 a3, Statement (.brnz a0 a1 a2 a3) := fun _ _ _ _ => any _
theorem call : ∀ a0 a1 a2, Statement (.call a0 a1 a2) := fun _ _ _ => any _
theorem ret : ∀ a0, Statement (.ret a0) := fun _ => any _
theorem loop : ∀ a0 a1 a2 a3, Statement (.loop a0 a1 a2 a3) := fun _ _ _ _ => any _
theorem nop : ∀ a0, Statement (.nop a0) := fun _ => any _
theorem hint : ∀ a0 a1, Statement (.hint a0 a1) := fun _ _ => any _
theorem ldp : ∀ a0 a1 a2 a3 a4, Statement (.ldp a0 a1 a2 a3 a4) := fun _ _ _ _ _ => any _
theorem lds : ∀ a0 a1 a2 a3 a4 a5, Statement (.lds a0 a1 a2 a3 a4 a5) := fun _ _ _ _ _ _ => any _
theorem sts : ∀ a0 a1 a2 a3 a4, Statement (.sts a0 a1 a2 a3 a4) := fun _ _ _ _ _ => any _
theorem dmov : ∀ a0 a1 a2, Statement (.dmov a0 a1 a2) := fun _ _ _ => any _
theorem hld : ∀ a0 a1 a2 a3 a4, Statement (.hld a0 a1 a2 a3 a4) := fun _ _ _ _ _ => any _
theorem hqry : ∀ a0 a1 a2 a3, Statement (.hqry a0 a1 a2 a3) := fun _ _ _ _ => any _
theorem dset : ∀ a0 a1 a2 a3 a4 a5 a6, Statement (.dset a0 a1 a2 a3 a4 a5 a6) := fun _ _ _ _ _ _ _ => any _
theorem didx : ∀ a0 a1 a2 a3 a4 a5, Statement (.didx a0 a1 a2 a3 a4 a5) := fun _ _ _ _ _ _ => any _
theorem dadd : ∀ a0 a1 a2 a3 a4 a5, Statement (.dadd a0 a1 a2 a3 a4 a5) := fun _ _ _ _ _ _ => any _
theorem dshp : ∀ a0 a1 a2 a3, Statement (.dshp a0 a1 a2 a3) := fun _ _ _ _ => any _
theorem dpad : ∀ a0 a1 a2 a3 a4, Statement (.dpad a0 a1 a2 a3 a4) := fun _ _ _ _ _ => any _
theorem lde : ∀ a0 a1 a2 a3 a4 a5, Statement (.lde a0 a1 a2 a3 a4 a5) := fun _ _ _ _ _ _ => any _
theorem ste : ∀ a0 a1 a2 a3 a4, Statement (.ste a0 a1 a2 a3 a4) := fun _ _ _ _ _ => any _
theorem atom : ∀ a0 a1 a2 a3 a4 a5 a6, Statement (.atom a0 a1 a2 a3 a4 a5 a6) := fun _ _ _ _ _ _ _ => any _
theorem fatom : ∀ a0 a1 a2 a3 a4 a5, Statement (.fatom a0 a1 a2 a3 a4 a5) := fun _ _ _ _ _ _ => any _
theorem atomnr : ∀ a0 a1 a2 a3 a4 a5 a6, Statement (.atomnr a0 a1 a2 a3 a4 a5 a6) := fun _ _ _ _ _ _ _ => any _
theorem cas : ∀ a0 a1 a2 a3 a4 a5 a6 a7, Statement (.cas a0 a1 a2 a3 a4 a5 a6 a7) := fun _ _ _ _ _ _ _ _ => any _
theorem casc : ∀ a0 a1 a2 a3 a4 a5 a6 a7 a8, Statement (.casc a0 a1 a2 a3 a4 a5 a6 a7 a8) := fun _ _ _ _ _ _ _ _ _ => any _
theorem ldt : ∀ a0 a1 a2 a3 a4 a5 a6, Statement (.ldt a0 a1 a2 a3 a4 a5 a6) := fun _ _ _ _ _ _ _ => any _
theorem stt : ∀ a0 a1 a2 a3 a4 a5 a6, Statement (.stt a0 a1 a2 a3 a4 a5 a6) := fun _ _ _ _ _ _ _ => any _
theorem pft : ∀ a0 a1 a2 a3, Statement (.pft a0 a1 a2 a3) := fun _ _ _ _ => any _
theorem bmap : ∀ a0 a1 a2 a3, Statement (.bmap a0 a1 a2 a3) := fun _ _ _ _ => any _
theorem bflush : ∀ a0 a1 a2 a3, Statement (.bflush a0 a1 a2 a3) := fun _ _ _ _ => any _
theorem bdrop : ∀ a0 a1 a2 a3, Statement (.bdrop a0 a1 a2 a3) := fun _ _ _ _ => any _
theorem openv : ∀ a0 a1, Statement (.openv a0 a1) := fun _ _ => any _
theorem pub : ∀ a0 a1, Statement (.pub a0 a1) := fun _ _ => any _
theorem subv : ∀ a0 a1 a2 a3, Statement (.subv a0 a1 a2 a3) := fun _ _ _ _ => any _
theorem pinv : ∀ a0 a1 a2 a3, Statement (.pinv a0 a1 a2 a3) := fun _ _ _ _ => any _
theorem unpv : ∀ a0 a1, Statement (.unpv a0 a1) := fun _ _ => any _
theorem verq : ∀ a0 a1 a2, Statement (.verq a0 a1 a2) := fun _ _ _ => any _
theorem fenceP : ∀ a0 a1 a2, Statement (.fenceP a0 a1 a2) := fun _ _ _ => any _
theorem nbfill : ∀ a0 a1 a2 a3 a4 a5, Statement (.nbfill a0 a1 a2 a3 a4 a5) := fun _ _ _ _ _ _ => any _
theorem nbcopy : ∀ a0 a1 a2 a3 a4, Statement (.nbcopy a0 a1 a2 a3 a4) := fun _ _ _ _ _ => any _
theorem nbaxpy : ∀ a0 a1 a2 a3 a4 a5 a6 a7, Statement (.nbaxpy a0 a1 a2 a3 a4 a5 a6 a7) := fun _ _ _ _ _ _ _ _ => any _
theorem nbscale : ∀ a0 a1 a2 a3 a4 a5 a6, Statement (.nbscale a0 a1 a2 a3 a4 a5 a6) := fun _ _ _ _ _ _ _ => any _
theorem nbrelay : ∀ a0 a1 a2 a3 a4, Statement (.nbrelay a0 a1 a2 a3 a4) := fun _ _ _ _ _ => any _
theorem rrzero : ∀ a0 a1 a2 a3, Statement (.rrzero a0 a1 a2 a3) := fun _ _ _ _ => any _
theorem rrcopy : ∀ a0 a1 a2 a3 a4, Statement (.rrcopy a0 a1 a2 a3 a4) := fun _ _ _ _ _ => any _
theorem fmtqReg : ∀ a0 a1, Statement (.fmtqReg a0 a1) := fun _ _ => any _
theorem fmtqImm : ∀ a0 a1 a2, Statement (.fmtqImm a0 a1 a2) := fun _ _ _ => any _
theorem mma64 : ∀ a0 a1 a2 a3 a4 a5 a6, Statement (.mma64 a0 a1 a2 a3 a4 a5 a6) := fun _ _ _ _ _ _ _ => any _
theorem mma96 : ∀ a0 a1 a2 a3 a4 a5 a6 a7 a8 a9 a10, Statement (.mma96 a0 a1 a2 a3 a4 a5 a6 a7 a8 a9 a10) := fun _ _ _ _ _ _ _ _ _ _ _ => any _
theorem mmam64 : ∀ a0 a1 a2 a3 a4 a5 a6, Statement (.mmam64 a0 a1 a2 a3 a4 a5 a6) := fun _ _ _ _ _ _ _ => any _
theorem mmam96 : ∀ a0 a1 a2 a3 a4 a5 a6 a7 a8 a9 a10, Statement (.mmam96 a0 a1 a2 a3 a4 a5 a6 a7 a8 a9 a10) := fun _ _ _ _ _ _ _ _ _ _ _ => any _
theorem mzero : ∀ a0 a1 a2, Statement (.mzero a0 a1 a2) := fun _ _ _ => any _
theorem mrd : ∀ a0 a1 a2 a3 a4 a5, Statement (.mrd a0 a1 a2 a3 a4 a5) := fun _ _ _ _ _ _ => any _
theorem mwr : ∀ a0 a1 a2 a3 a4 a5, Statement (.mwr a0 a1 a2 a3 a4 a5) := fun _ _ _ _ _ _ => any _
theorem mred : ∀ a0 a1 a2 a3 a4 a5, Statement (.mred a0 a1 a2 a3 a4 a5) := fun _ _ _ _ _ _ => any _
theorem mscan : ∀ a0 a1 a2 a3 a4 a5 a6, Statement (.mscan a0 a1 a2 a3 a4 a5 a6) := fun _ _ _ _ _ _ _ => any _
theorem mtrn : ∀ a0 a1 a2 a3, Statement (.mtrn a0 a1 a2 a3) := fun _ _ _ _ => any _
theorem vadd : ∀ a0 a1 a2 a3 a4 a5 a6 a7 a8 a9, Statement (.vadd a0 a1 a2 a3 a4 a5 a6 a7 a8 a9) := fun _ _ _ _ _ _ _ _ _ _ => any _
theorem vsub : ∀ a0 a1 a2 a3 a4 a5 a6 a7 a8 a9, Statement (.vsub a0 a1 a2 a3 a4 a5 a6 a7 a8 a9) := fun _ _ _ _ _ _ _ _ _ _ => any _
theorem vmul : ∀ a0 a1 a2 a3 a4 a5 a6 a7 a8 a9, Statement (.vmul a0 a1 a2 a3 a4 a5 a6 a7 a8 a9) := fun _ _ _ _ _ _ _ _ _ _ => any _
theorem vfma : ∀ a0 a1 a2 a3 a4 a5 a6 a7 a8 a9 a10, Statement (.vfma a0 a1 a2 a3 a4 a5 a6 a7 a8 a9 a10) := fun _ _ _ _ _ _ _ _ _ _ _ => any _
theorem vfms : ∀ a0 a1 a2 a3 a4 a5 a6 a7 a8 a9 a10, Statement (.vfms a0 a1 a2 a3 a4 a5 a6 a7 a8 a9 a10) := fun _ _ _ _ _ _ _ _ _ _ _ => any _
theorem vmin : ∀ a0 a1 a2 a3 a4 a5 a6 a7 a8, Statement (.vmin a0 a1 a2 a3 a4 a5 a6 a7 a8) := fun _ _ _ _ _ _ _ _ _ => any _
theorem vmax : ∀ a0 a1 a2 a3 a4 a5 a6 a7 a8, Statement (.vmax a0 a1 a2 a3 a4 a5 a6 a7 a8) := fun _ _ _ _ _ _ _ _ _ => any _
theorem vabs : ∀ a0 a1 a2 a3 a4 a5 a6, Statement (.vabs a0 a1 a2 a3 a4 a5 a6) := fun _ _ _ _ _ _ _ => any _
theorem vneg : ∀ a0 a1 a2 a3 a4 a5 a6, Statement (.vneg a0 a1 a2 a3 a4 a5 a6) := fun _ _ _ _ _ _ _ => any _
theorem vclamp : ∀ a0 a1 a2 a3 a4 a5 a6 a7 a8, Statement (.vclamp a0 a1 a2 a3 a4 a5 a6 a7 a8) := fun _ _ _ _ _ _ _ _ _ => any _
theorem vcvt : ∀ a0 a1 a2 a3 a4 a5 a6 a7, Statement (.vcvt a0 a1 a2 a3 a4 a5 a6 a7) := fun _ _ _ _ _ _ _ _ => any _
theorem vand : ∀ a0 a1 a2 a3 a4 a5 a6 a7, Statement (.vand a0 a1 a2 a3 a4 a5 a6 a7) := fun _ _ _ _ _ _ _ _ => any _
theorem vor : ∀ a0 a1 a2 a3 a4 a5 a6 a7, Statement (.vor a0 a1 a2 a3 a4 a5 a6 a7) := fun _ _ _ _ _ _ _ _ => any _
theorem vxor : ∀ a0 a1 a2 a3 a4 a5 a6 a7, Statement (.vxor a0 a1 a2 a3 a4 a5 a6 a7) := fun _ _ _ _ _ _ _ _ => any _
theorem vnot : ∀ a0 a1 a2 a3 a4 a5, Statement (.vnot a0 a1 a2 a3 a4 a5) := fun _ _ _ _ _ _ => any _
theorem vshl : ∀ a0 a1 a2 a3 a4 a5 a6 a7, Statement (.vshl a0 a1 a2 a3 a4 a5 a6 a7) := fun _ _ _ _ _ _ _ _ => any _
theorem vshr : ∀ a0 a1 a2 a3 a4 a5 a6 a7, Statement (.vshr a0 a1 a2 a3 a4 a5 a6 a7) := fun _ _ _ _ _ _ _ _ => any _
theorem vsar : ∀ a0 a1 a2 a3 a4 a5 a6 a7, Statement (.vsar a0 a1 a2 a3 a4 a5 a6 a7) := fun _ _ _ _ _ _ _ _ => any _
theorem vcmp : ∀ a0 a1 a2 a3 a4 a5 a6 a7 a8, Statement (.vcmp a0 a1 a2 a3 a4 a5 a6 a7 a8) := fun _ _ _ _ _ _ _ _ _ => any _
theorem vsel : ∀ a0 a1 a2 a3 a4 a5 a6 a7 a8, Statement (.vsel a0 a1 a2 a3 a4 a5 a6 a7 a8) := fun _ _ _ _ _ _ _ _ _ => any _
theorem vmov : ∀ a0 a1 a2 a3 a4 a5 a6 a7, Statement (.vmov a0 a1 a2 a3 a4 a5 a6 a7) := fun _ _ _ _ _ _ _ _ => any _
theorem vmovi : ∀ a0 a1 a2 a3 a4 a5, Statement (.vmovi a0 a1 a2 a3 a4 a5) := fun _ _ _ _ _ _ => any _
theorem vrotr : ∀ a0 a1 a2 a3 a4 a5 a6 a7, Statement (.vrotr a0 a1 a2 a3 a4 a5 a6 a7) := fun _ _ _ _ _ _ _ _ => any _
theorem vrotc : ∀ a0 a1 a2 a3 a4 a5 a6 a7, Statement (.vrotc a0 a1 a2 a3 a4 a5 a6 a7) := fun _ _ _ _ _ _ _ _ => any _
theorem vbcr : ∀ a0 a1 a2 a3 a4 a5 a6 a7, Statement (.vbcr a0 a1 a2 a3 a4 a5 a6 a7) := fun _ _ _ _ _ _ _ _ => any _
theorem vbcc : ∀ a0 a1 a2 a3 a4 a5 a6 a7, Statement (.vbcc a0 a1 a2 a3 a4 a5 a6 a7) := fun _ _ _ _ _ _ _ _ => any _
theorem vshuf : ∀ a0 a1 a2 a3 a4 a5 a6, Statement (.vshuf a0 a1 a2 a3 a4 a5 a6) := fun _ _ _ _ _ _ _ => any _
theorem vgath : ∀ a0 a1 a2 a3 a4 a5 a6 a7, Statement (.vgath a0 a1 a2 a3 a4 a5 a6 a7) := fun _ _ _ _ _ _ _ _ => any _
theorem vscat : ∀ a0 a1 a2 a3 a4 a5 a6 a7, Statement (.vscat a0 a1 a2 a3 a4 a5 a6 a7) := fun _ _ _ _ _ _ _ _ => any _
theorem vexp2 : ∀ a0 a1 a2 a3 a4 a5 a6 a7, Statement (.vexp2 a0 a1 a2 a3 a4 a5 a6 a7) := fun _ _ _ _ _ _ _ _ => any _
theorem vlog2 : ∀ a0 a1 a2 a3 a4 a5 a6 a7, Statement (.vlog2 a0 a1 a2 a3 a4 a5 a6 a7) := fun _ _ _ _ _ _ _ _ => any _
theorem vrcp : ∀ a0 a1 a2 a3 a4 a5 a6 a7, Statement (.vrcp a0 a1 a2 a3 a4 a5 a6 a7) := fun _ _ _ _ _ _ _ _ => any _
theorem vrsq : ∀ a0 a1 a2 a3 a4 a5 a6 a7, Statement (.vrsq a0 a1 a2 a3 a4 a5 a6 a7) := fun _ _ _ _ _ _ _ _ => any _
theorem vsin : ∀ a0 a1 a2 a3 a4 a5 a6 a7, Statement (.vsin a0 a1 a2 a3 a4 a5 a6 a7) := fun _ _ _ _ _ _ _ _ => any _
theorem vcos : ∀ a0 a1 a2 a3 a4 a5 a6 a7, Statement (.vcos a0 a1 a2 a3 a4 a5 a6 a7) := fun _ _ _ _ _ _ _ _ => any _
theorem vtanh : ∀ a0 a1 a2 a3 a4 a5 a6 a7, Statement (.vtanh a0 a1 a2 a3 a4 a5 a6 a7) := fun _ _ _ _ _ _ _ _ => any _
theorem vpack : ∀ a0 a1 a2 a3 a4, Statement (.vpack a0 a1 a2 a3 a4) := fun _ _ _ _ _ => any _
theorem vunpk : ∀ a0 a1 a2 a3 a4, Statement (.vunpk a0 a1 a2 a3 a4) := fun _ _ _ _ _ => any _
theorem vqnt : ∀ a0 a1 a2 a3 a4 a5 a6 a7 a8, Statement (.vqnt a0 a1 a2 a3 a4 a5 a6 a7 a8) := fun _ _ _ _ _ _ _ _ _ => any _
theorem vseed : ∀ a0 a1 a2, Statement (.vseed a0 a1 a2) := fun _ _ _ => any _
theorem attn : ∀ a0 a1 a2 a3 a4 a5, Statement (.attn a0 a1 a2 a3 a4 a5) := fun _ _ _ _ _ _ => any _
theorem kvapp : ∀ a0 a1 a2 a3 a4 a5 a6, Statement (.kvapp a0 a1 a2 a3 a4 a5 a6) := fun _ _ _ _ _ _ _ => any _
theorem rope : ∀ a0 a1 a2 a3 a4 a5 a6 a7, Statement (.rope a0 a1 a2 a3 a4 a5 a6 a7) := fun _ _ _ _ _ _ _ _ => any _
theorem spanopen : ∀ a0 a1 a2 a3, Statement (.spanopen a0 a1 a2 a3) := fun _ _ _ _ => any _
theorem spanclose : ∀ a0 a1 a2, Statement (.spanclose a0 a1 a2) := fun _ _ _ => any _
theorem retspan : ∀ a0 a1 a2 a3 a4 a5, Statement (.retspan a0 a1 a2 a3 a4 a5) := fun _ _ _ _ _ _ => any _
theorem kvpromo : ∀ a0 a1 a2 a3 a4, Statement (.kvpromo a0 a1 a2 a3 a4) := fun _ _ _ _ _ => any _
theorem seqq : ∀ a0 a1 a2 a3 a4, Statement (.seqq a0 a1 a2 a3 a4) := fun _ _ _ _ _ => any _
theorem spawn : ∀ a0 a1 a2 a3, Statement (.spawn a0 a1 a2 a3) := fun _ _ _ _ => any _
theorem spawnRec : ∀ a0 a1 a2 a3, Statement (.spawnRec a0 a1 a2 a3) := fun _ _ _ _ => any _
theorem depdec : ∀ a0 a1 a2 a3 a4, Statement (.depdec a0 a1 a2 a3 a4) := fun _ _ _ _ _ => any _
theorem taskq : ∀ a0 a1 a2 a3, Statement (.taskq a0 a1 a2 a3) := fun _ _ _ _ => any _
theorem commit : ∀ a0, Statement (.commit a0) := fun _ => any _
theorem exit : ∀ a0, Statement (.exit a0) := fun _ => any _
theorem arrive : ∀ a0 a1 a2, Statement (.arrive a0 a1 a2) := fun _ _ _ => any _
theorem racqP : ∀ a0 a1 a2, Statement (.racqP a0 a1 a2) := fun _ _ _ => any _
theorem racqC : ∀ a0 a1 a2, Statement (.racqC a0 a1 a2) := fun _ _ _ => any _
theorem rrelP : ∀ a0 a1, Statement (.rrelP a0 a1) := fun _ _ => any _
theorem rrelC : ∀ a0 a1, Statement (.rrelC a0 a1) := fun _ _ => any _
theorem tokq : ∀ a0 a1, Statement (.tokq a0 a1) := fun _ _ => any _
theorem put : ∀ a0 a1 a2 a3 a4, Statement (.put a0 a1 a2 a3 a4) := fun _ _ _ _ _ => any _
theorem intk : ∀ a0 a1 a2 a3, Statement (.intk a0 a1 a2 a3) := fun _ _ _ _ => any _
theorem sumprd : ∀ a0 a1 a2 a3, Statement (.sumprd a0 a1 a2 a3) := fun _ _ _ _ => any _
theorem xsend : ∀ a0 a1 a2 a3 a4 a5, Statement (.xsend a0 a1 a2 a3 a4 a5) := fun _ _ _ _ _ _ => any _
theorem xstep : ∀ a0 a1 a2 a3 a4, Statement (.xstep a0 a1 a2 a3 a4) := fun _ _ _ _ _ => any _
theorem xsync : ∀ a0 a1 a2 a3, Statement (.xsync a0 a1 a2 a3) := fun _ _ _ _ => any _
theorem trap : ∀ a0 a1, Statement (.trap a0 a1) := fun _ _ => any _
theorem omcall : ∀ a0 a1 a2, Statement (.omcall a0 a1 a2) := fun _ _ _ => any _
theorem sysrd : ∀ a0 a1 a2 a3, Statement (.sysrd a0 a1 a2 a3) := fun _ _ _ _ => any _
theorem syswr : ∀ a0 a1 a2 a3, Statement (.syswr a0 a1 a2 a3) := fun _ _ _ _ => any _
theorem eret : ∀ a0, Statement (.eret a0) := fun _ => any _
theorem waiti : ∀ a0 a1, Statement (.waiti a0 a1) := fun _ _ => any _
theorem halt : ∀ a0, Statement (.halt a0) := fun _ => any _
theorem decmap : ∀ a0 a1 a2 a3 a4, Statement (.decmap a0 a1 a2 a3 a4) := fun _ _ _ _ _ => any _
theorem tlbinv : ∀ a0 a1 a2 a3 a4, Statement (.tlbinv a0 a1 a2 a3 a4) := fun _ _ _ _ _ => any _
theorem otinv : ∀ a0 a1 a2 a3 a4, Statement (.otinv a0 a1 a2 a3 a4) := fun _ _ _ _ _ => any _
theorem migr : ∀ a0 a1 a2, Statement (.migr a0 a1 a2) := fun _ _ _ => any _
theorem zerob : ∀ a0 a1 a2 a3, Statement (.zerob a0 a1 a2 a3) := fun _ _ _ _ => any _
theorem keyset : ∀ a0 a1 a2 a3, Statement (.keyset a0 a1 a2 a3) := fun _ _ _ _ => any _
theorem coldReset : Statement .coldReset := any _
theorem warmReset : ∀ a0, Statement (.warmReset a0) := fun _ => any _
theorem bringupStepComplete : ∀ a0 a1 a2 a3, Statement (.bringupStepComplete a0 a1 a2 a3) := fun _ _ _ _ => any _
theorem pwrCmdPs0 : ∀ a0 a1 a2 a3, Statement (.pwrCmdPs0 a0 a1 a2 a3) := fun _ _ _ _ => any _
theorem pwrCmdPs1 : ∀ a0 a1 a2 a3, Statement (.pwrCmdPs1 a0 a1 a2 a3) := fun _ _ _ _ => any _
theorem pwrCmdPs2 : ∀ a0 a1 a2 a3, Statement (.pwrCmdPs2 a0 a1 a2 a3) := fun _ _ _ _ => any _
theorem pwrCmdPs3 : ∀ a0 a1 a2 a3, Statement (.pwrCmdPs3 a0 a1 a2 a3) := fun _ _ _ _ => any _
theorem ps1DrainComplete : Statement .ps1DrainComplete := any _
theorem ps1DrainTimeout : Statement .ps1DrainTimeout := any _
theorem powerTransitionComplete : Statement .powerTransitionComplete := any _
theorem selfRefreshIdle : ∀ a0, Statement (.selfRefreshIdle a0) := fun _ => any _
theorem powerSample : ∀ a0, Statement (.powerSample a0) := fun _ => any _
theorem powerThrottleStep : ∀ a0, Statement (.powerThrottleStep a0) := fun _ => any _
theorem thermalStep : ∀ a0, Statement (.thermalStep a0) := fun _ => any _
theorem thermalStop : ∀ a0, Statement (.thermalStop a0) := fun _ => any _
theorem thermalRestart : ∀ a0, Statement (.thermalRestart a0) := fun _ => any _
theorem hostLinkDown : Statement .hostLinkDown := any _
theorem hostLinkUp : Statement .hostLinkUp := any _
theorem pmcsrWrite : ∀ a0, Statement (.pmcsrWrite a0) := fun _ => any _
theorem launchSubmit : ∀ a0 a1, Statement (.launchSubmit a0 a1) := fun _ _ => any _
theorem hostQueueAccept : ∀ a0, Statement (.hostQueueAccept a0) := fun _ => any _
theorem cqcreate : ∀ a0, Statement (.cqcreate a0) := fun _ => any _
theorem cqdestroy : ∀ a0, Statement (.cqdestroy a0) := fun _ => any _
theorem objcreate : ∀ a0 a1 a2, Statement (.objcreate a0 a1 a2) := fun _ _ _ => any _
theorem objdelete : ∀ a0, Statement (.objdelete a0) := fun _ => any _
theorem objdeleteComplete : ∀ a0, Statement (.objdeleteComplete a0) := fun _ => any _
theorem objwrite : ∀ a0 a1, Statement (.objwrite a0 a1) := fun _ _ => any _
theorem objread : ∀ a0 a1, Statement (.objread a0 a1) := fun _ _ => any _
theorem objmove : ∀ a0 a1, Statement (.objmove a0 a1) := fun _ _ => any _
theorem flashreg : ∀ a0 a1 a2, Statement (.flashreg a0 a1 a2) := fun _ _ _ => any _
theorem objquery : ∀ a0 a1, Statement (.objquery a0 a1) := fun _ _ => any _
theorem slotbind : ∀ a0, Statement (.slotbind a0) := fun _ => any _
theorem gang : ∀ a0 a1 a2, Statement (.gang a0 a1 a2) := fun _ _ _ => any _
theorem cqheadWrite : ∀ a0 a1, Statement (.cqheadWrite a0 a1) := fun _ _ => any _
theorem cqtailRead : ∀ a0, Statement (.cqtailRead a0) := fun _ => any _
theorem completionModerationTimer : ∀ a0, Statement (.completionModerationTimer a0) := fun _ => any _
theorem errstatClear : ∀ a0, Statement (.errstatClear a0) := fun _ => any _
theorem pwrstatClear : ∀ a0, Statement (.pwrstatClear a0) := fun _ => any _
theorem tetherstatClear : ∀ a0, Statement (.tetherstatClear a0) := fun _ => any _
theorem plstatClear : ∀ a0 a1, Statement (.plstatClear a0 a1) := fun _ _ => any _
theorem slstatClear : ∀ a0 a1, Statement (.slstatClear a0 a1) := fun _ _ => any _
theorem tetherctlWrite : ∀ a0, Statement (.tetherctlWrite a0) := fun _ => any _
theorem plctlDisable : ∀ a0, Statement (.plctlDisable a0) := fun _ => any _
theorem plctlEnable : ∀ a0, Statement (.plctlEnable a0) := fun _ => any _
theorem stepCounterWrite : ∀ a0 a1 a2, Statement (.stepCounterWrite a0 a1 a2) := fun _ _ _ => any _
theorem fqheadWrite : ∀ a0, Statement (.fqheadWrite a0) := fun _ => any _
theorem fanswerResume : ∀ a0 a1, Statement (.fanswerResume a0 a1) := fun _ _ => any _
theorem fanswerSkip : ∀ a0 a1, Statement (.fanswerSkip a0 a1) := fun _ _ => any _
theorem fanswerReplay : ∀ a0 a1, Statement (.fanswerReplay a0 a1) := fun _ _ => any _
theorem fanswerKill : ∀ a0 a1 a2, Statement (.fanswerKill a0 a1 a2) := fun _ _ _ => any _
theorem registerWrite : ∀ a0 a1 a2 a3, Statement (.registerWrite a0 a1 a2 a3) := fun _ _ _ _ => any _
theorem cxlPortDown : ∀ a0 a1, Statement (.cxlPortDown a0 a1) := fun _ _ => any _
theorem cxlPortUp : ∀ a0, Statement (.cxlPortUp a0) := fun _ => any _
theorem cxlDownTimeout : ∀ a0, Statement (.cxlDownTimeout a0) := fun _ => any _
theorem cxlExtentAdd : ∀ a0 a1 a2, Statement (.cxlExtentAdd a0 a1 a2) := fun _ _ _ => any _
theorem cxlExtentRelease : ∀ a0 a1, Statement (.cxlExtentRelease a0 a1) := fun _ _ => any _
theorem nvmeCompletion : ∀ a0 a1, Statement (.nvmeCompletion a0 a1) := fun _ _ => any _
theorem nvmeTimeout : ∀ a0 a1, Statement (.nvmeTimeout a0 a1) := fun _ _ => any _
theorem peerPortTrained : ∀ a0 a1, Statement (.peerPortTrained a0 a1) := fun _ _ => any _
theorem idle : ∀ a0 a1 a2, Statement (.idle a0 a1 a2) := fun _ _ _ => any _
theorem rdreq : ∀ a0 a1 a2 a3, Statement (.rdreq a0 a1 a2 a3) := fun _ _ _ _ => any _
theorem rdrsp : ∀ a0 a1 a2 a3 a4, Statement (.rdrsp a0 a1 a2 a3 a4) := fun _ _ _ _ _ => any _
theorem wrreq : ∀ a0 a1 a2 a3, Statement (.wrreq a0 a1 a2 a3) := fun _ _ _ _ => any _
theorem wrack : ∀ a0 a1 a2 a3, Statement (.wrack a0 a1 a2 a3) := fun _ _ _ _ => any _
theorem atreq : ∀ a0 a1 a2 a3, Statement (.atreq a0 a1 a2 a3) := fun _ _ _ _ => any _
theorem atrsp : ∀ a0 a1 a2 a3 a4 a5, Statement (.atrsp a0 a1 a2 a3 a4 a5) := fun _ _ _ _ _ _ => any _
theorem xfer : ∀ a0 a1 a2 a3, Statement (.xfer a0 a1 a2 a3) := fun _ _ _ _ => any _
theorem tsync : ∀ a0 a1 a2 a3 a4, Statement (.tsync a0 a1 a2 a3 a4) := fun _ _ _ _ _ => any _
theorem tsyncTimer : Statement .tsyncTimer := any _
theorem lctlNak : ∀ a0 a1 a2 a3, Statement (.lctlNak a0 a1 a2 a3) := fun _ _ _ _ => any _
theorem lctlCredit : ∀ a0 a1 a2 a3 a4, Statement (.lctlCredit a0 a1 a2 a3 a4) := fun _ _ _ _ _ => any _
theorem portRxTimeout : ∀ a0, Statement (.portRxTimeout a0) := fun _ => any _
theorem requestTimeout : ∀ a0, Statement (.requestTimeout a0) := fun _ => any _
theorem gangPrepare : ∀ a0 a1 a2 a3 a4, Statement (.gangPrepare a0 a1 a2 a3 a4) := fun _ _ _ _ _ => any _
theorem gangPrepared : ∀ a0 a1 a2 a3, Statement (.gangPrepared a0 a1 a2 a3) := fun _ _ _ _ => any _
theorem gangRefused : ∀ a0 a1 a2 a3 a4, Statement (.gangRefused a0 a1 a2 a3 a4) := fun _ _ _ _ _ => any _
theorem gangCommit : ∀ a0 a1 a2 a3 a4, Statement (.gangCommit a0 a1 a2 a3 a4) := fun _ _ _ _ _ => any _
theorem gangAbort : ∀ a0 a1 a2 a3, Statement (.gangAbort a0 a1 a2 a3) := fun _ _ _ _ => any _
theorem gangAlive : ∀ a0 a1 a2 a3, Statement (.gangAlive a0 a1 a2 a3) := fun _ _ _ _ => any _
theorem gangDone : ∀ a0 a1 a2 a3 a4 a5 a6, Statement (.gangDone a0 a1 a2 a3 a4 a5 a6) := fun _ _ _ _ _ _ _ => any _
theorem gangPrepareDeadline : ∀ a0, Statement (.gangPrepareDeadline a0) := fun _ => any _
theorem gangStartT : ∀ a0 a1, Statement (.gangStartT a0 a1) := fun _ _ => any _
theorem gangCommitWaitTimeout : ∀ a0 a1, Statement (.gangCommitWaitTimeout a0 a1) := fun _ _ => any _
theorem gangAliveTimer : Statement .gangAliveTimer := any _
theorem gangMemberSilent : ∀ a0 a1, Statement (.gangMemberSilent a0 a1) := fun _ _ => any _
theorem gangCoordinatorSilent : ∀ a0 a1, Statement (.gangCoordinatorSilent a0 a1) := fun _ _ => any _
theorem gangAbortCollect : ∀ a0 a1, Statement (.gangAbortCollect a0 a1) := fun _ _ => any _
theorem hopplanSendSlot : ∀ a0, Statement (.hopplanSendSlot a0) := fun _ => any _
theorem hopplanRecvStep : ∀ a0, Statement (.hopplanRecvStep a0) := fun _ => any _
theorem hopplanRecvDeadline : ∀ a0, Statement (.hopplanRecvDeadline a0) := fun _ => any _
theorem objectCacheFill : ∀ a0 a1, Statement (.objectCacheFill a0 a1) := fun _ _ => any _
theorem pageWalkComplete : ∀ a0 a1, Statement (.pageWalkComplete a0 a1) := fun _ _ => any _
theorem memoryRequestComplete : ∀ a0 a1, Statement (.memoryRequestComplete a0 a1) := fun _ _ => any _
theorem sliceStrongAccess : ∀ a0, Statement (.sliceStrongAccess a0) := fun _ => any _
theorem migrationBusyZero : ∀ a0, Statement (.migrationBusyZero a0) := fun _ => any _
theorem migrationCopyDone : ∀ a0, Statement (.migrationCopyDone a0) := fun _ => any _
theorem eviction : ∀ a0 a1, Statement (.eviction a0 a1) := fun _ _ => any _
theorem accessBitSample : Statement .accessBitSample := any _
theorem memoryScrub : ∀ a0, Statement (.memoryScrub a0) := fun _ => any _
theorem handoverKeyxferAnswer : ∀ a0 a1, Statement (.handoverKeyxferAnswer a0 a1) := fun _ _ => any _
theorem handoverDataok : ∀ a0, Statement (.handoverDataok a0) := fun _ => any _
theorem handoverRebind : ∀ a0 a1 a2, Statement (.handoverRebind a0 a1 a2) := fun _ _ _ => any _
theorem handoverConfirm : ∀ a0, Statement (.handoverConfirm a0) := fun _ => any _
theorem handoverStepTimeout : ∀ a0, Statement (.handoverStepTimeout a0) := fun _ => any _
theorem handoverTimeout : ∀ a0, Statement (.handoverTimeout a0) := fun _ => any _
theorem attest : Statement .attest := any _
theorem wcreate : Statement .wcreate := any _
theorem wdestroy : Statement .wdestroy := any _
theorem keygen : Statement .keygen := any _
theorem certset : Statement .certset := any _
theorem keyxfer : Statement .keyxfer := any _
theorem securityLockstepMismatch : Statement .securityLockstepMismatch := any _
theorem dependenceDecrement : ∀ a0, Statement (.dependenceDecrement a0) := fun _ => any _
theorem paramImageLoaded : ∀ a0 a1, Statement (.paramImageLoaded a0 a1) := fun _ _ => any _
theorem stepDispatch : ∀ a0 a1, Statement (.stepDispatch a0 a1) := fun _ _ => any _
theorem agingStep : ∀ a0, Statement (.agingStep a0) := fun _ => any _
theorem preemptGrace : ∀ a0, Statement (.preemptGrace a0) := fun _ => any _
theorem preemptDiscardDone : ∀ a0, Statement (.preemptDiscardDone a0) := fun _ => any _
theorem gatherRelease : Statement .gatherRelease := any _
theorem pipelineGathered : Statement .pipelineGathered := any _
theorem localGangGathered : ∀ a0, Statement (.localGangGathered a0) := fun _ => any _
theorem pipelineRebalance : ∀ a0, Statement (.pipelineRebalance a0) := fun _ => any _
theorem taskEnd : ∀ a0, Statement (.taskEnd a0) := fun _ => any _
theorem parkedStepResume : ∀ a0 a1, Statement (.parkedStepResume a0 a1) := fun _ _ => any _
theorem cascArrival : ∀ a0, Statement (.cascArrival a0) := fun _ => any _
theorem spoutGrant : ∀ a0, Statement (.spoutGrant a0) := fun _ => any _
theorem cascHoldTimeout : ∀ a0, Statement (.cascHoldTimeout a0) := fun _ => any _
theorem spoutLaunchTaken : ∀ a0, Statement (.spoutLaunchTaken a0) := fun _ => any _
theorem spoutNoRecord : ∀ a0, Statement (.spoutNoRecord a0) := fun _ => any _
theorem chainMessageStart : ∀ a0 a1, Statement (.chainMessageStart a0 a1) := fun _ _ => any _
theorem chainStageFault : ∀ a0, Statement (.chainStageFault a0) := fun _ => any _
theorem batchDeliver : ∀ a0, Statement (.batchDeliver a0) := fun _ => any _
theorem consumerGone : ∀ a0 a1, Statement (.consumerGone a0 a1) := fun _ _ => any _
theorem engineCommandIssue : ∀ a0 a1, Statement (.engineCommandIssue a0 a1) := fun _ _ => any _
theorem engineCommandRetire : ∀ a0 a1 a2 a3, Statement (.engineCommandRetire a0 a1 a2 a3) := fun _ _ _ _ => any _
theorem sfuWriteback : ∀ a0, Statement (.sfuWriteback a0) := fun _ => any _
theorem stepBoundaryRelease : ∀ a0 a1, Statement (.stepBoundaryRelease a0 a1) := fun _ _ => any _
theorem tokenStall : ∀ a0, Statement (.tokenStall a0) := fun _ => any _
theorem faultFrameWrite : ∀ a0 a1 a2 a3 a4 a5 a6, Statement (.faultFrameWrite a0 a1 a2 a3 a4 a5 a6) := fun _ _ _ _ _ _ _ => any _
theorem ueEngine : ∀ a0 a1, Statement (.ueEngine a0 a1) := fun _ _ => any _
theorem ueMem : ∀ a0 a1, Statement (.ueMem a0 a1) := fun _ _ => any _
theorem ueBasin : ∀ a0 a1, Statement (.ueBasin a0 a1) := fun _ _ => any _
theorem ueCacheEntry : ∀ a0 a1 a2, Statement (.ueCacheEntry a0 a1 a2) := fun _ _ _ => any _
theorem ueSliceBuffer : ∀ a0 a1, Statement (.ueSliceBuffer a0 a1) := fun _ _ => any _
theorem pubEffect : ∀ a0, Statement (.pubEffect a0) := fun _ => any _
theorem draftOpen : ∀ a0, Statement (.draftOpen a0) := fun _ => any _
theorem spawnArrival : ∀ a0, Statement (.spawnArrival a0) := fun _ => any _
theorem nearbankStart : ∀ a0 a1 a2, Statement (.nearbankStart a0 a1 a2) := fun _ _ _ => any _
theorem nearbankComplete : ∀ a0 a1 a2, Statement (.nearbankComplete a0 a1 a2) := fun _ _ _ => any _
theorem seqCommandExecute : ∀ a0 a1 a2, Statement (.seqCommandExecute a0 a1 a2) := fun _ _ _ => any _
theorem attnRequestStart : ∀ a0 a1, Statement (.attnRequestStart a0 a1) := fun _ _ => any _
theorem pinReleaseFree : ∀ a0 a1, Statement (.pinReleaseFree a0 a1) := fun _ _ => any _
theorem ringTransfer : ∀ a0 a1, Statement (.ringTransfer a0 a1) := fun _ _ => any _
theorem tetherMsTick : Statement .tetherMsTick := any _
theorem commandSlotSubmit : ∀ a0 a1, Statement (.commandSlotSubmit a0 a1) := fun _ _ => any _
theorem xsyncWaitRelease : ∀ a0 a1, Statement (.xsyncWaitRelease a0 a1) := fun _ _ => any _

end Sys2Proof.Laws.Encoding
end

