-- ==== Sys2Proof/Certificates/Slice0/Obligations.lean ====
section
/-!
DEFINITION. The statements of the model.
-/

open Sys2Proof Sys2Proof.Machine Sys2Proof.Safety

/-! ### Encoding and steps -/

/-- R279 to R285: the decoder reads every well-formed instruction back from its encoding, with every operand. -/
def Obligations.DecodeEncode : Prop := ∀ i : Instr, i.wf = true → 0 < i.size → Decode.words (encode i) = .ok i

/-- Words that the spec's examples write out (Tables 12-10 and 13-10) decode to the instructions they stand for. R279, R281 and
Table 12-6 rows 3 to 5: an opcode that map 1 does not list, a length that an operation does not have, a reserved bit, the guard
0b1000 and a vector register of 1,536 or above are refused. -/
def Obligations.DecodedWords : Prop :=
  (Decode.words [0x3800009B, 0x9ABCDEF0, 0x12345678] = .ok (.movi96 0 7 0x9ABCDEF0 0x12345678)
      ∧ Decode.words [0x19EC0005] = .ok (.add 0 3 7 22)
      ∧ Decode.words [0x18C6B005] = .ok (.add 0b1011 3 3 3)
      ∧ Decode.words [0x00000C11] = .ok (.exit 0)
      ∧ Decode.words [0x080701C2, 0] = .ok (.ldp 0 1 3 1 0)
      ∧ Decode.words [0x08E500A6, 0] = .ok (.cmp 0 1 3 5 1 0)
      ∧ Decode.words [0x00009182, 0x15] = .ok (.br 0b1001 5 1)
      ∧ Decode.words [0x00E00095] = .ok (.mov 0 0 3 2 0)
      ∧ Decode.words [0x0000019A, 0] = .ok (.loop 0 0 0 0))
    ∧ ((∀ x : BitVec 20, Decode.words [x ++ (0b000000000001 : BitVec 12)] = .error (.unmapped 0))
        ∧ (∀ x y : U32, ∀ i, Decode.words [x &&& 0xFFFFF000 ||| 0x006, y] ≠ .ok i)
        ∧ (∀ i, Decode.words [0x19ED0005] ≠ .ok i)
        ∧ (∀ i, Decode.words [0x19EC8005] ≠ .ok i)
        ∧ (∀ i, Decode.words [0x06000802, 0] ≠ .ok i))

/-- A step of a context whose next instruction is at hand is the execution of the decoded instruction, both when the turn
stays and when the agenda gives it to an agent; one whose agenda begins with an event is the execution of the event, and one
that begins with time lets it pass (log entry 1). -/
def Obligations.Steps : Prop :=
  (∀ (s : State) (i : Instr) (rest : List Action),
      s.runnable = true → s.pos.line.toNat < s.nLines → s.lineHeld s.pos.line = true →
      s.lineBad (linkOf (s.lineBytes s.pos.line)) = false → s.pos.slot ≠ 15 → s.ctx.skip = false →
      Decode.lenOf (slotWord (s.lineBytes s.pos.line) s.pos.slot.toNat) ≠ 0 →
      s.decodeAt (s.lineBytes s.pos.line) s.pos.slot.toNat = .ok i →
      (s.agenda = [] → step s = exec i s)
        ∧ step { s with agenda := .turn s.turn :: rest } = exec i { s with agenda := rest })
    ∧ (∀ (s : State) (rest : List Action),
        (∀ i : Instr, i.size = 0 → step { s with agenda := .event i :: rest } = exec i { s with agenda := rest })
          ∧ (∀ n, step { s with agenda := .wait n :: rest } = .next ({ s with agenda := rest }.pass n))
          ∧ (s.agenda = [] → s.runnable = false → step s = .next (s.pass 1)))

/-- R24, R20 and Table 12-3: after a reset the package is at bring-up step 1, no compute-die clock runs, no core decodes with
a map other than map 1, and nothing is in memory or in a table. -/
def Obligations.ResetState : Prop :=
  State.reset.power.bootStep = 1 ∧ State.reset.ready = false ∧ State.reset.mem = [] ∧ State.reset.hostMem = []
    ∧ State.reset.agenda = [] ∧ State.reset.tether = 0 ∧ State.reset.host.errstat = 0
    ∧ (∀ f, (State.reset.core f).dmapsel = 0b001001001 ∧ (State.reset.core f).maps = [])
    ∧ (∀ f b, (State.reset.bank f b).st = .idle ∧ (State.reset.bank f b).cmds = [] ∧ (State.reset.bank f b).fault = none)

/-- The memories at reset have their canonical form (the representation is the model's, log entry 4). -/
def Obligations.MemoryCanonicalAtReset : Prop := MemoryCanonical State.reset

/-- Every step keeps the canonical form of the memories (the representation is the model's, log entry 4). -/
def Obligations.MemoryCanonicalKept : Prop := ∀ s t : State, MemoryCanonical s → step s = .next t → MemoryCanonical t

/-! ### Issue -/

/-- R176, R282: an instruction whose guard does not hold has no effect, and its context goes on after it; an engine command
then enters no queue and does not wait for a full one. It waits, with nothing changed, while a register that it names, or
its guard's predicate, awaits a result, and an engine command while its queue holds 32 commands. -/
def Obligations.IssueConditions : Prop :=
  (∀ (s : State) (g tk h : BitVec 4) (x y z : BitVec 5) (a : BitVec 3) (vd va vb : BitVec 11) (ty : BitVec 4) (x3 : BitVec 3)
      (x1 : BitVec 1) (slot : BitVec 4) (ld : BitVec 28), s.guardHolds g = false →
      (s.awaits g { s := [x, y, z] } = false → exec (.add g x y z) s = .next (goOn s 1))
        ∧ (s.awaits g { s := [x, y] } = false →
            exec (.lde g x y h 0 0) s = .next (goOn s 2) ∧ exec (.ste g x y h 2) s = .next (goOn s 2)
              ∧ exec (.spawn g x y a) s = .next (goOn s 2))
        ∧ (s.awaits g { s := [x, y, z] } = false → exec (.atom g x y h 1 z 0) s = .next (goOn s 2))
        ∧ (s.awaits g {} = false → exec (.br g slot ld) s = .next (goOn s 2))
        ∧ (s.awaits g {} = false → OnCore s →
            exec (.vadd tk g vd 0 va vb ty 0 x3 x1) s = .next (goOn s 2) ∧ exec (.mzero tk g a) s = .next (goOn s 1)
              ∧ exec (.kvapp tk g h a va vb 0) s = .next (goOn s 2) ∧ exec (.exit g) s = .next (goOn s 1)))
    ∧ (∀ (s : State) (g h : BitVec 4) (x y z : BitVec 5) (p : BitVec 3) (rd : BitVec 3) (rc : BitVec 32),
        (s.awaits g { s := [x, y, z] } = true → exec (.add g x y z) s = .next s ∧ exec (.atom g x y h 1 z 0) s = .next s)
          ∧ (s.awaits g { s := [x, y] } = true → exec (.lde g x y h 0 rd) s = .next s ∧ exec (.ste g x y h 0) s = .next s)
          ∧ (s.awaits g { s := [x, y, z], p := [p] } = true → exec (.sel g x y p z) s = .next s)
          ∧ (s.awaits g { s := [x, y] } = true → exec (.andi g x y rc) s = .next s))
    ∧ (∀ (s : State) (tk g d h : BitVec 4) (vd va vb : BitVec 11) (q x1 : BitVec 1) (ty : BitVec 4) (nr : BitVec 2) (a x3 : BitVec 3),
        OnCore s → Issues s g (vbUses q vb) → Issues s g {} →
          (32 ≤ (s.curBank.queue .LQ).length → exec (.ldt tk g vd q d a x3) s = .next s)
            ∧ (32 ≤ (s.curBank.queue .SQ).length → exec (.stt tk g vd q d a x1) s = .next s)
            ∧ (32 ≤ (s.curBank.queue .MQ).length → exec (.mzero tk g a) s = .next s)
            ∧ (32 ≤ (s.curBank.queue .VQ).length → exec (.vadd tk g vd q va vb ty nr x3 x1) s = .next s)
            ∧ (32 ≤ (s.curBank.queue .XQ).length → exec (.rrzero tk g h a) s = .next s))

/-- R288, R442, R443, R251, Table 10-6: a system instruction that a step issues raises PRIV; what a system core has no unit for
raises ILLEGAL_OP there; an instruction that is allowed only after COMMIT raises COMMIT_ORDER before it. None has an effect. -/
def Obligations.IssueCauses : Prop :=
  (∀ (s : State) (g h : BitVec 4) (x y : BitVec 5) (a slot kind : BitVec 3) (num : BitVec 12) (sc : BitVec 2) (b op : BitVec 1)
      (wl : BitVec 8), OnCore s →
      exec (.eret g) s = causes s Cause.priv ∧ exec (.waiti g x) s = causes s Cause.priv ∧ exec (.halt g) s = causes s Cause.priv
        ∧ exec (.syswr g x y num) s = causes s Cause.priv ∧ exec (.decmap g x y h slot) s = causes s Cause.priv
        ∧ exec (.tlbinv g x y sc b) s = causes s Cause.priv ∧ exec (.otinv g x y sc b) s = causes s Cause.priv
        ∧ exec (.migr g x a) s = causes s Cause.priv ∧ exec (.zerob g x y kind) s = causes s Cause.priv
        ∧ exec (.keyset g x op wl) s = causes s Cause.priv)
    ∧ (∀ (s : State) (g tk h d : BitVec 4) (x : BitVec 5) (a k : BitVec 3) (vd va vb : BitVec 11) (ty : BitVec 4) (nr : BitVec 2)
        (x3 : BitVec 3) (x1 q : BitVec 1) (lit : BitVec 32) (slot : BitVec 2) (rows cols : BitVec 7) (c0 : BitVec 16), OnSys s →
        exec (.vadd tk g vd q va vb ty nr x3 x1) s = causes s Cause.illegalOp
          ∧ exec (.ldt tk g vd q d a k) s = causes s Cause.illegalOp ∧ exec (.mzero tk g a) s = causes s Cause.illegalOp
          ∧ exec (.dset g h d rows cols c0 lit) s = causes s Cause.illegalOp ∧ exec (.dmov g h d) s = causes s Cause.illegalOp
          ∧ exec (.fmtqReg g x) s = causes s Cause.illegalOp ∧ exec (.commit g) s = causes s Cause.illegalOp
          ∧ exec (.exit g) s = causes s Cause.illegalOp ∧ exec (.arrive g slot q) s = causes s Cause.illegalOp
          ∧ exec (.racqP g a k) s = causes s Cause.illegalOp ∧ exec (.rrelC g k) s = causes s Cause.illegalOp
          ∧ exec (.tokq g x) s = causes s Cause.illegalOp)
    ∧ (∀ (s : State) (g tk h t : BitVec 4) (x y v e n st : BitVec 5) (a : BitVec 3) (w ii md : BitVec 1) (opc : BitVec 4) (fop : BitVec 2)
        (pd : BitVec 3) (k : BitVec 16) (va vb : BitVec 11) (c : BitVec 6) (tag : BitVec 3) (mask : BitVec 8) (imm : BitVec 32)
        (ch : BitVec 4) (ld : BitVec 28), OnCore s → s.committed = false → s.guardHolds g = true → s.ctx.pendS = 0 → s.ctx.pendP = 0 →
        exec (.atom g x y h w v opc) s = causes s Cause.commitOrder ∧ exec (.fatom g x y h v fop) s = causes s Cause.commitOrder
          ∧ exec (.atomnr g x y h w opc w) s = causes s Cause.commitOrder ∧ exec (.cas g x y h w e n pd) s = causes s Cause.commitOrder
          ∧ exec (.casc g x y h w e n t st) s = causes s Cause.commitOrder ∧ exec (.pub g h) s = causes s Cause.commitOrder
          ∧ exec (.spawn g x y a) s = causes s Cause.commitOrder ∧ exec (.spawnRec g x y a) s = causes s Cause.commitOrder
          ∧ exec (.depdec g x y ii k) s = causes s Cause.commitOrder ∧ exec (.kvapp tk g h a va vb c) s = causes s Cause.commitOrder
          ∧ exec (.retspan tk g h a md mask) s = causes s Cause.commitOrder ∧ exec (.spanopen tk g h tag) s = causes s Cause.commitOrder
          ∧ exec (.spanclose tk g h) s = causes s Cause.commitOrder ∧ exec (.intk tk g a imm) s = causes s Cause.commitOrder
          ∧ exec (.sumprd g x a ch) s = causes s Cause.commitOrder ∧ exec (.xstep tk g x a ld) s = causes s Cause.commitOrder)

/-! ### Taking an exception -/

/-- R242, R243: the first cause of a bank stops it and is recorded with the position and the task; every later cause only sets
MULTI. The registers of the bank, its scratchpad, every other bank and memory stay as they are. -/
def Obligations.TakingACause : Prop :=
  (∀ (s : State) (f : Nat) (b : BitVec 1) (src : BitVec 3) (p : Pos) (task : Word) (x : TrapInfo),
      ((s.bank f b).fault = none →
        ((s.raise f b src p task x).bank f b).st = .draining
          ∧ ((s.raise f b src p task x).bank f b).fault
              = some ⟨x.cause, src, x.path, x.level, x.handle, x.idx, x.va, p, task, false, x.code, s.cycle, false⟩)
        ∧ (∀ fi, (s.bank f b).fault = some fi →
            (s.raise f b src p task x).bank f b = { s.bank f b with fault := some { fi with multi := true } }))
    ∧ (∀ (s : State) (f : Nat) (b : BitVec 1) (src : BitVec 3) (p : Pos) (task : Word) (x : TrapInfo),
        let t := s.raise f b src p task x
        (t.bank f b).L = (s.bank f b).L ∧ (t.bank f b).C = (s.bank f b).C ∧ (t.bank f b).S = (s.bank f b).S
          ∧ (t.bank f b).h = (s.bank f b).h ∧ (t.bank f b).d = (s.bank f b).d ∧ (t.bank f b).vregs = (s.bank f b).vregs
          ∧ (t.bank f b).accs = (s.bank f b).accs ∧ (t.bank f b).scratch = (s.bank f b).scratch
          ∧ (t.bank f b).tokens = (s.bank f b).tokens ∧ (t.bank f b).cmds = (s.bank f b).cmds
          ∧ t.mem = s.mem ∧ t.hostMem = s.hostMem ∧ (∀ e c, e ≠ f → t.bank e c = s.bank e c) ∧ (∀ c, c ≠ b → t.bank f c = s.bank f c))

/-- R466: a cause on a system core loads ECAUSE with the cause and its code, EPC with the position of the instruction, and
goes to SVEC; ERET then continues at EPC. -/
def Obligations.SystemException : Prop :=
  ∀ (s : State) (n : BitVec 4) (x : TrapInfo), s.turn = .sys n →
    ((s.trap x).sysCore n.toNat).ecause = x.code ++ x.cause
      ∧ ((s.trap x).sysCore n.toNat).epc = BitVec.ofNat 28 (posNat s.pos)
      ∧ (s.trap x).pos = posOfNat (s.sysCore n.toNat).svec.toNat
      ∧ (s.trap x).mem = s.mem
      ∧ (∀ r, (s.trap x).getS r = s.getS r) ∧ (∀ r, (s.trap x).getP r = s.getP r) ∧ (∀ r, (s.trap x).getA r = s.getA r)
      ∧ (∀ g, Issues s g {} → ∃ t, exec (.eret g) s = .next t ∧ t.pos = posOfNat (s.sysCore n.toNat).epc.toNat
            ∧ (∀ r, t.getS r = s.getS r) ∧ t.mem = s.mem)

/-! ### Integer arithmetic -/

/-- R304: the sums, products and logical operations of Table 13-2. -/
def Obligations.IntegerArithmetic : Prop :=
  ∀ (s : State) (g : BitVec 4) (x y z : BitVec 5), Issues s g { s := [x, y, z] } →
    exec (.add g x y z) s = .next (goOn (s.setS x (s.getS y + s.getS z)) 1)
      ∧ exec (.sub g x y z) s = .next (goOn (s.setS x (s.getS y - s.getS z)) 1)
      ∧ exec (.mul g x y z) s = .next (goOn (s.setS x (s.getS y * s.getS z)) 1)
      ∧ exec (.mulh g x y z) s = .next (goOn (s.setS x (BitVec.ofInt 64 ((s.getS y).toInt * (s.getS z).toInt / 2 ^ 64))) 1)
      ∧ exec (.mulhz g x y z) s = .next (goOn (s.setS x (BitVec.ofNat 64 ((s.getS y).toNat * (s.getS z).toNat / 2 ^ 64))) 1)
      ∧ exec (.and g x y z) s = .next (goOn (s.setS x (s.getS y &&& s.getS z)) 1)
      ∧ exec (.or g x y z) s = .next (goOn (s.setS x (s.getS y ||| s.getS z)) 1)
      ∧ exec (.xor g x y z) s = .next (goOn (s.setS x (s.getS y ^^^ s.getS z)) 1)
      ∧ exec (.andn g x y z) s = .next (goOn (s.setS x (s.getS y &&& ~~~s.getS z)) 1)

/-- R305: division rounds the quotient towards zero and never traps: by 0 the quotient is all ones and the remainder the
dividend; −2^63 by −1 gives −2^63 and 0; otherwise quotient and remainder are those of the integers. -/
def Obligations.Division : Prop :=
  ∀ (s : State) (g : BitVec 4) (x y z : BitVec 5), Issues s g { s := [x, y, z] } →
    ∃ q r qz rz : Word,
      exec (.div g x y z) s = .next (goOn (s.setS x q) 1) ∧ exec (.rem g x y z) s = .next (goOn (s.setS x r) 1)
        ∧ exec (.divz g x y z) s = .next (goOn (s.setS x qz) 1) ∧ exec (.remz g x y z) s = .next (goOn (s.setS x rz) 1)
        ∧ (s.getS z = 0 → q = BitVec.allOnes 64 ∧ qz = BitVec.allOnes 64 ∧ r = s.getS y ∧ rz = s.getS y)
        ∧ (s.getS y = 0x8000000000000000 → s.getS z = BitVec.allOnes 64 → q = 0x8000000000000000 ∧ r = 0)
        ∧ (s.getS z ≠ 0 → ¬(s.getS y = 0x8000000000000000 ∧ s.getS z = BitVec.allOnes 64) →
            q.toInt = (s.getS y).toInt.tdiv (s.getS z).toInt
              ∧ r.toInt = (s.getS y).toInt - (s.getS z).toInt * (s.getS y).toInt.tdiv (s.getS z).toInt)
        ∧ (s.getS z ≠ 0 → qz.toNat = (s.getS y).toNat / (s.getS z).toNat ∧ rz.toNat = (s.getS y).toNat % (s.getS z).toNat)

/-- R304, R306: the shifts take the amount n from bits [5:0]: SHL gives (a × 2^n) mod 2^64, SHR Floor(a / 2^n), SAR
Floor(sa / 2^n), and ROTL the two together; the smaller and the larger of two registers, signed and unsigned. -/
def Obligations.ShiftsAndMinMax : Prop :=
  (∀ (s : State) (g : BitVec 4) (x y z : BitVec 5), Issues s g { s := [x, y, z] } →
      let n := (s.getS z).toNat % 64
      ∃ l r a t : Word,
        exec (.shl g x y z) s = .next (goOn (s.setS x l) 1) ∧ exec (.shr g x y z) s = .next (goOn (s.setS x r) 1)
          ∧ exec (.sar g x y z) s = .next (goOn (s.setS x a) 1) ∧ exec (.rotl g x y z) s = .next (goOn (s.setS x t) 1)
          ∧ l.toNat = (s.getS y).toNat * 2 ^ n % 2 ^ 64 ∧ r.toNat = (s.getS y).toNat / 2 ^ n
          ∧ a.toInt = (s.getS y).toInt / 2 ^ n
          ∧ (∀ k < 64, t.getLsbD ((k + n) % 64) = (s.getS y).getLsbD k))
    ∧ (∀ (s : State) (g : BitVec 4) (x y z : BitVec 5), Issues s g { s := [x, y, z] } →
        ∃ lo hi loz hiz : Word,
          exec (.min g x y z) s = .next (goOn (s.setS x lo) 1) ∧ exec (.max g x y z) s = .next (goOn (s.setS x hi) 1)
            ∧ exec (.minz g x y z) s = .next (goOn (s.setS x loz) 1) ∧ exec (.maxz g x y z) s = .next (goOn (s.setS x hiz) 1)
            ∧ lo.toInt = min (s.getS y).toInt (s.getS z).toInt ∧ hi.toInt = max (s.getS y).toInt (s.getS z).toInt
            ∧ loz.toNat = min (s.getS y).toNat (s.getS z).toNat ∧ hiz.toNat = max (s.getS y).toNat (s.getS z).toNat)

/-- R307, R309: CLZ and CTZ count the zero bits above the highest and below the lowest one bit, 64 for 0; POPC the one bits;
BSWAP reverses the bytes; SEXT and ZEXT extend the low 8, 16 or 32 bits. BFX extracts a field of W bits at LO and extends it;
BFI replaces one; LO + W above 64 raises ILLEGAL_OP. -/
def Obligations.BitOperations : Prop :=
  (∀ (s : State) (g : BitVec 4) (x y z : BitVec 5), Issues s g { s := [x, y] } →
      let a := s.getS y
      ∃ lz tz pc bs : Word,
        exec (.clz g x y) s = .next (goOn (s.setS x lz) 1) ∧ exec (.ctz g x y) s = .next (goOn (s.setS x tz) 1)
          ∧ exec (.popc g x y) s = .next (goOn (s.setS x pc) 1) ∧ exec (.bswap g x y) s = .next (goOn (s.setS x bs) 1)
          ∧ (a = 0 → lz = 64 ∧ tz = 64)
          ∧ (a ≠ 0 → lz.toNat < 64 ∧ a.getLsbD (63 - lz.toNat) = true ∧ ∀ k, 63 - lz.toNat < k → a.getLsbD k = false)
          ∧ (a ≠ 0 → tz.toNat < 64 ∧ a.getLsbD tz.toNat = true ∧ ∀ k, k < tz.toNat → a.getLsbD k = false)
          ∧ pc.toNat = ((List.range 64).filter fun k => a.getLsbD k).length
          ∧ (∀ k < 8, ∀ j < 8, bs.getLsbD (8 * (7 - k) + j) = a.getLsbD (8 * k + j))
          ∧ (z = 0 → exec (.sext g x y z) s = .next (goOn (s.setS x ((a.setWidth 8).signExtend 64)) 1)
              ∧ exec (.zext g x y z) s = .next (goOn (s.setS x ((a.setWidth 8).setWidth 64)) 1))
          ∧ (z = 1 → exec (.sext g x y z) s = .next (goOn (s.setS x ((a.setWidth 16).signExtend 64)) 1)
              ∧ exec (.zext g x y z) s = .next (goOn (s.setS x ((a.setWidth 16).setWidth 64)) 1))
          ∧ (z = 2 → exec (.sext g x y z) s = .next (goOn (s.setS x ((a.setWidth 32).signExtend 64)) 1)
              ∧ exec (.zext g x y z) s = .next (goOn (s.setS x ((a.setWidth 32).setWidth 64)) 1)))
    ∧ (∀ (s : State) (g : BitVec 4) (x y : BitVec 5) (lo wm : BitVec 6), Issues s g { s := [x, y] } →
        let w := wm.toNat + 1
        (64 < lo.toNat + w → ∀ sg, exec (.bfx g x y sg lo wm) s = causes s Cause.illegalOp
            ∧ exec (.bfi g x y lo wm) s = causes s Cause.illegalOp)
          ∧ (lo.toNat + w ≤ 64 → ∃ u v i : Word,
              exec (.bfx g x y 0 lo wm) s = .next (goOn (s.setS x u) 2) ∧ exec (.bfx g x y 1 lo wm) s = .next (goOn (s.setS x v) 2)
                ∧ exec (.bfi g x y lo wm) s = .next (goOn (s.setS x i) 2)
                ∧ (∀ k < 64, u.getLsbD k = if k < w then (s.getS y).getLsbD (lo.toNat + k) else false)
                ∧ (∀ k < 64, v.getLsbD k = (s.getS y).getLsbD (lo.toNat + min k (w - 1)))
                ∧ (∀ k < 64, i.getLsbD k =
                    if lo.toNat ≤ k ∧ k < lo.toNat + w then (s.getS y).getLsbD (k - lo.toNat) else (s.getS x).getLsbD k)))

/-- R308, R311: the immediate forms. ADDI acts on s, a or lc registers, modulo 2^64 or 2^32. -/
def Obligations.Immediates : Prop :=
  ∀ (s : State) (g : BitVec 4) (x y : BitVec 5) (imm lit : BitVec 32) (n : BitVec 6),
    (Issues s g { s := [x, y] } →
      exec (.addi g x y 0 imm) s = .next (goOn (s.setS x (s.getS y + imm.signExtend 64)) 2)
        ∧ exec (.andi g x y imm) s = .next (goOn (s.setS x (s.getS y &&& imm.signExtend 64)) 2)
        ∧ exec (.ori g x y imm) s = .next (goOn (s.setS x (s.getS y ||| imm.signExtend 64)) 2)
        ∧ exec (.xori g x y imm) s = .next (goOn (s.setS x (s.getS y ^^^ imm.signExtend 64)) 2)
        ∧ exec (.shli g x y n) s = .next (goOn (s.setS x (s.getS y <<< n.toNat)) 2)
        ∧ exec (.shri g x y n) s = .next (goOn (s.setS x (s.getS y >>> n.toNat)) 2)
        ∧ exec (.sari g x y n) s = .next (goOn (s.setS x ((s.getS y).sshiftRight n.toNat)) 2)
        ∧ exec (.movhi g x y imm) s = .next (goOn (s.setS x (imm ++ (s.getS y).setWidth 32)) 2))
      ∧ (Issues s g {} →
          exec (.addi g x y 1 imm) s = .next (goOn (s.setA (x.setWidth 3) (s.getA (y.setWidth 3) + imm)) 2)
            ∧ exec (.addi g x y 2 imm) s
                = .next (goOn (s.setCtx (s.ctx.setLc (x.setWidth 2) (s.ctx.getLc (y.setWidth 2) + imm))) 2))
      ∧ (Issues s g { s := [x] } →
          exec (.movi64 g x imm) s = .next (goOn (s.setS x (imm.signExtend 64)) 2)
            ∧ exec (.movi96 g x imm lit) s = .next (goOn (s.setS x (lit ++ imm)) 3))

/-- R310, R312: MOV copies between the register classes s, a, lc and p; SEL chooses by a predicate. R313, R314: CMP writes
whether the condition of Table 13-4 holds; the predicate operations combine predicates. -/
def Obligations.MovesAndPredicates : Prop :=
  (∀ (s : State) (g : BitVec 4) (x y z : BitVec 5) (p : BitVec 3) (dc sc : BitVec 2),
      (Issues s g { s := (usesClass dc x).s ++ (usesClass sc y).s, p := (usesClass dc x).p ++ (usesClass sc y).p } →
        ∃ v : Word, exec (.mov g x y dc sc) s = .next (goOn (s.writeClass dc x v) 1)
          ∧ (sc = 0 → v = s.getS y) ∧ (sc = 1 → v = (s.getA (y.setWidth 3)).setWidth 64)
          ∧ (sc = 2 → v = (s.ctx.getLc (y.setWidth 2)).setWidth 64) ∧ (sc = 3 → v = if s.getP (y.setWidth 3) then 1 else 0)
          ∧ (dc = 0 → s.writeClass dc x v = s.setS x v) ∧ (dc = 1 → s.writeClass dc x v = s.setA (x.setWidth 3) (v.setWidth 32))
          ∧ (dc = 2 → s.writeClass dc x v = s.setCtx (s.ctx.setLc (x.setWidth 2) (v.setWidth 32)))
          ∧ (dc = 3 → s.writeClass dc x v = s.setP (x.setWidth 3) (v != 0)))
        ∧ (Issues s g { s := [x, y, z], p := [p] } →
            exec (.sel g x y p z) s = .next (goOn (s.setS x (if s.getP p then s.getS y else s.getS z)) 2)))
    ∧ (∀ (s : State) (g cc : BitVec 4) (x p q : BitVec 3) (y : BitVec 5) (ii : BitVec 1) (imm : BitVec 32),
        (Issues s g { s := if ii = 1 then [y] else [y, imm.setWidth 5], p := [x] } → cc.toNat < 11 →
          let a := s.getS y
          let b := if ii = 1 then imm.signExtend 64 else s.getS (imm.setWidth 5)
          ∃ v, exec (.cmp g x y cc ii imm) s = .next (goOn (s.setP x v) 2)
            ∧ (cc = 0 → v = decide (a = b)) ∧ (cc = 1 → v = decide (a ≠ b)) ∧ (cc = 2 → v = decide (a.toInt < b.toInt))
            ∧ (cc = 3 → v = decide (b.toInt ≤ a.toInt)) ∧ (cc = 4 → v = decide (a.toInt ≤ b.toInt))
            ∧ (cc = 5 → v = decide (b.toInt < a.toInt)) ∧ (cc = 6 → v = decide (a.toNat < b.toNat))
            ∧ (cc = 7 → v = decide (b.toNat ≤ a.toNat)) ∧ (cc = 8 → v = decide (a.toNat ≤ b.toNat))
            ∧ (cc = 9 → v = decide (b.toNat < a.toNat)) ∧ (cc = 10 → v = decide (a &&& b ≠ 0)))
          ∧ (Issues s g { p := [x, p, q] } →
              exec (.pand g x p q) s = .next (goOn (s.setP x (s.getP p && s.getP q)) 1)
                ∧ exec (.por g x p q) s = .next (goOn (s.setP x (s.getP p || s.getP q)) 1)
                ∧ exec (.pxor g x p q) s = .next (goOn (s.setP x (s.getP p != s.getP q)) 1))
          ∧ (Issues s g { p := [x, p, p] } → exec (.pnot g x p) s = .next (goOn (s.setP x (!s.getP p)) 1)))

/-- R290: s0 and p0 are hard-wired: they read as 0 and 1, and a write to them is discarded. -/
def Obligations.HardWiredRegisters : Prop :=
  ∀ (s : State) (v : Word) (b : Bool),
    s.getS 0 = 0 ∧ s.getP 0 = true ∧ (s.setS 0 v).ctx = s.ctx ∧ (s.setP 0 b).ctx = s.ctx
      ∧ (∀ r, r ≠ 0 → (s.setS r v).getS r = v) ∧ (∀ r, r ≠ 0 → (s.setP r b).getP r = b)
      ∧ (∀ r q, q ≠ r → (s.setS r v).getS q = s.getS q) ∧ (∀ r q, q ≠ r → (s.setP r b).getP q = s.getP q)

/-! ### Scalar floating point -/

/-- R315, R316, R263: each operation is the exact result of its values, rounded once to its format; the special cases give the
canonical NaN, and a non-zero number over zero an infinity of the signs' product. R317 to R320: FMIN, FMAX, FCLASS, FCMP and
FCVT. -/
def Obligations.ScalarFloat : Prop :=
  ((∀ (s : State) (g : BitVec 4) (x y b c : BitVec 5) (fm : BitVec 2) (rnd : BitVec 3),
        let v := fun (r : BitVec 5) => fval fm.toNat (s.getS r)
        let d := rndOf rnd.toNat
        let out := fun (e : Val) => Host.Outcome.next (goOn (s.setS x (fres fm.toNat d e)) 2)
        (Issues s g { s := [x, y, b] } →
          exec (.fadd g x y fm b rnd) s = out ((v y).add (d == .rdn) (v b))
            ∧ exec (.fsub g x y fm b rnd) s = out ((v y).add (d == .rdn) (v b).neg)
            ∧ exec (.fmul g x y fm b rnd) s = out ((v y).mul (v b)) ∧ exec (.fdiv g x y fm b rnd) s = out ((v y).div (v b)))
          ∧ (Issues s g { s := [x, y, b, c] } → exec (.ffma g x y fm b rnd c) s = out (((v y).mul (v b)).add (d == .rdn) (v c)))
          ∧ (Issues s g { s := [x, y] } → exec (.fsqrt g x y fm rnd) s = out (v y).sqrt))
      ∧ (∀ (f r : Nat) (a : Val) (down s t : Bool) (n d e : Nat), 0 < d → 0 < e → 0 < n →
          let q := fun (x : Val) => fres f (rndOf r) x
          q .nan = BitVec.ofNat 64 (if f = 0 then 0x7FF8000000000000 else 0x7FC00000)
            ∧ a.add down .nan = .nan ∧ Val.nan.add down a = .nan ∧ a.mul .nan = .nan ∧ Val.nan.mul a = .nan
            ∧ a.div .nan = .nan ∧ Val.nan.div a = .nan ∧ Val.nan.sqrt = .nan
            ∧ (Val.inf s).add down (.inf (!s)) = .nan ∧ (Val.inf s).mul (.fin t 0 d) = .nan ∧ (Val.fin s 0 d).div (.fin t 0 e) = .nan
            ∧ (Val.inf s).div (.inf t) = .nan ∧ (Val.fin true n d).sqrt = .nan
            ∧ (Val.fin s n d).div (.fin t 0 e) = .inf (s != t) ∧ (Val.fin true 0 d).sqrt = .fin true 0 1
            ∧ (Val.fin s n d).add down (.fin (!s) n d) = .fin down 0 1))
    ∧ (∀ (s : State) (g cc : BitVec 4) (x y z : BitVec 5) (p : BitVec 3) (f : BitVec 1) (fm : BitVec 2) (dfmt sfmt : BitVec 8)
        (rnd : BitVec 3) (sat : BitVec 1),
        (Issues s g { s := [x, y, z] } →
          exec (.fmin g x y z f) s = .next (goOn (s.setS x (BitVec.ofNat 64
              (fminCode (scalarFlt f.toNat) false (scalarCode f.toNat (s.getS y)) (scalarCode f.toNat (s.getS z))))) 1)
            ∧ exec (.fmax g x y z f) s = .next (goOn (s.setS x (BitVec.ofNat 64
              (fminCode (scalarFlt f.toNat) true (scalarCode f.toNat (s.getS y)) (scalarCode f.toNat (s.getS z))))) 1))
          ∧ (Issues s g { s := [x, y] } →
              (∃ k < 10, exec (.fclass g x y f) s = .next (goOn (s.setS x (BitVec.ofNat 64 (2 ^ k))) 1)
                ∧ k = fclassBit (scalarFlt f.toNat) (scalarCode f.toNat (s.getS y)))
                ∧ exec (.fcvt g x y dfmt sfmt rnd sat) s = .next (goOn (s.setS x (codeWord dfmt
                    (roundTo (dec ((s.getS y).toNat % 2 ^ fmtWidth sfmt) sfmt) dfmt (rndOf rnd.toNat) (sat == 1) 0))) 2))
          ∧ (Issues s g { s := [y, z], p := [p] } →
              let a := fval fm.toNat (s.getS y)
              let b := fval fm.toNat (s.getS z)
              ∃ v, exec (.fcmp g p y fm cc z) s = .next (goOn (s.setP p v) 2)
                ∧ (cc = 6 → v = (a.isNan || b.isNan)) ∧ (cc = 7 → v = !(a.isNan || b.isNan))
                ∧ (a.isNan || b.isNan → cc.toNat < 6 → v = decide (cc = 1))
                ∧ (a.isNan = false → b.isNan = false → (cc = 0 → v = decide (a.cmp b = 0)) ∧ (cc = 1 → v = decide (a.cmp b ≠ 0))
                    ∧ (cc = 2 → v = decide (a.cmp b < 0)) ∧ (cc = 3 → v = decide (a.cmp b ≤ 0))
                    ∧ (cc = 4 → v = decide (0 < a.cmp b)) ∧ (cc = 5 → v = decide (0 ≤ a.cmp b)))))

/-! ### Control flow -/

/-- R181, R321, R324: a branch that is taken goes to line L + LDIST, slot SLOT, where an instruction starts; outside the image, on a
line that is none of the context's, or where no instruction starts, it raises CODE_BAD. One that is not taken goes on after
it, whatever its target; NOP and HINT have no effect. -/
def Obligations.Branches : Prop :=
  (∀ (s : State) (g slot : BitVec 4) (ld : BitVec 28) (x : BitVec 5) (p : BitVec 3) (n : BitVec 1) (w : BitVec 16),
      (Issues s g {} → exec (.nop g) s = .next (goOn s 1) ∧ exec (.hint g w) s = .next (goOn s 1))
        ∧ (Issues s g {} → AtHand s ld slot → exec (.br g slot ld) s = .next (s.noteIssue.goto (target s ld slot)))
        ∧ (Issues s g { p := [p] } →
            (AtHand s ld slot → s.getP p = (n == 0) → exec (.brp g p n slot ld) s = .next (s.noteIssue.goto (target s ld slot)))
              ∧ (s.getP p ≠ (n == 0) → exec (.brp g p n slot ld) s = .next (goOn s 2)))
        ∧ (Issues s g { s := [x] } →
            (AtHand s ld slot → s.getS x = 0 → exec (.brz g x slot ld) s = .next (s.noteIssue.goto (target s ld slot)))
              ∧ (s.getS x ≠ 0 → exec (.brz g x slot ld) s = .next (goOn s 2))
              ∧ (AtHand s ld slot → s.getS x ≠ 0 → exec (.brnz g x slot ld) s = .next (s.noteIssue.goto (target s ld slot)))
              ∧ (s.getS x = 0 → exec (.brnz g x slot ld) s = .next (goOn s 2))))
    ∧ (∀ (s : State) (g slot : BitVec 4) (ld : BitVec 28),
        let l : Int := s.pos.line.toNat + ld.toInt
        let line := BitVec.ofInt 24 l
        ((l < 0 ∨ (s.nLines : Int) ≤ l) → s.branchTo ld slot = .trap (trapOf Cause.codeBad)
            ∧ (Issues s g {} → exec (.br g slot ld) s = causes s Cause.codeBad))
          ∧ (0 ≤ l → l < s.nLines → s.lineHeld line = true →
              (s.lineBad (linkOf (s.lineBytes line)) = true ∨ startsInstr (s.lineBytes line) slot.toNat 15 0 = false →
                s.branchTo ld slot = .trap (trapOf Cause.codeBad) ∧ (Issues s g {} → exec (.br g slot ld) s = causes s Cause.codeBad))
              ∧ (s.lineBad (linkOf (s.lineBytes line)) = false → startsInstr (s.lineBytes line) slot.toNat 15 0 = true →
                s.branchTo ld slot = .goto s { line, slot })))

/-- R322, R323: CALL pushes the position that follows it, the oldest of 8 dropped; RET pops it, and an empty stack raises
CODE_BAD; LOOP counts lc down and branches while it is above 1, and ends at 0. -/
def Obligations.CallsAndLoops : Prop :=
  ∀ (s : State) (g slot : BitVec 4) (ld : BitVec 28) (x : BitVec 2), Issues s g {} →
    (AtHand s ld slot → exec (.call g slot ld) s
        = .next ((s.setCtx { s.ctx with ret := (s.after s.pos 2 :: s.ctx.ret).take 8 }).noteIssue.goto (target s ld slot)))
      ∧ (s.ctx.ret = [] → exec (.ret g) s = causes s Cause.codeBad)
      ∧ (∀ p rest, s.ctx.ret = p :: rest → exec (.ret g) s = .next ((s.setCtx { s.ctx with ret := rest }).noteIssue.goto p))
      ∧ (1 < (s.ctx.getLc x).toNat → AtHand s ld slot →
          exec (.loop g x slot ld) s = .next ((s.setCtx (s.ctx.setLc x (s.ctx.getLc x - 1))).noteIssue.goto (target s ld slot)))
      ∧ ((s.ctx.getLc x).toNat ≤ 1 → exec (.loop g x slot ld) s = .next (goOn (s.setCtx (s.ctx.setLc x 0)) 2))

/-! ### Scratchpad, parameters, handles and descriptors -/

/-- R326, R327, R329: LDP reads an aligned field of the parameter image, extended, LDS one of the scratchpad; HLD copies a handle
from a register or from the parameter image. A field beyond the image raises OBJ_RANGE, an odd offset ILLEGAL_OP, and an
access to the scratchpad SCRATCH_ALIGN or SCRATCH_BOUND. -/
def Obligations.ParametersAndScratchpad : Prop :=
  ∀ (s : State) (g : BitVec 4) (x y : BitVec 5) (h : BitVec 4) (a : BitVec 3) (wd : BitVec 2) (sg : BitVec 1) (off : BitVec 12)
    (imm : BitVec 32),
    let w := 2 ^ wd.toNat
    let o := s.scrOff a imm
    (Issues s g { s := [x] } →
      (off.toNat % w ≠ 0 → exec (.ldp g x wd sg off) s = causes s Cause.illegalOp)
        ∧ (off.toNat % w = 0 → s.paramOf.2 < off.toNat + w → exec (.ldp g x wd sg off) s = causes s Cause.objRange)
        ∧ (off.toNat % w = 0 → off.toNat + w ≤ s.paramOf.2 → exec (.ldp g x wd sg off) s
            = .next (goOn (s.setS x (extend (sg == 1) (ofBytes (mread s.paramOf.1 off.toNat w)) (8 * w))) 2))
        ∧ (o % w ≠ 0 → exec (.lds g x a wd sg imm) s = causes s Cause.scratchAlign)
        ∧ (o % w = 0 → s.scrSize < o + w → exec (.lds g x a wd sg imm) s = causes s Cause.scratchBound)
        ∧ (o % w = 0 → o + w ≤ s.scrSize → exec (.lds g x a wd sg imm) s
            = .next (goOn (s.setS x (extend (sg == 1) (ofBytes (s.scrRead o w)) (8 * w))) 2)))
      ∧ (Issues s g { s := [y] } → exec (.hld g h y 1 imm) s = .next (goOn (s.setH h (s.getS y)) 2))
      ∧ (Issues s g {} → imm.toNat < 4096 → imm.toNat % 8 = 0 →
          (imm.toNat + 8 ≤ s.paramOf.2 → exec (.hld g h y 0 imm) s = .next (goOn (s.setH h (mword s.paramOf.1 imm.toNat)) 2))
            ∧ (s.paramOf.2 < imm.toNat + 8 → exec (.hld g h y 0 imm) s = causes s Cause.objRange))

/-- R327: STS stores the low bytes of a register, and changes no other byte of the scratchpad, no register, no other bank and
no memory; an offset that is not aligned raises SCRATCH_ALIGN, and one beyond the scratchpad SCRATCH_BOUND. -/
def Obligations.ScratchpadStore : Prop :=
  ∀ (s : State) (g : BitVec 4) (x : BitVec 5) (a : BitVec 3) (wd : BitVec 2) (imm : BitVec 32), Issues s g { s := [x] } →
    let w := 2 ^ wd.toNat
    let o := (s.getA a + imm).toNat
    let t := goOn (s.scrWrite o (toBytes w (s.getS x).toNat)) 2
    (o % w ≠ 0 → exec (.sts g x a wd imm) s = causes s Cause.scratchAlign)
      ∧ (o % w = 0 → s.scrSize < o + w → exec (.sts g x a wd imm) s = causes s Cause.scratchBound)
      ∧ (o % w = 0 → o + w ≤ s.scrSize → exec (.sts g x a wd imm) s = .next t)
      ∧ t.scrRead o w = toBytes w (s.getS x).toNat ∧ (∀ b, b < o ∨ o + w ≤ b → t.scrRead b 1 = s.scrRead b 1)
      ∧ (∀ r, t.getS r = s.getS r) ∧ (∀ r, t.getP r = s.getP r) ∧ (∀ r, t.getA r = s.getA r) ∧ (∀ r, t.getH r = s.getH r)
      ∧ (∀ r, t.getD r = s.getD r) ∧ t = { s with cores := t.cores, sys := t.sys }
      ∧ (∀ f, f ≠ s.coreNo → t.core f = s.core f) ∧ (∀ b, b ≠ s.bankNo → t.bank s.coreNo b = s.bank s.coreNo b)
      ∧ t.curBank.vregs = s.curBank.vregs ∧ t.curBank.accs = s.curBank.accs ∧ t.curBank.cmds = s.curBank.cmds
      ∧ t.curBank.tokens = s.curBank.tokens ∧ t.curBank.fault = s.curBank.fault
      ∧ (∀ n, s.turn ≠ .sys n → t.sysCore n.toNat = s.sysCore n.toNat)

/-- R330 to R332: DSET, DIDX, DADD, DSHP, DPAD and DMOV write descriptor registers; a shape outside 1 to 64 raises ILLEGAL_OP;
HQRY reads an item of the entry of a handle on which its world has any right. -/
def Obligations.DescriptorsAndQueries : Prop :=
  ∀ (s : State) (g d e h item : BitVec 4) (x : BitVec 5) (k : BitVec 2) (rows cols : BitVec 7) (c0 : BitVec 16) (clr : BitVec 1)
    (imm lit : BitVec 32),
    (Issues s g {} → OnCore s →
      (shapeBad rows cols = true → exec (.dset g d e rows cols c0 lit) s = causes s Cause.illegalOp
          ∧ exec (.dshp g d rows cols) s = causes s Cause.illegalOp)
        ∧ (shapeBad rows cols = false →
            (∃ w, exec (.dset g d e rows cols c0 lit) s = .next (goOn (s.setD d w) 3)
              ∧ dValid w = true ∧ dHreg w = e ∧ dRows w = rows.toNat ∧ dCols w = cols.toNat ∧ dIdx w 0 = 0 ∧ dIdx w 1 = 0
              ∧ dIdx w 2 = lit.toNat ∧ dIdx w 3 = c0.toNat ∧ dPadOvr w = false)
            ∧ ∃ w, exec (.dshp g d rows cols) s = .next (goOn (s.setD d w) 2)
              ∧ dRows w = rows.toNat ∧ dCols w = cols.toNat ∧ dHreg w = dHreg (s.getD d) ∧ dPad w = dPad (s.getD d)
              ∧ ∀ j < 4, dIdx w j = dIdx (s.getD d) j)
        ∧ (∃ w, exec (.didx g d x k 1 imm) s = .next (goOn (s.setD d w) 2) ∧ dIdx w k.toNat = imm.toNat
            ∧ (∀ j < 4, j ≠ k.toNat → dIdx w j = dIdx (s.getD d) j) ∧ dHreg w = dHreg (s.getD d))
        ∧ (∃ w, exec (.dadd g d x k 1 imm) s = .next (goOn (s.setD d w) 2)
            ∧ dIdx w k.toNat = (dIdx (s.getD d) k.toNat + imm.toNat) % 2 ^ 32
            ∧ (∀ j < 4, j ≠ k.toNat → dIdx w j = dIdx (s.getD d) j) ∧ dHreg w = dHreg (s.getD d))
        ∧ (∃ w, exec (.dpad g d clr imm lit) s = .next (goOn (s.setD d w) 3) ∧ dPadOvr w = (clr == 0)
            ∧ dPad w = (if clr = 1 then 0 else (lit ++ imm).toNat) ∧ dHreg w = dHreg (s.getD d) ∧ dRows w = dRows (s.getD d))
        ∧ exec (.dmov g d e) s = .next (goOn (s.setD d (s.getD e)) 1))
      ∧ (Issues s g { s := [x] } → OnCore s →
          ∃ v w, exec (.didx g d x k 0 imm) s = .next (goOn (s.setD d v) 2) ∧ dIdx v k.toNat = (s.getS x).toNat % 2 ^ 32
            ∧ exec (.dadd g d x k 0 imm) s = .next (goOn (s.setD d w) 2)
            ∧ dIdx w k.toNat = (dIdx (s.getD d) k.toNat + (s.getS x).toNat) % 2 ^ 32)
      ∧ (Issues s g { s := [x] } → ∀ t ent, Finds s t h ent → rightsOf ent s.world.toNat ≠ 0 →
          ∃ v, exec (.hqry g x h item) s = .next (goOn (t.setS x v) 2)
            ∧ (item.toNat < 4 → v = BitVec.ofNat 64 (eExt ent item.toNat)) ∧ (item = 7 → v = ePad ent)
            ∧ (item = 8 → v = BitVec.ofNat 64 (rightsOf ent s.world.toNat)))

/-! ### Element accesses -/

/-- R73, R206, R336 and Table 4-2: the handle 0, a home package that is none, and an index at or above the capacity of the
table raise HANDLE_INVALID; so does an entry of another generation or owner; a lost object raises OBJ_LOST; an entry that
the cache does not hold is filled, and the instruction waits. -/
def Obligations.HandleChecks : Prop :=
  ∀ (s : State) (k : Asker) (h : Word) (idx : List U32),
    (h = 0 ∨ 576 ≤ hHome h ∨ (hHome h = s.pkgNo ∧ s.objs.otCap ≤ hIndex h) →
      s.getEntry k h idx = .trap (k.cause Cause.handleInvalid h idx))
      ∧ (h ≠ 0 → hHome h < 576 → (hHome h = s.pkgNo → hIndex h < s.objs.otCap) →
          ((∀ c ∈ (s.hunit k.unit).cache, c.index.toNat ≠ hIndex h ∨ c.home.toNat ≠ hHome h) →
            s.getEntry k h idx = .wait (s.startFill k h (k.waiter h idx 0)))
          ∧ ∀ c, (s.hunit k.unit).cache = [c] → c.index.toNat = hIndex h → c.home.toNat = hHome h →
              (eGen c.words ≠ hGen h ∨ eOwner c.words ≠ hWorld h ∨ eState c.words = 0 ∨ eState c.words = 3 →
                s.getEntry k h idx = .trap (k.cause Cause.handleInvalid h idx))
              ∧ (eGen c.words = hGen h → eOwner c.words = hWorld h → eState c.words = 2 →
                s.getEntry k h idx = .trap (k.cause Cause.objLost h idx))
              ∧ (eGen c.words = hGen h → eOwner c.words = hWorld h → eState c.words = 1 →
                ∃ t, s.getEntry k h idx = .ok t c.words ∧ t.mem = s.mem ∧ t.cores = s.cores))

/-- R335 to R338: LDE of an element that resolves reads it from a copy at hand or asks for it, and of one outside the object gives PAD; STE
stores to one inside it and has no effect outside it. A strong access goes to the home slice. -/
def Obligations.ElementAccesses : Prop :=
  ∀ (s t : State) (g h : BitVec 4) (x y : BitVec 5) (str : BitVec 2) (rd : BitVec 3) (e : Entry) (p : Place),
    Issues s g { s := [x, y] } →
    let k := s.asker .C
    let sg := fmtSigned (eFmt e)
    (Reaches s t h (s.getS y) needLoad e none → exec (.lde g x y h 0 rd) s
        = .next (goOn (t.setS x (extend sg (ePad e).toNat (eWidth e))) 2))
      ∧ (Reaches s t h (s.getS y) needLoad e (some p) →
          (t.lineInFlight k p = true ∨ (p.pkg = t.pkg ∧ t.inBasin k p.handle e p.va.toNat = false) → exec (.lde g x y h 0 rd) s
              = .next (goOn ((t.issueReq (t.reqOf k p (.wload x sg rd))).awaitS x) 2))
            ∧ (t.loadNow k e p rd.toNat = none → exec (.lde g x y h 0 rd) s
              = .next (goOn ((t.issueReq (t.reqOf k p (.wload x sg rd))).awaitS x) 2))
            ∧ (∀ r, t.loadNow k e p rd.toNat = some r → exec (.lde g x y h 0 rd) s
              = .next (goOn (r.1.setS x (extend sg (codeOfBytes p r.2) p.width)) 2)))
      ∧ (str ≠ 0 → Reaches s t h (s.getS y) (needStrong false) e (some p) → exec (.lde g x y h str rd) s
          = .next (goOn ((sendStrong t k p (.sload x sg (str == 2))).awaitS x) 2))
      ∧ (Reaches s t h (s.getS y) needStore e none → exec (.ste g x y h 0) s = .next (goOn t 2))
      ∧ (Reaches s t h (s.getS y) needStore e (some p) → exec (.ste g x y h 0) s
          = .next (goOn (t.weakStore k e p (storeBytes p (s.getS x).toNat)) 2))
      ∧ (Reaches s t h (s.getS y) (needStrong true) e (some p) →
          exec (.ste g x y h 1) s = .next (goOn (sendStrong (t.noteStore k.task p.handle e) k p (.sstore (s.getS x) false)) 2)
            ∧ exec (.ste g x y h 2) s = .next (goOn (sendStrong ((t.noteStore k.task p.handle e).flushObject p.handle) k p
                (.sstore (s.getS x) true)) 2))

/-- R339 to R344: an atomic goes to the home slice of its element as a strong request; the destination awaits the old value,
which ATOMNR does not return. CASC first finds the continuation template, with right L. Table 14-3: the value that an integer
atomic of width w stores, from the old code and the operand. -/
def Obligations.Atomics : Prop :=
  (∀ (s t : State) (g h tr : BitVec 4) (x y v n st : BitVec 5) (w : BitVec 1) (opc : BitVec 4) (fop : BitVec 2) (pd : BitVec 3)
      (e : Entry) (p : Place), Committed s →
      let k := s.asker .C
      let go := fun (kind : ReqKind) => sendStrong (t.noteStore k.task p.handle e) k p kind
      (Reaches s t h (s.getS y) (needStrong true (accessWidth w)) e (some p) →
        (Issues s g { s := [x, y, v] } → exec (.atom g x y h w v opc) s
            = .next (goOn ((go (.atomic (w == 1) opc (s.getS v) (some x))).awaitS x) 2))
          ∧ (Issues s g { s := [x, y] } →
              exec (.atomnr g x y h w opc 0) s = .next (goOn (go (.atomic (w == 1) opc (s.getS x) none)) 2)
                ∧ exec (.atomnr g x y h w opc 1) s
                  = .next (goOn (go (.fatomic (opc.setWidth 2) ((s.getS x).setWidth 32) none)) 2))
          ∧ (Issues s g { s := [x, y, v, n], p := [pd] } → exec (.cas g x y h w v n pd) s
              = .next (goOn (((go (.cas (w == 1) (s.getS v) (s.getS n) x pd)).awaitS x).awaitP pd) 3)))
        ∧ (Reaches s t h (s.getS y) (needStrong true 32) e (some p) → Issues s g { s := [x, y, v] } →
            exec (.fatom g x y h v fop) s
              = .next (goOn ((go (.fatomic fop ((s.getS v).setWidth 32) (some x))).awaitS x) 2))
        ∧ (Issues s g { s := [x, y, v, n, st] } → ∀ r te, Finds s r tr te → hasRight te s.world.toNat rightL = true → eKind te = 2 →
            (r.getH h = s.getH h → r.asker .C = k → Reaches r t h (s.getS y) (needStrong true (accessWidth w)) e (some p) →
              r.getS y = s.getS y → r.getS v = s.getS v → r.getS n = s.getS n →
              exec (.casc g x y h w v n tr st) s = .next (goOn (((sendStrong ((t.noteStore k.task p.handle e).flushObject p.handle)
                k p (.casc (w == 1) (s.getS v) (s.getS n) x st (s.getH tr))).awaitS x).awaitS st) 3))))
    ∧ (∀ (w old v : Nat), w = 32 ∨ w = 64 → old < 2 ^ w → v < 2 ^ w →
        atomResult w 0 old v = (old + v) % 2 ^ w ∧ ((atomResult w 1 old v : Nat) : Int) = ((old : Int) - v) % 2 ^ w
          ∧ atomResult w 2 old v = old &&& v ∧ atomResult w 3 old v = old ||| v ∧ atomResult w 4 old v = old ^^^ v
          ∧ signExt (atomResult w 5 old v) w = min (signExt old w) (signExt v w)
          ∧ signExt (atomResult w 6 old v) w = max (signExt old w) (signExt v w)
          ∧ atomResult w 7 old v = min old v ∧ atomResult w 8 old v = max old v ∧ atomResult w 9 old v = v)

/-! ### Versions, fences and format words -/

/-- R355 to R358: a version instruction on an object that resolves with right A sends its request to the slice of the object's
entry; PUB of an object with several buffers needs the draft. R223, R359: FENCE.P with an empty set has no effect; else it is
done once the accesses of its first set that the step issued before it have performed, and its context waits for that. -/
def Obligations.VersionsAndFences : Prop :=
  (∀ (s t : State) (g h : BitVec 4) (x y : BitVec 5) (e : Entry), FindsVersion s t h e →
      let k := s.asker .C
      let hd := s.getH h
      (Issues s g {} →
        exec (.openv g h) s = .next (goOn (versionReq t k hd .openv) 2) ∧ exec (.unpv g h) s = .next (goOn (versionReq t k hd .unpv) 2)
          ∧ (Committed s → t.openPending k hd = false →
              (eBufs e = 1 ∨ (∃ d, t.draftOf hd = some d ∧ d.task = k.task ∧ k.task ≠ 0) →
                exec (.pub g h) s = .next (goOn (versionReq (t.flushObject hd) k hd .pub) 2))
              ∧ (1 < eBufs e → t.draftOf hd = none → exec (.pub g h) s = .next (s.trap (k.cause Cause.verNoDraft hd)))))
        ∧ (Issues s g { s := [x, y] } →
            exec (.pinv g x y h) s = .next (goOn ((versionReq t k hd (.pinv ((s.getS y).setWidth 32) x)).awaitS x) 2)
              ∧ (t.subsAt hd < 4096 →
                  exec (.subv g x y h) s = .next (goOn (versionReq t k hd (.subv ((s.getS x).setWidth 32) (s.getS y))) 2))
              ∧ (4096 ≤ t.subsAt hd → exec (.subv g x y h) s = .next t))
        ∧ (Issues s g { s := [x] } → exec (.verq g x h) s = .next (goOn ((versionReq t k hd (.verq x)).awaitS x) 2)))
    ∧ (∀ (s : State) (g : BitVec 4) (a b : BitVec 8), Issues s g {} →
        (a = 0 ∨ b = 0 → exec (.fenceP g a b) s = .next (goOn s 1))
          ∧ (a ≠ 0 → b ≠ 0 → ∀ n, s.ctx.fence = some n →
              (s.fenceMet (s.asker .C) a n = false → exec (.fenceP g a b) s = .next s)
              ∧ (s.fenceMet (s.asker .C) a n = true → exec (.fenceP g a b) s
                  = .next (goOn ((s.setCtx { s.ctx with fence := none }).addFence (a, b, n, (s.asker .C).ord - 1)) 1))))

/-- R368, R369: FMTQ pushes a well-formed format word, waits while the queue holds 16, and raises ILLEGAL_OP for a malformed
one. -/
def Obligations.FormatQueue : Prop :=
  ∀ (s : State) (g : BitVec 4) (x : BitVec 5) (imm lit : BitVec 32), OnCore s →
    let r := s.curBank.run.getD default
    let pushed := fun (w : Word) => s.setCurBank { s.curBank with fmtq := s.curBank.fmtq ++ [(r.step, r.id, w)] }
    (Issues s g { s := [x] } →
      (fwOk (s.getS x) = false → exec (.fmtqReg g x) s = causes s Cause.illegalOp)
        ∧ (fwOk (s.getS x) = true → 16 ≤ s.curBank.fmtq.length → exec (.fmtqReg g x) s = .next s)
        ∧ (fwOk (s.getS x) = true → s.curBank.fmtq.length < 16 → exec (.fmtqReg g x) s = .next (goOn (pushed (s.getS x)) 2)))
      ∧ (Issues s g {} →
          (fwOk (lit ++ imm) = false → exec (.fmtqImm g imm lit) s = causes s Cause.illegalOp)
            ∧ (fwOk (lit ++ imm) = true → 16 ≤ s.curBank.fmtq.length → exec (.fmtqImm g imm lit) s = .next s)
            ∧ (fwOk (lit ++ imm) = true → s.curBank.fmtq.length < 16 →
                exec (.fmtqImm g imm lit) s = .next (goOn (pushed (lit ++ imm)) 3)))

/-! ### Tasks, rings and sequences -/

/-- R444, R446, R449: SPAWN and SPAWN.REC send the record of a 64-byte block and await an identifier and a status; DEPDEC
sends a decrement of k, and none for k = 0; ARRIVE arrives at a slot below BARS, and else raises BARRIER_BOUND. -/
def Obligations.Spawning : Prop :=
  ∀ (s : State) (g : BitVec 4) (x y : BitVec 5) (a : BitVec 3) (k : BitVec 16) (slot : BitVec 2) (p : BitVec 1),
    let off := (s.getA a).toNat
    let rec_ := words8 (s.scrRead off 64)
    (Issues s g { s := [x, y] } → Committed s →
      (off % 64 ≠ 0 → exec (.spawn g x y a) s = causes s Cause.scratchAlign ∧ exec (.spawnRec g x y a) s = causes s Cause.scratchAlign)
        ∧ (off % 64 = 0 → off + 64 ≤ s.scrSize →
            exec (.spawn g x y a) s
                = .next (goOn (((s.releaseReq (noPlace 0 s.pkg) (.spawn rec_ false x y)).awaitS x).awaitS y) 2)
              ∧ exec (.spawnRec g x y a) s
                = .next (goOn (((s.releaseReq (noPlace 0 s.pkg) (.spawn rec_ true x y)).awaitS x).awaitS y) 2))
        ∧ ((s.getS y).toNat % 65536 ≠ 0 → exec (.depdec g x y 0 k) s
            = .next (goOn (s.releaseReq (noPlace 0 (BitVec.ofNat 10 (tidPkg (s.getS x))))
                (.decrement (s.getS x) ((s.getS y).toNat % 65536) s.isSys false)) 2)))
      ∧ (Issues s g { s := [x] } → Committed s →
          (k = 0 → exec (.depdec g x y 1 k) s = .next (goOn s 2))
            ∧ (k ≠ 0 → exec (.depdec g x y 1 k) s
                = .next (goOn (s.releaseReq (noPlace 0 (BitVec.ofNat 10 (tidPkg (s.getS x))))
                    (.decrement (s.getS x) k.toNat s.isSys false)) 2)))
      ∧ (Issues s g {} → OnCore s → ∀ r, s.curBank.run = some r →
          (r.nbars ≤ slot.toNat → exec (.arrive g slot p) s = causes s Cause.barrierBound)
            ∧ (slot.toNat < r.nbars →
                exec (.arrive g slot p) s = .next (goOn (s.releaseReq (noPlace 0 s.pkg) (.arrive slot.toNat (p == 1))) 1)))

/-- R447, R448, R450: COMMIT marks the step committed; EXIT ends it and leaves its bank idle; TASKQ reads a word of a task record,
and all ones for a task that has ended or is of another world. R441: SEQQ asks the home of a sequence that resolves with right
R. SUMPRD takes the oldest summary of its world from a chain, or writes 1 where there is none. -/
def Obligations.CommitExitAndQueries : Prop :=
  (∀ (s : State) (g item : BitVec 4) (x y : BitVec 5),
      (Issues s g {} → OnCore s → ∀ r, s.curBank.run = some r →
        (exec (.commit g) s = .next (goOn s.commitStep 1) ∧ s.commitStep.committed = true ∧ s.commitStep.mem = s.mem
            ∧ s.commitStep.ctx = s.ctx)
          ∧ exec (.exit g) s = .next (goOn (s.endStep s.coreNo s.bankNo) 1)
          ∧ ((s.endStep s.coreNo s.bankNo).bank s.coreNo s.bankNo).st = .idle)
        ∧ (Issues s g { s := [x, y] } →
            let t := if s.getS y = 0 then s.taskId else s.getS y
            (tidPkg t = s.pkgNo → exec (.taskq g x y item) s = .next (goOn (s.setS x (s.taskqValue t item.toNat s.world s.isSys)) 2))
              ∧ (tidPkg t ≠ s.pkgNo → exec (.taskq g x y item) s
                  = .next (goOn ((s.issueReq (s.reqOf (s.asker .C) (noPlace 0 (BitVec.ofNat 10 (tidPkg t))) (.taskq item t x))).awaitS x) 2))
              ∧ (s.task? t = none → s.taskqValue t item.toNat s.world s.isSys = BitVec.allOnes 64)
              ∧ (∀ k, s.task? t = some k → k.st = .ended ∨ (s.isSys = false ∧ lrWorld k.lr ≠ s.world.toNat) →
                  s.taskqValue t item.toNat s.world s.isSys = BitVec.allOnes 64)
              ∧ (∀ k, s.task? t = some k → k.st ≠ .ended → s.isSys = true → item = 2 →
                  s.taskqValue t item.toNat s.world s.isSys = k.status)))
    ∧ (∀ (s t : State) (g h item ch : BitVec 4) (x y : BitVec 5) (a : BitVec 3) (e : Entry),
        (Issues s g { s := [x, y] } → s.sequence (s.asker .C) (s.getH h) rightR = .ok t e →
          ∃ p, p.handle = s.getH h ∧ p.pkg = BitVec.ofNat 10 (hHome (s.getH h))
            ∧ exec (.seqq g x y h item) s
              = .next (goOn ((t.bumpOrd.issueReq (t.bumpOrd.reqOf (s.asker .C) p (.seqq item (t.bumpOrd.getS y) x))).awaitS x) 2))
          ∧ (Issues s g { s := [x] } → Committed s → s.scrCause (s.getA a).toNat 64 64 = none →
              ((s.chain ch.toNat).sump = [] → exec (.sumprd g x a ch) s = .next (goOn (s.setS x 1) 2))
                ∧ ∀ w ws rest, (s.chain ch.toNat).sump = (w, ws) :: rest → w = s.world → s.isSys = false →
                    exec (.sumprd g x a ch) s = .next (goOn (((s.setChain ch.toNat { s.chain ch.toNat with sump := rest }).scrWrite
                      (s.getA a).toNat (bytes8 ws)).setS x 0) 2)))

/-- R451 to R457: RACQ takes the next FREE or FULL slot of a ring end and gives its offset, and waits for one; RREL gives
the oldest held slot back; PUT sends 128 bytes and awaits how many were skipped; a ring that is not declared raises
ILLEGAL_OP. TOKQ reads the ten token counters. -/
def Obligations.Rings : Prop :=
  ∀ (s : State) (g : BitVec 4) (x y : BitVec 5) (a k : BitVec 3), OnCore s →
    (Issues s g {} → s.myEnd k = none →
      exec (.racqP g a k) s = causes s Cause.illegalOp ∧ exec (.racqC g a k) s = causes s Cause.illegalOp
        ∧ exec (.rrelP g k) s = causes s Cause.illegalOp ∧ exec (.rrelC g k) s = causes s Cause.illegalOp)
      ∧ (Issues s g {} → ∀ e, s.myEnd k = some e →
          (e.kind ≠ .consumer → e.off e.pptr + e.size ≤ s.scrSize →
            (e.at_ e.pptr = .free → ∃ e', exec (.racqP g a k) s
                = .next (goOn ((s.putEnd s.coreNo e').setA a (BitVec.ofNat 32 (e.off e.pptr))) 1)
              ∧ e'.heldP = e.heldP ++ [e.pptr] ∧ e'.pptr = (e.pptr + 1) % max 1 e.slots.length)
            ∧ (e.at_ e.pptr ≠ .free → exec (.racqP g a k) s = .next s))
          ∧ (e.kind ≠ .producer → e.off e.cptr + e.size ≤ s.scrSize →
            (e.at_ e.cptr = .full → ∃ e', exec (.racqC g a k) s
                = .next (goOn ((s.putEnd s.coreNo e').setA a (BitVec.ofNat 32 (e.off e.cptr))) 1)
              ∧ e'.heldC = e.heldC ++ [e.cptr] ∧ e'.cptr = (e.cptr + 1) % max 1 e.slots.length)
            ∧ (e.at_ e.cptr ≠ .full → exec (.racqC g a k) s = .next s))
          ∧ (∀ i rest, e.kind ≠ .consumer → e.heldP = i :: rest → exec (.rrelP g k) s = .next (goOn (s.release e i rest) 1))
          ∧ (e.heldP = [] → exec (.rrelP g k) s = causes s Cause.illegalOp)
          ∧ (∀ i rest, e.kind ≠ .producer → e.heldC = i :: rest → ∃ e', exec (.rrelC g k) s = .next (goOn (s.putEnd s.coreNo e') 1)
              ∧ e'.heldC = rest ∧ (e.outside = [] → e'.slots = e.slots.set i .free))
          ∧ (e.heldC = [] → exec (.rrelC g k) s = causes s Cause.illegalOp))
      ∧ (Issues s g { s := [x] } → ∃ v : Word, exec (.tokq g x) s = .next (goOn (s.setS x v) 1)
          ∧ ∀ n < 10, (∀ j < 10, s.curBank.token j < 16) → v.toNat / 16 ^ n % 16 = s.curBank.token n)
      ∧ (Issues s g { s := [x, y] } → s.scrCause (s.getA a).toNat 128 64 = none →
          ∀ e i rest, s.myEnd k = some e → e.kind ≠ .consumer → e.heldP = i :: rest →
            ∃ p, exec (.put g x y a k) s = .next (goOn ((s.release { e with puts := e.puts ++ [p] } i rest).awaitS x) 2)
              ∧ p.slot = i ∧ p.dst = x ∧ p.who = s.turn
              ∧ p.left.map (fun q => q.1) = (List.range 16).filter fun n => (s.getS y).getLsbD n)

/-! ### Package time, traps and system instructions -/

/-- R460, R466, R467: XSYNC reads the Tether counter; with W it waits for an instant. TRAP takes
an exception, with its code. OMCALL queues a command for the object manager. -/
def Obligations.TimeTrapAndCalls : Prop :=
  ∀ (s t : State) (g : BitVec 4) (x y : BitVec 5) (a : BitVec 3) (w : BitVec 16),
    (Issues s g { s := [x] } → exec (.xsync g x y 0) s = .next (goOn (s.setS x s.xsyncValue) 2))
      ∧ (Issues s g { s := [x, y] } →
          ((s.getS y).toNat % 2 ^ 63 ≤ s.tether.toNat % 2 ^ 63 → exec (.xsync g x y 1) s = .next (goOn (s.setS x s.xsyncValue) 2))
            ∧ (s.tether.toNat % 2 ^ 63 < (s.getS y).toNat % 2 ^ 63 → ∃ u, exec (.xsync g x y 1) s = .next u ∧ u.pos = s.pos
                ∧ (∀ r, u.getS r = s.getS r) ∧ u.mem = s.mem))
      ∧ s.xsyncValue.toNat = s.tether.toNat % 2 ^ 63 + (if s.links.lock then 0 else 2 ^ 63)
      ∧ (Issues s g {} → OnCore s → exec (.trap g w) s = .next (s.trap { cause := Cause.trap, code := w }))
      ∧ (Issues s g {} → ∀ n, s.turn = .sys n → exec (.trap g w) s = .next (s.raiseSys n.toNat Cause.trap w (s.after s.pos 1)))
      ∧ (Issues s g { s := [x] } → s.scrCause (s.getA a).toNat 64 64 = none → ∀ ok,
          let b := s.scrRead (s.getA a).toNat 64
          s.resultElem (s.asker .C) (wordAt b 3) (wordAt b 4).toNat = .ok t ok →
            (ok = false → exec (.omcall g x a) s = .next (goOn (t.setS x 2) 1))
              ∧ (ok = true → 1024 ≤ t.host.omcalls.length → exec (.omcall g x a) s = .next (goOn (t.setS x 1) 1))
              ∧ (ok = true → t.host.omcalls.length < 1024 → ∃ c : OmCmd, c.words = words8 b ∧ exec (.omcall g x a) s = .next
                  (goOn ((({ t with host := { t.host with omcalls := t.host.omcalls ++ [c] } } : State).wake 1).setS x 0) 1)))

/-- R288, R466, R468, Table 18-6: a system core reads and writes the special registers, takes the latched events or sleeps,
halts, and returns from an exception; a step reads its own registers, and PRIV keeps it from the others. -/
def Obligations.SystemRegisters : Prop :=
  ∀ (s : State) (g : BitVec 4) (x y : BitVec 5) (num : BitVec 12),
    (Issues s g { s := [x, y] } → OnCore s → s.getS y = 0 → num.toNat < 6 →
      exec (.sysrd g x y num) s = .next (goOn (s.setS x (s.stepRead num.toNat)) 2))
      ∧ (OnCore s → num = 0x035 → exec (.sysrd g x y num) s = causes s Cause.priv)
      ∧ ∀ n, s.turn = .sys n →
          (Issues s g { s := [x, y] } → ∀ m, sysInstances num.toNat = some m → (s.getS y).toNat < m →
            exec (.syswr g x y num) s = .next (goOn (s.sysWrite n.toNat num.toNat (s.getS y).toNat (s.getS x)) 2)
              ∧ (6 ≤ num.toNat → exec (.sysrd g x y num) s
                  = .next (goOn ((s.sysRead (s.sysCore n.toNat) num.toNat (s.getS y).toNat).2.setS x
                      (s.sysRead (s.sysCore n.toNat) num.toNat (s.getS y).toNat).1) 2))
              ∧ (num = 0x035 → (s.sysWrite n.toNat num.toNat 0 (s.getS x)).objs.ptRoot = s.getS x
                  ∧ (s.sysRead (s.sysCore n.toNat) num.toNat 0).1 = s.objs.ptRoot)
              ∧ (num = 0x050 → ((s.sysWrite n.toNat num.toNat 0 (s.getS x)).sysCore n.toNat).svec = (s.getS x).setWidth 28))
          ∧ (Issues s g { s := [x, y] } → sysInstances num.toNat = none →
              exec (.syswr g x y num) s = causes s Cause.illegalOp ∧ exec (.sysrd g x y num) s = causes s Cause.illegalOp)
          ∧ (Issues s g {} → exec (.halt g) s
                = .next (goOn (s.setSys n.toNat { s.sysCore n.toNat with halted := true }) 1)
              ∧ exec (.eret g) s = .next (s.eret n.toNat))
          ∧ (Issues s g { s := [x] } →
              ((s.sysCore n.toNat).latched = 0 → exec (.waiti g x) s
                  = .next (s.setSys n.toNat { s.sysCore n.toNat with sleeping := true }))
                ∧ ((s.sysCore n.toNat).latched ≠ 0 → exec (.waiti g x) s
                  = .next (goOn ((s.setSys n.toNat { s.sysCore n.toNat with latched := 0 }).setS x
                      ((s.sysCore n.toNat).latched.setWidth 64)) 1)))

/-- Table 18-5: the system instructions that change translations, decode maps, frames and keys. TLBINV and OTINV of scope 0
are done at once; MIGR starts a movement and awaits its status; ZEROB zeroes; KEYSET loads a key that the complex holds. -/
def Obligations.SystemOperations : Prop :=
  ∀ (s t : State) (n : BitVec 4) (g h : BitVec 4) (x y : BitVec 5) (slot : BitVec 3) (all : BitVec 1) (wl : BitVec 8) (e : Entry),
    s.turn = .sys n →
    let v := (s.getS y).toNat
    let keyed := s.setSys n.toNat { s.sysCore n.toNat with secFault := false, ctx := { (s.sysCore n.toNat).ctx with fence := none } }
    (Issues s g { s := [x, y] } → (s.sysCore n.toNat).ctx.fence = none →
      exec (.tlbinv g x y 0 all) s = .next (goOn ((s.dropTlb (bits v 51 0) 1 (all == 1)).setS x 0) 2)
        ∧ exec (.otinv g x y 0 all) s = .next (goOn ((s.dropEntry (s.getS y) (all == 1)).setS x 0) 2))
      ∧ (Issues s g { s := [x, y] } →
          (bits v 63 62 = 0 → hasStorage (bits v 31 0 / 32 * 32 * 65536) = true → exec (.zerob g x y 0) s
              = .next (goOn (({ s with mem := mzero s.mem (bits v 31 0 / 32 * 32 * 65536) 2097152 } : State).setS x 0) 2))
            ∧ (bits v 8 0 < 320 → (s.bank (bits v 8 0) (BitVec.ofNat 1 (bits v 9 9))).holds = true →
                exec (.zerob g x y 1) s = .next (goOn (s.setS x 1) 2))
            ∧ (v < 40 → exec (.zerob g x y 3) s = .next (goOn ((s.setCluster v { s.cluster v with l2 := [] }).setS x 0) 2))
            ∧ (slot.toNat < 2 → exec (.decmap g x y h slot) s = causes s Cause.illegalOp)
            ∧ (2 ≤ slot.toNat → bits v 8 0 < 320 → Finds s t h e → hasRight e 0 rightR = true → eLayout e ≠ 0 →
                exec (.decmap g x y h slot) s
                  = .next (goOn (t.setS x (if (t.core (bits v 8 0)).samples slot.toNat then 1 else 2)) 2))
            ∧ (2 ≤ slot.toNat → bits v 8 0 < 320 → Finds s t h e → hasRight e 0 rightR = true → eLayout e = 0 → eFmt e = 0x01 →
                eExt e 3 * eExt e 2 * eExt e 1 * eExt e 0 = 1024 → (t.core (bits v 8 0)).samples slot.toNat = false →
                ∀ u r, t.readCodes (s.asker .C) (sysKey n) (s.getH h) e needUnit 1024 0 [] = .ok u r → r.1.all mapEntryOk = true →
                  let c := (u.dropLines (sysKey n)).core (bits v 8 0)
                  exec (.decmap g x y h slot) s = .next (goOn (((u.dropLines (sysKey n)).setCore (bits v 8 0)
                    { c with maps := tset c.maps slot.toNat (r.1.map fun c => BitVec.ofNat 16 c) }).setS x 0) 2)))
      ∧ (Issues s g { s := [x] } → ∀ a, s.scrCause (s.getA a).toNat 64 64 = none →
          let b := s.scrRead (s.getA a).toNat 64
          let at_ := (wordAt b 1).toNat
          (s.known (wordAt b 0) = none → exec (.migr g x a) s = .next (goOn (s.setS x 4) 2))
            ∧ ∀ p l large, s.known (wordAt b 0) = some e → migrBad b = false → at_ % ePage e = 0 → at_ < eBufs e * eSpan e →
                (eLarge e = true → bits (wordAt b 3).toNat 31 0 % 32 = 0) →
                (bits (wordAt b 2).toNat 41 32 = s.pkgNo → bits (wordAt b 2).toNat 1 0 = 0 →
                  s.modeOk (eCompute e || eLayout e == 2) (bits (wordAt b 3).toNat 31 0) = true) → s.walkTables (eVbase e + at_) = .ok (p, l, large) →
                (ePinned e = true → exec (.migr g x a) s = .next (goOn (s.setS x 1) 2))
                  ∧ (ePinned e = false → eState e ≠ 2 → leafLost l = false → leafHold l = false → exec (.migr g x a) s
                      = .next (goOn ((s.startMove (wordAt b 0) (eVbase e + at_) p large (bits (wordAt b 2).toNat 1 0)
                          (bits (wordAt b 2).toNat 41 32) (bits (wordAt b 3).toNat 31 0) (.instr n x)).awaitS x) 2)))
      ∧ (Issues s g { s := [x] } → wl ≠ 0 → (s.sysCore n.toNat).ctx.fence ≠ none → (s.sysCore n.toNat).secFault = false →
          (tfind s.sec.keys wl.toNat = none → exec (.keyset g x 0 wl) s = .next (goOn (keyed.setS x 1) 2))
            ∧ (∀ k, tfind s.sec.keys wl.toNat = some k → exec (.keyset g x 0 wl) s = .next (goOn
                (({ keyed with sec := { s.sec with engineKeys := tset s.sec.engineKeys wl.toNat k } } : State).setS x 0) 2))
            ∧ exec (.keyset g x 1 wl) s = .next (goOn ((keyed.eraseKey wl.toNat).setS x 0) 2))

/-! ### Engine commands -/

/-- R176, R333, R347, R352: a tile command with a valid descriptor of a non-zero handle enters its queue, with the descriptor, the
handle and the scratchpad offset as they are at issue. -/
def Obligations.TileCommands : Prop :=
  ∀ (s : State) (tk g d : BitVec 4) (vd : BitVec 11) (a rd : BitVec 3) (m all : BitVec 1), Issues s g {} → OnCore s →
    let w := s.getD d
    let h := s.getH (dHreg w)
    (dValid w = true → h ≠ 0 → (s.curBank.queue .LQ).length < 32 → (s.curBank.queue .SQ).length < 32 →
        (s.curBank.queue .XQ).length < 32 →
      (∀ q : BitVec 1, q = 1 ∨ (s.getA a).toNat % 64 = 0 →
        let x : Sample := { hs := [h], ds := [w], vs := if q = 1 then [] else [(s.getA a).setWidth 64] }
        exec (.ldt tk g vd q d a rd) s = .next (goOn (s.pushCmd .LQ tk (.ldt tk g vd q d a rd) x) 2)
          ∧ exec (.stt tk g vd q d a m) s = .next (goOn (s.pushCmd .SQ tk (.stt tk g vd q d a m) x) 2))
        ∧ (let x : Sample := { hs := [h], ds := [w] }
          exec (.pft tk g d rd) s = .next (goOn (s.pushCmd .LQ tk (.pft tk g d rd) x) 2)
            ∧ exec (.bmap tk g d all) s = .next (goOn (s.pushCmd .XQ tk (.bmap tk g d all) x) 2)
            ∧ exec (.bflush tk g d all) s = .next (goOn (s.pushCmd .XQ tk (.bflush tk g d all) x) 2)
            ∧ exec (.bdrop tk g d all) s = .next (goOn (s.pushCmd .XQ tk (.bdrop tk g d all) x) 2)))
      ∧ (dValid w = false ∨ h = 0 → (s.curBank.queue .LQ).length < 32 →
          exec (.ldt tk g vd 1 d a rd) s = causes s Cause.handleInvalid ∧ exec (.pft tk g d rd) s = causes s Cause.handleInvalid)

/-- R186, R360, R461, R462: a command of the auxiliary queue enters it with its operand block and handles, once its own
checks pass. -/
def Obligations.AuxiliaryCommands : Prop :=
  ∀ (s : State) (tk g hd hs : BitVec 4) (a rnd : BitVec 3) (imm lit : BitVec 32) (sat : BitVec 1) (sr : BitVec 5)
    (ld : BitVec 28), Issues s g {} → OnCore s → (s.curBank.queue .XQ).length < 32 →
    let off := (s.getA a).toNat
    let b := s.scrRead off 64
    let one := fun (i : Instr) => nbBad ((nbOp i).getD { kind := 0 }) (s.getH hd) 0 b = false
    let two := fun (i : Instr) => nbBad ((nbOp i).getD { kind := 0 }) (s.getH hd) (s.getH hs) b = false
    let in1 := fun (i : Instr) => Host.Outcome.next (goOn (s.pushCmd .XQ tk i { hs := [s.getH hd], blk := b }) 3)
    let in2 := fun (i : Instr) => Host.Outcome.next (goOn (s.pushCmd .XQ tk i { hs := [s.getH hd, s.getH hs], blk := b }) 3)
    off % 64 = 0 → off + 64 ≤ s.scrSize →
      (one (.nbfill tk g hd a imm lit) → exec (.nbfill tk g hd a imm lit) s = in1 (.nbfill tk g hd a imm lit))
        ∧ (one (.rrzero tk g hd a) → exec (.rrzero tk g hd a) s = in1 (.rrzero tk g hd a))
        ∧ (two (.nbcopy tk g hd hs a) → exec (.nbcopy tk g hd hs a) s = in2 (.nbcopy tk g hd hs a))
        ∧ (two (.nbrelay tk g hd hs a) → exec (.nbrelay tk g hd hs a) s = in2 (.nbrelay tk g hd hs a))
        ∧ (two (.rrcopy tk g hd hs a) → exec (.rrcopy tk g hd hs a) s = in2 (.rrcopy tk g hd hs a))
        ∧ (Committed s →
            (one (.nbscale tk g hd a imm rnd sat) → exec (.nbscale tk g hd a imm rnd sat) s = in1 (.nbscale tk g hd a imm rnd sat))
              ∧ (two (.nbaxpy tk g hd hs a imm rnd sat) → exec (.nbaxpy tk g hd hs a imm rnd sat) s
                  = in2 (.nbaxpy tk g hd hs a imm rnd sat))
              ∧ (imm.toNat % 8 = 0 → imm.toNat + 8 ≤ s.scrSize → exec (.intk tk g a imm) s
                  = .next (goOn (s.pushCmd .XQ tk (.intk tk g a imm) { vs := [imm.setWidth 64], blk := b }) 2))
              ∧ (Issues s g { s := [sr] } → exec (.xstep tk g sr a ld) s
                  = .next (goOn (s.pushCmd .XQ tk (.xstep tk g sr a ld)
                      { hs := s.curBank.h.toList, vs := [(s.getA a).setWidth 64, s.getS sr] }) 2)))
        ∧ (imm ≠ 0 → imm.toNat % 64 = 0 → blkWord b 0 % 64 = 0 → blkWord b 1 % 64 = 0 → (∀ k < 5, blkWord b (3 + k) = 0) →
            exec (.xsend tk g hd hs a imm) s = in2 (.xsend tk g hd hs a imm))

/-- R365 to R383: a matrix command whose registers lie below REGS enters MQ. -/
def Obligations.MatrixCommands : Prop :=
  ∀ (s : State) (tk g : BitVec 4) (va vb : BitVec 11) (acc : BitVec 3) (z ax ex : BitVec 1) (kl : BitVec 6) (ak bk : BitVec 2)
    (al bl : BitVec 4) (rg ng : BitVec 2), Issues s g {} → OnCore s → (s.curBank.queue .MQ).length < 32 →
    let into := fun (n : Nat) (i : Instr) (m : Sample) => Host.Outcome.next (goOn (s.pushCmd .MQ tk i m) n)
    let none_ : Sample := { hs := [0, 0], ds := [0, 0], vs := [0, 0] }
    exec (.mzero tk g acc) s = into 1 (.mzero tk g acc) {}
      ∧ (s.regsOk va.toNat 4 = true → s.regsOk vb.toNat (ceilDiv (kl.toNat + 1) 16) = true →
          exec (.mma64 tk g va vb acc z kl) s = into 2 (.mma64 tk g va vb acc z kl) none_
            ∧ exec (.mmam64 tk g va vb acc z kl) s = into 2 (.mmam64 tk g va vb acc z kl) none_
            ∧ exec (.mma96 tk g va vb acc z kl 0 0 al bl) s = into 3 (.mma96 tk g va vb acc z kl 0 0 al bl) none_
            ∧ exec (.mmam96 tk g va vb acc z kl 0 0 al bl) s = into 3 (.mmam96 tk g va vb acc z kl 0 0 al bl) none_)
      ∧ (∀ m, mmaSample va vb kl ak bk al bl s = .ok m →
          exec (.mma96 tk g va vb acc z kl ak bk al bl) s = into 3 (.mma96 tk g va vb acc z kl ak bk al bl) m
            ∧ exec (.mmam96 tk g va vb acc z kl ak bk al bl) s = into 3 (.mmam96 tk g va vb acc z kl ak bk al bl) m)
      ∧ (s.regsOk va.toNat 4 = true →
          exec (.mred tk g va acc z ax) s = into 2 (.mred tk g va acc z ax) {}
            ∧ exec (.mscan tk g va acc z ax ex) s = into 2 (.mscan tk g va acc z ax ex) {}
            ∧ exec (.mtrn tk g va acc) s = into 2 (.mtrn tk g va acc) {})
      ∧ (s.regsOk va.toNat 4 = false →
          exec (.mred tk g va acc z ax) s = causes s Cause.regBound ∧ exec (.mtrn tk g va acc) s = causes s Cause.regBound
            ∧ exec (.mma64 tk g va vb acc z kl) s = causes s Cause.regBound)
      ∧ (rg.toNat + ng.toNat + 1 ≤ 4 → exec (.mrd tk g va acc rg ng) s = into 2 (.mrd tk g va acc rg ng) {}
          ∧ exec (.mwr tk g va acc rg ng) s = into 2 (.mwr tk g va acc rg ng) {})
      ∧ (4 < rg.toNat + ng.toNat + 1 → exec (.mrd tk g va acc rg ng) s = causes s Cause.illegalOp
          ∧ exec (.mwr tk g va acc rg ng) s = causes s Cause.illegalOp)

/-- R391, R392, Table 16-2: a vector arithmetic or logic command whose registers lie below REGS, and whose destination is the same
as or apart from each source, enters VQ; with Q = 1 it samples an s register as its second operand. A register at or above REGS
raises REG_BOUND, and an illegal form ILLEGAL_OP. -/
def Obligations.VectorArithmetic : Prop :=
  ∀ (s : State) (tk g : BitVec 4) (vd va vb vc : BitVec 11) (q x1 sat : BitVec 1) (ty : BitVec 4) (nr : BitVec 2)
    (x3 rnd : BitVec 3) (dfmt sfmt : BitVec 8), OnCore s → (s.curBank.queue .VQ).length < 32 →
    let u := groupsOf nr
    let n := groupsOf nr * tyRegs ty
    let b := if q = 1 then s.getS (BitVec.ofNat 5 vb.toNat) else 0
    let enters := fun (k : Nat) (i : Instr) => Host.Outcome.next (goOn (s.pushCmd .VQ tk i { vs := [b] }) k)
    let enters0 := fun (k : Nat) (i : Instr) => Host.Outcome.next (goOn (s.pushCmd .VQ tk i { vs := [0] }) k)
    let stops := fun (i : Instr) (sc : Word) => ∀ c, vopCause (vopOf i sc) (s.runLimits s.coreNo s.bankNo).1 = some c → exec i s = causes s c
    (Issues s g (vbUses q vb) → Fits s vd n → Fits s va n → Clear vd va n → (q = 0 → Fits s vb n ∧ Clear vd vb n) →
      exec (.vadd tk g vd q va vb ty nr x3 x1) s = enters 2 (.vadd tk g vd q va vb ty nr x3 x1)
        ∧ exec (.vsub tk g vd q va vb ty nr x3 x1) s = enters 2 (.vsub tk g vd q va vb ty nr x3 x1)
        ∧ exec (.vmul tk g vd q va vb ty nr x3 x1) s = enters 2 (.vmul tk g vd q va vb ty nr x3 x1)
        ∧ exec (.vmin tk g vd q va vb ty nr x1) s = enters 2 (.vmin tk g vd q va vb ty nr x1)
        ∧ exec (.vmax tk g vd q va vb ty nr x1) s = enters 2 (.vmax tk g vd q va vb ty nr x1)
        ∧ exec (.vand tk g vd q va vb ty nr) s = enters 2 (.vand tk g vd q va vb ty nr)
        ∧ exec (.vor tk g vd q va vb ty nr) s = enters 2 (.vor tk g vd q va vb ty nr)
        ∧ exec (.vxor tk g vd q va vb ty nr) s = enters 2 (.vxor tk g vd q va vb ty nr)
        ∧ (WellFormed.isFloat ty = false →
          exec (.vshl tk g vd q va vb ty nr) s = enters 2 (.vshl tk g vd q va vb ty nr)
            ∧ exec (.vshr tk g vd q va vb ty nr) s = enters 2 (.vshr tk g vd q va vb ty nr)
            ∧ exec (.vsar tk g vd q va vb ty nr) s = enters 2 (.vsar tk g vd q va vb ty nr))
        ∧ (Fits s vc n → Clear vd vc n →
          exec (.vfma tk g vd q va vb ty nr x3 x1 vc) s = enters 3 (.vfma tk g vd q va vb ty nr x3 x1 vc)
            ∧ exec (.vfms tk g vd q va vb ty nr x3 x1 vc) s = enters 3 (.vfms tk g vd q va vb ty nr x3 x1 vc)))
      ∧ (Issues s g (vbUses q vb) → Fits s vd u → Fits s va n → (n = u ∧ vd = va ∨ Apart vd u va n) →
          (q = 0 → Fits s vb n ∧ (n = u ∧ vd = vb ∨ Apart vd u vb n)) →
          exec (.vcmp tk g vd q va vb ty nr x3) s = enters 2 (.vcmp tk g vd q va vb ty nr x3))
      ∧ (Issues s g (vbUses q vb) → Fits s vd n → Fits s va n → Clear vd va n → (q = 0 → Fits s vb n ∧ Clear vd vb n) →
          Fits s vc u → (n = u ∧ vd = vc ∨ Apart vd n vc u) →
          exec (.vsel tk g vd q va vb ty nr vc) s = enters 3 (.vsel tk g vd q va vb ty nr vc))
      ∧ (Issues s g (vbUses q vb) → Fits s vd n → (q = 0 → Fits s va n ∧ Clear vd va n) →
          exec (.vmov tk g vd q va vb ty nr) s = enters 2 (.vmov tk g vd q va vb ty nr))
      ∧ (Issues s g {} → Fits s vd n → Fits s va n → Clear vd va n →
          exec (.vabs tk g vd va ty nr x1) s = enters0 2 (.vabs tk g vd va ty nr x1)
            ∧ exec (.vneg tk g vd va ty nr x1) s = enters0 2 (.vneg tk g vd va ty nr x1)
            ∧ exec (.vnot tk g vd va ty nr) s = enters0 2 (.vnot tk g vd va ty nr)
            ∧ (Fits s vb n → Clear vd vb n → Fits s vc n → Clear vd vc n →
              exec (.vclamp tk g vd va vb ty nr x1 vc) s = enters0 3 (.vclamp tk g vd va vb ty nr x1 vc)))
      ∧ (Issues s g {} → fmt64 sfmt = false → fmt64 dfmt = false → Fits s va (fmtRegs sfmt) → Fits s vd (fmtRegs dfmt) →
          Apart vd (fmtRegs dfmt) va (fmtRegs sfmt) →
          exec (.vcvt tk g vd va dfmt rnd sfmt sat) s = enters0 2 (.vcvt tk g vd va dfmt rnd sfmt sat))
      ∧ (Issues s g (vbUses q vb) →
          stops (.vadd tk g vd q va vb ty nr x3 x1) b ∧ stops (.vsub tk g vd q va vb ty nr x3 x1) b
            ∧ stops (.vmul tk g vd q va vb ty nr x3 x1) b ∧ stops (.vfma tk g vd q va vb ty nr x3 x1 vc) b
            ∧ stops (.vfms tk g vd q va vb ty nr x3 x1 vc) b ∧ stops (.vmin tk g vd q va vb ty nr x1) b
            ∧ stops (.vmax tk g vd q va vb ty nr x1) b ∧ stops (.vand tk g vd q va vb ty nr) b ∧ stops (.vor tk g vd q va vb ty nr) b
            ∧ stops (.vxor tk g vd q va vb ty nr) b ∧ stops (.vshl tk g vd q va vb ty nr) b ∧ stops (.vshr tk g vd q va vb ty nr) b
            ∧ stops (.vsar tk g vd q va vb ty nr) b ∧ stops (.vcmp tk g vd q va vb ty nr x3) b
            ∧ stops (.vsel tk g vd q va vb ty nr vc) b ∧ stops (.vmov tk g vd q va vb ty nr) b
            ∧ ((¬Fits s vd n ∨ ¬Fits s va n) → exec (.vadd tk g vd q va vb ty nr x3 x1) s = causes s Cause.regBound))
      ∧ (Issues s g {} →
          stops (.vabs tk g vd va ty nr x1) 0 ∧ stops (.vneg tk g vd va ty nr x1) 0 ∧ stops (.vclamp tk g vd va vb ty nr x1 vc) 0
            ∧ stops (.vnot tk g vd va ty nr) 0 ∧ stops (.vcvt tk g vd va dfmt rnd sfmt sat) 0)

/-- R391, R406 to R414: a vector command that moves, permutes, gathers, packs or quantises, or a special function, enters VQ when its
registers lie below REGS, its destination stands to its sources as R391 says, and its type and its amount are among those of its
entry. -/
def Obligations.VectorMovesAndFunctions : Prop :=
  ∀ (s : State) (tk g : BitVec 4) (vd va vb : BitVec 11) (q x1 : BitVec 1) (ty : BitVec 4) (nr : BitVec 2) (x3 rnd : BitVec 3)
    (fmt : BitVec 8) (lit : BitVec 32) (sa : BitVec 5), OnCore s → (s.curBank.queue .VQ).length < 32 →
    let u := groupsOf nr
    let n := groupsOf nr * tyRegs ty
    let b := if q = 1 then s.getS (BitVec.ofNat 5 vb.toNat) else 0
    let enters := fun (k : Nat) (i : Instr) => Host.Outcome.next (goOn (s.pushCmd .VQ tk i { vs := [b] }) k)
    let enters0 := fun (k : Nat) (i : Instr) => Host.Outcome.next (goOn (s.pushCmd .VQ tk i { vs := [0] }) k)
    let entersA := fun (k : Nat) (i : Instr) => Host.Outcome.next (goOn (s.pushCmd .VQ tk i { vs := [(s.getA x3).setWidth 64] }) k)
    (Issues s g (vbUses q vb) → Fits s vd n → Fits s va n →
      (Clear vd va n → (q = 0 → vb.toNat < 64) →
          exec (.vrotr tk g vd q va vb ty nr) s = enters 2 (.vrotr tk g vd q va vb ty nr)
            ∧ exec (.vbcr tk g vd q va vb ty nr) s = enters 2 (.vbcr tk g vd q va vb ty nr))
        ∧ (Clear vd va n → (1 < u → Apart vd n va n) → (q = 0 → vb.toNat < 16 * u) →
          exec (.vrotc tk g vd q va vb ty nr) s = enters 2 (.vrotc tk g vd q va vb ty nr)
            ∧ exec (.vbcc tk g vd q va vb ty nr) s = enters 2 (.vbcc tk g vd q va vb ty nr))
        ∧ (q = 0 → 64 ≤ vb.toNat → exec (.vrotr tk g vd q va vb ty nr) s = causes s Cause.illegalOp
            ∧ exec (.vbcr tk g vd q va vb ty nr) s = causes s Cause.illegalOp))
      ∧ (Issues s g {} → Fits s vd n → exec (.vmovi tk g vd ty nr lit) s = enters0 3 (.vmovi tk g vd ty nr lit))
      ∧ (Issues s g {} → Fits s vd n → Fits s va n → Fits s vb u → Clear vd va n → (n = u ∧ vd = vb ∨ Apart vd n vb u) →
          exec (.vshuf tk g vd va vb ty nr) s = enters0 2 (.vshuf tk g vd va vb ty nr))
      ∧ (Issues s g {} → Fits s vd n → Fits s vb (u * (1 + x1.toNat)) →
          (n = u * (1 + x1.toNat) ∧ vd = vb ∨ Apart vd n vb (u * (1 + x1.toNat))) →
          exec (.vgath tk g vd vb ty nr x3 x1) s = entersA 2 (.vgath tk g vd vb ty nr x3 x1))
      ∧ (Issues s g {} → Fits s va n → Fits s vb (u * (1 + x1.toNat)) →
          exec (.vscat tk g va vb ty nr x3 x1) s = entersA 2 (.vscat tk g va vb ty nr x3 x1))
      ∧ (Issues s g {} → Fits s vd n → Fits s va n → Clear vd va n →
          (WellFormed.isFloat ty = true →
            exec (.vexp2 tk g vd va ty nr x3 x1) s = enters0 2 (.vexp2 tk g vd va ty nr x3 x1)
              ∧ exec (.vlog2 tk g vd va ty nr x3 x1) s = enters0 2 (.vlog2 tk g vd va ty nr x3 x1)
              ∧ exec (.vrcp tk g vd va ty nr x3 x1) s = enters0 2 (.vrcp tk g vd va ty nr x3 x1)
              ∧ exec (.vrsq tk g vd va ty nr x3 x1) s = enters0 2 (.vrsq tk g vd va ty nr x3 x1)
              ∧ exec (.vsin tk g vd va ty nr x3 x1) s = enters0 2 (.vsin tk g vd va ty nr x3 x1)
              ∧ exec (.vcos tk g vd va ty nr x3 x1) s = enters0 2 (.vcos tk g vd va ty nr x3 x1)
              ∧ exec (.vtanh tk g vd va ty nr x3 x1) s = enters0 2 (.vtanh tk g vd va ty nr x3 x1))
            ∧ (WellFormed.isFloat ty = false →
              exec (.vexp2 tk g vd va ty nr x3 x1) s = causes s Cause.illegalOp
                ∧ exec (.vlog2 tk g vd va ty nr x3 x1) s = causes s Cause.illegalOp
                ∧ exec (.vrcp tk g vd va ty nr x3 x1) s = causes s Cause.illegalOp
                ∧ exec (.vrsq tk g vd va ty nr x3 x1) s = causes s Cause.illegalOp
                ∧ exec (.vsin tk g vd va ty nr x3 x1) s = causes s Cause.illegalOp
                ∧ exec (.vcos tk g vd va ty nr x3 x1) s = causes s Cause.illegalOp
                ∧ exec (.vtanh tk g vd va ty nr x3 x1) s = causes s Cause.illegalOp))
      ∧ (Issues s g {} → WellFormed.isFloat ty = true → WellFormed.isP3109 fmt = true → Fits s va n → Fits s vd (2 * u) →
          Apart vd (2 * u) va n → exec (.vqnt tk g vd va fmt rnd ty nr x1) s = enters0 2 (.vqnt tk g vd va fmt rnd ty nr x1))
      ∧ (Issues s g {} → Fits s vd 1 → Fits s va (if x1 = 1 then 4 else 2) → Apart vd 1 va (if x1 = 1 then 4 else 2) →
          exec (.vpack tk g vd va x1) s = enters0 2 (.vpack tk g vd va x1))
      ∧ (Issues s g {} → Fits s va 1 → Fits s vd (if x1 = 1 then 4 else 2) → Apart vd (if x1 = 1 then 4 else 2) va 1 →
          exec (.vunpk tk g vd va x1) s = enters0 2 (.vunpk tk g vd va x1))
      ∧ (Issues s g { s := [sa] } → exec (.vseed tk g sa) s
          = .next (goOn (s.pushCmd .VQ tk (.vseed tk g sa) { vs := [s.getS sa] }) 2))

/-- R415 to R430: an attention or sequence command enters XQ with the handle of its sequence, and ATTN with the request block and
its two descriptors. -/
def Obligations.SequenceCommands : Prop :=
  ∀ (s : State) (tk g h dq dd : BitVec 4) (a tag : BitVec 3) (vk vv vd va : BitVec 11) (n : BitVec 6) (mode pinc : BitVec 1)
    (mask : BitVec 8) (sb : BitVec 5) (ng : BitVec 2), OnCore s → (s.curBank.queue .XQ).length < 32 →
    let off := (s.getA a).toNat
    let b := s.scrRead off 64
    let regs := (s.runLimits s.coreNo s.bankNo).1
    let w := s.getD dq
    let u := s.getD dd
    let hq := s.getH (dHreg w)
    let hd := s.getH (dHreg u)
    let m : Sample := { hs := [s.getH h], vs := [(s.getA a).setWidth 64] }
    (Issues s g {} → off % 64 = 0 → off + 64 ≤ s.scrSize →
      (exec (.kvpromo tk g h a mask) s = .next (goOn (s.pushCmd .XQ tk (.kvpromo tk g h a mask) m) 2)
          ∧ (Committed s → exec (.kvapp tk g h a vk vv n) s = .next (goOn (s.pushCmd .XQ tk (.kvapp tk g h a vk vv n) m) 2)
              ∧ exec (.retspan tk g h a mode mask) s = .next (goOn (s.pushCmd .XQ tk (.retspan tk g h a mode mask) m) 2)))
        ∧ (dValid w = true → dValid u = true → hq ≠ 0 → hd ≠ 0 →
            (attnBad b = false → dCols w = 64 → dCols u = 64 → dRows w = dRows u → exec (.attn tk g h a dq dd) s
                = .next (goOn (s.pushCmd .XQ tk (.attn tk g h a dq dd)
                    { hs := [s.getH h, hq, hd], ds := [w, u], vs := [(s.getA a).setWidth 64], blk := b }) 2))
              ∧ (attnBad b = true ∨ dCols w ≠ 64 ∨ dCols u ≠ 64 ∨ dRows w ≠ dRows u →
                exec (.attn tk g h a dq dd) s = causes s Cause.illegalOp)))
      ∧ (Issues s g {} → Committed s →
          exec (.spanopen tk g h tag) s = .next (goOn (s.pushCmd .XQ tk (.spanopen tk g h tag) { hs := [s.getH h] }) 2)
            ∧ exec (.spanclose tk g h) s = .next (goOn (s.pushCmd .XQ tk (.spanclose tk g h) { hs := [s.getH h] }) 2))
      ∧ (Issues s g { s := [sb] } →
          (va.toNat + ng.toNat + 1 ≤ regs → vd.toNat + ng.toNat + 1 ≤ regs →
              vd = va ∨ va.toNat + ng.toNat < vd.toNat ∨ vd.toNat + ng.toNat < va.toNat → exec (.rope tk g vd va sb h pinc ng) s
            = .next (goOn (s.pushCmd .XQ tk (.rope tk g vd va sb h pinc ng) { hs := [s.getH h], vs := [s.getS sb] }) 2))
            ∧ (regs < va.toNat + ng.toNat + 1 → exec (.rope tk g vd va sb h pinc ng) s = causes s Cause.regBound))

/-- R177, R186: the entry of a command into its queue leaves it at the end, and the other queues, the registers, the accumulators, the
scratchpad, the token counters, every other bank and memory as they were. -/
def Obligations.CommandEntryFrame : Prop :=
  ∀ (s : State) (q : QueueId) (tk : BitVec 4) (i : Instr) (m : Sample) (n : Nat), OnCore s →
    let t := goOn (s.pushCmd q tk i m) n
    let k := t.curBank
    (∃ c, k.queue q = s.curBank.queue q ++ [c] ∧ c.instr = i ∧ c.tok = tk ∧ c.hs = m.hs ∧ c.ds = m.ds ∧ c.vs = m.vs ∧ c.blk = m.blk
        ∧ c.pos = s.pos ∧ c.issued = false)
      ∧ (∀ r, r ≠ q → k.queue r = s.curBank.queue r) ∧ (∀ r, t.getS r = s.getS r) ∧ (∀ r, t.getP r = s.getP r)
      ∧ (∀ r, t.getA r = s.getA r) ∧ (∀ r, t.getH r = s.getH r) ∧ (∀ r, t.getD r = s.getD r)
      ∧ k.vregs = s.curBank.vregs ∧ k.accs = s.curBank.accs ∧ k.scratch = s.curBank.scratch ∧ k.tokens = s.curBank.tokens
      ∧ k.fault = s.curBank.fault ∧ (∀ f b, f ≠ s.coreNo → t.bank f b = s.bank f b) ∧ t.mem = s.mem ∧ t.hostMem = s.hostMem
      ∧ t.objs = s.objs

/-! ### Frames of the scalar families -/

/-- R304 to R327: an instruction of the scalar families that writes one register changes, beside that register and the
position, no register of its context, no bank, no engine queue, no system core, no special register and no byte of memory; or
it takes a cause in place of its effect. -/
def Obligations.ScalarFrame : Prop :=
  ∀ (i : Instr) (d : Dest) (s t : State), dest i = some d → exec i s = .next t →
    (∃ c, t = s.trap (trapOf c)) ∨ (SameBut s.ctx t.ctx d ∧ ContextOnly s t)

/-! ### Reset, power and bring-up -/

/-- R24: a reset leaves every register and unit as at reset, nothing in HBM, LPDDR6 or CXL memory, and flash, the host's
memory, the fuses and the world outside as they are; a warm reset keeps the training results, and uses them if their CRC
passes. Table 1-7: each bring-up step that ends well starts the next, and Ready is PS0 at the stored point, or 2.2 GHz; a step
that fails stops bring-up with its code, but for a failed signature of the primary image, after which the backup is tried,
and a memory channel's first failure, after which it is trained again. A bring-up that has stopped goes no further. -/
def Obligations.ResetAndBringUp : Prop :=
  (∀ (s : State) (ok : Bool),
      Ends (exec .coldReset s) (fun t =>
        t.power = State.reset.power ∧ t.host = State.reset.host ∧ t.sys = State.reset.sys ∧ t.cores = [] ∧ t.tether = State.reset.tether
          ∧ t.ready = false ∧ t.hostMem = s.hostMem ∧ t.sec.minfw = s.sec.minfw ∧ t.sec.nextRes = s.sec.nextRes
          ∧ (∀ a, a < 2 ^ 53 → mget t.mem a = 0) ∧ (∀ a, 2 ^ 53 ≤ a → mget t.mem a = mget s.mem a))
        ∧ Ends (exec (.warmReset ok) s) (fun t =>
          t.power.bootStep = 1 ∧ t.power.trained = s.power.trained ∧ t.power.warm = (ok && s.power.trained) ∧ t.host = State.reset.host
            ∧ t.cores = [] ∧ t.hostMem = s.hostMem ∧ (∀ a, a < 2 ^ 53 → mget t.mem a = 0)))
    ∧ (∀ (s : State) (d : U16) (ports : BitVec 18) (om : OmLayout) (img : FwImage),
        (s.power.bootFail ≠ .none → ∀ ok, exec (.bringupStepComplete ok d ports (om, img)) s = .next s)
          ∧ (s.power.bootFail = .none →
            (s.power.bootStep = 1 → Ends (exec (.bringupStepComplete true d ports (om, img)) s) (fun t => t.power.bootStep = 2 ∧ t.mem = s.mem)
                ∧ Ends (exec (.bringupStepComplete false d ports (om, img)) s) (fun t => t.power.bootFail = .rail))
              ∧ (s.power.bootStep = 2 → Ends (exec (.bringupStepComplete true d ports (om, img)) s) (fun t => t.power.bootStep = 3)
                ∧ Ends (exec (.bringupStepComplete false d ports (om, img)) s) (fun t => t.power.bootFail = .lock))
              ∧ (s.power.bootStep = 3 →
                (ofBytes (shake256 img.key 64) = s.sec.vroot.toNat → xmssVerify img.key img.bytes img.sig = true →
                    minVersion s.sec.minfw ≤ img.version.toNat → ∀ ok, Ends (exec (.bringupStepComplete ok d ports (om, img)) s) (fun t =>
                    t.power.bootStep = 4 ∧ t.sec.minfw = s.sec.minfw ||| thermometer img.version.toNat ∧ t.sec.nextIdx = s.sec.nextRes
                      ∧ t.sec.fwHash.toNat = ofBytes (shake256 img.bytes 64) ∧ t.sec.fwVersion.toNat = img.version.toNat))
                  ∧ (ofBytes (shake256 img.key 64) ≠ s.sec.vroot.toNat ∨ xmssVerify img.key img.bytes img.sig = false
                      ∨ img.version.toNat < minVersion s.sec.minfw →
                    (s.power.backupTried = false → ∀ ok, Ends (exec (.bringupStepComplete ok d ports (om, img)) s) (fun t =>
                      t.power.bootStep = 3 ∧ t.power.bootFail = .none ∧ t.power.backupTried = true))
                      ∧ (s.power.backupTried = true → ∀ ok,
                        Ends (exec (.bringupStepComplete ok d ports (om, img)) s) (fun t => t.power.bootFail = .auth))))
              ∧ (s.power.bootStep = 4 → Ends (exec (.bringupStepComplete true d ports (om, img)) s) (fun t => t.power.bootStep = 5 ∧ t.sys = [])
                ∧ Ends (exec (.bringupStepComplete false d ports (om, img)) s) (fun t => t.power.bootFail = .sys))
              ∧ (s.power.bootStep = 5 →
                Ends (exec (.bringupStepComplete true d ports (om, img)) s) (fun t => t.power.bootStep = 6 ∧ t.power.trained = true)
                  ∧ (s.power.memRetried.contains d = false → Ends (exec (.bringupStepComplete false d ports (om, img)) s) (fun t =>
                    t.power.bootStep = 5 ∧ t.power.bootFail = .none ∧ t.power.memRetried.contains d = true))
                  ∧ (s.power.memRetried.contains d = true → Ends (exec (.bringupStepComplete false d ports (om, img)) s) (fun t =>
                    t.power.bootFail = .mem ∧ t.power.bootDetail = d)))
              ∧ (s.power.bootStep = 6 → ∀ ok, Ends (exec (.bringupStepComplete ok d ports (om, img)) s) (fun t =>
                t.power.bootStep = 7 ∧ t.cores = [] ∧ ∀ a, a < 2 ^ 53 → mget t.mem a = 0))
              ∧ (s.power.bootStep = 7 → ∀ ok, Ends (exec (.bringupStepComplete ok d ports (om, img)) s) (fun t =>
                t.power.bootStep = 8 ∧ (s.isMaster = true → t.links.lock = true)))
              ∧ (s.power.bootStep = 8 → layoutOk om = true → s.power.trans = none →
                Ends (exec (.bringupStepComplete true d ports (om, img)) s) (fun t =>
                  t.power.bootStep = 9 ∧ t.power.pstate = .ps0 ∧ t.power.freqCmd = s.power.resumeFreq.getD 2200 ∧ t.host.replaycnt = 0
                    ∧ (t.cq 0).isSome = true)
                  ∧ Ends (exec (.bringupStepComplete false d ports (om, img)) s) (fun t => t.power.bootFail = .om))))

/-- R20, R69, Table 1-6: a power command while bring-up or a transition is in progress is answered BUSY, and one that Table
1-6 does not list, with a clock point that Table 1-5 does not, or with a reserved bit, BADCMD; neither changes the power
state. Any other one is answered OK, and its transition starts; a change to PS0 takes the clock point, and one from PS3 runs
bring-up from step 3. R20 to R22: a transition that has nothing left to do ends with its power state and DONE in PWRRES: PS0
to PS1 when no step runs or is parked, or 100 ms after the command, when what still runs is returned or killed; the compute
dies are zero-pending when PS2 gates them, and HBM and LPDDR6 empty in PS3. In PS2 a memory unit that has had no access for
100 µs goes into self-refresh. -/
def Obligations.PowerStates : Prop :=
  (∀ (s : State) (seq freq hi : U16) (lo : BitVec 14),
      let busy := Host.Outcome.next (s.setPwrres seq Status.pwrBusy)
      let bad := Host.Outcome.next (s.setPwrres seq Status.pwrBadCmd)
      let starts := fun (x : PState) (t : State) =>
        t.power.trans = some { target := x, was := s.power.freqCmd, seq, start := s.tether.toNat }
          ∧ t.power.pwrres = BitVec.ofNat 64 (seq.toNat * 65536 + 0x42) ∧ t.power.pstate = s.power.pstate
      (s.ready = false ∨ s.power.trans.isSome = true →
        exec (.pwrCmdPs0 seq freq hi lo) s = busy ∧ exec (.pwrCmdPs1 seq freq hi lo) s = busy ∧ exec (.pwrCmdPs2 seq freq hi lo) s = busy
          ∧ exec (.pwrCmdPs3 seq freq hi lo) s = busy)
        ∧ (s.ready = true → s.power.trans = none →
          (hi ≠ 0 ∨ lo ≠ 0 →
            exec (.pwrCmdPs0 seq freq hi lo) s = bad ∧ exec (.pwrCmdPs1 seq freq hi lo) s = bad ∧ exec (.pwrCmdPs2 seq freq hi lo) s = bad
              ∧ exec (.pwrCmdPs3 seq freq hi lo) s = bad)
            ∧ (s.power.pstate = .ps2 ∨ freq.toNat < 1000 ∨ 2400 < freq.toNat ∨ freq.toNat % 100 ≠ 0 → exec (.pwrCmdPs0 seq freq hi lo) s = bad)
            ∧ (s.power.pstate = .ps1 ∨ s.power.pstate = .ps3 ∨ freq ≠ 0 → exec (.pwrCmdPs1 seq freq hi lo) s = bad)
            ∧ (s.power.pstate ≠ .ps1 ∨ freq ≠ 0 → exec (.pwrCmdPs2 seq freq hi lo) s = bad)
            ∧ (s.power.pstate ≠ .ps2 ∨ freq ≠ 0 → exec (.pwrCmdPs3 seq freq hi lo) s = bad)
            ∧ (s.power.pstate = .ps0 ∨ s.power.pstate = .ps2 → freq = 0 → hi = 0 → lo = 0 →
              Ends (exec (.pwrCmdPs1 seq freq hi lo) s) (fun t => starts .ps1 t ∧ t.power.freqCmd = s.power.freqCmd))
            ∧ (s.power.pstate = .ps1 → freq = 0 → hi = 0 → lo = 0 →
              Ends (exec (.pwrCmdPs2 seq freq hi lo) s) (fun t => starts .ps2 t ∧ t.power.freqCmd = s.power.freqCmd))
            ∧ (s.power.pstate = .ps2 → freq = 0 → hi = 0 → lo = 0 →
              Ends (exec (.pwrCmdPs3 seq freq hi lo) s) (fun t => starts .ps3 t ∧ t.power.freqCmd = s.power.freqCmd))
            ∧ (s.power.pstate ≠ .ps2 → 1000 ≤ freq.toNat → freq.toNat ≤ 2400 → freq.toNat % 100 = 0 → hi = 0 → lo = 0 →
              Ends (exec (.pwrCmdPs0 seq freq hi lo) s) (fun t => starts .ps0 t ∧ t.power.freqCmd = freq
                ∧ (s.power.pstate = .ps3 → t.power.bootStep = 3 ∧ t.power.resumeFreq = some freq)))))
    ∧ (∀ (s : State) (tr : Transition), s.power.trans = some tr →
        let done := fun (t : State) => t.power.trans = none ∧ t.power.pstate = tr.target
          ∧ t.power.pwrres = BitVec.ofNat 64 (tr.seq.toNat * 65536 + 0x43)
        (s.power.pstate = .ps0 → tr.target = .ps1 →
          (s.busyBanks = [] → Ends (exec .ps1DrainComplete s) (fun t => done t ∧ t.mem = s.mem ∧ t.cores = s.cores))
            ∧ (s.busyBanks ≠ [] → exec .ps1DrainComplete s = .next s)
            ∧ (s.busyBanks ≠ [] → tr.start + 100000000 ≤ s.tether.toNat → Ends (exec .ps1DrainTimeout s) done)
            ∧ (s.tether.toNat < tr.start + 100000000 → exec .ps1DrainTimeout s = .next s))
          ∧ (tr.target = .ps0 → s.power.pstate = .ps0 ∨ s.power.pstate = .ps1 →
            Ends (exec .powerTransitionComplete s) (fun t => done t ∧ t.mem = s.mem ∧ t.cores = s.cores ∧ t.sched = s.sched))
          ∧ (s.power.pstate = .ps1 → tr.target = .ps2 → s.allTasks = [] → s.host.hlq = [] → s.coreReqs = false →
            (∀ c ∈ s.cores, ∀ b, (c.2.bank b).cmds = [] ∧ ∀ l ∈ (c.2.bank b).basin, l.dirty = []) →
            Ends (exec .powerTransitionComplete s) (fun t => done t ∧ t.power.selfRefresh = BitVec.allOnes 14
              ∧ (∀ c ∈ t.cores, c.2.zeroPending = true ∧ c.2.codeCache = []) ∧ t.mem = s.mem))
          ∧ (s.power.pstate = .ps2 → tr.target = .ps1 → Ends (exec .powerTransitionComplete s) (fun t => done t
              ∧ (∀ c ∈ t.cores, c.2.zeroPending = false) ∧ t.mem = s.mem))
          ∧ (s.power.pstate = .ps2 → tr.target = .ps3 → s.host.cmds = [] → s.host.omcalls = [] →
            Ends (exec .powerTransitionComplete s) (fun t => done t ∧ t.host.cqs = [] ∧ t.cores = []
              ∧ (∀ a, a < 2 ^ 53 → mget t.mem a = 0) ∧ (∀ a, 2 ^ 53 ≤ a → mget t.mem a = mget s.mem a))))

/-- R15, R17, R18, R22, R468: 1,000 power samples make a window's mean; above 3,600 W the limit falls by 100 MHz, to no
less than 1.0 GHz, and below 3,450 W it rises by 100 MHz; above 105 °C and below 100 °C the thermal limit does the same, each
at most once in 10 µs; above 115 °C the clock stops, and it starts again at 1.0 GHz below 110 °C. -/
def Obligations.PowerAndThermalLimits : Prop :=
  ∀ (s : State) (x : U32) (u : BitVec 4),
    let p := s.power
    (p.lastSample + 1000 ≤ s.now →
      (p.windowCount + 1 < 1000 → Ends (exec (.powerSample x) s) (fun t => t.power.windowSum = p.windowSum + x.toNat
          ∧ t.power.windowCount = p.windowCount + 1 ∧ t.power.windowMean = p.windowMean ∧ t.power.lastSample = s.now))
        ∧ (p.windowCount = 999 → Ends (exec (.powerSample x) s) (fun t => t.power.windowMean = (p.windowSum + x.toNat) / 1000
          ∧ t.power.windowCount = 0 ∧ t.power.windowSum = 0)))
      ∧ (p.lastPowerStep + 10000 ≤ s.now →
        (3600000 < x.toNat → Ends (exec (.powerThrottleStep x) s) (fun t =>
            t.power.powerCap.toNat = max 1000 (min p.powerCap.toNat p.freqCmd.toNat - 100) ∧ t.power.freqCmd = p.freqCmd
              ∧ t.power.thermCap = p.thermCap))
          ∧ (x.toNat ≤ 3600000 → p.windowMean < 3450000 → p.powerCap ≠ 2400 → p.powerCap.toNat + 100 < p.freqCmd.toNat →
            Ends (exec (.powerThrottleStep x) s) (fun t => t.power.powerCap.toNat = p.powerCap.toNat + 100)))
      ∧ (p.thermStopped = false → p.lastThermStep + 10000 ≤ s.now →
        (105000 < x.toNat → Ends (exec (.thermalStep x) s) (fun t =>
            t.power.thermCap.toNat = max 1000 (min p.thermCap.toNat p.freqCmd.toNat - 100) ∧ t.power.powerCap = p.powerCap))
          ∧ (x.toNat < 100000 → p.thermCap ≠ 2400 → p.thermCap.toNat + 100 < p.freqCmd.toNat →
            Ends (exec (.thermalStep x) s) (fun t => t.power.thermCap.toNat = p.thermCap.toNat + 100)))
      ∧ (p.thermStopped = false → 115000 < x.toNat → Ends (exec (.thermalStop x) s) (fun t =>
          t.power.thermStopped = true ∧ t.power.thermSeen = (p.thermSeen || !p.hot) ∧ t.host.errstat.getLsbD 4 = true
            ∧ t.power.freqCmd = p.freqCmd ∧ t.power.freqAct = 0))
      ∧ (p.thermStopped = true → x.toNat < 110000 → Ends (exec (.thermalRestart x) s) (fun t =>
          t.power.thermStopped = false ∧ t.power.thermCap = 1000 ∧ t.power.powerCap = p.powerCap))
      ∧ (p.pstate = .ps2 → u.toNat < 14 → tget p.lastAccess 0 u.toNat + 100000 ≤ s.now → Ends (exec (.selfRefreshIdle u) s) (fun t =>
          t.power.selfRefresh.getLsbD u.toNat = true ∧ t.mem = s.mem))
      ∧ (s.tether.toNat % 1000000 = 0 → exec .tetherMsTick s = .next (s.wake 5))

/-! ### The host's windows -/

/-- R57 to R59, Table 3-6: word 7 of a slot submits it. Before Ready a submission has no effect but to empty the slot; else
it is answered with the next number and a status, and a slot of which a word is missing with LR_PARTIAL. A launch record
that passes takes its credits and joins the host launch queue, and a command takes its credits and joins the commands; one
that does not changes nothing else. A unit with free records then takes a record of the queue. Both take the
entries that the record names to be at hand (log entry 29). R63, R64, R55: a write of the
head of a completion ring returns as many credits as records it passes, and one past the tail sets CQERR, which a read of the
tail clears; MODUS microseconds after the first record that was not signalled the vector is signalled. -/
def Obligations.SubmissionsAndCompletions : Prop :=
  (∀ (s : State) (n : BitVec 10) (m : Byte) (w : Word) (pos : BitVec 12),
      let x := (s.launchSlot n.toNat).put 7 w
      let y := (s.cmdSlot m.toNat).put 7 w
      let cq := bits y.words[0].toNat 47 42
      let named := fun (lr : LaunchRec) => [lrTemplate lr, lrParam lr, lrPipe lr]
      (s.ready = false →
        exec (.launchSubmit n w) s = .next (s.setLaunchSlot n.toNat { x with mask := 0 })
          ∧ exec (.commandSlotSubmit m w) s = .next (s.setCmdSlot m.toNat { y with mask := 0 }))
        ∧ (s.ready = true →
          (x.whole = false → exec (.launchSubmit n w) s = .next (s.setLaunchSlot n.toNat (x.report 0x0002)))
            ∧ (x.whole = true → Here s (named x.words) → s.launchStatus x.words x.world ≠ 0 →
              exec (.launchSubmit n w) s = .next (s.setLaunchSlot n.toNat (x.report (s.launchStatus x.words x.world))))
            ∧ (x.whole = true → Here s (named x.words) → s.launchStatus x.words x.world = 0 → Ends (exec (.launchSubmit n w) s) (fun t =>
                t.host.hlq = s.host.hlq ++ [x.words] ∧ t.launchSlot n.toNat = x.report 0 ∧ t.sched = s.sched ∧ t.mem = s.mem
                  ∧ ∀ k q, s.cq k = some q → t.cq k = some { q with held := q.held + if k = lrCq x.words then lrNeeds x.words else 0 }))
            ∧ (y.whole = false → exec (.commandSlotSubmit m w) s = .next (s.setCmdSlot m.toNat (y.report 0x0002)))
            ∧ (y.whole = true → s.power.pstate = .ps3 →
              exec (.commandSlotSubmit m w) s = .next (s.setCmdSlot m.toNat (y.report 0x0009)))
            ∧ (y.whole = true → s.power.pstate ≠ .ps3 → s.cq cq = none →
              exec (.commandSlotSubmit m w) s = .next (s.setCmdSlot m.toNat (y.report 0x0006)))
            ∧ (y.whole = true → s.power.pstate ≠ .ps3 → (s.cq cq).isSome = true → cmdNeeds y.words[0] ≤ s.cqFree cq →
              Ends (exec (.commandSlotSubmit m w) s) (fun t =>
                t.host.cmds = s.host.cmds ++ [{ src := m.setWidth 9, words := y.words, world := y.world, started := false, result := 0 }]
                  ∧ t.cmdSlot m.toNat = y.report 0 ∧ t.mem = s.mem)))
        ∧ (∀ (lr : LaunchRec) u (t : State), s.host.hlq[pos.toNat]? = some lr → s.homeUnit lr = some u → Here s (named lr) → lrPipe lr = 0 →
          t = { s with host := { s.host with hlq := s.host.hlq.eraseIdx pos.toNat } } →
          (s.freeRecords u ≠ 0 → exec (.hostQueueAccept pos) s = .next ((t.accept u lr id (t.recheck lr)).1.dropBytes 0))
            ∧ (s.freeRecords u = 0 → exec (.hostQueueAccept pos) s = .next s))
        ∧ (∀ (lr : LaunchRec) u (v t : State), s.host.hlq[pos.toNat]? = some lr → s.homeUnit lr = some u → s.askRecord lr false = (v, true) →
          v.recordsFor lr ≤ v.freeRecords u → t = { v with host := { v.host with hlq := v.host.hlq.eraseIdx pos.toNat } } →
          exec (.hostQueueAccept pos) s = .next ((t.accept u lr id (t.recheck lr)).1.dropBytes (lrPipe lr)))
        ∧ (s.host.hlq[pos.toNat]? = none → exec (.hostQueueAccept pos) s = .next s))
    ∧ (∀ (s : State) (n : BitVec 6) (v : Word) (c : CompletionObj), s.cq n.toNat = some c →
        let d := (v.toNat % 2 ^ 14 + c.size - c.head.toNat) % c.size
        (c.size ≤ v.toNat % 2 ^ 14 ∨ c.count < d → exec (.cqheadWrite n v) s = .next (s.setCq n.toNat { c with cqerr := true }))
          ∧ (v.toNat % 2 ^ 14 < c.size → d ≤ c.count → Ends (exec (.cqheadWrite n v) s) (fun t => ∃ q, t.cq n.toNat = some q
              ∧ q.head = v.setWidth 14 ∧ q.count = c.count - d ∧ q.tail = c.tail ∧ q.base = c.base ∧ q.handle = c.handle
              ∧ q.cqerr = c.cqerr))
          ∧ exec (.cqtailRead n) s = .next (s.setCq n.toNat { c with cqerr := false })
          ∧ (∀ t, c.irqFirst = some t → c.modus ≠ 0 → t + c.modus.toNat * 1000 ≤ s.now →
              exec (.completionModerationTimer n) s
                = .next ((s.setCq n.toNat { c with irqCount := 0, irqFirst := none }).signal c.vector.toNat))
          ∧ (c.irqFirst = none → exec (.completionModerationTimer n) s = .next s))

/-- R28, R29, R43, R48, R49, R54, R66, R278: the status registers that a write of ones clears, the control registers of the
Tether and of the peer ports, and the host link: held messages are sent when it is up again, and D3hot is honoured in PS3
alone. A register write of another size or alignment changes nothing, and a write of several words of a slot is that of each of
them in turn (R57). The two bits of MSI-X's message control lie where log entry 15 presumes. R25, R55, R58: a host read of BOOTSTAT is always
answered, one of another register at Ready alone; PWRSTAT, PLSTATn and LSTAT read as their fields, and a misaligned read of a
register as ones. -/
def Obligations.HostRegisters : Prop :=
  ∀ (s : State) (v : Word) (n : BitVec 5) (sl : BitVec 8) (d : BitVec 2) (bar : BitVec 3) (off : BitVec 26) (size : BitVec 7)
    (w : Word) (more : List Word),
    exec (.errstatClear v) s = .next { s with host := { s.host with errstat := s.host.errstat &&& ~~~v } }
      ∧ Ends (exec (.pwrstatClear v) s) (fun t => t.power.thermSeen = (s.power.thermSeen && !v.getLsbD 9)
        ∧ t.power.pwrlimSeen = (s.power.pwrlimSeen && !v.getLsbD 8) ∧ t.power.pstate = s.power.pstate)
      ∧ Ends (exec (.tetherstatClear v) s) (fun t => t.links.lostLock = (s.links.lostLock && !v.getLsbD 1) ∧ t.links.lock = s.links.lock)
      ∧ Ends (exec (.plstatClear n v) s) (fun t => (t.peer n.toNat).timeout = ((s.peer n.toNat).timeout && !v.getLsbD 3)
        ∧ (t.peer n.toNat).st = (s.peer n.toNat).st)
      ∧ Ends (exec (.slstatClear sl v) s) (fun t => (t.slice sl.toNat).inv = ((s.slice sl.toNat).inv && !v.getLsbD 0)
        ∧ (t.slice sl.toNat).spout = (s.slice sl.toNat).spout)
      ∧ Ends (exec (.tetherctlWrite v) s) (fun t => t.links.tetherEn = v.getLsbD 0
        ∧ (v.toNat / 2 ^ 22 % 2 ^ 10 < 576 → t.links.master.toNat = v.toNat / 2 ^ 22 % 2 ^ 10)
        ∧ (t.isMaster = false → (v.getLsbD 0 = false ∨ t.links.master ≠ s.links.master) → t.links.lock = false)
        ∧ (t.isMaster = true → t.links.lock = true) ∧ t.host.errstat = s.host.errstat)
      ∧ (n.toNat < 18 →
        ((s.peer n.toNat).st ≠ 2 → Ends (exec (.plctlDisable n) s) (fun t => (t.peer n.toNat).dis = true ∧ (t.peer n.toNat).st = 3))
          ∧ ((s.peer n.toNat).st = 2 → exec (.plctlDisable n) s
              = .next ((s.setPeer n.toNat { s.peer n.toNat with dis := true }).peerDown n.toNat 3 false))
          ∧ ((s.peer n.toNat).dis = true → Ends (exec (.plctlEnable n) s) (fun t => (t.peer n.toNat).dis = false ∧ (t.peer n.toNat).st = 1))
          ∧ ((s.peer n.toNat).st = 0 → Ends (exec (.plctlEnable n) s) (fun t => (t.peer n.toNat).dis = false ∧ (t.peer n.toNat).st = 1))
          ∧ ((s.peer n.toNat).dis = false → (s.peer n.toNat).st ≠ 0 → exec (.plctlEnable n) s = .next s))
      ∧ Ends (exec .hostLinkDown s) (fun t => t.links.hostUp = false ∧ t.host.hlq = s.host.hlq
        ∧ ∀ k, (t.launchSlot k).mask = 0 ∨ tfind s.host.launchSlots k = none)
      ∧ Ends (exec .hostLinkUp s) (fun t => t.links.hostUp = true ∧ t.links.heldMsix = [])
      ∧ (d = 3 → s.power.pstate = .ps3 → exec (.pmcsrWrite d) s = .next { s with links := { s.links with d3hot := true } })
      ∧ (d = 0 → exec (.pmcsrWrite d) s = .next { s with links := { s.links with d3hot := false } })
      ∧ (d = 1 ∨ d = 2 ∨ (d = 3 ∧ s.power.pstate ≠ .ps3) → exec (.pmcsrWrite d) s = .next s)
      ∧ (size ≠ 8 ∧ size ≠ 4 ∨ off.toNat % 4 ≠ 0 → exec (.registerWrite 0 off size (v, more)) s = .next s)
      ∧ (size.toNat ≠ 8 * (1 + more.length) ∨ off.toNat % 8 ≠ 0 → exec (.registerWrite 2 off size (v, more)) s = .next s)
      ∧ (bar ≠ 0 → bar ≠ 2 → bar ≠ 7 → exec (.registerWrite bar off size (v, more)) s = .next s)
      ∧ (∀ k < 7, ∀ m < 1024, off.toNat = 4096 * m + 8 * k →
          Ends (exec (.registerWrite 2 off 8 (v, [])) s) (fun t =>
            t.launchSlot m = (s.launchSlot m).put k v ∧ t.mem = s.mem ∧ t.host.hlq = s.host.hlq)
            ∧ (k < 6 → Ends (exec (.registerWrite 2 off 16 (v, [w])) s) (fun t =>
              t.launchSlot m = ((s.launchSlot m).put k v).put (k + 1) w ∧ t.mem = s.mem ∧ t.host.hlq = s.host.hlq)))
      ∧ Ends (exec (.registerWrite 7 off size (v, more)) s) (fun t => t.links.msixEnable = v.getLsbD 15 ∧ t.links.msixFuncMask = v.getLsbD 14
          ∧ t.mem = s.mem)
      ∧ s.hostRead 0 0 8 = some (toBytes 8 s.power.bootstat.toNat)
      ∧ (s.ready = false → bar ≠ 0 ∨ off ≠ 0 → s.hostRead bar.toNat off.toNat size.toNat = none)
      ∧ (s.ready = true →
        s.hostRead 0 8 8 = some (toBytes 8 s.power.pwrstat.toNat)
          ∧ (∀ k < 18, s.hostRead 0 (0x100 + 8 * k) 8 = some (toBytes 8 (s.peer k).plstat.toNat))
          ∧ (∀ m < 1024, s.hostRead 2 (4096 * m + 64) 8 = some (toBytes 8 (s.launchSlot m).stat.toNat))
          ∧ (off.toNat < 0x10000 → size ≠ 8 ∨ off.toNat % 8 ≠ 0 →
            ((∃ j, j < size.toNat ∧ assigned (off.toNat + j) = true) → s.hostRead 0 off.toNat size.toNat = some (List.replicate size.toNat 0xFF))
              ∧ ((∀ j, j < size.toNat → assigned (off.toNat + j) = false) → s.hostRead 0 off.toNat size.toNat
                = some (List.replicate size.toNat 0))))

/-- R246 to R248, R465: FANSWER and the fault queue. A parked bank that is answered RESUME or SKIP can go on from its
frame; one answered KILL, or REPLAY past COMMIT, has its task killed; a bank that is not parked is not answered. A
step counter of a bank that runs is not written, and that of one that is parked is written in its frame. The head of the fault
queue moves on by no more than the records. R131, R242, R247, R253, R257, R258: a bank that drains is parked with its frame
once its register results are there, and the other bank runs; an answered bank goes on from its frame when the other bank runs
nothing; an uncorrectable error replays or kills the step that owns the bank, loses what has no other copy, drops a clean cache
entry, or is reported. -/
def Obligations.FaultsAndParking : Prop :=
  (∀ (s : State) (f : BitVec 9) (b : BitVec 1) (d : U16) (q : QueueId) (inst : BitVec 10) (v : Word),
      let k := s.bank f.toNat b
      (k.fault = none ∨ k.st ≠ .parked →
        exec (.fanswerResume f b) s = .next s ∧ exec (.fanswerSkip f b) s = .next s ∧ exec (.fanswerReplay f b) s = .next s
          ∧ exec (.fanswerKill f b d) s = .next s)
        ∧ (∀ fi, k.fault = some fi → k.st = .parked →
          exec (.fanswerResume f b) s = .next (s.setBank f.toNat b { k with st := .resumable, skip := false })
            ∧ exec (.fanswerSkip f b) s = .next (s.setBank f.toNat b { k with st := .resumable, skip := true })
            ∧ (k.runOnFault = false → (∀ r, k.run = some r → r.committed = false ∧ r.task = fi.task) →
              exec (.fanswerReplay f b) s = .next (s.replayStep f.toNat b fi.cause false))
            ∧ (∀ r, k.run = some r → r.committed = true → exec (.fanswerReplay f b) s = exec (.fanswerKill f b fi.cause) s)
            ∧ Ends (exec (.fanswerKill f b d) s) (fun t => ∀ u,
                u = s.killTask fi.task (if fi.cause = Cause.objLost then Status.objLost else Status.killed) d →
                  t = if (u.bank f.toNat b).st = .parked then u.dropParked f.toNat b fi.task else u))
        ∧ (640 ≤ inst.toNat → exec (.stepCounterWrite q inst v) s = .next s)
        ∧ (inst.toNat < 640 → (s.bank (inst.toNat / 2) (BitVec.ofNat 1 inst.toNat)).framed = false →
          ((s.bank (inst.toNat / 2) (BitVec.ofNat 1 inst.toNat)).st = .running → exec (.stepCounterWrite q inst v) s = .next s)
            ∧ ((s.bank (inst.toNat / 2) (BitVec.ofNat 1 inst.toNat)).st = .idle → q ≠ .MQ → Ends (exec (.stepCounterWrite q inst v) s) (fun t =>
              (t.bank (inst.toNat / 2) (BitVec.ofNat 1 inst.toNat)).counter q = v.toNat % 65536)))
        ∧ ((v - s.faults.fqHead).toNat % 16384 ≤ s.faults.count → s.cores = [] → Ends (exec (.fqheadWrite v) s) (fun t =>
            t.faults.fqHead = s.faults.fqHead + BitVec.ofNat 64 ((v - s.faults.fqHead).toNat % 16384) ∧ t.faults.fqTail = s.faults.fqTail))
        ∧ (s.faults.count < (v - s.faults.fqHead).toNat % 16384 → s.cores = [] → exec (.fqheadWrite v) s = .next s))
    ∧ (∀ (s : State) (f : BitVec 9) (b : BitVec 1) (n : Byte) (ch : Choices) (va : BitVec 52) (unit : BitVec 9) (key h : Word) (sl : Byte),
        let k := s.bank f.toNat b
        (k.fault = none ∨ k.st ≠ .draining ∨ s.valuesOut f.toNat b = true ∨ s.power.freqAct = 0 → exec (.faultFrameWrite f b n n n n ch) s = .next s)
          ∧ (∀ fi, k.fault = some fi → k.st = .draining → s.valuesOut f.toNat b = false → k.cmds = [] → k.landings = [] → k.plan = none →
            s.power.freqAct ≠ 0 → Ends (exec (.faultFrameWrite f b n n n n ch) s) (fun t =>
              (t.bank f.toNat b).st = (if fi.answered then .resumable else .parked) ∧ (t.core f.toNat).active = 1 - b
              ∧ (t.bank f.toNat b).fault = k.fault ∧ (t.bank f.toNat b).scratch = k.scratch ∧ (t.bank f.toNat b).vregs = k.vregs))
          ∧ (k.fault = none ∨ k.st ≠ .resumable ∨ (s.bank f.toNat (1 - b)).st = .running ∨ (s.bank f.toNat (1 - b)).st = .draining →
            exec (.parkedStepResume f b) s = .next s)
          ∧ (∀ fi, k.fault = some fi → k.st = .resumable → k.skip = false → (s.bank f.toNat (1 - b)).st = .idle →
            Ends (exec (.parkedStepResume f b) s) (fun t => (t.core f.toNat).active = b ∧ (t.bank f.toNat b).fault = none
              ∧ (t.bank f.toNat b).st = (if k.runOnFault then .idle else .running)
              ∧ (t.bank f.toNat b).C.pos = posOfNat (bits (mword s.mem (s.frameAddr f.toNat b + 56)).toNat 59 32)
              ∧ (t.bank f.toNat b).escl = BitVec.ofNat 16 (bits (mword s.mem (s.frameAddr f.toNat b + 72)).toNat 15 0)
              ∧ (t.bank f.toNat b).scratch = k.scratch ∧ t.mem = s.mem))
          ∧ exec (.ueEngine f (b, none)) s = .next (s.replayStep f.toNat b Cause.ueEngine false)
          ∧ (∀ qu c r, (k.queue qu).head? = some c → k.run = some r →
            (c.run = r.id → exec (.ueEngine f (b, some qu)) s = .next (s.replayStep f.toNat b Cause.ueEngine false))
              ∧ (c.run ≠ r.id → exec (.ueEngine f (b, some qu)) s = .next (s.killTask c.task 0x0020 Cause.ueEngine)))
          ∧ (∀ r, k.run = some r → (r.committed = true ∨ r.ended = true) →
            s.replayStep f.toNat b Cause.ueEngine false = s.killTask r.task 0x0020 Cause.ueEngine)
          ∧ (∀ r, k.run = some r → r.committed = false → r.ended = false → 2 ≤ r.replays.toNat →
            s.replayStep f.toNat b Cause.ueEngine false = s.killTask r.task 0x0023 Cause.ueEngine)
          ∧ (s.objectAt va.toNat = none → exec (.ueMem f (none, va)) s
              = .next (s.replayStep f.toNat (s.core f.toNat).active Cause.ueMem false))
          ∧ (∀ o e a leaf large, s.objectAt va.toNat = some (o, e) → s.walkTables va.toNat = .ok (a, leaf, large) → s.otherCopy o e a = true →
              exec (.ueMem f (none, va)) s = .next (s.replayStep f.toNat (s.core f.toNat).active Cause.ueMem false))
          ∧ (∀ o e a leaf large, s.objectAt va.toNat = some (o, e) → s.walkTables va.toNat = .ok (a, leaf, large) → s.otherCopy o e a = false →
              Ends (exec (.ueMem f (none, va)) s) (fun t => t.host.errstat.getLsbD 1 = true))
          ∧ ((∀ l ∈ k.basin, l.dirty = []) → exec (.ueBasin f b) s = .next s)
          ∧ (∀ l, k.basin.find? (fun l => !l.dirty.isEmpty) = some l → ∃ slice, exec (.ueBasin f b) s
              = .next (((s.dropBasin f.toNat b fun x => x.handle == l.handle && x.va == l.va).setErr 1 slice l.handle).killTask l.task 0x0020
                  Cause.ueBasin))
          ∧ exec (.ueCacheEntry 0 unit key) s = .next (s.l2Drop unit.toNat s.pkg key.toNat)
          ∧ Ends (exec (.ueCacheEntry 1 unit key) s) (fun t => t.mem = s.mem ∧ ∀ b, ∀ l ∈ (t.bank unit.toNat b).basin,
              l.va.toNat = key.toNat / 64 * 64 → l.dirty ≠ [])
          ∧ Ends (exec (.ueCacheEntry 3 unit key) s) (fun t => t.hunit unit.toNat = (s.hunit unit.toNat).dropEntry key false ∧ t.mem = s.mem)
          ∧ Ends (exec (.ueCacheEntry 4 unit key) s) (fun t => t.hunit unit.toNat = (s.hunit unit.toNat).dropTlb key.toNat 1 false ∧ t.mem = s.mem)
          ∧ Ends (exec (.ueSliceBuffer sl h) s) (fun t => t.host.errstat.getLsbD 1 = true ∧ MemoryBut s t 0 ∧ t.cores = s.cores))

/-! ### Object-manager commands -/

/-- R60 to R62, R67: CQCREATE makes an empty ring of the size, vector and moderation named in HBM, and CQDESTROY removes one whose
credits are all free; SLOTBIND gives a slot its world; GANG makes this package the coordinator of the packages listed and
sends each the record; world 0 alone may send the first three, and a bad field ends with OM_BADOP. R73, R75, R89, R92, R96,
R485: the object manager creates an object with the world of its slot and the next GEN and answers its handle; a deletion
makes the entry DELETING with the next GEN, and frees it when no segment is busy; OBJWRITE stores the host's bytes and OBJREAD
gives them back; OBJMOVE holds the segments that lie elsewhere; OBJQUERY copies an entry. What host memory cannot be reached
for ends with OM_DMA. The objects are of this package, and none is sharded. -/
def Obligations.ObjectManagerCommands : Prop :=
  (∀ (s : State) (src : BitVec 9) (c : OmCmd) (gid : U16) (al : Alloc),
      let w := c.word 1
      let n := bits w 5 0
      let m := bits (c.word 2) 15 0
      (Serves s src 0x01 c →
        (n = 0 ∨ 8 < bits w 11 8 ∨ bits w 26 16 < 64 ∨ m = 0 ∨ 4096 < m ∨ (s.cq n).isSome = true →
            exec (.cqcreate (src, al)) s = .next (s.omEnd c 0x0010 0))
          ∧ (n ≠ 0 → bits w 11 8 ≤ 8 → 64 ≤ bits w 26 16 → m ≠ 0 → m ≤ 4096 → s.cq n = none →
            (s.tableFull = true → exec (.cqcreate (src, al)) s = .next (s.omEnd c 0x0013 0))
              ∧ (s.tableFull = false → s.ringOk al = true → ∃ q : CompletionObj,
                q.size = 64 * 2 ^ bits w 11 8 ∧ q.vector.toNat = bits w 26 16 ∧ q.modcnt.toNat = m ∧ q.modus.toNat = bits (c.word 2) 31 16
                  ∧ q.head = 0 ∧ q.tail = 0 ∧ q.count = 0 ∧ q.held = 0 ∧ q.phase = true ∧ q.cqerr = false
                  ∧ ((s.createRing n q al).cq n).map (fun r => (r.base, r.size, r.count, r.vector))
                    = some (frameBase 0 0 (al.pfns.headD 0).toNat, q.size, 0, q.vector)
                  ∧ exec (.cqcreate (src, al)) s = .next ((s.createRing n q al).omEnd c 0 0))))
        ∧ (Serves s src 0x02 c →
          (n = 0 → exec (.cqdestroy src) s = .next (s.omEnd c 0x0010 0))
            ∧ (n ≠ 0 → s.cq n = none → exec (.cqdestroy src) s = .next (s.omEnd c 0x0011 0))
            ∧ (∀ q, n ≠ 0 → s.cq n = some q → q.held + q.count ≠ 0 → exec (.cqdestroy src) s = .next (s.omEnd c 0x0016 0))
            ∧ (∀ q, n ≠ 0 → s.cq n = some q → q.held + q.count = 0 → n ≠ c.cq → Ends (exec (.cqdestroy src) s) (fun t => t.cq n = none)))
        ∧ (Serves s src 0x20 c →
          (bit w 10 = true → 256 ≤ bits w 9 0 → exec (.slotbind src) s = .next (s.omEnd c 0x0010 0))
            ∧ (bit w 10 = true → bits w 9 0 < 256 → Ends (exec (.slotbind src) s) (fun t =>
              t.cmdSlot (bits w 9 0) = { s.cmdSlot (bits w 9 0) with world := BitVec.ofNat 8 (bits w 23 16) }))
            ∧ (bit w 10 = false → Ends (exec (.slotbind src) s) (fun t =>
              t.launchSlot (bits w 9 0) = { s.launchSlot (bits w 9 0) with world := BitVec.ofNat 8 (bits w 23 16) })))
        ∧ (Serves s src 0x30 c →
          exec (.gang src gid false) s = .next (s.omEnd c 0x0014 0)
            ∧ (∀ (lr : LaunchRec) (list : List Nat), lr = .ofFn (fun k => mword s.hostMem (c.word 1 + 8 * k.val)) →
              list = (List.range (bits (c.word 3) 9 0)).map (fun k => ofBytes (mread s.hostMem (c.word 2 + 2 * k) 2)) →
              (list.contains s.pkgNo = false → exec (.gang src gid true) s = .next (s.omEnd c 0x0010 0))
                ∧ (2 ≤ list.length → list.length ≤ 576 → bits (c.word 4) 9 0 ≠ 0 → bits (c.word 4) 9 0 ≤ 1000 → (∀ p ∈ list, p < 576) →
                  list.Nodup → s.pkgNo ∈ list → (lrWorld lr = 0 ∨ lrWorld lr = c.world.toNat) → lrReserved lr = false → lrDie lr ≠ 0 →
                  lrCl lr ≠ 0 → lrPipe lr = 0 → lrPrio lr ≠ 7 → s.coord? gid = none →
                  Ends (exec (.gang src gid true) s) (fun t => ∃ g, t.coord? gid = some g ∧ g.phase = 1
                    ∧ g.members.map (fun x => x.pkg.toNat) = list ∧ g.tag = c.tag
                    ∧ g.deadline = s.tether.toNat + bits (c.word 4) 9 0 * 1000)))))
    ∧ (∀ (s : State) (src : BitVec 9) (c : OmCmd) (al : Alloc) (e : Entry) (i : BitVec 30),
        let img := s.hostImage (c.word 1)
        let rsv := efield img 15 63 32
        let code := fun k => mread s.hostMem (c.word 1 + 128 + 64 * k) 64
        let gen := s.nextGen al.index.toNat
        let h := handleOf c.world.toNat gen s.pkgNo al.index.toNat
        let pfns := al.pfns.map fun p => p.toNat
        let r := s.reachEntry c.handle
        (Serves s src 0x10 c →
          exec (.objcreate src al false) s = .next (s.omEnd c 0x0014 0)
            ∧ (e = completeImage img c.world gen (bits (c.word 2) 1 0) al.vbase.toNat → eShards e = 1 → eReps e = 1 →
              (bits (c.word 2) 1 0 = 3 ∨ s.imageOk e rsv code = false → exec (.objcreate src al true) s = .next (s.omEnd c 0x0010 0))
                ∧ (bits (c.word 2) 1 0 ≠ 3 → s.imageOk e rsv code = true → s.tableFull = true →
                  exec (.objcreate src al true) s = .next (s.omEnd c 0x0013 0))
                ∧ (bits (c.word 2) 1 0 ≠ 3 → s.imageOk e rsv code = true → s.tableFull = false → pfns.length = (pagesOf e).length →
                  s.choiceOk e al = true → s.tabsOk (pagesOf e) al.tabs = true → s.framesOk (bits (c.word 2) 1 0) (eLarge e) pfns = true →
                  (bits (c.word 2) 1 0 = 0 → ∀ p ∈ pfns, s.modeOk (eCompute e || eLayout e == 2) p = true) →
                  exec (.objcreate src al true) s = .next ((s.createObject h e al).omEnd c 0 h))))
          ∧ (Serves s src 0x15 c →
            exec (.flashreg src al false) s = .next (s.omEnd c 0x0014 0)
              ∧ (e = completeImage img c.world gen 3 al.vbase.toNat →
                (bits (c.word 2) 63 32 % (ePage e / 4096) ≠ 0 ∨ s.imageOk e rsv code = false →
                  exec (.flashreg src al true) s = .next (s.omEnd c 0x0010 0))
                  ∧ (bits (c.word 2) 63 32 % (ePage e / 4096) = 0 → s.imageOk e rsv code = true →
                    ((s.flashPort (bits (c.word 2) 2 0)).st ≠ 2 → exec (.flashreg src al true) s = .next (s.omEnd c 0x0013 0))
                      ∧ (s.tableFull = false → (s.flashPort (bits (c.word 2) 2 0)).st = 2 → s.choiceOk e al = true →
                        s.tabsOk (pagesOf e) al.tabs = true →
                        ∃ t : State, exec (.flashreg src al true) s = .next (t.omEnd c 0 h) ∧ t.hostMem = s.hostMem))))
          ∧ (Serves s src 0x11 c → hHome c.handle = s.pkgNo → s.omObject c .manage true = .ok e → eGen e ≠ 0xFFFF →
              Ends (exec (.objdelete src) s) (fun t =>
                eState (t.entryInMem (hIndex c.handle)) = 3 ∧ eGen (t.entryInMem (hIndex c.handle)) = eGen e + 1 ∧ t.hostMem = s.hostMem))
          ∧ (Serves s src 0x11 c → hHome c.handle = s.pkgNo → ∀ st, s.omObject c .manage true = .error st →
              exec (.objdelete src) s = .next (r.omEnd c st 0))
          ∧ (eState (s.entryInMem i.toNat) ≠ 3 → exec (.objdeleteComplete i) s = .next s)
          ∧ (∀ x ∈ s.segments (s.entryInMem i.toNat), leafBusy (s.leafNow x.2.1) ≠ 0 → exec (.objdeleteComplete i) s = .next s)
          ∧ (eState (s.entryInMem i.toNat) = 3 → s.segments (s.entryInMem i.toNat) = [] → s.objs.reqs = [] → s.host.cmds = [] → s.host.omcalls = [] →
              Ends (exec (.objdeleteComplete i) s) (fun t => eState (t.entryInMem i.toNat) = 0 ∧ t.objs.freeFrames = s.objs.freeFrames))
          ∧ (∀ need, need = (if bit (c.word 5) 0 then OmNeed.publish else .write) → Serves s src 0x12 c → c.started = false →
            hHome c.handle = s.pkgNo →
            (∀ st, s.omObject c need false = .error st → ∀ dma, exec (.objwrite src dma) s = .next ((r.closeDraft c).omEnd c st 0))
              ∧ (s.omObject c need false = .ok e → rangeOk e (c.word 2) (c.word 4) = false →
                ∀ dma, exec (.objwrite src dma) s = .next (r.omEnd c 0x0010 0))
              ∧ (s.omObject c need false = .ok e → rangeOk e (c.word 2) (c.word 4) = true →
                exec (.objwrite src false) s = .next ((r.closeDraft c).omEnd c 0x0014 0)
                  ∧ (∀ va leaf pa, eBufs e = 1 → s.omPieces c.handle e 0 (c.word 2) (c.word 4) false = [(s.pkgNo, va, c.word 4, 0)] →
                    s.omPage va = .ok leaf pa → s.flashLeaf va = none → bit (c.word 5) 0 = false → Ends (exec (.objwrite src true) s) (fun t =>
                      MemoryBut (s.storeRaw c.handle { run := omRun src, task := s.omTask src, path := .C, ord := 0 } va pa
                          (mread s.hostMem (c.word 3) (c.word 4))) t c.cq ∧ t.hostMem = s.hostMem))))
          ∧ (Serves s src 0x13 c → c.started = false → hHome c.handle = s.pkgNo →
            (∀ st, s.omObject c .read false = .error st → ∀ dma, exec (.objread src dma) s = .next (r.omEnd c st 0))
              ∧ (s.omObject c .read false = .ok e → rangeOk e (c.word 2) (c.word 4) = true →
                ∀ va leaf pa, eBufs e = 1 → s.omPieces c.handle e 0 (c.word 2) (c.word 4) true = [(s.pkgNo, va, c.word 4, 0)] →
                  s.omPage va = .ok leaf pa → Ends (exec (.objread src true) s) (fun t =>
                    t.hostMem = mwrite s.hostMem (c.word 3) (mread s.mem pa (c.word 4)) ∧ MemoryBut s t c.cq)))
          ∧ (Serves s src 0x14 c → c.started = false → c.result = 0 → hHome c.handle = s.pkgNo → s.omObject c .manage false = .ok e →
            ((bits (c.word 2) 1 0 = 3 ∨ ePinned e = true ∨ 576 ≤ bits (c.word 2) 41 32) →
                exec (.objmove src al) s = .next (r.omEnd c 0x0010 0))
              ∧ (∀ p x, bits (c.word 2) 1 0 ≠ 3 → ePinned e = false → bits (c.word 2) 41 32 = s.pkgNo → s.pkgNo < 576 →
                tfind s.objs.away (objKey c.handle) = none → s.segments e = [x] →
                leafTier (s.leafNow x.2.1) ≠ bits (c.word 2) 1 0 → leafHold (s.leafNow x.2.1) = false → al.pfns = [p] →
                s.framesOk (bits (c.word 2) 1 0) (eLarge e) [p.toNat] = true →
                (bits (c.word 2) 1 0 = 0 → s.modeOk (eCompute e || eLayout e == 2) p.toNat = true) →
                exec (.objmove src al) s = .next (((r.putCmd c { c with started := true }).touchPages [x.1]).startMove c.handle x.1 x.2.1
                  (eLarge e) (bits (c.word 2) 1 0) s.pkgNo p.toNat (.command src))))
          ∧ (Serves s src 0x16 c → hHome c.handle = s.pkgNo → s.omObject c .read false = .ok e →
            exec (.objquery src false) s = .next (r.omEnd c 0x0014 0)
              ∧ Ends (exec (.objquery src true) s) (fun t => MemoryBut s t c.cq
                ∧ t.hostMem = mwrite s.hostMem (c.word 2) (bytesOfWords (s.entryInMem (hIndex c.handle)).toList))))

/-! ### Links -/

/-- R30, R31, R33, R34, R36: a CXL or flash port that goes down is reported and its segments are unavailable; it trains,
and comes up with a device that fits or is left down with one that does not; after 1 s down it is lost; up to 8 extents are
registered, and released when no segment lies on them. An NVMe command that completes is over; one of 8 s resets the controller,
and a second one within 60 s takes the port down. That the events number CXL ports from 0 and flash ports from 8, and that a
reset issues again what was outstanding, are the model's choices (log entry 84). R37 to R46, R53: a peer port that is not up
takes no flit; one with a bad CRC is counted and dropped; one in order advances the sequence and has its effect: a request is
served at its home, a response completes its request, a block waits for its collective, and the master's time corrects
TETHERCNT. A NAK sends again from its SEQ, a credit return adds to the credits, and an idle port sends IDLE flits. A port that
hears nothing for 2 µs goes down, and a request unanswered for 50 µs is timed out. -/
def Obligations.Ports : Prop :=
  (∀ (s : State) (p : BitVec 4) (z : BitVec 2) (q : BitVec 3) (why : BitVec 4) (base len : U32) (ways way : BitVec 3) (cid : U16) (d : Device),
      let x := s.tierPort p
      let c := s.cxlPort z.toNat
      let f := s.flashPort q.toNat
      let port := p.toNat < 4 ∨ 8 ≤ p.toNat
      let fit := if p.toNat < 8 then d.type = 3 ∧ d.switches.toNat ≤ 1 else d.block = 4096 ∧ d.metadata = 0 ∧ 262144 ≤ d.transfer.toNat
      let shape := (ways = 1 ∨ ways = 2 ∨ ways = 4) ∧ way.toNat < ways.toNat
      (¬ port → exec (.cxlPortDown p why) s = .next s ∧ exec (.cxlPortUp (p, some d)) s = .next s ∧ exec (.cxlPortUp (p, none)) s = .next s
          ∧ exec (.cxlDownTimeout p) s = .next s)
        ∧ (port → Ends (exec (.cxlPortDown p why) s) (fun t => (t.tierPort p).st = 0 ∧ (t.tierPort p).why = why ∧ (t.tierPort p).downSince = s.now
            ∧ (t.tierPort p).extents = x.extents ∧ (t.tierPort p).cmds = [] ∧ (t.tierPort p).waiting = x.cmds ++ x.waiting
            ∧ t.host.errstat.getLsbD 2 = true ∧ t.cores = s.cores))
        ∧ (x.st = 2 → exec (.cxlPortUp (p, none)) s = .next s ∧ exec (.cxlPortUp (p, some d)) s = .next s)
        ∧ (port → x.st ≠ 2 → exec (.cxlPortUp (p, none)) s = .next (s.setTier p { x with st := 1 })
            ∧ (fit → Ends (exec (.cxlPortUp (p, some d)) s) (fun t => (t.tierPort p).st = 2 ∧ (t.tierPort p).lost = false
              ∧ (t.tierPort p).extents = x.extents))
            ∧ (¬ fit → Ends (exec (.cxlPortUp (p, some d)) s) (fun t => (t.tierPort p).st = 0 ∧ (t.tierPort p).why = 1 ∧ t.mem = s.mem
              ∧ (t.tierPort p).extents = x.extents)))
        ∧ (port → x.st ≠ 2 → x.lost = false → x.downSince + 1000000000 ≤ s.now → Ends (exec (.cxlDownTimeout p) s) (fun t =>
            (t.tierPort p).lost = true ∧ (t.tierPort p).st = x.st))
        ∧ (x.st = 2 ∨ x.lost = true ∨ s.now < x.downSince + 1000000000 → exec (.cxlDownTimeout p) s = .next s)
        ∧ (shape → c.extents.length < 8 → Ends (exec (.cxlExtentAdd z base (len, ways, way)) s) (fun t =>
            (t.cxlPort z.toNat).extents = c.extents ++ [{ base := base.toNat, len := len.toNat, ways := ways.toNat, way := way.toNat }]
            ∧ (t.cxlPort z.toNat).st = c.st ∧ t.mem = s.mem))
        ∧ (¬ shape ∨ 8 ≤ c.extents.length → exec (.cxlExtentAdd z base (len, ways, way)) s = .next s)
        ∧ ((∀ e ∈ c.extents, e.base ≠ base.toNat) → exec (.cxlExtentRelease z base) s = .next s)
        ∧ ((∃ e ∈ c.extents, e.base = base.toNat) → s.heldObjects = [] → s.objs.migrations = [] →
            Ends (exec (.cxlExtentRelease z base) s) (fun t =>
              (t.cxlPort z.toNat).extents = c.extents.filter (fun e => e.base ≠ base.toNat) ∧ t.mem = s.mem))
        ∧ ((∀ m ∈ f.cmds, m.cid ≠ cid.toNat) → exec (.nvmeCompletion q cid) s = .next s ∧ exec (.nvmeTimeout q cid) s = .next s)
        ∧ ((∃ m ∈ f.cmds, m.cid = cid.toNat) → Ends (exec (.nvmeCompletion q cid) s) (fun t => (t.flashPort q.toNat).st = f.st
            ∧ ∃ l, (t.flashPort q.toNat).cmds = f.cmds.filter (fun m => m.cid ≠ cid.toNat) ++ l ∧ (f.waiting = [] → l = [])))
        ∧ (∀ m, f.cmds.find? (fun m => m.cid == cid.toNat) = some m →
          (s.now < m.start + 8000000000 → exec (.nvmeTimeout q cid) s = .next s)
            ∧ (m.start + 8000000000 ≤ s.now → f.lastTimeout = none → Ends (exec (.nvmeTimeout q cid) s) (fun t =>
              (t.flashPort q.toNat).st = f.st ∧ (t.flashPort q.toNat).lastTimeout = some s.now ∧ t.mem = s.mem
              ∧ (f.st = 2 → f.cmds.length + f.waiting.length ≤ 32768 →
                (t.flashPort q.toNat).cmds = (f.cmds ++ f.waiting).map (fun m => { m with start := s.now }))))
            ∧ (∀ l, m.start + 8000000000 ≤ s.now → f.lastTimeout = some l → s.now ≤ l + 60000000000 → Ends (exec (.nvmeTimeout q cid) s) (fun t =>
              (t.flashPort q.toNat).st = 0 ∧ (t.flashPort q.toNat).why = 3 ∧ t.host.errstat.getLsbD 2 = true))))
    ∧ (∀ (s : State) (p : BitVec 5) (h : Word) (crc : Bool) (q : RemoteReq) (qo : Option RemoteReq) (tag : U32) (more : Bool) (data : List Byte)
        (st : Byte) (old : Word) (rtt : U16) (nbr seq : BitVec 10) (vc : BitVec 2) (n : BitVec 9),
        let flit := fun (ty : Nat) (crc : Bool) => match ty with
          | 0 => Instr.idle p (some h) crc
          | 1 => .rdreq p h crc q
          | 2 => .rdrsp p h crc (tag, more) data
          | 3 => .wrreq p h crc q
          | 4 => .wrack p h crc tag
          | 5 => .atreq p h crc q
          | 6 => .atrsp p h crc tag st old
          | 7 => .xfer p h crc (qo, data)
          | 8 => .tsync p h crc old rtt
          | _ => .lctlNak p h crc seq
        let x := s.peer p.toNat
        (18 ≤ p.toNat ∨ x.st ≠ 2 → ∀ ty, exec (flit ty crc) s = .next s ∧ exec (.lctlCredit p h crc vc n) s = .next s)
          ∧ (p.toNat < 18 → x.st = 2 → ∀ ty, Ends (exec (flit ty false) s) (fun t =>
              (t.peer p.toNat).crcerr = (if x.crcerr = 0xFF then 0xFF else x.crcerr + 1) ∧ (t.peer p.toNat).rxSeq = x.rxSeq
                ∧ t.objs = s.objs ∧ t.mem = s.mem ∧ t.tether = s.tether))
          ∧ (Arrives s p 0 h → Ends (exec (.idle p (some h) true) s) (fun t => (t.peer p.toNat).rxSeq = x.rxSeq + 1
              ∧ (t.peer p.toNat).lastRx = s.now ∧ t.mem = s.mem))
          ∧ (p.toNat < 18 → x.st = 2 → x.txq = [] → 0 < x.credits.toList.getD 3 0 → x.replay.length < 512 →
              Ends (exec (.idle p none crc) s) (fun t => ∃ g, (t.peer p.toNat).sent = g :: x.sent ∧ hdrType g.hdr = 0 ∧ hdrAck g.hdr = x.rxSeq - 1))
          ∧ (18 ≤ p.toNat ∨ x.st ≠ 2 ∨ x.txq ≠ [] → exec (.idle p none crc) s = .next s)
          ∧ (Arrives s p 1 h → flitTypeOf q = 1 → exec (.rdreq p h true q) s = .next ((afterFlit s p 1 h).serveRemote (hdrSrc h) q))
          ∧ (Arrives s p 3 h → flitTypeOf q = 3 → exec (.wrreq p h true q) s = .next ((afterFlit s p 3 h).serveRemote (hdrSrc h) q))
          ∧ (Arrives s p 5 h → flitTypeOf q = 5 → exec (.atreq p h true q) s = .next ((afterFlit s p 5 h).serveRemote (hdrSrc h) q))
          ∧ (Arrives s p 7 h → flitTypeOf q = 7 → exec (.xfer p h true (some q, data)) s = .next ((afterFlit s p 7 h).serveRemote (hdrSrc h) q))
          ∧ (∀ r, s.remoteReq? tag = some r →
            (Arrives s p 2 h → exec (.rdrsp p h true (tag, false) data) s = .next ((afterFlit s p 2 h).readResponse r (r.got ++ data)))
              ∧ (Arrives s p 2 h → Ends (exec (.rdrsp p h true (tag, true) data) s) (fun t => t.mem = s.mem
                ∧ t.objs.reqs = s.objs.reqs.map fun q => if q.id = r.id then { q with got := q.got ++ data } else q))
              ∧ (∀ bs, r.kind = .wstore bs → Arrives s p 4 h → Ends (exec (.wrack p h true tag) s) (fun t =>
                (∀ q ∈ t.objs.reqs, q.id ≠ r.id) ∧ ∀ m ∈ t.objs.migrations, moveRun m.id = r.run → m.since = s.now))
              ∧ (∀ bs, r.kind = .rawLine bs → Arrives s p 4 h → Ends (exec (.wrack p h true tag) s) (fun t =>
                (∀ q ∈ t.objs.reqs, q.id ≠ r.id) ∧ ∀ m ∈ t.objs.migrations, moveRun m.id = r.run → m.since = s.now))
              ∧ (∀ a op, r.kind = .command a op → Arrives s p 4 h → exec (.wrack p h true tag) s = .next ((afterFlit s p 4 h).dropReq r))
              ∧ (Arrives s p 6 h → exec (.atrsp p h true tag st old) s = .next ((afterFlit s p 6 h).atomicResponse r st old)))
          ∧ (Arrives s p 7 h → x.collective.length < 512 → Ends (exec (.xfer p h true (none, data)) s) (fun t =>
              (t.peer p.toNat).collective = x.collective ++ [(BitVec.ofNat 10 (hdrSrc h), s.tether.toNat, data)]))
          ∧ (Arrives s p 8 h → s.isMaster = true → exec (.tsync p h true old rtt) s
              = .next ((afterFlit s p 8 h).sendFlit p.toNat 8 (hdrSrc h) (.tsync s.tether)))
          ∧ (Arrives s p 8 h → s.isMaster = false → s.links.tetherEn = true → hdrSrc h = s.links.master.toNat →
              Ends (exec (.tsync p h true old rtt) s) (fun t =>
                let est := old + BitVec.ofNat 64 (rtt.toNat / 2)
                let off := min (est - s.tether).toNat (s.tether - est).toNat
                t.tether = est ∧ t.links.lock = decide (off ≤ 4) ∧ t.links.skew = BitVec.ofNat 8 (min 255 off)))
          ∧ (s.links.tetherEn = false ∨ s.now < s.links.lastTsync + 1000 → exec .tsyncTimer s = .next s)
          ∧ (s.links.tetherEn = true → s.links.lastTsync + 1000 ≤ s.now → Ends (exec .tsyncTimer s) (fun t =>
              t.tether = s.tether ∧ t.mem = s.mem ∧ t.links.lastTsync = s.now ∧ ∀ n, n < 18 →
              (s.peer n).st = 2 → (s.peer n).txq = [] → (s.peer n).replay.length < 512 → 0 < (s.peer n).credits.toList.getD 3 0 →
                ∃ g, (t.peer n).sent = g :: (s.peer n).sent ∧ g.pay = .tsync s.tether))
          ∧ (Arrives s p 10 h → Ends (exec (.lctlNak p h true seq) s) (fun t =>
              (t.peer p.toNat).sent = (((afterFlit s p 10 h).peer p.toNat).replay.filter fun f => (hdrSeq f.hdr - seq).toNat < 512).reverse
                ++ ((afterFlit s p 10 h).peer p.toNat).sent))
          ∧ (Arrives s p 10 h → x.txq = [] → Ends (exec (.lctlCredit p h true vc n) s) (fun t =>
              (t.peer p.toNat).credits.toList.getD vc.toNat 0 = min 256 (x.credits.toList.getD vc.toNat 0 + n.toNat)))
          ∧ (x.st = 2 → x.lastRx + 2000 ≤ s.now → exec (.portRxTimeout p) s = .next (s.peerDown p.toNat 0 true))
          ∧ (x.st ≠ 2 ∨ s.now < x.lastRx + 2000 → exec (.portRxTimeout p) s = .next s)
          ∧ (∀ r, s.req? tag.toNat = some r →
            (r.remote = true → r.issued + 50000 ≤ s.now → exec (.requestTimeout tag) s = .next (s.linkTimeout r))
              ∧ (r.remote = false ∨ s.now < r.issued + 50000 → exec (.requestTimeout tag) s = .next s))
          ∧ (x.st = 1 → Ends (exec (.peerPortTrained p nbr) s) (fun t => (t.peer p.toNat).st = 2 ∧ (t.peer p.toNat).nbr = nbr
              ∧ (t.peer p.toNat).replays = 0 ∧ (t.peer p.toNat).crcerr = 0 ∧ (t.peer p.toNat).rxSeq = 0 ∧ (t.peer p.toNat).txSeq = 0
              ∧ (t.peer p.toNat).timeout = x.timeout ∧ (t.peer p.toNat).dis = x.dis ∧ (t.peer p.toNat).sent = x.sent)))

/-- R67, R68, R144: a member that cannot take part refuses a prepare, and else reserves a record, a core and a credit and
answers PREPARED; with the last PREPARED the coordinator chooses T and commits; a commit at or after T, or none for 100 µs,
releases the reservation; at T step 0 starts; a refusal or the deadline aborts before the start; a member silent for 50 µs is
aborted for, and a silent coordinator's task killed; the last DONE ends the gang, and 10 µs after an abort the present list is
written. -/
def Obligations.Gangs : Prop :=
  ∀ (s : State) (p : BitVec 5) (h : Word) (gid st rp pp : U16) (lr : List Word) (at_ : Word) (src pkg : BitVec 10),
    let src' := hdrSrc h
    let u := afterFlit s p 9 h
    let now := s.tether.toNat
    let rec_ := recOfList lr
    (Arrives s p 9 h →
      (∀ r, u.refusal rec_ = some r → exec (.gangPrepare p h true gid lr) s = .next (u.sendGang src' 2 gid r 0 0 0 []))
        ∧ (∀ n c, u.refusal rec_ = none → u.homeUnit rec_ = some n → u.memberCore rec_ = some c →
          Ends (exec (.gangPrepare p h true gid lr) s) (fun t => ∃ g, t.host.members = s.host.members ++ [g] ∧ g.core = c ∧ g.gid = gid
            ∧ g.src.toNat = src' ∧ g.peers = peersOfList lr ∧ g.commit = none ∧ g.task = none ∧ g.prepared = now))
        ∧ exec (.gangPrepared p h true gid) s = .next (u.gangPrepared src' gid)
        ∧ exec (.gangRefused p h true gid st) s = .next (u.gangRefused src' gid st)
        ∧ exec (.gangCommit p h true gid at_) s = .next (u.gangCommit src' gid at_)
        ∧ exec (.gangAbort p h true gid) s = .next (u.gangAbort src' gid)
        ∧ exec (.gangAlive p h true gid) s = .next (u.gangAlive src' gid)
        ∧ exec (.gangDone p h true gid st rp pp) s = .next (u.gangDone src' gid st rp pp))
      ∧ (∀ c, s.coord? gid = some c →
        (c.phase = 1 → (∀ m ∈ c.members, m.state = 1 ∨ (m.state = 0 ∧ m.pkg = src)) → ∃ d,
            (s.gangPrepared src.toNat gid).coord? gid = some d ∧ d.phase = 2 ∧ now + 8000 ≤ d.t ∧ d.t < now + 8064 ∧ d.t % 64 = 0)
          ∧ (c.phase = 1 → (s.gangRefused src.toNat gid st).coord? gid = none)
          ∧ (c.phase = 2 → st = 0 → (∀ m ∈ c.members, m.state = 3 ∨ m.pkg = src) → (s.gangDone src.toNat gid st rp pp).coord? gid = none)
          ∧ (c.phase = 2 → st ≠ 0 → ∃ d, (s.gangDone src.toNat gid st rp pp).coord? gid = some d ∧ d.phase = 3 ∧ d.abortAt = now)
          ∧ (c.phase = 1 → c.deadline ≤ now → exec (.gangPrepareDeadline gid) s = .next (s.abortBefore c 0x0030)
            ∧ (s.abortBefore c 0x0030).coord? gid = none)
          ∧ (now < c.deadline → exec (.gangPrepareDeadline gid) s = .next s)
          ∧ (c.phase = 2 → ∀ m, c.members.find? (fun m => m.pkg == pkg) = some m → m.state = 1 → max c.t m.lastHeard + 50000 ≤ now →
            Ends (exec (.gangMemberSilent gid pkg) s) (fun t => ∃ d, t.coord? gid = some d ∧ d.phase = 3 ∧ d.abortAt = now))
          ∧ (c.phase = 3 → c.abortAt + 10000 ≤ now →
            Ends (exec (.gangAbortCollect gid true) s) (fun t => t.coord? gid = none
              ∧ t.hostMem = mwrite s.hostMem c.present.toNat ((c.members.filter fun m => m.state == 4).flatMap fun m => toBytes 2 m.pkg.toNat))
            ∧ Ends (exec (.gangAbortCollect gid false) s) (fun t => t.coord? gid = none ∧ t.hostMem = s.hostMem)))
      ∧ (∀ g, s.member? src gid = some g →
        (g.commit = none → at_.toNat ≤ now → s.gangCommit src.toNat gid at_ = s.releaseMember g)
          ∧ (g.commit = none → now < at_.toNat → ∃ x, (s.gangCommit src.toNat gid at_).member? src gid = some x ∧ x.commit = some at_.toNat)
          ∧ (g.commit = none → g.prepared + 100000 ≤ now → exec (.gangCommitWaitTimeout src gid) s = .next (s.releaseMember g))
          ∧ (now < g.prepared + 100000 → exec (.gangCommitWaitTimeout src gid) s = .next s)
          ∧ (∀ t, g.task = some t → g.lastAlive + 50000 ≤ now →
            (g.over_ = false → exec (.gangCoordinatorSilent src gid) s = .next (s.killTask t 0x0031 0))
              ∧ (g.over_ = true → exec (.gangCoordinatorSilent src gid) s = .next ((s.dropMember src gid).dropCredits (lrCq g.lr) 1)))
          ∧ (∀ t, g.task = some t → g.silent = false → s.gangAbort src.toNat gid
            = (s.killTask t 0x0030 0).sendGang src.toNat 6 gid 0x0030 0 0 0 [])
          ∧ (g.task = none → s.gangAbort src.toNat gid = (s.releaseMember g).sendGang src.toNat 6 gid 0x0030 0 0 0 [])
          ∧ (∀ t, g.task = some t → g.silent = true → s.gangAbort src.toNat gid = s)
          ∧ (∀ t id b k, g.commit = some t → s.memberTask g = some id → s.freeBank g.core = some b → s.task? id = some k →
            (now < t → exec (.gangStartT src gid) s = .next s)
              ∧ (t ≤ now → g.task = none → k.loaded = true → s.dispatches = true → k.killed = none → ∀ v w q,
                v = s.mapMember src gid (fun g => { g with task := some id, lastAlive := now, lastSent := now }) →
                v.handOut id k [] = .step w q → exec (.gangStartT src gid) s = .next (w.beginStep g.core b id q))))
      ∧ (s.host.members = [] → s.host.coords = [] → exec .gangAliveTimer s = .next s)
      ∧ (∀ g, s.host.members = [g] → s.host.coords = [] → g.task.isSome = true → g.over_ = false → g.silent = false → g.lastSent + 10000 ≤ now →
          exec .gangAliveTimer s = .next ((s.mapMember g.src g.gid fun g => { g with lastSent := now }).sendGang g.src.toNat 5 g.gid 0 0 0 0 []))

/-! ### Requests at their home -/

/-- R213, R215, R226, R227, R339 to R345, R441: what a request of this package does where its element lies. A weak store
writes its bytes, a weak load gives its value; a strong store writes, a strong load reads, an atomic writes Table 14-3 and
answers the old value, a CAS writes only on a match; PUB adds 1 to VERSION, OPENV gives its task the draft once no other
task holds it (an object with replicas brings them level first); a CASC joins the waiting list of its slice, compares when it gets a Spout entry, and is answered after 4,096
cycles if it gets none. -/
def Obligations.SliceAccesses : Prop :=
  ∀ (s : State) (id : U32) (r : Req) (ch : Choices) (sl : Byte), s.req? id.toNat = some r → r.remote = false → r.far = false → s.blocked r = false →
    r.place.pkg = s.pkg → hasStorage r.place.pa = true → s.nearbankHolds r.place.pa true = false → s.nearbankHolds r.place.pa false = false →
    let p := r.place
    let old := s.codeAt p
    let stored := fun (v : Nat) (t : State) => t.mem = ((s.writeCode r.writer p v).dropReq r).mem ∧ t.req? id.toNat = none
    let lands := fun (f : Ctx → Ctx) (t : State) => ∀ c x q, r.who = .core c x → (s.bank c.toNat r.bank).run = some q → q.id = r.run →
      (t.bank c.toNat r.bank).ctx x = f ((s.bank c.toNat r.bank).ctx x)
    (∀ d sg acq, r.kind = .sload d sg acq →
      Ends (exec (.sliceStrongAccess id) s) (fun t => t.mem = (s.dropReq r).mem ∧ t.req? id.toNat = none ∧ lands (Ctx.landS d (extend sg old p.width)) t))
      ∧ (∀ v rel, r.kind = .sstore v rel → (rel = true → s.released r = true) → Ends (exec (.sliceStrongAccess id) s) (stored v.toNat))
      ∧ (∀ v, r.kind = .sstore v true → s.released r = false → exec (.sliceStrongAccess id) s = .next s)
      ∧ (∀ w op v d, r.kind = .atomic w op v (some d) → Ends (exec (.sliceStrongAccess id) s) (fun t =>
          stored (atomResult p.width op.toNat old (v.toNat % 2 ^ p.width)) t ∧ lands (Ctx.landS d (BitVec.ofNat 64 old)) t))
      ∧ (∀ op v d, r.kind = .fatomic op v d → Ends (exec (.sliceStrongAccess id) s) (fun t => stored (fatomResult op.toNat old v.toNat).1 t
          ∧ ((fatomResult op.toNat old v.toNat).2 = true → (t.slice (sliceOf p.pa)).inv = true)))
      ∧ (∀ w x n d pd, r.kind = .cas w x n d pd →
        (old = x.toNat % 2 ^ p.width → Ends (exec (.sliceStrongAccess id) s) (fun t => stored n.toNat t
            ∧ lands (fun c => Ctx.landP pd true (Ctx.landS d (BitVec.ofNat 64 old) c)) t))
          ∧ (old ≠ x.toNat % 2 ^ p.width → Ends (exec (.sliceStrongAccess id) s) (fun t => t.mem = (s.dropReq r).mem
            ∧ lands (fun c => Ctx.landP pd false (Ctx.landS d (BitVec.ofNat 64 old) c)) t)))
      ∧ (∀ item x d, r.kind = .seqq item x d → Ends (exec (.sliceStrongAccess id) s) (fun t => t.mem = (s.dropReq r).mem
          ∧ lands (Ctx.landS d (s.seqQuery p.handle (s.entryInMem (hIndex p.handle)) item.toNat x.toNat)) t))
      ∧ (∀ d, r.kind = .verq d → Ends (exec (.sliceStrongAccess id) s) (fun t => t.mem = (s.dropReq r).mem
          ∧ lands (Ctx.landS d ((s.versionAt (hIndex p.handle)).setWidth 64)) t))
      ∧ (∀ d sg rd, r.kind = .wload d sg rd → p.leafPa ≠ 0 → s.cxlGoes r = true → Ends (exec (.memoryRequestComplete id ch) s) (fun t =>
          t.req? id.toNat = none
          ∧ lands (Ctx.landS d (extend sg (codeOfBytes p (s.weakLoad r.asker (s.entryAny r.unit p.handle) p rd.toNat ch).2.1) p.width)) t))
      ∧ (p.leafPa ≠ 0 → s.cxlGoes r = false → exec (.memoryRequestComplete id ch) s = .next s)
      ∧ (∀ bs, r.kind = .wstore bs → p.leafPa ≠ 0 → s.cxlGoes r = true →
          (512 ≤ p.width ∨ s.inBasin r.asker p.handle (s.entryAny r.unit p.handle) p.va.toNat = false) →
          Ends (exec (.memoryRequestComplete id ch) s) (fun t =>
            t.mem = ((s.perform p.handle r.writer ((p.pa : Int) - p.va.toNat) bs).dropReq r).mem ∧ t.req? id.toNat = none))
      ∧ (r.kind = .pub →
        (s.pubReady r = false → exec (.pubEffect id) s = .next s)
          ∧ (s.pubReady r = true → (eReps (s.entryInMem (hIndex p.handle)) = 1 ∨ r.floor ≠ 0) → p.leafPa = 0 → Ends (exec (.pubEffect id) s) (fun t =>
            t.versionAt (hIndex p.handle) = s.versionAt (hIndex p.handle) + 1))
          ∧ (s.pubReady r = true → eReps (s.entryInMem (hIndex p.handle)) ≠ 1 → r.floor = 0 → Ends (exec (.pubEffect id) s) (fun t =>
            t.mem = s.mem ∧ t.objs.drafts = s.objs.drafts)))
      ∧ (r.kind = .openv →
        (s.canOpen (s.verOf p.handle) r.task = false → exec (.draftOpen id) s = .next s ∧ exec (.sliceStrongAccess id) s = .next s)
          ∧ (s.canOpen (s.verOf p.handle) r.task = true → Ends (exec (.draftOpen id) s) (fun t =>
            (tfind t.objs.drafts (objKey p.handle)).any (fun d => d.task == r.task) = true ∧ exec (.draftOpen id) s = exec (.sliceStrongAccess id) s)))
      ∧ (∀ w x n d e t', r.kind = .casc w x n d e t' →
        (s.released r = false → exec (.cascArrival id) s = .next s)
          ∧ (s.released r = true → (∀ y ∈ (s.slice (sliceOf p.pa)).waiting, y.req ≠ r.id) → (s.slice (sliceOf p.pa)).waiting.length < 512 →
            Ends (exec (.cascArrival id) s) (fun t => t.mem = s.mem
              ∧ (t.slice (sliceOf p.pa)).waiting = (s.slice (sliceOf p.pa)).waiting ++ [{ req := r.id, arrived := s.cycle }]))
          ∧ (∀ y rest, (s.slice sl.toNat).waiting = y :: rest → y.req = r.id →
            (s.cycle ≤ y.arrived + 4096 → (s.slice sl.toNat).spout.length < 64 →
              (old = x.toNat % 2 ^ p.width → Ends (exec (.spoutGrant sl) s) (fun t => stored n.toNat t
                  ∧ (t.slice sl.toNat).waiting = rest ∧ (t.slice sl.toNat).spout.length = (s.slice sl.toNat).spout.length + 1))
                ∧ (old ≠ x.toNat % 2 ^ p.width → Ends (exec (.spoutGrant sl) s) (fun t => t.mem = (s.dropReq r).mem
                  ∧ (t.slice sl.toNat).waiting = rest ∧ (t.slice sl.toNat).spout = (s.slice sl.toNat).spout)))
              ∧ (64 ≤ (s.slice sl.toNat).spout.length → exec (.spoutGrant sl) s = .next s)
              ∧ (y.arrived + 4096 ≤ s.cycle → Ends (exec (.cascHoldTimeout sl) s) (fun t => t.mem = (s.dropReq r).mem
                ∧ (t.slice sl.toNat).waiting = rest))
              ∧ (s.cycle < y.arrived + 4096 → exec (.cascHoldTimeout sl) s = .next s)))

/-- R87, R206 to R209, R345, R363, R429: the end of an object-cache fill puts the entry in the cache of its unit, and one whose CRC fails
twice makes the object LOST; the end of a walk puts the leaf in the TLB, or fails the requests that had joined it; a launch of the Spout
that cannot be made is recorded; a near-bank command holds its segments, and gives them up when it completes; a retired block that no
request pins is freed. That an unused entry of zeros passes is the model's choice (log entry 26). -/
def Obligations.UnitEvents : Prop :=
  ∀ (s : State) (u : BitVec 6) (h : Word) (va : BitVec 52) (sl : Byte) (f : BitVec 9) (b : BitVec 1) (n : BitVec 5) (blk : BitVec 14),
    let x := s.hunit u.toNat
    let e := s.entryInMem (hIndex h)
    (∀ y, x.fills.find? (fun y => objKey y.handle == objKey h) = some y → y.stale = false →
      let rest := { x with fills := x.fills.filter fun z => objKey z.handle ≠ objKey h }
      (hHome h = s.pkgNo → entryCrcOk e = true ∨ entryBlank e = true →
          exec (.objectCacheFill u h) s = .next ((s.setHunit u.toNat rest).installEntry u.toNat h (e.set 1 0)))
        ∧ (hHome h ≠ s.pkgNo → y.remote = none → exec (.objectCacheFill u h) s = .next s)
        ∧ (∀ w, hHome h ≠ s.pkgNo → y.remote = some w → entryCrcOk w = true →
          exec (.objectCacheFill u h) s = .next ((s.setHunit u.toNat rest).installEntry u.toNat h w))
        ∧ (hHome h = s.pkgNo → entryCrcOk e = false → entryBlank e = false → y.retried = false → Ends (exec (.objectCacheFill u h) s) (fun t =>
          t.mem = s.mem ∧ (t.hunit u.toNat).cache = x.cache ∧ (t.hunit u.toNat).fills.length = x.fills.length))
        ∧ (hHome h = s.pkgNo → entryCrcOk e = false → entryBlank e = false → y.retried = true → Ends (exec (.objectCacheFill u h) s) (fun t =>
          t.host.errstat.getLsbD 1 = true ∧ t.host.errstat.getLsbD 6 = true
          ∧ ((∀ q, s.cq 0 = some q → s.objAddr (hIndex h) + 128 ≤ q.base ∨ q.base + 1048576 ≤ s.objAddr (hIndex h)) →
            eState (t.entryInMem (hIndex h)) = 2))))
      ∧ (x.fills = [] → exec (.objectCacheFill u h) s = .next s)
      ∧ (x.walks = [] → exec (.pageWalkComplete u va) s = .next s)
      ∧ (∀ w, x.walks.find? (fun w => w.va == va && (w.far.isNone || w.answer.isSome)) = some w → w.stale = false →
        let rest := { x with walks := x.walks.filter fun z => !(z.va == va && z.far == w.far) }
        (∀ a l large, w.answer = none → s.walkTables va.toNat = .ok (a, l, large) → exec (.pageWalkComplete u va) s
            = .next ((s.setHunit u.toNat rest).installTlb u.toNat va.toNat a l large w.far))
          ∧ (∀ l large, w.answer = some (0, l, large) → exec (.pageWalkComplete u va) s
            = .next ((s.setHunit u.toNat rest).installTlb u.toNat va.toNat 0 l large w.far))
          ∧ (∀ level, w.answer = none → s.walkTables va.toNat = .error level →
            (w.joined = [] → exec (.pageWalkComplete u va) s = .next (s.setHunit u.toNat rest))
            ∧ (∀ y c z, w.joined = [y] → y.who = .core c z → (∀ q ∈ (s.bank c.toNat y.bank).lq, q.ord ≠ y.ord) →
              exec (.pageWalkComplete u va) s = .next ((s.setHunit u.toNat rest).raise c.toNat y.bank y.source y.fpc (s.waiterTask y)
                { cause := Cause.objMissing, path := pathCode y.path, level := BitVec.ofNat 4 level, handle := y.handle, idx := y.idx
                  va := y.va }))))
      ∧ (∀ y rest, (s.slice sl.toNat).spout = y :: rest → Here s [y.template] →
        (s.known y.template = none → exec (.spoutLaunchTaken sl) s = .next (s.launchFault sl.toNat y 1))
          ∧ (∀ e v, s.known y.template = some e → Here s [tDefparam e] →
            (eKind e ≠ 2 → exec (.spoutLaunchTaken sl) s = .next (s.launchFault sl.toNat y 4))
              ∧ (eKind e = 2 → hasRight e y.world.toNat rightL = false → exec (.spoutLaunchTaken sl) s = .next (s.launchFault sl.toNat y 2))
              ∧ (let lr := spoutRecord y e
                 eKind e = 2 → hasRight e y.world.toNat rightL = true → lrParam lr = 0 → s.homeUnit lr = some v →
                (s.freeRecords v = 0 → exec (.spoutLaunchTaken sl) s = .next s)
                ∧ (s.freeRecords v ≠ 0 → (s.cq (lrCq lr)).isNone = true ∨ s.cqFree (lrCq lr) < lrNeeds lr →
                  exec (.spoutLaunchTaken sl) s = .next (s.launchFault sl.toNat y 5))
                ∧ (s.freeRecords v ≠ 0 → (s.cq (lrCq lr)).isSome = true → lrNeeds lr ≤ s.cqFree (lrCq lr) → exec (.spoutLaunchTaken sl) s
                  = .next (((s.setSlice sl.toNat { s.slice sl.toNat with spout := rest }).takeCredits (lrCq lr) (lrNeeds lr)).accept v lr
                      (fun k => { k with viaCasc := true }) none).1))
              ∧ (s.homeUnit (spoutRecord y e) = some v → s.freeRecords v = 0 → y.forwarded + 4096 ≤ s.cycle →
                exec (.spoutNoRecord sl) s = .next (s.launchFault sl.toNat y 3))
              ∧ (s.homeUnit (spoutRecord y e) = some v → s.freeRecords v ≠ 0 → exec (.spoutNoRecord sl) s = .next s)
              ∧ (s.cycle < y.forwarded + 4096 → exec (.spoutNoRecord sl) s = .next s)))
      ∧ ((s.slice sl.toNat).spout = [] → exec (.spoutLaunchTaken sl) s = .next s ∧ exec (.spoutNoRecord sl) s = .next s)
      ∧ (∀ c, s.nbAt f.toNat b n.toNat = some c →
        (c.started = false → s.nbFree f.toNat b c = true → c.nbLeaves = [] → Ends (exec (.nearbankStart f b n) s) (fun t =>
            t.mem = s.mem ∧ (t.bank f.toNat b).xq = ((s.bank f.toNat b).mapCmd .XQ c.ser fun c => { c with started := true }).xq))
          ∧ (s.nbFree f.toNat b c = false → exec (.nearbankStart f b n) s = .next s)
          ∧ (c.started = false ∨ s.nbRecalling c = true → exec (.nearbankComplete f b n) s = .next s)
          ∧ (c.started = true → s.nbRecalling c = false → exec (.nearbankComplete f b n) s = .next (s.nbFinish f.toNat b c)))
      ∧ (hHome h = s.pkgNo → (objKey h, blk.toNat) ∈ s.objs.attnFree → (∀ p ∈ s.spanPins h, p.blk ≠ blk.toNat) → s.blkLeaf e blk.toNat = none →
          ∃ t : State, t.objs.attnFree = s.objs.attnFree.filter (fun y => !(y.1 == objKey h && y.2 == blk.toNat)) ∧ t.mem = s.mem
            ∧ exec (.pinReleaseFree h blk) s = .next (t.seqFree h e { run := 0, task := 0, path := .A, ord := 0 } blk.toNat))
      ∧ ((∃ p ∈ s.spanPins h, p.blk = blk.toNat) → exec (.pinReleaseFree h blk) s = .next s)

/-- R87 to R95, R118, R119, R257: a segment in migration is copied once no access to it is in flight and no copy of its lines is being
recalled, and then mapped at its new frame; the least recently used segment that qualifies is demoted, and where none ever qualifies the
faulting task is killed; a handover passes its key, its bytes, REBIND and CONFIRM, is aborted when a step is not answered within 1 ms,
and is lost 5 ms after REBIND; access bits are sampled every 1 ms; a scrub changes nothing. -/
def Obligations.Migrations : Prop :=
  ∀ (s : State) (id : U32) (m : Migration) (sl : Byte) (pfn : U32) (f : BitVec 9) (b : BitVec 1), s.migration? id.toNat = some m →
    let leaf := s.leafNow m.leafPa
    let now := s.tether.toNat
    let home := hHome m.handle = s.pkgNo
    let copying := ∃ q ∈ s.objs.reqs, q.run = moveRun m.id
    (m.phase = 1 → leafBusy leaf ≠ 0 ∨ s.recallOpen m.va.toNat m.size = true → exec (.migrationBusyZero id) s = .next s)
      ∧ (m.phase = 1 → leafBusy leaf = 0 → s.recallOpen m.va.toNat m.size = false →
        (m.pkg = s.pkg → Ends (exec (.migrationBusyZero id) s) (fun t => t.migration? id.toNat = some { m with phase := 2, since := s.now }
            ∧ t.mem = s.mem ∧ (leafTier leaf = 3 → ∃ c ∈ (t.flashPort (leafPort leaf)).cmds ++ (t.flashPort (leafPort leaf)).waiting,
              c.cid = m.id % 32768 ∧ c.op = .read)))
          ∧ (m.pkg ≠ s.pkg → hWorld m.handle ≠ 0 → exec (.migrationBusyZero id) s
            = .next ((s.putMigration { m with phase := 3, since := s.now }).sendHand m.pkg.toNat 11 m.handle m.args))
          ∧ (m.pkg ≠ s.pkg → hWorld m.handle = 0 → exec (.migrationBusyZero id) s
            = .next ((s.putMigration { m with phase := 4, since := s.now }).sendSegment m)))
      ∧ (m.phase ≠ 1 → exec (.migrationBusyZero id) s = .next s)
      ∧ (m.phase = 2 → leafTier leaf ≠ 3 ∨ (s.flashPort (leafPort leaf)).nvmeOpen (m.id % 32768) = false →
          hasStorage (frameBase m.tier.toNat 0 m.pfn.toNat) = true →
          exec (.migrationCopyDone id) s = .next (s.moveHere m) ∧ (s.moveHere m).migration? id.toNat = none)
      ∧ (m.phase = 2 → leafTier leaf = 3 → (s.flashPort (leafPort leaf)).nvmeOpen (m.id % 32768) = true →
          exec (.migrationCopyDone id) s = .next s)
      ∧ (m.phase ≠ 2 → exec (.migrationCopyDone id) s = .next s)
      ∧ (m.phase = 3 → exec (.handoverKeyxferAnswer id true) s = .next ((s.putMigration { m with phase := 4, since := s.now }).sendSegment m)
          ∧ exec (.handoverKeyxferAnswer id false) s = .next (s.abortMove m))
      ∧ (m.phase = 4 → Ends (exec (.handoverDataok id) s) (fun t => t.migration? id.toNat = some { m with phase := 5, since := now }))
      ∧ (m.phase ≠ 4 → exec (.handoverDataok id) s = .next s)
      ∧ (home → m.phase = 5 → Ends (exec (.handoverConfirm id) s) (fun t => t.migration? id.toNat = none))
      ∧ (home → m.phase = 5 → m.since + 5000000 ≤ now → exec (.handoverConfirm id) s
          = .next (((s.handoverLost m).dropMigration m).sendHand m.pkg.toNat 6 m.handle m.args))
      ∧ (home → m.phase = 6 → Ends (exec (.handoverConfirm id) s) (fun t => t.migration? id.toNat = none ∧ t.mem = s.mem))
      ∧ (¬ home ∨ (m.phase ≠ 5 ∧ m.phase ≠ 6) → exec (.handoverConfirm id) s = .next s)
      ∧ (m.phase = 7 ∨ m.phase = 3 ∧ m.since + 1000000 ≤ s.now ∨ m.phase = 4 ∧ ¬ copying ∧ m.since + 1000000 ≤ s.now →
          exec (.handoverStepTimeout id) s = .next (s.abortMove m) ∧ (s.abortMove m).migration? id.toNat = none)
      ∧ (m.phase ≠ 7 → s.now < m.since + 1000000 ∨ m.phase = 4 ∧ copying → exec (.handoverStepTimeout id) s = .next s)
      ∧ (m.phase = 5 → home →
        (m.since + 5000000 ≤ now → Ends (exec (.handoverTimeout id) s) (fun t => t.migration? id.toNat = some { m with phase := 6 }))
          ∧ (now < m.since + 5000000 → exec (.handoverTimeout id) s = .next s))
      ∧ (m.phase ≠ 5 ∨ ¬ home → exec (.handoverTimeout id) s = .next s)
      ∧ (∀ (va : BitVec 52) l (al : Alloc), s.mapDue va.toNat = none → exec (.handoverRebind va l al) s = .next s)
      ∧ (∀ (va : BitVec 52) l (al : Alloc) size h y, s.mapDue va.toNat = some (size, h, y) →
        let fits := leafTier l ≠ 3 ∧ s.tabsOk [va.toNat] al.tabs = true ∧ s.framesOk (leafTier l) (size == 2097152) [leafPfn l] = true
          ∧ (leafTier l = 0 → s.modeOk (eCompute (s.entryHere h) || eLayout (s.entryHere h) == 2) (leafPfn l) = true)
        (fits → hasStorage (frameBase (leafTier l) 0 (leafPfn l)) = true → Ends (exec (.handoverRebind va l al) s) (fun t =>
            (∀ z ∈ t.objs.stash, z.1 < va.toNat ∨ va.toNat + size ≤ z.1) ∧ (∀ z ∈ t.objs.incoming, z.va ≠ va.toNat)))
          ∧ (¬ fits → exec (.handoverRebind va l al) s = .next s))
      ∧ (∀ (va : BitVec 52) h e a l large, s.objectAt va.toNat = some (h, e) → s.walkTables va.toNat = .ok (a, l, large) →
        let page := va.toNat / ePage e * ePage e
        (s.qualifies h e page l = false ∨ s.framesOk (leafTier l + 1) large [pfn.toNat] = false → exec (.eviction va (pfn, none)) s = .next s)
          ∧ (s.qualifies h e page l = true → (∀ y, s.usedAt page ≤ s.usedAt y) → s.framesOk (leafTier l + 1) large [pfn.toNat] = true →
            exec (.eviction va (pfn, none)) s = .next (s.startMove h page a large (leafTier l + 1) s.pkgNo pfn.toNat .evict)))
      ∧ (∀ (va : BitVec 52) fi h e, (s.bank f.toNat b).fault = some fi → (s.bank f.toNat b).st = .parked → fi.cause = Cause.objMissing →
        s.objectAt fi.va.toNat = some (h, e) →
        (s.framesLeft 0 (eLarge e) (eCompute e || eLayout e == 2) = 0 → s.mayQualify 0 = false →
            exec (.eviction va (pfn, some (f, b))) s = .next (s.killParked f.toNat b fi Cause.objNoSpace))
          ∧ (s.mayQualify 0 = true → exec (.eviction va (pfn, some (f, b))) s = .next s))
      ∧ (now < s.objs.lastSampleNs + 1000000 → exec .accessBitSample s = .next s)
      ∧ (s.objs.lastSampleNs + 1000000 ≤ now → Ends (exec .accessBitSample s) (fun t => t.objs.samples = s.objs.samples + 1
          ∧ t.objs.lastSampleNs = now ∧ (∀ y ∈ t.objs.units, ∀ z ∈ y.2.tlb, z.access = false) ∧ t.mem = s.mem))
      ∧ exec (.memoryScrub sl) s = .next s

/-! ### The security service -/

/-- R108, R112 to R117: a request that is published odd is started, and one that is published again before that is answered
BUSY; one that was started is carried out and answered. WCREATE loads a key whose check passes into a world that has none;
WDESTROY erases the key of a world that is not in use; KEYXFER accepts the same key again; KEYGEN makes a new signature key after
exhaustion alone; ATTEST needs a certificate and reserves a signature index; a lockstep mismatch ends the request with
SEC_FAULT, and the rest of the block of signature indices in use goes. -/
def Obligations.SecurityService : Prop :=
  ∀ (s : State) (r bs : List Byte) (kw : List Byte),
    let w := (reqWorld r).toNat
    let done := fun (f : List Byte → State → State × Nat × List Byte) =>
      (Host.Outcome.next ((f r s).1.respond (reqNumber r) (f r s).2.1 (f r s).2.2) : Host.Outcome State Fault Refusal)
    let started : Host.Outcome State Fault Refusal := .next { s with sec := { s.sec with request := some r } }
    let answered := fun (st : Nat) => (Host.Outcome.next (s.respond (reqNumber r) st []) : Host.Outcome State Fault Refusal)
    let idle := s.ready = false ∨ s.sec.request = none ∧ s.versionAt 1 = s.sec.answered
    let asked := s.ready = true ∧ s.sec.request = none ∧ s.versionAt 1 ≠ s.sec.answered ∧ s.svcRead 0 4096 = some r
    let runs := s.ready = true ∧ s.sec.request = some r ∧ s.sec.faulted = false ∧ s.svcRead 0 8 = some bs
    let first := fun (i : Instr) => exec i s = (if (s.versionAt 1).getLsbD 0 then started else answered 8)
    (idle → exec .attest s = .next s ∧ exec .wcreate s = .next s ∧ exec .wdestroy s = .next s ∧ exec .keygen s = .next s
        ∧ exec .certset s = .next s ∧ exec .keyxfer s = .next s)
      ∧ (asked → (reqOpc r = 1 → first .attest) ∧ (reqOpc r = 2 → first .wcreate) ∧ (reqOpc r = 3 → first .wdestroy)
          ∧ (reqOpc r = 4 → first .keygen) ∧ (reqOpc r = 5 → first .certset) ∧ (reqOpc r = 6 → first .keyxfer))
      ∧ (runs → (reqOpc r = 1 → exec .attest s = done attestReport) ∧ (reqOpc r = 2 → exec .wcreate s = done worldCreate)
          ∧ (reqOpc r = 3 → exec .wdestroy s = done worldDestroy) ∧ (reqOpc r = 4 → exec .keygen s = done keyGenerate)
          ∧ (reqOpc r = 5 → exec .certset s = done certInstall) ∧ (reqOpc r = 6 → exec .keyxfer s = done keyTransfer)
          ∧ (reqOpc r = 0 ∨ 6 < reqOpc r → exec .attest s = answered 1))
      ∧ (∀ u st body, ((u : State).respond (reqNumber r) st body).sec.request = none)
      ∧ (w = 0 → worldCreate r s = (s, 1, []) ∧ worldDestroy r s = (s, 1, []) ∧ keyTransfer r s = (s, 1, []))
      ∧ (w ≠ 0 → s.unwrap r = (kw, true) → tfind s.sec.keys w = none → (worldCreate r s).2.1 = 0
          ∧ tfind (worldCreate r s).1.sec.keys w = some kw ∧ tfind (worldCreate r s).1.sec.engineKeys w = some kw)
      ∧ (w ≠ 0 → (tfind s.sec.keys w).isSome = true → worldCreate r s = (s, 2, []))
      ∧ (w ≠ 0 → (s.unwrap r).2 = false → tfind s.sec.keys w = none → worldCreate r s = (s, 5, []) ∧ keyTransfer r s = (s, 5, []))
      ∧ (w ≠ 0 → s.unwrap r = (kw, true) → tfind s.sec.keys w = some kw → keyTransfer r s = (s, 0, []))
      ∧ (w ≠ 0 → tfind s.sec.keys w = none → worldDestroy r s = (s, 3, []))
      ∧ (w ≠ 0 → (tfind s.sec.keys w).isSome = true → s.worldInUse w = true → worldDestroy r s = (s, 4, []))
      ∧ (w ≠ 0 → (tfind s.sec.keys w).isSome = true → s.worldInUse w = false → (worldDestroy r s).2.1 = 0
          ∧ tfind (worldDestroy r s).1.sec.keys w = none ∧ tfind (worldDestroy r s).1.sec.engineKeys w = none)
      ∧ (s.sec.exhausted = false → keyGenerate r s = (s, 1, []))
      ∧ (s.sec.exhausted = true → (keyGenerate r s).1.sec.exhausted = false ∧ (keyGenerate r s).1.sec.cert = none
          ∧ (keyGenerate r s).1.sec.nextIdx = 0 ∧ (keyGenerate r s).2.1 = 0)
      ∧ (s.sec.exhausted = false → s.sec.cert = none → attestReport r s = (s, 7, []))
      ∧ (s.sec.exhausted = false → s.sec.cert.isSome = true → s.sec.nextIdx < 2 ^ 40 → s.sec.nextIdx < s.sec.nextRes →
          (attestReport r s).2.1 = 0 ∧ (attestReport r s).1.sec.nextIdx = s.sec.nextIdx + 1 ∧ (attestReport r s).1.sec.keys = s.sec.keys)
      ∧ (s.sec.exhausted = true → s.sec.cert.isSome = true → (attestReport r s).2.1 = 6)
      ∧ (s.sec.request = none → Ends (exec .securityLockstepMismatch s) (fun t => t.sec.request = none ∧ t.sec.keys = s.sec.keys
          ∧ t.sec.nextIdx = s.sec.nextRes ∧ t.host.errstat.getLsbD 1 = true ∧ MemoryBut s t 0))
      ∧ (s.sec.request = some r → s.svcRead 0 8 = some bs → Ends (exec .securityLockstepMismatch s) (fun t => t.sec.request = none
          ∧ t.sec.keys = s.sec.keys ∧ t.sec.nextIdx = s.sec.nextRes ∧ t.host.errstat.getLsbD 1 = true))
      ∧ (s.sec.request = some r → s.svcRead 0 8 = none → Ends (exec .securityLockstepMismatch s) (fun t => t.sec.request = some r
          ∧ t.sec.faulted = true ∧ t.sec.nextIdx = s.sec.nextRes ∧ t.host.errstat.getLsbD 1 = true))
      ∧ (s.ready = true → s.sec.request = some r → s.sec.faulted = true → s.svcRead 0 8 = some bs → reqOpc r = 2 →
          exec .wcreate s = answered 9)

/-! ### The scheduler -/

/-- R121, R124 to R131, R138 to R143, R149, R150, R184: dispatch gives a free core the next step of the first item, whose
contexts start with the task's arguments, the indices and the step number; a bank that changes owner is zeroed before it runs;
ageing raises EPRIO; pre-emption discards a step and returns it to its task; gathering holds cores until all that are needed are
there, and is given up when a task of higher EPRIO waits. -/
def Obligations.Dispatching : Prop :=
  ∀ (s : State) (f : BitVec 9) (b : BitVec 1) (ch : Choices) (task : Word) (k : Task),
    let c := s.core f.toNat
    let near := ∀ y ∈ s.allTasks, Here s [lrTemplate y.2.lr]
    (s.dispatches = false ∨ s.freeBank f.toNat = none → exec (.stepDispatch f ch) s = .next s)
      ∧ (f.toNat < 320 → s.freeBank f.toNat = some b → s.dispatches = true → (∀ g ∈ s.sched.grants, g.1 ≠ f.toNat) → near →
        (s.bestItem f.toNat b = none → exec (.stepDispatch f ch) s = .next s)
          ∧ ∀ x u q, s.bestItem f.toNat b = some x → s.askTemplate (lrTemplate x.2.lr) = (s, true) →
            (s.gathers x = false → s.handOut x.1 x.2 ch = .step u q → exec (.stepDispatch f ch) s = .next (u.beginStep f.toNat b x.1 q))
              ∧ (s.gathers x = true → s.sched.gather = none → Ends (exec (.stepDispatch f ch) s) (fun t => t.cores = s.cores
                ∧ ∃ m, t.sched.gather = some { task := x.1, held := [(f.toNat, m)], higherSince := none })))
      ∧ (∀ q, s.task? task = some k →
        (((s.beginStep f.toNat b task q).bank f.toNat b).st = .running ∧ (s.beginStep f.toNat b task q).mem = s.mem
          ∧ ∃ r, ((s.beginStep f.toNat b task q).bank f.toNat b).run = some r ∧ r.task = task ∧ r.step = q.step ∧ r.held = true
            ∧ r.committed = false ∧ r.world.toNat = lrWorld k.lr % 256)
          ∧ (let x := ((s.beginStep f.toNat b task q).bank f.toNat b).C
            x.getS 22 = lrArg0 k.lr ∧ x.getS 23 = lrArg1 k.lr ∧ x.getS 30 = q.step.setWidth 64 ∧ x.getS 31 = q.tileRec ∧ x.getS 0 = 0))
      ∧ (∀ r, (s.bank f.toNat b).run = some r →
        ((s.bank f.toNat b).st ≠ .running ∨ r.held = false ∨ (s.bank f.toNat b).queuesEmpty r.boundary = false →
            exec (.stepBoundaryRelease f b) s = .next s)
          ∧ ((s.bank f.toNat b).st = .running → r.held = true → (s.bank f.toNat b).queuesEmpty r.boundary = true →
            Ends (exec (.stepBoundaryRelease f b) s) (fun t => (∃ p, (t.bank f.toNat b).run = some p ∧ p.held = false ∧ p.task = r.task)
              ∧ (t.bank f.toNat b).owner = (r.task, r.world)
              ∧ ((s.bank f.toNat b).owner ≠ (r.task, r.world) → (t.bank f.toNat b).vregs = [] ∧ (t.bank f.toNat b).accs = []
                ∧ (t.bank f.toNat b).scratch = [] ∧ (t.bank f.toNat b).basin = [])
              ∧ ((s.bank f.toNat b).owner = (r.task, r.world) → (t.bank f.toNat b).vregs = (s.bank f.toNat b).vregs
                ∧ (t.bank f.toNat b).scratch = (s.bank f.toNat b).scratch ∧ t.mem = s.mem))))
      ∧ (s.task? task = some k → k.isItem = true → Ends (exec (.agingStep task) s) (fun t => ∃ k', t.task? task = some k'
          ∧ k'.eprio.toNat = s.eprioNow k ∧ k'.st = k.st ∧ k'.lr = k.lr))
      ∧ (s.dispatches = false → exec (.preemptGrace task) s = .next s)
      ∧ (s.task? task = some k → s.dispatches = true → k.isItem = true → s.gathers (task, k) = false → k.readyNs + 8192 ≤ s.cycle → s.noneFree (task, k) = true →
        (∀ g ∈ s.sched.grants, g.2 ≠ task) → ∀ v, greatestBy victimKey (s.victims (task, k)) = some v →
          Ends (exec (.preemptGrace task) s) (fun t => t.sched.grants = s.sched.grants ++ [(v.1, task)]
            ∧ (t.bank v.1 (s.core v.1).active).run = some { v.2 with discarding := true }))
      ∧ (s.task? task = some k → s.cycle < k.readyNs + 8192 → exec (.preemptGrace task) s = .next s)
      ∧ (∀ g r t, s.sched.grants.find? (fun g => g.1 == f.toNat) = some g → (s.bank f.toNat c.active).run = some r →
        (r.discarding = false ∨ s.power.freqAct = 0 → exec (.preemptDiscardDone f) s = .next s)
          ∧ (r.discarding = true → s.power.freqAct ≠ 0 →
            t = (((withGrants s (s.sched.grants.filter fun x => x.1 ≠ f.toNat)).discardStep f.toNat c.active).requeue r true) →
            (t.task? g.2 = none → exec (.preemptDiscardDone f) s = .next (t.noteFree f.toNat))
              ∧ (∀ j, t.task? g.2 = some j → t.askTemplate (lrTemplate j.lr) = (t, true) →
                let may := t.dispatches = true ∧ t.mayRun f.toNat c.active (t.holder f.toNat) (g.2, j) = true
                (¬ may → exec (.preemptDiscardDone f) s = .next (t.noteFree f.toNat))
                  ∧ (may → t.gathers (g.2, j) = true → exec (.preemptDiscardDone f) s = .next (t.holdCore f.toNat (g.2, j)))
                  ∧ (∀ u q, may → t.gathers (g.2, j) = false → t.handOut g.2 j [] = .step u q →
                    exec (.preemptDiscardDone f) s = .next (u.beginStep f.toNat c.active g.2 q)))))
      ∧ ((∀ g ∈ s.sched.grants, g.1 ≠ f.toNat) → exec (.preemptDiscardDone f) s = .next s)
      ∧ (∀ g, s.sched.grants.find? (fun g => g.1 == f.toNat) = some g → (s.bank f.toNat c.active).run = none →
          exec (.preemptDiscardDone f) s = .next (withGrants s (s.sched.grants.filter fun x => x ≠ g)))
      ∧ (s.sched.gather = none → exec .gatherRelease s = .next s ∧ exec .pipelineGathered s = .next s ∧ exec (.localGangGathered ch) s = .next s)
      ∧ (∀ g, s.sched.gather = some g →
        (s.task? g.task = none → Ends (exec .gatherRelease s) (fun t => t.sched.gather = none))
          ∧ (s.task? g.task = some k → s.allTasks = [(g.task, k)] → exec .gatherRelease s = .next s)
          ∧ (∀ p, s.task? g.task = some k → k.pipe = some p →
            (s.dispatches = false ∨ g.held.length < p.cores → exec .pipelineGathered s = .next s)
              ∧ (s.dispatches = true → p.cores ≤ g.held.length → p.started = false → k.killed = none → Ends (exec .pipelineGathered s) (fun t => t.sched.gather = none)))
          ∧ (∀ x m c' u q b', s.gangOf g.task = some x →
            (s.dispatches = false ∨ g.held.length < x.size.toNat → exec (.localGangGathered ch) s = .next s)
              ∧ (s.dispatches = true → x.members = [m] → g.held = [c'] → c'.2 = 0 → x.size = 1 → s.gangReady x = true → s.task? m = some k → s.freeBank c'.1 = some b' →
                ((gangStarted s x).handOut m k ch = .step u q → exec (.localGangGathered ch) s = .next (u.beginStep c'.1 b' m q)))))

/-- R120, R127, R133, R137, R140, R145, R219, R325, R444, R446: a decrement reaches its unit once the step's earlier accesses
have performed, and a task that it leaves at 0 is ready; a ready task's parameter image is read, and a declaration that does not
pass kills the pipeline; a launch from a step is answered with its identifier and status; a pipeline is rebalanced every 16 µs; a
task ends when its steps have, nothing of it is outstanding and its dirty lines are written, and then its record is free. -/
def Obligations.TaskLifetimes : Prop :=
  ∀ (s : State) (task : Word) (k : Task) (id : U32) (r : Req) (ch : Choices),
    (s.req? id.toNat = some r → r.remote = false → r.place.pkg = s.pkg →
      (∀ t n sys poison, r.kind = .decrement t n sys poison → r.run = 0 →
          exec (.dependenceDecrement id) s = .next ((s.decrement t n r.world sys poison).dropReq r))
        ∧ (∀ t n sys poison, r.kind = .decrement t n sys poison → r.run ≠ 0 →
          (s.releaseReady r = false ∨ s.decBlocked r t = true → exec (.dependenceDecrement id) s = .next s)
            ∧ (s.releaseReady r = true → s.decBlocked r t = false →
              exec (.dependenceDecrement id) s = .next ((s.decrement t n r.world sys poison).dropReq r)))
        ∧ (∀ slot poison, r.kind = .arrive slot poison → s.releaseReady r = true →
          exec (.dependenceDecrement id) s = .next ((s.dropReq r).arriveSlot r.task slot poison))
        ∧ (∀ lr viaRec sd st, r.kind = .spawn lr viaRec sd st →
          (s.releaseReady r = false → exec (.spawnArrival id) s = .next s)
            ∧ (s.releaseReady r = true → s.askRecord lr viaRec = (s, true) → s.spawnStatus r lr viaRec ≠ 0 →
              ∃ u, (u = s ∨ u = s.dropBytes (lrPipe lr)) ∧ exec (.spawnArrival id) s
                = .next ((u.deliver r fun c => Ctx.landS st ((s.spawnStatus r lr viaRec).setWidth 64) (Ctx.landS sd 0 c)).dropReq r))
            ∧ (∀ u x, s.releaseReady r = true → s.askRecord lr viaRec = (s, true) → s.spawnStatus r lr viaRec = 0 → s.homeUnit lr = some u →
              x = (s.takeCredits (lrCq lr) (lrNeeds lr)).accept u lr (fun k => { k with viaRec }) none →
              exec (.spawnArrival id) s
                = .next (((x.1.dropBytes (lrPipe lr)).deliver r fun c => Ctx.landS st 0 (Ctx.landS sd x.2 c)).dropReq r))))
      ∧ (s.task? task = some k → tidUnit task < 40 → ∀ w n,
        (k.st = .ended → (s.decrement task n w true false).task? task = some k)
          ∧ (k.st = .waiting → lrWorld k.lr = w.toNat → n < k.count.toNat →
            (s.decrement task n w false false).task? task = some { k with count := k.count - BitVec.ofNat 16 n })
          ∧ (k.st ≠ .ended → lrWorld k.lr = w.toNat → k.count = 0 → (s.decrement task n w false true).task? task = some k.setDeperr)
          ∧ (k.st = .waiting → lrWorld k.lr = w.toNat → k.count ≠ 0 → n = k.count.toNat → lrParam k.lr ≠ 0 → ∃ k',
            (s.decrement task n w false false).task? task = some k' ∧ k'.st = .ready ∧ k'.count = 0))
      ∧ (s.task? task = some k →
        (k.st ≠ .ready ∨ k.loaded = true → exec (.paramImageLoaded task ch) s = .next s)
          ∧ (k.st = .ready → k.loaded = false → k.killed = none → s.askRecord k.lr false = (s, true) →
            Here s (lrTemplate k.lr :: ((k.pipe.map fun p => p.stages.map fun y => y.template).getD [])) →
            (∀ u, k.role ≠ .pipeline → s.readImage (unitAsker (tidUnit task) task (BitVec.ofNat 8 (lrWorld k.lr)) .L) (unitKey task)
                (lrParam k.lr) ch = .wait u → exec (.paramImageLoaded task ch) s = .next u)
              ∧ (∀ u bs c, k.role ≠ .pipeline → s.readImage (unitAsker (tidUnit task) task (BitVec.ofNat 8 (lrWorld k.lr)) .L) (unitKey task)
                (lrParam k.lr) ch = .ok u (bs, c) → exec (.paramImageLoaded task ch) s
                  = .next (((u.dropLines (unitKey task)).mapTask task fun k => { k with param := mwrite [] 0 bs, paramLen := bs.length }).afterLoad task))
              ∧ (∀ x, k.role ≠ .pipeline → s.readImage (unitAsker (tidUnit task) task (BitVec.ofNat 8 (lrWorld k.lr)) .L) (unitKey task)
                (lrParam k.lr) ch = .trap x → exec (.paramImageLoaded task ch) s
                  = .next (if x.cause = Cause.objMissing then s else s.killCause task x.cause))
              ∧ (k.role = .pipeline → s.declBytes (lrPipe k.lr) = none →
                exec (.paramImageLoaded task ch) s = .next (s.killTask task 0x0020 Cause.pipeBad))))
      ∧ (∀ p, s.task? task = some k → k.pipe = some p →
        (s.tether.toNat / 16000 ≤ p.lastBalance ∨ s.tether.toNat % 16000 ≠ 0 → exec (.pipelineRebalance task) s = .next s)
          ∧ (p.started = true → p.lastBalance < s.tether.toNat / 16000 → s.tether.toNat % 16000 = 0 → s.power.thermStopped = false → Ends (exec (.pipelineRebalance task) s) (fun t => ∃ k' p',
            t.task? task = some k' ∧ k'.pipe = some p' ∧ p'.lastBalance = s.tether.toNat / 16000 ∧ p'.held.length = p.held.length
              ∧ (∀ y ∈ p'.rings, y.occ = 0))))
      ∧ (s.task? task = none → exec (.taskEnd task) s = .next s)
      ∧ (s.task? task = some k → s.stagesLive task k = true → exec (.taskEnd task) s = .next (s.killStages task k))
      ∧ (s.task? task = some k → s.stagesLive task k = false →
        (k.allEnded = false → exec (.taskEnd task) s = .next s)
          ∧ (∀ f b, k.allEnded = true → s.dirtyBanks task = [(f, b)] →
            exec (.taskEnd task) s = .next (s.flushBasin f b fun l => l.task == task))
          ∧ (k.allEnded = true → s.dirtyBanks task = [] → s.quiet task = false → exec (.taskEnd task) s = .next s)
          ∧ (k.allEnded = true → s.dirtyBanks task = [] → s.quiet task = true → Ends (exec (.taskEnd task) s) (fun t =>
            t.task? task = none ∧ (k.role = .plain → k.pipe = none → k.killed = none → lrNocmpl k.lr = false → ∀ q, s.cq (lrCq k.lr) = some q →
              ∃ q', t.cq (lrCq k.lr) = some q' ∧ q'.count = q.count + 1))))

/-! ### Intake chains and engines at work -/

/-- R101, R157, R158, R164 to R173: a chain starts the oldest message of its queue while its stages have room; one that fails its checks
ends with a fault, and one that gives no tokens with one batch; the fault makes a closing batch and then a Sump record, and a full Sump
stops the chain until a record is removed; a batch goes to a consumer that has a free slot; a consumer that has ended counts as having
taken what it was sent. -/
def Obligations.IntakeChains : Prop :=
  ∀ (s : State) (ci entry : BitVec 4) (ch : Choices),
    let n := ci.toNat
    let c := s.chain n
    (s.chainRuns = false ∨ c.stopped = true → exec (.chainMessageStart ci ch) s = .next s ∧ exec (.chainStageFault ci) s = .next s
        ∧ exec (.batchDeliver ci) s = .next s ∧ exec (.consumerGone ci entry) s = .next s)
      ∧ (c.queue = [] ∨ c.room = false → exec (.chainMessageStart ci ch) s = .next s)
      ∧ (∀ x rest, c.queue = x :: rest → x.world ≠ c.lastWorld → c.out ≠ [] ∨ c.msgs ≠ [] → exec (.chainMessageStart ci ch) s = .next s)
      ∧ (∀ x rest u, s.chainRuns = true → c.stopped = false → c.room = true → c.queue = x :: rest → x.world = c.lastWorld →
        (u.chain n).msg = none → (u.chain n).behind = [] → (u.chain n).stopped = false →
        (∀ f, (s.setChain n { c with world := x.world, lastWorld := x.world }).chainFetch n x ch = .ok u (.failed f) →
            Ends (exec (.chainMessageStart ci ch) s) (fun t =>
            (t.chain n).queue = rest ∧ ∃ m, (t.chain n).msg = some m ∧ m.sub = x ∧ m.fault = some { f with when_ := u.tether } ∧ m.tokens = []))
          ∧ (∀ src v m k nv, (s.setChain n { c with world := x.world, lastWorld := x.world }).chainFetch n x ch = .ok u (.read src v m k nv) →
            chainStages (subConfig x) src v.2.2 m.2.2 k.2.2 nv = ([], none) → (u.chain n).out.length < 16 →
            Ends (exec (.chainMessageStart ci ch) s) (fun t => (t.chain n).queue = rest ∧ (t.chain n).msg = none ∧ ∃ b,
              (t.chain n).out = (u.chain n).out ++ [b] ∧ b.sub = x ∧ b.sent = 0 ∧ b.bytes.length = 64)))
      ∧ (∀ m f, s.chainRuns = true → c.stopped = false → c.msg = some m → c.behind = [] → m.fault = some f → m.tokens = [] →
        (m.closed = false → 16 ≤ c.out.length → exec (.chainStageFault ci) s = .next s)
          ∧ (m.closed = false → c.out.length < 16 → c.sump.length < 1024 → Ends (exec (.chainStageFault ci) s) (fun t => (t.chain n).msg = none
            ∧ (t.chain n).out = c.out ++ [batchOf n m [] true true]
            ∧ (∃ r, (t.chain n).sump = c.sump ++ [(m.sub.world, r)] ∧ r[2] = f.offset ∧ r[4] = f.detail ∧ r[5] = f.when_)))
          ∧ (m.closed = false → c.out.length < 16 → 1024 ≤ c.sump.length → Ends (exec (.chainStageFault ci) s) (fun t =>
            (t.chain n).msg = some { m with closed := true } ∧ (t.chain n).out = c.out ++ [batchOf n m [] true true]
            ∧ (t.chain n).sump = c.sump ∧ (t.chain n).stopped = true))
          ∧ (m.closed = true → c.sump.length < 1024 → Ends (exec (.chainStageFault ci) s) (fun t => (t.chain n).msg = none
            ∧ (t.chain n).out = c.out ∧ (t.chain n).sump.length = c.sump.length + 1)))
      ∧ (∀ u j w t b, s.chainRuns = true → c.stopped = false → u = s.setChain n (Chain.settle n c) →
        (u.deliverable [] 0 (u.chain n).out = none → exec (.batchDeliver ci) s = .next u)
          ∧ (u.deliverable [] 0 (u.chain n).out = some (j, w, t) → (u.chain n).out[j]? = some b →
            ∀ v, v = u.fillSlot t.1 t.2 b.bytes → exec (.batchDeliver ci) s = .next (v.setChain n (Chain.settle n { v.chain n with
              out := (v.chain n).out.set j { b with left := b.left.filter fun z => z.1 ≠ w.1 } }))))
      ∧ (∀ b, s.chainRuns = true → c.stopped = false → c.out = [b] → c.msg = none → c.behind = [] →
        let gone := ∃ w ∈ b.left, w.1 = entry.toNat ∧ s.taskGone (entryTask w.2) = true
        (gone → c.sump.length < 1024 → Ends (exec (.consumerGone ci entry) s) (fun t =>
            (t.chain n).sump.length = c.sump.length + 1 ∧ ∀ d ∈ (t.chain n).out, ∀ w ∈ d.left, w.1 ≠ entry.toNat))
          ∧ (gone → 1024 ≤ c.sump.length → Ends (exec (.consumerGone ci entry) s) (fun t => (t.chain n).out = c.out
            ∧ (t.chain n).stopped = true ∧ (t.chain n).goneAt = some (c.goneAt.getD s.tether)))
          ∧ ((∀ w ∈ b.left, w.1 ≠ entry.toNat) → exec (.consumerGone ci entry) s = .next s))

/-- R189 to R193, R252, R367, R383: an engine whose bank does not run does nothing; a matrix command pops its tokens and the
oldest format word of its step as it issues, and raises FMTQ_EMPTY where there is none; a step of MZERO zeroes its row and is
counted; a head that has made its steps retires, pushes its tokens and clears the step counter; results that are due are written; a
core that waits on tokens alone for 65,536 cycles raises TOKEN_STALL. -/
def Obligations.EngineProgress : Prop :=
  ∀ (s : State) (f : BitVec 9) (q : QueueId) (n : U16) (ch : Choices),
    let b := (s.core f.toNat).active
    let u := s.landDue f.toNat b
    let k := u.bank f.toNat b
    (s.engineOn f.toNat b = false → exec (.engineCommandIssue f q) s = .next s ∧ exec (.engineCommandRetire f q n ch) s = .next s
        ∧ exec (.sfuWriteback f) s = .next s ∧ exec (.tokenStall f) s = .next s)
      ∧ (s.engineOn f.toNat b = true →
        exec (.sfuWriteback f) s = .next u
          ∧ (k.queue q = [] → exec (.engineCommandIssue f q) s = .next u)
          ∧ (∀ c rest, k.queue q = c :: rest → c.skip = false → c.issued = false → c.started = false →
            (u.mayIssue f.toNat b q c = false → exec (.engineCommandIssue f q) s = .next u)
              ∧ (u.mayIssue f.toNat b q c = true → isMatrix c.instr = true →
                (k.fmtq.find? (fun x => x.2.1 == c.run) = none →
                  exec (.engineCommandIssue f q) s = .next (u.raise f.toNat b (engineSource q) c.pos c.task (trapOf Cause.fmtqEmpty)))
                  ∧ (∀ w, k.fmtq.find? (fun x => x.2.1 == c.run) = some w → Ends (exec (.engineCommandIssue f q) s) (fun t =>
                    (t.bank f.toNat b).fmtq = k.fmtq.erase w ∧ (t.bank f.toNat b).counter q = 0
                      ∧ (t.bank f.toNat b).queue q = { c with issued := true, issueCycle := s.cycle, word := some w.2.2 } :: rest
                      ∧ ∀ j, j < 10 → (t.bank f.toNat b).token j = k.token j - if (popsOf q c.tok).contains j then 1 else 0)))
              ∧ (u.mayIssue f.toNat b q c = true → isMatrix c.instr = false → q ≠ .VQ → Ends (exec (.engineCommandIssue f q) s) (fun t =>
                (t.bank f.toNat b).queue q = { c with issued := true, issueCycle := s.cycle } :: rest
                  ∧ ∀ j, j < 10 → (t.bank f.toNat b).token j = k.token j - if (popsOf q c.tok).contains j then 1 else 0))
              ∧ (u.mayIssue f.toNat b q c = true → isMatrix c.instr = false → q = .VQ → s.cycle < k.nextV →
                exec (.engineCommandIssue f q) s = .next u))
          ∧ (∀ c rest, q = .MQ → k.mq = c :: rest → c.skip = false → c.issued = true → isMatrix c.instr = true →
            (∀ r, k.run = some r → r.fresh = false) →
            (k.counter .MQ < c.steps → exec (.engineCommandRetire f q 0 ch) s = .next u)
              ∧ (c.steps ≤ k.counter .MQ → k.canPush .MQ c s.cycle = false → exec (.engineCommandRetire f q n ch) s = .next u)
              ∧ (c.steps ≤ k.counter .MQ → k.canPush .MQ c s.cycle = true → Ends (exec (.engineCommandRetire f q n ch) s) (fun t =>
                (t.bank f.toNat b).mq = rest ∧ (t.bank f.toNat b).counter .MQ = 0
                  ∧ ∀ j, j < 10 → (t.bank f.toNat b).token j = k.token j + if (pushesOf .MQ c.tok).contains j then 1 else 0))
              ∧ (∀ tk g acc, c.instr = .mzero tk g acc → k.counter .MQ < 63 → Ends (exec (.engineCommandRetire f q 1 ch) s) (fun t =>
                (t.bank f.toNat b).counter .MQ = k.counter .MQ + 1
                  ∧ (∀ j, j < 64 → (t.bank f.toNat b).aget acc.toNat (k.counter .MQ) j = 0)
                  ∧ (∀ i j, i < 64 → j < 64 → i ≠ k.counter .MQ → (t.bank f.toNat b).aget acc.toNat i j = k.aget acc.toNat i j))))
          ∧ (k.tokenBound s.cycle = false ∨ u.coreBusy f.toNat = true → Ends (exec (.tokenStall f) s) (fun t =>
            (t.bank f.toNat b).stall = none ∧ (t.bank f.toNat b).tokens = k.tokens))
          ∧ (k.tokenBound s.cycle = true → u.coreBusy f.toNat = false →
            (k.stall = none → Ends (exec (.tokenStall f) s) (fun t => (t.bank f.toNat b).stall = some (s.cycle, k.signature)))
              ∧ (∀ c, k.stall = some (c, k.signature) → s.cycle < c + 65536 → exec (.tokenStall f) s = .next u)
              ∧ (∀ c x, k.stall = some (c, k.signature) → c + 65536 ≤ s.cycle → k.lq = [] → k.mq.head? = some x →
                exec (.tokenStall f) s = .next ((u.setBank f.toNat b { k with stall := none }).raise f.toNat b (engineSource .MQ) x.pos x.task
                  (trapOf Cause.tokenStall)))))

/-- R53, R168, R430, R432, R454, R460, R461: a sequence command and an attention request execute in the order of their queue; a hop
plan's blocks leave and arrive in their slots while LOCK is 1 and the clock runs, and a late one is a link timeout, or, in a gang of
several packages, the end of the gang; a released slot of a ring moves to
the consumer's; a context that waits for an instant goes on at it, with TETHERCNT. -/
def Obligations.UnitProgress : Prop :=
  ∀ (s : State) (f : BitVec 9) (b : BitVec 1) (n : BitVec 5) (cl : BitVec 6) (kr : BitVec 3) (ci : CtxId) (ch : Choices),
    let k := s.bank f.toNat b
    let a := (s.core f.toNat).active
    (k.xq[n.toNat]? = none → exec (.seqCommandExecute f b n) s = .next s)
      ∧ (∀ c op args, k.xq[n.toNat]? = some c → seqOp c = some (op, args) →
        (s.engineOn f.toNat b = false ∨ c.issued = false ∨ c.accepted = true ∨ (∃ x ∈ k.xq.take n.toNat, x.accepted = false)
            ∨ seqFirst (k.xq.take n.toNat) c = false ∨ (n = 0 ∧ 1 ≤ k.counter .XQ) → exec (.seqCommandExecute f b n) s = .next s)
          ∧ (s.engineOn f.toNat b = true → c.issued = true → c.accepted = false → (∀ x ∈ k.xq.take n.toNat, x.accepted = true) →
            seqFirst (k.xq.take n.toNat) c = true → (n ≠ 0 ∨ k.counter .XQ = 0) → ∀ t, seqStep f.toNat b c op args s = .ok t () →
            exec (.seqCommandExecute f b n) s = .next t))
      ∧ ((s.cluster cl.toNat).attn.queue = [] → exec (.attnRequestStart cl ch) s = .next s)
      ∧ (∀ e rest c, (s.cluster cl.toNat).attn.queue = e :: rest → (s.bank e.1 e.2.1).xq.find? (fun c => c.ser == e.2.2) = some c →
        (c.started = true ∨ s.engineOn e.1 e.2.1 = false → exec (.attnRequestStart cl ch) s = .next s)
          ∧ (∀ v en, c.started = false → s.engineOn e.1 e.2.1 = true →
            s.sequence (cmdAsker e.1 e.2.1 .XQ c .A) c.handle rightR = .ok v en → v.bank e.1 e.2.1 = s.bank e.1 e.2.1 → v.pkg = s.pkg →
            (attnReq c.blk).head < qHeads en → hHome c.handle = s.pkgNo → Ends (exec (.attnRequestStart cl ch) s) (fun t =>
              ∃ d ∈ (t.bank e.1 e.2.1).xq, d.ser = e.2.2 ∧ d.started = true)))
      ∧ (s.planBank f.toNat = none → exec (.hopplanSendSlot f) s = .next s ∧ exec (.hopplanRecvStep f) s = .next s
          ∧ exec (.hopplanRecvDeadline f) s = .next s)
      ∧ (∀ p c, s.planBank f.toNat = some (b, p, c) →
        let goes := s.links.lock = true ∧ p.lost = false ∧ s.power.freqAct ≠ 0
        let late := ∃ e, p.steps = [e] ∧ p.done = [] ∧ sOp e = 0 ∧ 64 * (p.slotOf e + 9) ≤ s.tether.toNat
        (¬ goes → exec (.hopplanSendSlot f) s = .next s ∧ exec (.hopplanRecvStep f) s = .next s)
          ∧ (p.pick s.tether.toNat (fun e => sOp e == 0 && s.tether.toNat < 64 * (p.slotOf e + 9)) = none → exec (.hopplanSendSlot f) s = .next s)
          ∧ (∀ i e v w en bs, goes → p.pick s.tether.toNat (fun e => sOp e == 0 && s.tether.toNat < 64 * (p.slotOf e + 9)) = some (i, e) →
            sArith e ≠ 1 →
            s.getEntry (cmdAsker f.toNat b .XQ c .X) p.buf = .ok v en →
            v.planBlock (cmdAsker f.toNat b .XQ c .X) (cmdKey f.toNat b c) p en (sBlock e) = .ok w bs →
            Ends (exec (.hopplanSendSlot f) s) (fun t => (∃ r, (t.bank f.toNat b).plan = some r ∧ r.done = i :: p.done)
              ∧ (t.bank f.toNat b).escx = (w.bank f.toNat b).escx + 1 ∧ t.mem = w.mem))
          ∧ (∀ i e v en blk, goes → p.pick s.tether.toNat (fun e => sOp e == 1
                && (s.peer (sPort e)).holdsBlock (sPeer e) (hFlits p.hdr) (64 * (p.slotOf e + 9))) = some (i, e) →
            (s.peer (sPort e)).blockFrom (sPeer e) (hFlits p.hdr) = some blk → sArith e = 0 →
            s.getEntry (cmdAsker f.toNat b .XQ c .X) p.buf = .ok v en → Ends (exec (.hopplanRecvStep f) s) (fun t =>
              ∃ r, (t.bank f.toNat b).plan = some r ∧ r.done = i :: p.done))
          ∧ (late ∨ (s.links.lock = false ∨ p.lost = true) ∧ p.done.length < p.steps.length →
            ((s.dropPlan f.toNat b).gangDetect c.task = none →
              exec (.hopplanRecvDeadline f) s = .next ((s.dropPlan f.toNat b).timeoutStep (.core f .C) b c.run c.task []))
            ∧ (∀ t, (s.dropPlan f.toNat b).gangDetect c.task = some t → exec (.hopplanRecvDeadline f) s = .next t))
          ∧ (s.links.lock = true → p.lost = false → p.steps = [] → exec (.hopplanRecvDeadline f) s = .next s))
      ∧ ((s.core f.toNat).rings = [] → exec (.ringTransfer f kr) s = .next s)
      ∧ (∀ e i rest pr p j r st ct x, (s.core f.toNat).rings.find? (fun e => e.k == kr.toNat && !e.xfer.isEmpty && s.endCommitted f.toNat e.task) = some e →
        e.xfer = i :: rest → e.puts = [] → s.task? e.task = some pr → s.pipeOf e.task pr = some (p, j) →
        p.rings.find? (fun r => r.prod == j && r.pring == e.k) = some r → p.stages[r.cons]? = some st →
        tfind (s.unit (tidUnit e.task)).tasks st.index = some ct →
        let t := taskIdOf ct.seq.toNat s.pkgNo (tidUnit e.task) st.index
        let best := s.bestEnd t r.cring fun f => p.held.any fun x => x.1 == f && x.2 == r.cons
        (best = none → exec (.ringTransfer f kr) s = .next s)
          ∧ (best = some x → exec (.ringTransfer f kr) s = .next ((s.fillSlot x.1 x.2 (s.slotBytes f.toNat e i)).slotSent f.toNat e i)))
      ∧ (((s.bank f.toNat a).ctx ci).xsync = none → exec (.xsyncWaitRelease f ci) s = .next s)
      ∧ (∀ x v, ((s.bank f.toNat a).ctx ci).xsync = some (x, v) →
        (s.tether.toNat % 2 ^ 63 < v.toNat → exec (.xsyncWaitRelease f ci) s = .next s)
          ∧ ((s.bank f.toNat a).st = .running → v.toNat ≤ s.tether.toNat % 2 ^ 63 → x ≠ 0 → Ends (exec (.xsyncWaitRelease f ci) s) (fun t =>
            ((t.bank f.toNat a).ctx ci).xsync = none
              ∧ ((t.bank f.toNat a).ctx ci).getS x = BitVec.ofNat 64 (s.tether.toNat % 2 ^ 63 + if s.links.lock then 0 else 2 ^ 63)
              ∧ t.mem = s.mem)))
end

