-- ==== Sys2Proof/Laws/Shared.lean ====
section
/-!
SUPPORT. What operations that several agents share can do: the shared registers of a step, lines of objects that no key
protects, the sets of the handle units' caches, the stages of a chain, and what a record asks of other packages.
-/

namespace Sys2Proof.Laws

open Sys2Proof Sys2Proof.Machine Sys2Proof.Safety

/-! ### Shared registers (R177) -/

/-- A context sees what it has written itself. -/
theorem sharedRead_own {α : Type} (old : List (Nat × Nat × CtxId × α)) (cycle : Nat) (c : CtxId) (r : Nat) (v w : α) :
    sharedRead (sharedWrite old cycle c r v) cycle c r w = w := by
  have h : (old.filter fun x => x.2.1 == cycle && x.1 != r).find? (fun x => x.1 == r && x.2.1 == cycle && x.2.2.1 != c) = none := by
    simp +contextual [List.find?_eq_none]
  simp [sharedRead, sharedWrite, h]

/-- In another cycle every context sees the register as it stands. -/
theorem sharedRead_later {α : Type} (old : List (Nat × Nat × CtxId × α)) (cycle now : Nat) (c d : CtxId) (r k : Nat) (v w : α)
    (h : now ≠ cycle) : sharedRead (sharedWrite old cycle c r v) now d k w = w := by
  have e : (sharedWrite old cycle c r v).find? (fun x => x.1 == k && x.2.1 == now && x.2.2.1 != d) = none := by
    rw [List.find?_eq_none]
    intro x hx
    rcases List.mem_cons.mp hx with rfl | hx
    · simp [Ne.symm h]
    · have := (List.mem_filter.mp hx).2
      simp only [Bool.and_eq_true, beq_iff_eq] at this
      simp [this.1, Ne.symm h]
  simp [sharedRead, e]

/-- The first write of a cycle leaves the other contexts the value before. -/
theorem sharedRead_other {α : Type} (old : List (Nat × Nat × CtxId × α)) (cycle : Nat) (c d : CtxId) (r : Nat) (v w : α) (h : c ≠ d)
    (ho : ∀ x ∈ old, x.2.1 ≠ cycle) : sharedRead (sharedWrite old cycle c r v) cycle d r w = v := by
  have e : old.find? (fun x => x.1 == r && x.2.1 == cycle) = none := by
    rw [List.find?_eq_none]; intro x hx; simp [ho x hx]
  simp [sharedRead, sharedWrite, e, h]

/-! ### Lines of objects of world 0 (R104) -/

@[simp] theorem openLine_plain (s : State) (h : Word) (va : Nat) (raw : List Byte) (hw : hWorld h = 0) : s.openLine h va raw = raw := by
  simp [State.openLine, hw]
@[simp] theorem sealLine_plain (s : State) (h : Word) (va : Nat) (x : List Byte) (hw : hWorld h = 0) : s.sealLine h va x = x := by
  simp [State.sealLine, hw]
@[simp] theorem linkBytes_plain (s : State) (h : Word) (va : Nat) (bs : List Byte) (hw : hWorld h = 0) : s.linkBytes h va bs = bs := by
  simp [State.linkBytes, hw]
@[simp] theorem linkWord_plain (s : State) (h : Word) (va : Nat) (w : Word) (hw : hWorld h = 0) : s.linkWord h va w = w := by
  simp [State.linkWord, hw]

/-! ### Caches of a handle unit (R207) -/

/-- Trimming a set only takes entries out. -/
theorem mem_of_trimSet {α : Type} {used set : α → Nat} {x y : α} {l : List α} (h : y ∈ trimSet used set x l) : y ∈ l := by
  unfold trimSet at h
  dsimp only at h
  split at h
  · exact h
  · split at h
    · exact h
    · exact (List.mem_filter.mp h).1

/-! ### Pieces of a long body (R37) -/

theorem length_of_piecesOf {n : Nat} {bs p : List Byte} (h : p ∈ piecesOf n bs) : p.length ≤ n := by
  simp only [piecesOf, List.mem_map, List.mem_range] at h
  obtain ⟨j, -, rfl⟩ := h
  simp only [List.length_take]
  exact Nat.min_le_left ..

/-! ### The stages of a chain (R167, R170, R173) -/

@[simp] theorem shift_out (c : Chain) : c.shift.out = c.out := by unfold Chain.shift; split <;> rfl
@[simp] theorem shift_sump (c : Chain) : c.shift.sump = c.sump := by unfold Chain.shift; split <;> rfl
@[simp] theorem shift_queue (c : Chain) : c.shift.queue = c.queue := by unfold Chain.shift; split <;> rfl

/-- Batches are formed without a touch of the Sump or the queue, and none leaves the output buffer. -/
theorem fill_frame (n k : Nat) (c : Chain) :
    (Chain.fill n k c).sump = c.sump ∧ (Chain.fill n k c).queue = c.queue ∧ c.out <+: (Chain.fill n k c).out := by
  induction k generalizing c with
  | zero => exact ⟨rfl, rfl, List.prefix_rfl⟩
  | succ k ih =>
    unfold Chain.fill
    dsimp only
    split
    · simp
    · split
      · simp
      · split
        · simp
        · refine ⟨(ih _).1.trans (by simp), (ih _).2.1.trans (by simp), .trans ?_ (ih _).2.2⟩
          simp

/-- A full Sump that has stopped a chain forms no batch. -/
theorem stopped_of_full (c : Chain) (h : c.sumpFull = true) (hn : 1024 ≤ c.sump.length) : c.stopped = true := by
  simp [Chain.stopped, h, hn]

/-! ### What a record asks of other packages (R57, R71) -/

/-- Nothing is asked for handles that are at hand. -/
theorem askEntries_here (s : State) (hs : List Word) (h : Here s hs) : s.askEntries hs = (s, true) := by
  unfold State.askEntries
  induction hs with
  | nil => rfl
  | cons x xs ih =>
    have hx := h x List.mem_cons_self
    rw [List.foldl_cons, if_pos hx]
    exact ih fun y hy => h y (List.mem_cons_of_mem _ hy)

end Sys2Proof.Laws
end

