-- ==== Sys2Proof/Tests/Slice0.lean ====
section
/-!
SUPPORT. Tests: words of the spec, ill-formed terms, single effects with values of the spec, and a state that meets the
hypotheses of each statement.
-/

namespace Sys2Proof.Tests

open Sys2Proof Sys2Proof.Machine Sys2Proof.Safety Sys2Proof.Laws

set_option Elab.async false

/-! ### Words that the spec writes out -/

/-- 14_isa_memory.md, 15_isa_matrix.md, 16_isa_vector.md, 17_isa_attention.md, 18_isa_tasks_system.md: the examples. -/
theorem test_words_of_the_entries :
    Decode.words [0x28830402, 0x00000002] = .ok (.lde 0 5 2 3 0 2)
      ∧ Decode.words [0x4912041B, 0x000000C5, 0x000000A7] = .ok (.casc 0 9 4 2 1 5 6 7 10)
      ∧ Decode.words [0x08401442, 0x20800000] = .ok (.ldt 1 0 64 1 2 0 1)
      ∧ Decode.words [0x040204A1] = .ok (.fenceP 0 2 4)
      ∧ Decode.words [0x28000602, 0] = .ok (.fmtqReg 0 5)
      ∧ Decode.words [0x00000603, 0x048A8484, 0x007B7F7F] = .ok (.fmtqImm 0 0x048A8484 0x007B7F7F)
      ∧ Decode.words [0x00008607, 0xFE000000, 0x00084000] = .ok (.mma96 8 0 0 0 0 1 63 0 2 0 1)
      ∧ Decode.words [0x00640612, 0x18000000] = .ok (.mrd 0 0 100 0 0 3)
      ∧ Decode.words [0x000A0802, 0x8000F014] = .ok (.vadd 0 0 10 0 20 30 0 0 0 1)
      ∧ Decode.words [0x00C8089A, 0x00842008] = .ok (.vqnt 0 0 200 8 0x84 0 2 0 0)
      ∧ Decode.words [0x00130A16, 0x00000014] = .ok (.retspan 0 0 3 1 0 0x14)
      ∧ Decode.words [0x00130A06, 0x04C02000] = .ok (.kvapp 0 0 3 1 0 4 19)
      ∧ Decode.words [0x21420C02, 0] = .ok (.spawn 0 4 5 2)
      ∧ Decode.words [0x00000C0D] = .ok (.commit 0)
      ∧ Decode.words [0x00010C15] = .ok (.arrive 0 1 0)
      ∧ Decode.words [0x00530C21] = .ok (.racqC 0 3 2) := by
  and_intros <;> rfl

/-- 19_prog_nearbank.md: the words of its two programs. -/
theorem test_words_of_nearbank :
    Decode.words [0x00000442, 0xE0000000] = .ok (.ldt 0 0 0 0 0 0 7)
      ∧ Decode.words [0x00000446, 0x00400000] = .ok (.stt 0 0 0 0 1 0 0)
      ∧ Decode.words [0x010104CF, 0x40200000, 0] = .ok (.nbscale 0 0 1 1 0x40200000 0 0)
      ∧ Decode.words [0x011104CB, 0x3F800000, 0] = .ok (.nbaxpy 0 0 1 1 1 0x3F800000 0 0)
      ∧ Decode.words [0x48000E0A, 0x00000003] = .ok (.sysrd 0 9 0 3)
      ∧ Decode.words [0x000004D7, 0, 0] = .ok (.rrzero 0 0 0 0)
      ∧ Decode.words [0x020004DB, 0, 0] = .ok (.rrcopy 0 0 0 0 2)
      ∧ Decode.words [0x20D00406, 0] = .ok (.ste 0 4 3 0 1)
      ∧ Decode.words [0x00011462, 0] = .ok (.bmap 1 0 1 0)
      ∧ Decode.words [0x00008442, 0x40000000] = .ok (.ldt 8 0 0 0 0 0 2)
      ∧ Decode.words [0x28D00402, 0] = .ok (.lde 0 5 3 0 1 0) := by
  and_intros <;> rfl

/-- 20_prog_versions.md: the words of its three programs. -/
theorem test_words_of_versions :
    Decode.words [0x00000482, 0] = .ok (.openv 0 0)
      ∧ Decode.words [0x55800126, 0x00000342] = .ok (.fcvt 0 10 22 0x42 3 0 0)
      ∧ Decode.words [0x504201CA, 0] = .ok (.sts 0 10 1 2 0)
      ∧ Decode.words [0x028004A1] = .ok (.fenceP 0 0x80 2)
      ∧ Decode.words [0x0DE100A6, 0] = .ok (.cmp 0 1 23 1 1 0)
      ∧ Decode.words [0xB5C0148A, 0] = .ok (.subv 1 22 23 0)
      ∧ Decode.words [0x00000486, 0] = .ok (.pub 0 0)
      ∧ Decode.words [0x4D80048E, 0] = .ok (.pinv 0 9 22 0)
      ∧ Decode.words [0x4800018E, 0x00000014] = .ok (.brnz 0 9 4 1)
      ∧ Decode.words [0x31810102, 0x00000005] = .ok (.fadd 0 6 6 1 5 0)
      ∧ Decode.words [0x0000019A, 0xFFFFFFFB] = .ok (.loop 0 0 11 0xFFFFFFF)
      ∧ Decode.words [0x284201C6, 0] = .ok (.lds 0 5 1 2 0 0) := by
  and_intros <;> rfl

/-- 21_prog_experts.md and 22_prog_hash.md: words of their programs. -/
theorem test_words_of_experts_and_hash :
    Decode.words [0x315A0069] = .ok (.minz 0 6 5 13)
      ∧ Decode.words [0xA5400C06, 0] = .ok (.spawnRec 0 20 21 0)
      ∧ Decode.words [0x0FC0008E, 0x00001F10] = .ok (.bfx 0 1 31 0 16 31)
      ∧ Decode.words [0x000001EB, 0x00004040, 0] = .ok (.dset 0 0 0 64 64 0 0)
      ∧ Decode.words [0x088101EE, 0] = .ok (.didx 0 1 2 1 0 0)
      ∧ Decode.words [0x0000060D] = .ok (.mzero 0 0 0)
      ∧ Decode.words [0x0000060B, 0xFC000000, 0x00085000] = .ok (.mmam96 0 0 0 0 0 0 63 2 2 0 1)
      ∧ Decode.words [0x0864981A, 0x08000064] = .ok (.vmax 9 0 100 1 100 0 0 2 0)
      ∧ Decode.words [0x08648446, 0x20800000] = .ok (.stt 8 0 100 1 2 0 1)
      ∧ Decode.words [0xB000018A, 0x0000001B] = .ok (.brz 0 22 11 1)
      ∧ Decode.words [0x0D800032, 0x0000000F] = .ok (.andi 0 1 22 15)
      ∧ Decode.words [0x3040004E, 0x00000002] = .ok (.shli 0 6 1 2)
      ∧ Decode.words [0x2990040F, 0x000002C0, 0x00000001] = .ok (.cas 0 5 6 0 1 0 22 1)
      ∧ Decode.words [0x114000A6, 0x00000016] = .ok (.cmp 0 2 5 0 0 22)
      ∧ Decode.words [0x084400AD] = .ok (.por 0 1 1 2)
      ∧ Decode.words [0x08000186, 0x0000000D] = .ok (.brp 0 1 0 13 0)
      ∧ Decode.words [0x00220E01] = .ok (.trap 0 0x22)
      ∧ Decode.words [0x4A200406, 0] = .ok (.ste 0 9 8 0 2)
      ∧ Decode.words [0x29A00402, 0] = .ok (.lde 0 5 6 0 2 0) := by
  and_intros <;> rfl

/-- 23_prog_spans.md: words of its programs. -/
theorem test_words_of_spans :
    Decode.words [0x00004A06, 0x00C00800] = .ok (.kvapp 4 0 0 0 0 1 3)
      ∧ Decode.words [0x00200A0E, 0] = .ok (.spanopen 0 0 0 2)
      ∧ Decode.words [0x20500A0E, 0] = .ok (.spanopen 0 2 0 5)
      ∧ Decode.words [0x08010C0A, 0x00000001] = .ok (.depdec 0 1 0 1 1)
      ∧ Decode.words [0x08000A1A, 0] = .ok (.seqq 0 1 0 0 0)
      ∧ Decode.words [0x00000A02, 0x00000010] = .ok (.attn 0 0 0 0 0 1)
      ∧ Decode.words [0x08012442, 0x40800000] = .ok (.ldt 2 0 1 1 2 0 2)
      ∧ Decode.words [0x31010C6A, 0] = .ok (.xsync 0 6 4 1)
      ∧ Decode.words [0x4813041B, 0x0000018B, 0x000000A4] = .ok (.casc 0 9 0 3 1 11 12 4 10)
      ∧ Decode.words [0x4813040F, 0x0000018B, 0x00000003] = .ok (.cas 0 9 0 3 1 11 12 3) := by
  and_intros <;> rfl

/-! ### A word of each instruction, written from the fields of its entry

Guard p3, tokens −n and +p, every operand field at a value of its own. -/

theorem test_words_integer_1 :
    Decode.words [0xAA9C3005] = .ok (.add 3 0x15 0xA 0xE)
    ∧ Decode.words [0xAA9C300D] = .ok (.sub 3 0x15 0xA 0xE)
    ∧ Decode.words [0xAA9C3011] = .ok (.mul 3 0x15 0xA 0xE)
    ∧ Decode.words [0xAA9C3015] = .ok (.mulh 3 0x15 0xA 0xE)
    ∧ Decode.words [0xAA9C3019] = .ok (.mulhz 3 0x15 0xA 0xE)
    ∧ Decode.words [0xAA9C301D] = .ok (.div 3 0x15 0xA 0xE)
    ∧ Decode.words [0xAA9C3021] = .ok (.divz 3 0x15 0xA 0xE)
    ∧ Decode.words [0xAA9C3025] = .ok (.rem 3 0x15 0xA 0xE)
    ∧ Decode.words [0xAA9C3029] = .ok (.remz 3 0x15 0xA 0xE)
    ∧ Decode.words [0xAA9C302D] = .ok (.and 3 0x15 0xA 0xE)
    ∧ Decode.words [0xAA9C3035] = .ok (.or 3 0x15 0xA 0xE)
    ∧ Decode.words [0xAA9C303D] = .ok (.xor 3 0x15 0xA 0xE)
    ∧ Decode.words [0xAA9C3045] = .ok (.andn 3 0x15 0xA 0xE)
    ∧ Decode.words [0xAA9C3049] = .ok (.shl 3 0x15 0xA 0xE)
    ∧ Decode.words [0xAA9C3051] = .ok (.shr 3 0x15 0xA 0xE)
    ∧ Decode.words [0xAA9C3059] = .ok (.sar 3 0x15 0xA 0xE)
    ∧ Decode.words [0xAA9C3061] = .ok (.rotl 3 0x15 0xA 0xE)
    ∧ Decode.words [0xAA9C3065] = .ok (.min 3 0x15 0xA 0xE)
    ∧ Decode.words [0xAA9C3069] = .ok (.minz 3 0x15 0xA 0xE)
    ∧ Decode.words [0xAA9C306D] = .ok (.max 3 0x15 0xA 0xE)
    ∧ Decode.words [0xAA9C3071] = .ok (.maxz 3 0x15 0xA 0xE)
    ∧ Decode.words [0xAA803075] = .ok (.clz 3 0x15 0xA)
    ∧ Decode.words [0xAA803079] = .ok (.ctz 3 0x15 0xA)
    ∧ Decode.words [0xAA80307D] = .ok (.popc 3 0x15 0xA) := by
  and_intros <;> rfl

theorem test_words_integer_2 :
    Decode.words [0xAA803081] = .ok (.bswap 3 0x15 0xA)
    ∧ Decode.words [0xAA843085] = .ok (.sext 3 0x15 0xA 2)
    ∧ Decode.words [0xAA823089] = .ok (.zext 3 0x15 0xA 1)
    ∧ Decode.words [0x1AA03095] = .ok (.mov 3 3 0xA 2 0)
    ∧ Decode.words [0x288C30A9] = .ok (.pand 3 5 2 6)
    ∧ Decode.words [0x288C30AD] = .ok (.por 3 5 2 6)
    ∧ Decode.words [0x288C30B1] = .ok (.pxor 3 5 2 6)
    ∧ Decode.words [0x288030B5] = .ok (.pnot 3 5 2)
    ∧ Decode.words [0x2881300A, 0x89ABCDEF] = .ok (.addi 3 5 2 1 0x89ABCDEF)
    ∧ Decode.words [0xAA803032, 0x89ABCDEF] = .ok (.andi 3 0x15 0xA 0x89ABCDEF)
    ∧ Decode.words [0xAA80303A, 0x89ABCDEF] = .ok (.ori 3 0x15 0xA 0x89ABCDEF)
    ∧ Decode.words [0xAA803042, 0x89ABCDEF] = .ok (.xori 3 0x15 0xA 0x89ABCDEF)
    ∧ Decode.words [0xAA80304E, 0x0000002D] = .ok (.shli 3 0x15 0xA 0x2D)
    ∧ Decode.words [0xAA803056, 0x0000002C] = .ok (.shri 3 0x15 0xA 0x2C)
    ∧ Decode.words [0xAA80305E, 0x0000003F] = .ok (.sari 3 0x15 0xA 0x3F)
    ∧ Decode.words [0xAA81308E, 0x00002B07] = .ok (.bfx 3 0x15 0xA 1 7 0x2B)
    ∧ Decode.words [0xAA803092, 0x00002B07] = .ok (.bfi 3 0x15 0xA 7 0x2B)
    ∧ Decode.words [0xA800309A, 0x89ABCDEF] = .ok (.movi64 3 0x15 0x89ABCDEF)
    ∧ Decode.words [0xA800309B, 0x89ABCDEF, 0x13572468] = .ok (.movi96 3 0x15 0x89ABCDEF 0x13572468)
    ∧ Decode.words [0xAA80309E, 0x89ABCDEF] = .ok (.movhi 3 0x15 0xA 0x89ABCDEF)
    ∧ Decode.words [0xAA8530A2, 0x0000000E] = .ok (.sel 3 0x15 0xA 5 0xE)
    ∧ Decode.words [0x2AA530A6, 0x89ABCDEF] = .ok (.cmp 3 5 0xA 5 1 0x89ABCDEF) := by
  and_intros <;> rfl

theorem test_words_float :
    Decode.words [0xAA813102, 0x00000051] = .ok (.fadd 3 0x15 0xA 1 0x11 2)
    ∧ Decode.words [0xAA813106, 0x00000051] = .ok (.fsub 3 0x15 0xA 1 0x11 2)
    ∧ Decode.words [0xAA81310A, 0x00000051] = .ok (.fmul 3 0x15 0xA 1 0x11 2)
    ∧ Decode.words [0xAA813112, 0x00000051] = .ok (.fdiv 3 0x15 0xA 1 0x11 2)
    ∧ Decode.words [0xAA81310E, 0x00001651] = .ok (.ffma 3 0x15 0xA 1 0x11 2 0x16)
    ∧ Decode.words [0xAA813116, 0x00000040] = .ok (.fsqrt 3 0x15 0xA 1 2)
    ∧ Decode.words [0xAA9D3119] = .ok (.fmin 3 0x15 0xA 0xE 1)
    ∧ Decode.words [0xAA9D311D] = .ok (.fmax 3 0x15 0xA 0xE 1)
    ∧ Decode.words [0xAA813129] = .ok (.fclass 3 0x15 0xA 1)
    ∧ Decode.words [0x2A953122, 0x00000011] = .ok (.fcmp 3 5 0xA 1 5 0x11)
    ∧ Decode.words [0xAA803126, 0x00090201] = .ok (.fcvt 3 0x15 0xA 1 2 1 1) := by
  and_intros <;> rfl

theorem test_words_control :
    Decode.words [0x00003182, 0xFFFFFE59] = .ok (.br 3 9 0xFFFFFE5)
    ∧ Decode.words [0x28013186, 0xFFFFFE59] = .ok (.brp 3 5 1 9 0xFFFFFE5)
    ∧ Decode.words [0xA800318A, 0xFFFFFE59] = .ok (.brz 3 0x15 9 0xFFFFFE5)
    ∧ Decode.words [0xA800318E, 0xFFFFFE59] = .ok (.brnz 3 0x15 9 0xFFFFFE5)
    ∧ Decode.words [0x00003192, 0xFFFFFE59] = .ok (.call 3 9 0xFFFFFE5)
    ∧ Decode.words [0x00003195] = .ok (.ret 3)
    ∧ Decode.words [0x1000319A, 0xFFFFFE59] = .ok (.loop 3 2 9 0xFFFFFE5)
    ∧ Decode.words [0x0000319D] = .ok (.nop 3)
    ∧ Decode.words [0xBEEF31A1] = .ok (.hint 3 0xBEEF) := by
  and_intros <;> rfl

theorem test_words_param :
    Decode.words [0xA80631C2, 0x00000A54] = .ok (.ldp 3 0x15 2 1 0xA54)
    ∧ Decode.words [0xA88631C6, 0x89ABCDEF] = .ok (.lds 3 0x15 2 2 1 0x89ABCDEF)
    ∧ Decode.words [0xA88231CA, 0x89ABCDEF] = .ok (.sts 3 0x15 2 2 0x89ABCDEF)
    ∧ Decode.words [0x2A8031FD] = .ok (.dmov 3 5 0xA)
    ∧ Decode.words [0x280031E2, 0x00000A58] = .ok (.hld 3 5 0 0 0xA58)
    ∧ Decode.words [0xAA8031E6, 0x00000006] = .ok (.hqry 3 0x15 0xA 6)
    ∧ Decode.words [0x2A8031EB, 0x12344021, 0x13572468] = .ok (.dset 3 5 0xA 0x21 0x40 0x1234 0x13572468)
    ∧ Decode.words [0x2A8231EE, 0x00000000] = .ok (.didx 3 5 0xA 2 0 0)
    ∧ Decode.words [0x280631F2, 0x89ABCDEF] = .ok (.dadd 3 5 0 2 1 0x89ABCDEF)
    ∧ Decode.words [0x280031F6, 0x00004021] = .ok (.dshp 3 5 0x21 0x40)
    ∧ Decode.words [0x280031FB, 0x89ABCDEF, 0x13572468] = .ok (.dpad 3 5 0 0x89ABCDEF 0x13572468) := by
  and_intros <;> rfl

theorem test_words_memory :
    Decode.words [0xAA8B3402, 0x00000005] = .ok (.lde 3 0x15 0xA 0xB 0 5)
    ∧ Decode.words [0xAA8B3406, 0x00000000] = .ok (.ste 3 0x15 0xA 0xB 0)
    ∧ Decode.words [0xAA9B340A, 0x00000133] = .ok (.atom 3 0x15 0xA 0xB 1 0x13 9)
    ∧ Decode.words [0xAA8B3412, 0x00000033] = .ok (.fatom 3 0x15 0xA 0xB 0x13 1)
    ∧ Decode.words [0xAA8B3416, 0x00000240] = .ok (.atomnr 3 0x15 0xA 0xB 0 2 1)
    ∧ Decode.words [0xAA9B340F, 0x0000034D, 0x00000006] = .ok (.cas 3 0x15 0xA 0xB 1 0xD 0x1A 6)
    ∧ Decode.words [0xAA9B341B, 0x0000034D, 0x00000157] = .ok (.casc 3 0x15 0xA 0xB 1 0xD 0x1A 7 0x15) := by
  and_intros <;> rfl

theorem test_words_tiles :
    Decode.words [0x30006442, 0xAF000000] = .ok (.ldt 6 3 0 0 0xC 3 5)
    ∧ Decode.words [0x3A5A6446, 0x23000000] = .ok (.stt 6 3 0x25A 1 0xC 0 1)
    ∧ Decode.words [0x3000644A, 0xA3000000] = .ok (.pft 6 3 0xC 5)
    ∧ Decode.words [0x301C6462, 0x00000000] = .ok (.bmap 6 3 0xC 1)
    ∧ Decode.words [0x301C6466, 0x00000000] = .ok (.bflush 6 3 0xC 1)
    ∧ Decode.words [0x301C646A, 0x00000000] = .ok (.bdrop 6 3 0xC 1)
    ∧ Decode.words [0x000B3482, 0x00000000] = .ok (.openv 3 0xB)
    ∧ Decode.words [0x000B3486, 0x00000000] = .ok (.pub 3 0xB)
    ∧ Decode.words [0xAA8B348A, 0x00000000] = .ok (.subv 3 0x15 0xA 0xB)
    ∧ Decode.words [0xAA8B348E, 0x00000000] = .ok (.pinv 3 0x15 0xA 0xB)
    ∧ Decode.words [0x000B3492, 0x00000000] = .ok (.unpv 3 0xB)
    ∧ Decode.words [0xA80B3496, 0x00000000] = .ok (.verq 3 0x15 0xB)
    ∧ Decode.words [0x3CA534A1] = .ok (.fenceP 3 0xA5 0x3C) := by
  and_intros <;> rfl

theorem test_words_nearbank :
    Decode.words [0x350964C3, 0x89ABCDEF, 0x13572468] = .ok (.nbfill 6 3 9 5 0x89ABCDEF 0x13572468)
    ∧ Decode.words [0x356964C7, 0x00000000, 0x00000000] = .ok (.nbcopy 6 3 9 6 5)
    ∧ Decode.words [0x356964CB, 0x89ABCDEF, 0x0000000A] = .ok (.nbaxpy 6 3 9 6 5 0x89ABCDEF 2 1)
    ∧ Decode.words [0x350964CF, 0x89ABCDEF, 0x0000000A] = .ok (.nbscale 6 3 9 5 0x89ABCDEF 2 1)
    ∧ Decode.words [0x356964D3, 0x00000000, 0x00000000] = .ok (.nbrelay 6 3 9 6 5)
    ∧ Decode.words [0x350964D7, 0x00000000, 0x00000000] = .ok (.rrzero 6 3 9 5)
    ∧ Decode.words [0x356964DB, 0x00000000, 0x00000000] = .ok (.rrcopy 6 3 9 6 5) := by
  and_intros <;> rfl

theorem test_words_matrix :
    Decode.words [0xA8003602, 0x00000000] = .ok (.fmtqReg 3 0x15)
    ∧ Decode.words [0x00003603, 0x89ABCDEF, 0x13572468] = .ok (.fmtqImm 3 0x89ABCDEF 0x13572468)
    ∧ Decode.words [0x30006606, 0xB749AA46] = .ok (.mma64 6 3 0x246 0x135 5 1 0x2D)
    ∧ Decode.words [0x30006607, 0xB749A800, 0x00020800] = .ok (.mma96 6 3 0 0x135 5 1 0x2D 1 0 4 0)
    ∧ Decode.words [0x3000660A, 0xB749AA46] = .ok (.mmam64 6 3 0x246 0x135 5 1 0x2D)
    ∧ Decode.words [0x3000660B, 0xB7400246, 0x00104000] = .ok (.mmam96 6 3 0x246 0 5 1 0x2D 0 2 0 2)
    ∧ Decode.words [0x3005660D] = .ok (.mzero 6 3 5)
    ∧ Decode.words [0x31556612, 0x13400000] = .ok (.mrd 6 3 0x155 5 1 2)
    ∧ Decode.words [0x30006616, 0x13400246] = .ok (.mwr 6 3 0x246 5 1 2)
    ∧ Decode.words [0x3000661A, 0x07400246] = .ok (.mred 6 3 0x246 5 1 1)
    ∧ Decode.words [0x3000661E, 0x0F400246] = .ok (.mscan 6 3 0x246 5 1 1 1)
    ∧ Decode.words [0x30006622, 0x01400246] = .ok (.mtrn 6 3 0x246 5) := by
  and_intros <;> rfl

theorem test_words_vector_1 :
    Decode.words [0x39556802, 0xB800EA46] = .ok (.vadd 6 3 0x155 1 0x246 0x1D 0 2 3 1)
    ∧ Decode.words [0x31556806, 0xB809AA46] = .ok (.vsub 6 3 0x155 0 0x246 0x135 0 2 3 1)
    ∧ Decode.words [0x3155680A, 0xB809AA46] = .ok (.vmul 6 3 0x155 0 0x246 0x135 0 2 3 1)
    ∧ Decode.words [0x3155680F, 0xB809AA46, 0x000002AA] = .ok (.vfma 6 3 0x155 0 0x246 0x135 0 2 3 1 0x2AA)
    ∧ Decode.words [0x31556813, 0xB809AA46, 0x000002AA] = .ok (.vfms 6 3 0x155 0 0x246 0x135 0 2 3 1 0x2AA)
    ∧ Decode.words [0x31556816, 0x0809AA46] = .ok (.vmin 6 3 0x155 0 0x246 0x135 0 2 0)
    ∧ Decode.words [0x3155681A, 0x8909AA46] = .ok (.vmax 6 3 0x155 0 0x246 0x135 4 2 1)
    ∧ Decode.words [0x3155681E, 0x08000246] = .ok (.vabs 6 3 0x155 0x246 0 2 0)
    ∧ Decode.words [0x31556822, 0x08000246] = .ok (.vneg 6 3 0x155 0x246 0 2 0)
    ∧ Decode.words [0x31556827, 0x0809AA46, 0x000002AA] = .ok (.vclamp 6 3 0x155 0x246 0x135 0 2 0 0x2AA)
    ∧ Decode.words [0x3044682A, 0x40900866] = .ok (.vcvt 6 3 0x44 0x66 1 2 2 1)
    ∧ Decode.words [0x3155682E, 0x0809AA46] = .ok (.vand 6 3 0x155 0 0x246 0x135 0 2)
    ∧ Decode.words [0x31556832, 0x0809AA46] = .ok (.vor 6 3 0x155 0 0x246 0x135 0 2)
    ∧ Decode.words [0x31556836, 0x0809AA46] = .ok (.vxor 6 3 0x155 0 0x246 0x135 0 2)
    ∧ Decode.words [0x3155683A, 0x08000246] = .ok (.vnot 6 3 0x155 0x246 0 2)
    ∧ Decode.words [0x3155683E, 0x0809AA46] = .ok (.vshl 6 3 0x155 0 0x246 0x135 0 2)
    ∧ Decode.words [0x31556842, 0x0809AA46] = .ok (.vshr 6 3 0x155 0 0x246 0x135 0 2)
    ∧ Decode.words [0x31556846, 0x0809AA46] = .ok (.vsar 6 3 0x155 0 0x246 0x135 0 2)
    ∧ Decode.words [0x3155684A, 0x3809AA46] = .ok (.vcmp 6 3 0x155 0 0x246 0x135 0 2 3)
    ∧ Decode.words [0x3955684F, 0x0800F246, 0x000002AA] = .ok (.vsel 6 3 0x155 1 0x246 0x1E 0 2 0x2AA)
    ∧ Decode.words [0x31556852, 0x08000246] = .ok (.vmov 6 3 0x155 0 0x246 0 0 2)
    ∧ Decode.words [0x31556857, 0x08000000, 0x13572468] = .ok (.vmovi 6 3 0x155 0 2 0x13572468)
    ∧ Decode.words [0x3155685A, 0x0803FA46] = .ok (.vrotr 6 3 0x155 0 0x246 0x7F 0 2)
    ∧ Decode.words [0x3955685E, 0x0800FA46] = .ok (.vrotc 6 3 0x155 1 0x246 0x1F 0 2) := by
  and_intros <;> rfl

theorem test_words_vector_2 :
    Decode.words [0x31556862, 0x08020A46] = .ok (.vbcr 6 3 0x155 0 0x246 0x41 0 2)
    ∧ Decode.words [0x31556866, 0x08020246] = .ok (.vbcc 6 3 0x155 0 0x246 0x40 0 2)
    ∧ Decode.words [0x3155686A, 0x0809AA46] = .ok (.vshuf 6 3 0x155 0x246 0x135 0 2)
    ∧ Decode.words [0x3155686E, 0xB809A000] = .ok (.vgath 6 3 0x155 0x134 0 2 3 1)
    ∧ Decode.words [0x30006872, 0x3809AA46] = .ok (.vscat 6 3 0x246 0x135 0 2 3 0)
    ∧ Decode.words [0x31556876, 0xB8000246] = .ok (.vexp2 6 3 0x155 0x246 0 2 3 1)
    ∧ Decode.words [0x3155687A, 0xB8000246] = .ok (.vlog2 6 3 0x155 0x246 0 2 3 1)
    ∧ Decode.words [0x3155687E, 0xB8000246] = .ok (.vrcp 6 3 0x155 0x246 0 2 3 1)
    ∧ Decode.words [0x31556882, 0xB8000246] = .ok (.vrsq 6 3 0x155 0x246 0 2 3 1)
    ∧ Decode.words [0x31556886, 0xB8000246] = .ok (.vsin 6 3 0x155 0x246 0 2 3 1)
    ∧ Decode.words [0x3155688A, 0xB8000246] = .ok (.vcos 6 3 0x155 0x246 0 2 3 1)
    ∧ Decode.words [0x3155688E, 0xB8000246] = .ok (.vtanh 6 3 0x155 0x246 0 2 3 1)
    ∧ Decode.words [0x31556892, 0x80000246] = .ok (.vpack 6 3 0x155 0x246 1)
    ∧ Decode.words [0x31556896, 0x80000246] = .ok (.vunpk 6 3 0x155 0x246 1)
    ∧ Decode.words [0x30C8689A, 0x88142008] = .ok (.vqnt 6 3 0xC8 8 0x84 2 0 2 1)
    ∧ Decode.words [0x3000689E, 0x0000001B] = .ok (.vseed 6 3 0x1B) := by
  and_intros <;> rfl

theorem test_words_sequence :
    Decode.words [0x305B6A02, 0x000000E3] = .ok (.attn 6 3 0xB 5 3 0xE)
    ∧ Decode.words [0x305B6A06, 0x04D79100] = .ok (.kvapp 6 3 0xB 5 0x100 0x2F2 0x13)
    ∧ Decode.words [0x30406A0A, 0x16C09246] = .ok (.rope 6 3 0x40 0x246 0x12 0xB 1 2)
    ∧ Decode.words [0x306B6A0E, 0x00000000] = .ok (.spanopen 6 3 0xB 6)
    ∧ Decode.words [0x300B6A12, 0x00000000] = .ok (.spanclose 6 3 0xB)
    ∧ Decode.words [0x30DB6A16, 0x0000005A] = .ok (.retspan 6 3 0xB 5 1 0x5A)
    ∧ Decode.words [0x305B6A1E, 0x0000005A] = .ok (.kvpromo 6 3 0xB 5 0x5A)
    ∧ Decode.words [0xAA8B3A1A, 0x00000005] = .ok (.seqq 3 0x15 0xA 0xB 5) := by
  and_intros <;> rfl

theorem test_words_tasks :
    Decode.words [0xAA853C02, 0x00000000] = .ok (.spawn 3 0x15 0xA 5)
    ∧ Decode.words [0xAA853C06, 0x00000000] = .ok (.spawnRec 3 0x15 0xA 5)
    ∧ Decode.words [0xA8013C0A, 0x0000C0DE] = .ok (.depdec 3 0x15 0 1 0xC0DE)
    ∧ Decode.words [0xAA803C1A, 0x00000004] = .ok (.taskq 3 0x15 0xA 4)
    ∧ Decode.words [0x00003C0D] = .ok (.commit 3)
    ∧ Decode.words [0x00003C11] = .ok (.exit 3)
    ∧ Decode.words [0x00063C15] = .ok (.arrive 3 2 1)
    ∧ Decode.words [0x00153C21] = .ok (.racqP 3 5 2)
    ∧ Decode.words [0x00553C21] = .ok (.racqC 3 5 2)
    ∧ Decode.words [0x00103C25] = .ok (.rrelP 3 2)
    ∧ Decode.words [0x00503C25] = .ok (.rrelC 3 2)
    ∧ Decode.words [0xA8003C29] = .ok (.tokq 3 0x15)
    ∧ Decode.words [0xAA833C2E, 0x00000006] = .ok (.put 3 0x15 0xA 3 6)
    ∧ Decode.words [0x30056C42, 0x89ABCDEF] = .ok (.intk 6 3 5 0x89ABCDEF)
    ∧ Decode.words [0xA8053C46, 0x0000000B] = .ok (.sumprd 3 0x15 5 0xB)
    ∧ Decode.words [0x35696C63, 0x89ABCDEF, 0x00000000] = .ok (.xsend 6 3 9 6 5 0x89ABCDEF)
    ∧ Decode.words [0x30B96C66, 0x00FEDCBA] = .ok (.xstep 6 3 0x19 5 0xFEDCBA)
    ∧ Decode.words [0xAA813C6A, 0x00000000] = .ok (.xsync 3 0x15 0xA 1) := by
  and_intros <;> rfl

theorem test_words_system :
    Decode.words [0xBEEF3E01] = .ok (.trap 3 0xBEEF)
    ∧ Decode.words [0xA8803E05] = .ok (.omcall 3 0x15 2)
    ∧ Decode.words [0xAA803E0A, 0x00000050] = .ok (.sysrd 3 0x15 0xA 0x50)
    ∧ Decode.words [0xAA803E0E, 0x00000050] = .ok (.syswr 3 0x15 0xA 0x50)
    ∧ Decode.words [0x00003E11] = .ok (.eret 3)
    ∧ Decode.words [0xA8003E15] = .ok (.waiti 3 0x15)
    ∧ Decode.words [0x00003E19] = .ok (.halt 3)
    ∧ Decode.words [0xAA8B3E1E, 0x00000006] = .ok (.decmap 3 0x15 0xA 0xB 6)
    ∧ Decode.words [0xAA853E22, 0x00000000] = .ok (.tlbinv 3 0x15 0xA 1 1)
    ∧ Decode.words [0xAA853E26, 0x00000000] = .ok (.otinv 3 0x15 0xA 1 1)
    ∧ Decode.words [0xA8053E2A, 0x00000000] = .ok (.migr 3 0x15 5)
    ∧ Decode.words [0xAA823E2E, 0x00000000] = .ok (.zerob 3 0x15 0xA 2)
    ∧ Decode.words [0xA8013E32, 0x000000C3] = .ok (.keyset 3 0x15 1 0xC3) := by
  and_intros <;> rfl

/-! ### Ill-formed terms that WellFormed refuses -/

/-- R282, R301 to R332: guard, width code, class, condition, format, rounding, slot and item codes. -/
theorem test_wf_scalar :
    Instr.wf (.add 8 1 2 3) = false ∧ Instr.wf (.sext 0 1 2 3) = false ∧ Instr.wf (.zext 0 1 2 31) = false
      ∧ Instr.wf (.mov 0 8 1 1 0) = false ∧ Instr.wf (.mov 0 1 4 0 2) = false ∧ Instr.wf (.mov 0 1 8 0 3) = false
      ∧ Instr.wf (.addi 0 1 1 3 0) = false ∧ Instr.wf (.addi 0 8 1 1 0) = false ∧ Instr.wf (.addi 0 1 4 2 0) = false
      ∧ Instr.wf (.cmp 0 1 2 11 1 0) = false ∧ Instr.wf (.cmp 0 1 2 0 0 32) = false
      ∧ Instr.wf (.fadd 0 1 2 2 3 0) = false ∧ Instr.wf (.fsqrt 0 1 2 0 4) = false ∧ Instr.wf (.fcmp 0 1 2 0 8 3) = false
      ∧ Instr.wf (.fcvt 0 1 2 8 2 0 0) = false ∧ Instr.wf (.fcvt 0 1 2 2 0xC1 0 0) = false
      ∧ Instr.wf (.br 0 15 0) = false ∧ Instr.wf (.loop 0 0 15 0) = false := by
  decide

/-- R329 to R359: handle, item, index, strength, operation and register codes. -/
theorem test_wf_memory :
    Instr.wf (.hld 0 1 1 0 8) = false ∧ Instr.wf (.hld 0 1 0 0 4096) = false ∧ Instr.wf (.hld 0 1 2 1 8) = false
      ∧ Instr.wf (.hqry 0 1 2 9) = false ∧ Instr.wf (.didx 0 1 2 0 1 5) = false ∧ Instr.wf (.dadd 0 1 2 0 0 5) = false
      ∧ Instr.wf (.dpad 0 1 1 5 0) = false ∧ Instr.wf (.lde 0 1 2 3 3 0) = false ∧ Instr.wf (.lde 0 1 2 3 1 1) = false
      ∧ Instr.wf (.ste 0 1 2 3 3) = false ∧ Instr.wf (.atom 0 1 2 3 0 4 10) = false ∧ Instr.wf (.fatom 0 1 2 3 4 3) = false
      ∧ Instr.wf (.atomnr 0 1 2 3 0 10 0) = false ∧ Instr.wf (.atomnr 0 1 2 3 0 3 1) = false
      ∧ Instr.wf (.atomnr 0 1 2 3 1 0 1) = false ∧ Instr.wf (.ldt 0 0 1 0 0 0 0) = false
      ∧ Instr.wf (.stt 0 0 1536 1 0 0 0) = false ∧ Instr.wf (.ldt 0 0 1 1 0 1 0) = false
      ∧ Instr.wf (.nbaxpy 0 0 1 2 3 0 4 0) = false ∧ Instr.wf (.nbscale 0 8 1 3 0 0 0) = false := by
  decide

/-- R372 to R411: matrix and vector operands, types, pairs and rounding codes. -/
theorem test_wf_engines :
    Instr.wf (.mma64 0 0 1536 0 0 0 0) = false ∧ Instr.wf (.mma96 0 0 1 0 0 0 0 1 0 0 0) = false
      ∧ Instr.wf (.mma96 0 0 0 0 0 0 0 1 0 8 0) = false ∧ Instr.wf (.mmam96 0 0 0 0 0 0 0 0 3 0 0) = false
      ∧ Instr.wf (.mrd 0 0 1536 0 0 0) = false ∧ Instr.wf (.vadd 0 0 0 0 0 0 9 0 0 0) = false
      ∧ Instr.wf (.vadd 0 0 1 0 0 0 2 0 0 0) = false ∧ Instr.wf (.vadd 0 0 0 1 0 32 0 0 0 0) = false
      ∧ Instr.wf (.vadd 0 0 0 0 0 0 0 0 5 0) = false ∧ Instr.wf (.vadd 0 0 0 0 0 0 3 0 1 0) = false
      ∧ Instr.wf (.vfma 0 0 0 0 0 0 2 0 0 0 1) = false ∧ Instr.wf (.vmin 0 0 0 0 0 0 0 0 1) = false
      ∧ Instr.wf (.vabs 0 0 0 0 1 0 1) = false ∧ Instr.wf (.vclamp 0 0 0 0 0 2 0 0 3) = false
      ∧ Instr.wf (.vcvt 0 0 1 0 2 0 0x41 0) = false ∧ Instr.wf (.vcvt 0 0 0 0 0x40 5 0x41 0) = false
      ∧ Instr.wf (.vcmp 0 0 0 0 0 0 3 0 7) = false ∧ Instr.wf (.vmov 0 0 0 1 1 0 0 0) = false
      ∧ Instr.wf (.vmov 0 0 0 0 0 1 0 0) = false ∧ Instr.wf (.vrotr 0 0 0 0 0 128 0 0) = false
      ∧ Instr.wf (.vgath 0 0 0 1 0 0 0 1) = false ∧ Instr.wf (.vexp2 0 0 0 0 0 0 5 0) = false
      ∧ Instr.wf (.vqnt 0 0 0 0 0x80 0 2 0 0) = false ∧ Instr.wf (.rope 0 0 1536 0 0 0 0 0) = false := by
  decide

/-- R441 to R473, and the events: items, scopes, kinds, ports, cores, slices and sizes. -/
theorem test_wf_tasks_and_events :
    Instr.wf (.seqq 0 1 2 3 0) = false ∧ Instr.wf (.seqq 0 1 2 3 7) = false ∧ Instr.wf (.depdec 0 1 2 1 0) = false
      ∧ Instr.wf (.depdec 0 1 2 0 1) = false ∧ Instr.wf (.taskq 0 1 2 6) = false ∧ Instr.wf (.tlbinv 0 1 2 2 0) = false
      ∧ Instr.wf (.otinv 0 1 2 3 0) = false ∧ Instr.wf (.zerob 0 1 2 4) = false ∧ Instr.wf (.selfRefreshIdle 14) = false
      ∧ Instr.wf (.plctlEnable 18) = false ∧ Instr.wf (.slstatClear 192 0) = false
      ∧ Instr.wf (.stepCounterWrite .MQ 640 0) = false ∧ Instr.wf (.fanswerKill 320 0 0) = false
      ∧ Instr.wf (.xfer 0 0 true (none, [])) = false ∧ Instr.wf (.lctlCredit 0 0 true 0 257) = false
      ∧ Instr.wf (.gangPrepare 0 0 true 0 []) = false ∧ Instr.wf (.pageWalkComplete 41 0) = false
      ∧ Instr.wf (.spoutGrant 192) = false ∧ Instr.wf (.nearbankStart 320 0 0) = false
      ∧ Instr.wf (.attnRequestStart 40 []) = false := by
  decide

/-- R279 to R283: a reserved bit, an opcode that map 1 does not list, a length that an operation does not have. -/
theorem test_decode_refuses :
    Decode.words [0x19ED0005] = .error (.reservedBits 1) ∧ Decode.words [0x00000001] = .error (.unmapped 0) := by
  and_intros <;> rfl

/-! ### States of the witnesses -/

/-- Core 0, context C, at an ADD in a line of its code cache. -/
def core0 : State := State.reset.withFetchWord 32 0x19EC0005
/-- System core 3. -/
def sys3 : State := { State.reset with turn := .sys 3 }

/-- A one-dimensional z64 object of 64 elements, in world 0 with every right, at VBASE 0x10000. -/
def entry0 : Entry := ⟨#[0x0000010403000000, 0, 0x77, 0x0000000100000040, 0x0000000100000001, 0x10000, 0, 0, 0xF, 0, 0, 0, 0, 0, 0, 0], rfl⟩
def handle0 : Word := 0x0000010000000005

/-- core0 with the object in h3, its entry in the object cache and its page in the TLB. -/
def objSt : State :=
  let s := core0.setH 3 handle0
  { s with objs := { s.objs with
      otCap := 1024
      units := [(0, { HandleUnit.initial with
        cache := [⟨5, 0, entry0, 0⟩], tlb := [⟨0x10000, false, 0x2000, 0x8000000000000001, false, 0, none⟩] })] } }

theorem quiet (s : State) (u : Uses) (hs : s.ctx.pendS = 0) (hp : s.ctx.pendP = 0) : Issues s 0 u := issues_quiet s u hs hp

/-- The entry of another generation, of world 7, and of an object that is lost. -/
def entryGen : Entry := entry0.set 0 0x0000020403000000
def entryLost : Entry := entry0.set 0 0x0000010803000000
def cached (e : Entry) : State :=
  { objSt with objs := { objSt.objs with units := [(0, { HandleUnit.initial with cache := [⟨5, 0, e, 0⟩] })] } }

/-- Page tables that map VA 0x10000 to frame 1 of HBM, and the table of objects with the object at index 5. -/
def pageTables : Memory :=
  mputWord (mputWord (mputWord (mputWord [] 0x100000 0x8000000000110000) 0x110000 0x8000000000120000) 0x120000 0x8000000000130000)
    0x130008 0x8000000000000001
def withTables (s : State) (e : Entry) : State :=
  { s with mem := mwrite pageTables 0x200280 (bytesOfWords e.toList),
           objs := { s.objs with otCap := 7, otBase := 0x200000, ptRoot := 0x100000 } }

/-- The object as a sequence. -/
def entrySeq : Entry := entry0.set 0 0x0000011403000000
/-- The object, pinned. -/
def entryPinned : Entry := entry0.set 0 0x0000010403002000

/-- A result that is compared as an option. -/
theorem okOf {ε α : Type} {r : Except ε α} {x : α} (h : (match r with | .ok y => some y | .error _ => none) = some x) : r = .ok x := by
  cases r with
  | ok y => exact congrArg _ (Option.some.inj h)
  | error e => cases h

/-- An error that is compared as an option. -/
theorem errOf {ε α : Type} {r : Except ε α} {x : ε} (h : (match r with | .ok _ => none | .error y => some y) = some x) : r = .error x := by
  cases r with
  | ok y => cases h
  | error e => exact congrArg _ (Option.some.inj h)

theorem gotOk {α : Type} {g : Got α} (h : (match g with | .ok _ _ => true | _ => false) = true) : ∃ t v, g = .ok t v := by
  cases g with
  | ok t v => exact ⟨t, v, rfl⟩
  | wait t => cases h
  | trap x => cases h
  | fault r => cases h

/-- Here, by evaluation. -/
theorem hereOf {s : State} {hs : List Word} (h : hs.all (fun h => h == 0 || hHome h == s.pkgNo) = true) : Here s hs := fun x hx => by
  have := List.all_eq_true.mp h x hx
  simp only [Bool.or_eq_true, beq_iff_eq] at this
  rcases this with e | e <;> simp [e]
/-! ### Hypotheses that are met: encoding, issue and the scalar families -/

theorem wit_DecodeEncode :
    Instr.wf (.vadd 15 9 1535 1 0 31 8 3 0 1) = false ∧ Instr.wf (.vadd 15 9 1534 1 0 31 8 3 0 1) = true
      ∧ 0 < Instr.size (.vadd 15 9 1534 1 0 31 8 3 0 1) := by decide

theorem wit_Steps :
    let s := { core0 with agenda := [] }
    s.runnable = true ∧ s.pos.line.toNat < s.nLines ∧ s.lineHeld s.pos.line = true
      ∧ s.lineBad (linkOf (s.lineBytes s.pos.line)) = false ∧ s.pos.slot ≠ 15 ∧ s.ctx.skip = false
      ∧ Decode.lenOf (slotWord (s.lineBytes s.pos.line) s.pos.slot.toNat) ≠ 0
      ∧ s.decodeAt (s.lineBytes s.pos.line) s.pos.slot.toNat = .ok (.add 0 3 7 22) ∧ s.agenda = []
      ∧ Instr.size .coldReset = 0 ∧ State.reset.agenda = [] ∧ State.reset.runnable = false := by
  refine ⟨by decide, by decide, by decide, by decide, by decide, by decide, by decide, rfl, rfl, rfl, rfl, by decide⟩

theorem wit_MemoryCanonicalKept : ∃ t, MemoryCanonical core0 ∧ step core0 = .next t := ⟨_, ⟨rfl, rfl⟩, rfl⟩

/-- A register and a predicate that await a result. -/
def awaiting : State := (core0.awaitS 3).awaitP 1
def fullBank : Bank :=
  let l := List.replicate 32 (default : Cmd)
  { core0.curBank with lq := l, mq := l, vq := l, sq := l, xq := l }
/-- The five queues of core 0 are full. -/
def fullQueues : State := core0.setCurBank fullBank

theorem wit_IssueConditions :
    (core0.guardHolds 1 = false ∧ core0.awaits 1 { s := [1, 2, 3] } = false ∧ core0.awaits 1 {} = false ∧ OnCore core0)
      ∧ (awaiting.awaits 0 { s := [3, 4, 5] } = true ∧ awaiting.awaits 0 { s := [2, 3] } = true
        ∧ awaiting.awaits 0 { s := [0, 4, 5], p := [1] } = true ∧ awaiting.awaits 1 {} = true)
      ∧ (OnCore fullQueues ∧ Issues fullQueues 0 (vbUses 1 7) ∧ Issues fullQueues 0 {}
        ∧ 32 ≤ (fullQueues.curBank.queue .LQ).length ∧ 32 ≤ (fullQueues.curBank.queue .SQ).length
        ∧ 32 ≤ (fullQueues.curBank.queue .MQ).length ∧ 32 ≤ (fullQueues.curBank.queue .VQ).length
        ∧ 32 ≤ (fullQueues.curBank.queue .XQ).length) :=
  ⟨⟨by decide, by decide, by decide, rfl⟩, by decide, rfl, quiet _ _ rfl rfl, quiet _ _ rfl rfl, by decide⟩

theorem wit_IssueCauses :
    OnCore core0 ∧ OnSys sys3 ∧ OnCore State.reset ∧ State.reset.committed = false ∧ State.reset.guardHolds 0 = true
      ∧ State.reset.ctx.pendS = 0 ∧ State.reset.ctx.pendP = 0 := by
  refine ⟨rfl, rfl, rfl, by decide, by decide, rfl, rfl⟩

theorem wit_TakingACause :
    (core0.bank 0 0).fault = none ∧ ∃ fi, ((core0.trap (trapOf Cause.priv)).bank 0 0).fault = some fi := ⟨rfl, _, rfl⟩

theorem wit_SystemException : sys3.turn = .sys 3 ∧ Issues sys3 0 {} := ⟨rfl, quiet _ _ rfl rfl⟩

/-- IntegerArithmetic, BitOperations, Immediates and the other statements that ask only that the instruction issues. -/
theorem wit_Issues :
    Issues core0 0 { s := [1, 2, 3] } ∧ Issues core0 0 { s := [31, 0] } ∧ Issues core0 0 {} ∧ Issues core0 0 { s := [4], p := [1, 2, 3] } :=
  ⟨quiet _ _ rfl rfl, quiet _ _ rfl rfl, quiet _ _ rfl rfl, quiet _ _ rfl rfl⟩

/-- R305: s1 = −2^63, s2 = −1, s3 = 7. -/
def divSt : State := ((core0.setS 1 0x8000000000000000).setS 2 (BitVec.allOnes 64)).setS 3 7

theorem wit_Division :
    Issues divSt 0 { s := [5, 1, 2] } ∧ divSt.getS 0 = 0
      ∧ (divSt.getS 1 = 0x8000000000000000 ∧ divSt.getS 2 = BitVec.allOnes 64)
      ∧ (divSt.getS 2 ≠ 0 ∧ ¬(divSt.getS 3 = 0x8000000000000000 ∧ divSt.getS 2 = BitVec.allOnes 64))
      ∧ (divSt.getS 3 ≠ 0 ∧ ¬(divSt.getS 1 = 0x8000000000000000 ∧ divSt.getS 3 = BitVec.allOnes 64)) :=
  ⟨quiet _ _ rfl rfl, by decide⟩

theorem wit_ShiftsAndMinMax : Issues divSt 0 { s := [5, 1, 3] } ∧ (divSt.getS 3).toNat % 64 = 7 ∧ (divSt.getS 2).toNat % 64 = 63 :=
  ⟨quiet _ _ rfl rfl, by decide⟩

theorem wit_BitOperations :
    Issues divSt 0 { s := [5, 1] } ∧ divSt.getS 0 = 0 ∧ divSt.getS 1 ≠ 0 ∧ 64 < (1 : BitVec 6).toNat + ((63 : BitVec 6).toNat + 1)
      ∧ (1 : BitVec 6).toNat + ((62 : BitVec 6).toNat + 1) ≤ 64 :=
  ⟨quiet _ _ rfl rfl, by decide⟩

theorem wit_Immediates : Issues divSt 0 { s := [5, 1] } ∧ Issues divSt 0 {} ∧ Issues divSt 0 { s := [5] } :=
  ⟨quiet _ _ rfl rfl, quiet _ _ rfl rfl, quiet _ _ rfl rfl⟩

theorem wit_MovesAndPredicates :
    Issues divSt 0 { s := (usesClass 0 5).s ++ (usesClass 3 1).s, p := (usesClass 0 5).p ++ (usesClass 3 1).p }
      ∧ Issues divSt 0 { s := [5, 1, 2], p := [0] } ∧ Issues divSt 0 { s := [1], p := [1] }
      ∧ Issues divSt 0 { s := [1, (2 : U32).setWidth 5], p := [1] } ∧ (10 : BitVec 4).toNat < 11 ∧ Issues divSt 0 { p := [1, 2, 3] } :=
  ⟨quiet _ _ rfl rfl, quiet _ _ rfl rfl, quiet _ _ rfl rfl, quiet _ _ rfl rfl, by decide, quiet _ _ rfl rfl⟩

theorem wit_HardWiredRegisters : (31 : BitVec 5) ≠ 0 ∧ (7 : BitVec 3) ≠ 0 ∧ (30 : BitVec 5) ≠ 31 ∧ (1 : BitVec 3) ≠ 7 := by decide

theorem wit_ScalarFloat :
    Issues divSt 0 { s := [5, 1, 2, 3] } ∧ Issues divSt 0 { s := [1, 2], p := [1] }
      ∧ (fval 0 (divSt.getS 2)).isNan = true ∧ (fval 0 (divSt.getS 1)).isNan = false ∧ (fval 1 (divSt.getS 3)).isNan = false :=
  ⟨quiet _ _ rfl rfl, quiet _ _ rfl rfl, by decide, by decide, by decide⟩

theorem wit_Branches :
    core0.branchTo 0 0 = .goto core0 { line := 0, slot := 0 } ∧ core0.nLines = 2 ∧ core0.lineHeld 0 = true
      ∧ core0.lineBad (linkOf (core0.lineBytes 0)) = false ∧ startsInstr (core0.lineBytes 0) 0 15 0 = true
      ∧ startsInstr (core0.lineBytes 0) 1 15 0 = false
      ∧ ((core0.pos.line.toNat : Int) + (-1 : BitVec 28).toInt < 0 ∧ (core0.nLines : Int) ≤ core0.pos.line.toNat + (2 : BitVec 28).toInt
        ∧ (0 : Int) ≤ core0.pos.line.toNat + (1 : BitVec 28).toInt ∧ (core0.pos.line.toNat : Int) + (1 : BitVec 28).toInt < core0.nLines) :=
  ⟨rfl, by decide⟩

/-- The branch to its own line is at hand; s2 is zero and s1 is not; p1 holds or does not. -/
theorem wit_BranchesTaken :
    AtHand divSt 0 0 ∧ Issues divSt 0 {} ∧ Issues divSt 0 { p := [1] } ∧ Issues divSt 0 { s := [1] } ∧ divSt.getS 1 ≠ 0 ∧ divSt.getS 5 = 0
      ∧ divSt.getP 1 = ((1 : BitVec 1) == 0) ∧ divSt.getP 1 ≠ ((0 : BitVec 1) == 0) :=
  ⟨by unfold AtHand; decide, quiet _ _ rfl rfl, quiet _ _ rfl rfl, quiet _ _ rfl rfl, by decide, by decide, by decide, by decide⟩

/-- A return stack of one position, and lc1 = 2, lc2 = 1. -/
def retSt : State :=
  core0.setCtx { (core0.ctx.setLc 1 2).setLc 2 1 with ret := [{ line := 1, slot := 3 }] }

theorem wit_CallsAndLoops :
    Issues retSt 0 {} ∧ AtHand retSt 0 0 ∧ retSt.branchTo 0 0 = .goto retSt { line := 0, slot := 0 } ∧ core0.ctx.ret = []
      ∧ retSt.ctx.ret = [{ line := 1, slot := 3 }] ∧ 1 < (retSt.ctx.getLc 1).toNat ∧ (retSt.ctx.getLc 2).toNat ≤ 1
      ∧ (retSt.ctx.getLc 0).toNat ≤ 1 :=
  ⟨quiet _ _ rfl rfl, by unfold AtHand; decide, rfl, by decide⟩

theorem wit_ScalarFrame :
    dest (.sel 0 9 1 0 2) = some (.s 9) ∧ dest (.mov 0 3 1 2 0) = some (.lc 3) ∧ dest (.cmp 0 7 1 0 1 0) = some (.p 7)
      ∧ ∃ t, exec (.addi 0 5 2 1 4) core0 = .next t := ⟨rfl, rfl, rfl, _, rfl⟩

/-! ### Hypotheses that are met: scratchpad, descriptors and objects -/

/-- core0 with a task record whose parameter image has 16 bytes. -/
def paramSt : State := core0.putTask 0 { (default : Task) with paramLen := 16 }

theorem wit_ParametersAndScratchpad :
    Issues paramSt 0 { s := [4] } ∧ (4 : BitVec 12).toNat % 2 ^ (3 : BitVec 2).toNat ≠ 0
      ∧ ((8 : BitVec 12).toNat % 8 = 0 ∧ (8 : BitVec 12).toNat + 8 ≤ paramSt.paramOf.2)
      ∧ ((16 : BitVec 12).toNat % 8 = 0 ∧ paramSt.paramOf.2 < (16 : BitVec 12).toNat + 8)
      ∧ paramSt.scrOff 0 1 % 2 ≠ 0 ∧ (paramSt.scrOff 0 4194304 % 8 = 0 ∧ paramSt.scrSize < paramSt.scrOff 0 4194304 + 8)
      ∧ (paramSt.scrOff 0 4194296 % 8 = 0 ∧ paramSt.scrOff 0 4194296 + 8 ≤ paramSt.scrSize)
      ∧ ((8 : U32).toNat < 4096 ∧ (8 : U32).toNat % 8 = 0 ∧ (8 : U32).toNat + 8 ≤ paramSt.paramOf.2)
      ∧ ((4088 : U32).toNat < 4096 ∧ (4088 : U32).toNat % 8 = 0 ∧ paramSt.paramOf.2 < (4088 : U32).toNat + 8) :=
  ⟨quiet _ _ rfl rfl, by decide⟩

theorem wit_ScratchpadStore :
    Issues core0 0 { s := [4] } ∧ core0.scrOff 0 0xFFFFFFFF % 2 ≠ 0
      ∧ (core0.scrOff 0 4194304 % 8 = 0 ∧ core0.scrSize < core0.scrOff 0 4194304 + 8)
      ∧ (core0.scrOff 0 4194296 % 8 = 0 ∧ core0.scrOff 0 4194296 + 8 ≤ core0.scrSize) :=
  ⟨quiet _ _ rfl rfl, by decide⟩

theorem wit_DescriptorsAndQueries :
    Issues objSt 0 {} ∧ OnCore objSt ∧ shapeBad 0 64 = true ∧ shapeBad 65 1 = true ∧ shapeBad 64 1 = false
      ∧ Issues objSt 0 { s := [5] } ∧ (∃ t, Finds objSt t 3 entry0) ∧ rightsOf entry0 objSt.world.toNat ≠ 0 :=
  ⟨quiet _ _ rfl rfl, rfl, by decide, by decide, by decide, quiet _ _ rfl rfl, ⟨_, rfl⟩, by decide⟩

theorem wit_HandleChecks :
    576 ≤ hHome 0x0000009000000000 ∧ (hHome 0x400 = objSt.pkgNo ∧ objSt.objs.otCap ≤ hIndex 0x400)
      ∧ (handle0 ≠ 0 ∧ hHome handle0 < 576 ∧ (hHome handle0 = objSt.pkgNo → hIndex handle0 < objSt.objs.otCap))
      ∧ (∀ c ∈ (core0.hunit 0).cache, c.index.toNat ≠ hIndex handle0 ∨ c.home.toNat ≠ hHome handle0)
      ∧ (objSt.asker .C).unit = 0
      ∧ (((cached entryGen).hunit 0).cache = [⟨5, 0, entryGen, 0⟩] ∧ eGen entryGen ≠ hGen handle0)
      ∧ (((cached entryLost).hunit 0).cache = [⟨5, 0, entryLost, 0⟩] ∧ eGen entryLost = hGen handle0
        ∧ eOwner entryLost = hWorld handle0 ∧ eState entryLost = 2)
      ∧ ((objSt.hunit 0).cache = [⟨5, 0, entry0, 0⟩] ∧ eGen entry0 = hGen handle0 ∧ eOwner entry0 = hWorld handle0 ∧ eState entry0 = 1) := by
  refine ⟨by decide, by decide, by decide, by decide, rfl, ⟨rfl, by decide⟩, ⟨rfl, by decide⟩, ⟨rfl, by decide⟩⟩

/-- s4 holds the index 63, the last of the object, and s5 the index 64, outside it. -/
def idxSt : State := (objSt.setS 4 63).setS 5 64

theorem wit_ElementAccesses :
    Issues idxSt 0 { s := [9, 4] } ∧ (∃ t, Reaches idxSt t 3 (idxSt.getS 5) needLoad entry0 none)
      ∧ (∃ t p, Reaches idxSt t 3 (idxSt.getS 4) needLoad entry0 (some p)
        ∧ t.inBasin (idxSt.asker .C) p.handle entry0 p.va.toNat = false)
      ∧ (∃ t p, Reaches idxSt t 3 (idxSt.getS 4) (needStrong false) entry0 (some p))
      ∧ (∃ t, Reaches idxSt t 3 (idxSt.getS 5) needStore entry0 none)
      ∧ (∃ t p, Reaches idxSt t 3 (idxSt.getS 4) needStore entry0 (some p))
      ∧ (∃ t p, Reaches idxSt t 3 (idxSt.getS 4) (needStrong true) entry0 (some p)) :=
  ⟨quiet _ _ rfl rfl, ⟨_, _, rfl, rfl⟩, ⟨_, _, ⟨_, rfl, rfl⟩, rfl⟩, ⟨_, _, _, rfl, rfl⟩, ⟨_, _, rfl, rfl⟩, ⟨_, _, _, rfl, rfl⟩,
    ⟨_, _, _, rfl, rfl⟩⟩

/-- A z32 object, and a template that world 0 may launch, in h4. -/
def entryZ32 : Entry := entry0.set 0 0x0000010402000000
def entryTmpl : Entry := entry0.set 0 0x0000010400000000 |>.set 8 0x9 |>.set 0 0x0000012400000000
def atomSt (e : Entry) : State :=
  let s := idxSt.setH 4 0x0000010000000006
  { s with objs := { s.objs with
      units := [(0, { s.hunit 0 with cache := [⟨5, 0, e, 0⟩, ⟨6, 0, entryTmpl, 0⟩] })] } }

theorem wit_Atomics :
    Committed idxSt ∧ (∃ t p, Reaches idxSt t 3 (idxSt.getS 4) (needStrong true (accessWidth 1)) entry0 (some p))
      ∧ Issues idxSt 0 { s := [9, 4, 2] } ∧ Issues idxSt 0 { s := [9, 4, 2, 6], p := [1] }
      ∧ (∃ t p, Reaches (atomSt entryZ32) t 3 ((atomSt entryZ32).getS 4) (needStrong true 32) entryZ32 (some p))
      ∧ (∃ r, Finds (atomSt entry0) r 4 entryTmpl ∧ hasRight entryTmpl (atomSt entry0).world.toNat rightL = true ∧ eKind entryTmpl = 2
        ∧ r.getH 3 = (atomSt entry0).getH 3 ∧ r.asker .C = (atomSt entry0).asker .C
        ∧ (∃ t p, Reaches r t 3 ((atomSt entry0).getS 4) (needStrong true (accessWidth 1)) entry0 (some p))
        ∧ r.getS 4 = (atomSt entry0).getS 4)
      ∧ ((2 : Nat) ^ 32 - 1 < 2 ^ 32 ∧ (0 : Nat) < 2 ^ 64) :=
  ⟨.inr rfl, ⟨_, _, _, rfl, rfl⟩, quiet _ _ rfl rfl, quiet _ _ rfl rfl, ⟨_, _, _, rfl, rfl⟩,
    ⟨_, rfl, by decide, by decide, rfl, rfl, ⟨_, _, _, rfl, rfl⟩, rfl⟩, by decide⟩

/-- An object of two buffers, without a draft and with one of task 9. -/
def entry2 : Entry := entry0.set 0 0x0000010403040000
def verSt : State := atomSt entry2
def draftSt : State :=
  let s := { verSt with objs := { verSt.objs with drafts := [(objKey handle0, { (default : Draft) with task := 9 })] } }
  s.setCurBank { s.curBank with run := some { probeRun with task := 9 } }
def fencing : State := core0.setCtx { core0.ctx with fence := some 3 }

theorem wit_VersionsAndFences :
    (∃ t, FindsVersion objSt t 3 entry0 ∧ t.openPending (objSt.asker .C) (objSt.getH 3) = false ∧ eBufs entry0 = 1
        ∧ t.subsAt (objSt.getH 3) < 4096)
      ∧ Committed objSt ∧ Issues objSt 0 { s := [1, 2] }
      ∧ (∃ t, FindsVersion verSt t 3 entry2 ∧ 1 < eBufs entry2 ∧ t.draftOf (verSt.getH 3) = none
        ∧ t.openPending (verSt.asker .C) (verSt.getH 3) = false)
      ∧ (∃ t d, FindsVersion draftSt t 3 entry2 ∧ t.draftOf (draftSt.getH 3) = some d ∧ d.task = (draftSt.asker .C).task
        ∧ (draftSt.asker .C).task ≠ 0)
      ∧ (fencing.ctx.fence = some 3 ∧ fencing.fenceMet (fencing.asker .C) 1 3 = true ∧ Issues fencing 0 {}) :=
  ⟨⟨_, ⟨_, rfl, by decide, rfl⟩, rfl, by decide, by decide⟩, .inr rfl, quiet _ _ rfl rfl,
    ⟨_, ⟨_, rfl, by decide, rfl⟩, by decide, rfl, rfl⟩, ⟨_, _, ⟨_, rfl, by decide, rfl⟩, rfl, rfl, by decide⟩,
    rfl, rfl, quiet _ _ rfl rfl⟩

/-- s1 holds the format word of 15_isa_matrix.md, and s2 one with a reserved bit set. -/
def fmtSt : State := (core0.setS 1 0x007B7F7F048A8484).setS 2 0x017B7F7F048A8484
def fmtFull : State := fmtSt.setCurBank { fmtSt.curBank with fmtq := List.replicate 16 (0, 0, 0x007B7F7F048A8484) }

theorem wit_FormatQueue :
    OnCore fmtSt ∧ Issues fmtSt 0 { s := [1] } ∧ Issues fmtSt 0 {} ∧ fwOk (fmtSt.getS 2) = false ∧ fwOk (fmtSt.getS 1) = true
      ∧ fmtSt.curBank.fmtq.length < 16 ∧ 16 ≤ fmtFull.curBank.fmtq.length ∧ fwOk (fmtFull.getS 1) = true
      ∧ fwOk ((0x007B7F7F : U32) ++ (0x048A8484 : U32)) = true ∧ fwOk ((0x017B7F7F : U32) ++ (0x048A8484 : U32)) = false :=
  ⟨rfl, quiet _ _ rfl rfl, quiet _ _ rfl rfl, by decide, by decide, by decide, by decide, by decide, by decide, by decide⟩

/-! ### Hypotheses that are met: tasks, rings, system instructions -/

/-- s7 holds a count, s8 a multiple of 65,536, and a1 a scratchpad offset that is not one of a block. -/
def taskSt : State := ((core0.setS 7 5).setS 8 65536).setA 1 8

theorem wit_Spawning :
    Issues taskSt 0 { s := [1, 7] } ∧ Committed taskSt ∧ (taskSt.getA 1).toNat % 64 ≠ 0
      ∧ ((taskSt.getA 0).toNat % 64 = 0 ∧ (taskSt.getA 0).toNat + 64 ≤ taskSt.scrSize)
      ∧ (taskSt.getS 7).toNat % 65536 ≠ 0 ∧ Issues taskSt 0 {} ∧ OnCore taskSt
      ∧ (taskSt.curBank.run = some probeRun ∧ probeRun.nbars ≤ 4 ∧ (3 : BitVec 2).toNat < probeRun.nbars)
      ∧ ({ probeRun with nbars := 3 }.nbars ≤ (3 : BitVec 2).toNat) :=
  ⟨quiet _ _ rfl rfl, .inr rfl, by decide, by decide, by decide, quiet _ _ rfl rfl, rfl, ⟨rfl, by decide⟩, by decide⟩

/-- Package 0 has a record of task 0, which has ended; s9 names a task of package 1. -/
def endedSt : State := (core0.putTask 0 { (default : Task) with st := .ended }).setS 9 0x0000004000000000

theorem wit_CommitExitAndQueries :
    Issues endedSt 0 {} ∧ OnCore endedSt ∧ endedSt.curBank.run = some probeRun ∧ Issues endedSt 0 { s := [5, 9] }
      ∧ tidPkg endedSt.taskId = endedSt.pkgNo ∧ tidPkg (endedSt.getS 9) ≠ endedSt.pkgNo ∧ core0.task? 0 = none
      ∧ (∃ k, endedSt.task? 0 = some k ∧ k.st = .ended)
      ∧ (∃ k, (sys3.putTask 0 default).task? 0 = some k ∧ k.st ≠ .ended ∧ (sys3.putTask 0 default).isSys = true)
      ∧ Committed endedSt ∧ endedSt.scrCause (endedSt.getA 0).toNat 64 64 = none ∧ (endedSt.chain 0).sump = []
      ∧ ((endedSt.setChain 2 { Chain.initial with sump := [(0, .replicate 8 3)] }).chain 2).sump = [(0, .replicate 8 3)] :=
  ⟨quiet _ _ rfl rfl, rfl, rfl, quiet _ _ rfl rfl, by decide, by decide, rfl, ⟨_, rfl, rfl⟩, ⟨_, rfl, by decide, rfl⟩, .inr rfl,
    by decide, rfl, rfl⟩

theorem wit_SequenceQuery :
    let s := cached entrySeq
    let t : State := { s with objs := { s.objs with units := [(0, { s.hunit 0 with tlb := (objSt.hunit 0).tlb })] } }
    Issues t 0 { s := [1, 2] } ∧ ∃ u, t.sequence (t.asker .C) (t.getH 3) rightR = .ok u entrySeq :=
  ⟨quiet _ _ rfl rfl, _, rfl⟩

/-- A ring end of task 0 with four slots: slot 0 held by its producer and slot 1 by its consumer. -/
def ring0 (st : SlotState) : RingEnd :=
  { task := 0, k := 2, kind := .loc, size := 128, base := 0, slots := [.prod, .cons, st, .free], pptr := 2, cptr := 2, heldP := [0], heldC := [1],
    outside := [], pend := [], puts := [], xfer := [] }
def ringSt (e : RingEnd) : State := core0.setCore 0 { core0.core 0 with rings := [e] }

theorem wit_Rings :
    OnCore (ringSt (ring0 .free)) ∧ Issues (ringSt (ring0 .free)) 0 {} ∧ core0.myEnd 2 = none
      ∧ (ringSt (ring0 .free)).myEnd 2 = some (ring0 .free) ∧ (ringSt (ring0 .full)).myEnd 2 = some (ring0 .full)
      ∧ ((ring0 .free).kind ≠ .consumer ∧ (ring0 .free).off 2 + 128 ≤ (ringSt (ring0 .free)).scrSize ∧ (ring0 .free).at_ 2 = .free)
      ∧ (ring0 .full).at_ 2 ≠ .free ∧ ((ring0 .full).kind ≠ .producer ∧ (ring0 .full).at_ 2 = .full) ∧ (ring0 .free).at_ 2 ≠ .full
      ∧ (ring0 .free).heldP = [0] ∧ (ring0 .free).heldC = [1] ∧ ({ ring0 .free with heldP := [], heldC := [] }).heldP = []
      ∧ (∀ j < 10, core0.curBank.token j < 16) ∧ (ringSt (ring0 .free)).scrCause 0 128 64 = none :=
  ⟨rfl, quiet _ _ rfl rfl, rfl, rfl, rfl, by decide, by decide, by decide, by decide, rfl, rfl, rfl, by decide, by decide⟩

/-- A block at scratchpad offset 0 whose words 3 and 4 name element 63 of the object in h3. -/
def omSt (omcalls : List OmCmd) : State :=
  let s := objSt.scrWrite 0 (bytesOfWords [0, 0, 0, handle0, 63, 0, 0, 0])
  { s with host := { s.host with omcalls } }

theorem wit_TimeTrapAndCalls :
    Issues taskSt 0 { s := [1, 7] } ∧ (taskSt.getS 0).toNat % 2 ^ 63 ≤ taskSt.tether.toNat % 2 ^ 63
      ∧ taskSt.tether.toNat % 2 ^ 63 < (taskSt.getS 7).toNat % 2 ^ 63 ∧ OnCore taskSt ∧ sys3.turn = .sys 3 ∧ Issues sys3 0 {}
      ∧ (omSt []).scrCause ((omSt []).getA 0).toNat 64 64 = none
      ∧ (∃ t, (omSt []).resultElem ((omSt []).asker .C) handle0 63 = .ok t true ∧ t.host.omcalls.length < 1024)
      ∧ (∃ t, (omSt []).resultElem ((omSt []).asker .C) handle0 64 = .ok t false)
      ∧ wordAt ((omSt []).scrRead 0 64) 3 = handle0
      ∧ 1024 ≤ (omSt (List.replicate 1024 default)).host.omcalls.length :=
  ⟨quiet _ _ rfl rfl, by decide, by decide, rfl, rfl, quiet _ _ rfl rfl, by decide, ⟨_, rfl, by decide⟩, ⟨_, rfl⟩, by decide,
    Nat.le_of_eq (List.length_replicate (n := 1024) (a := (default : OmCmd))).symm⟩

/-- System core 3 with a latched event, and one that executes an invalidation. -/
def sysLatched : State := sys3.setSys 3 { sys3.sysCore 3 with latched := 4 }
def sysFence : State := sys3.setSys 3 { sys3.sysCore 3 with ctx := { (sys3.sysCore 3).ctx with fence := some 0 } }

theorem wit_SystemRegisters :
    Issues core0 0 { s := [1, 0] } ∧ OnCore core0 ∧ core0.getS 0 = 0 ∧ (5 : BitVec 12).toNat < 6 ∧ sys3.turn = .sys 3
      ∧ Issues sys3 0 { s := [1, 2] } ∧ sysInstances 0x035 = some 1 ∧ (sys3.getS 2).toNat < 1 ∧ 6 ≤ (0x035 : BitVec 12).toNat
      ∧ sysInstances 0x006 = none ∧ sysInstances 0x050 = some 1 ∧ (sys3.sysCore 3).latched = 0 ∧ (sysLatched.sysCore 3).latched ≠ 0 :=
  ⟨quiet _ _ rfl rfl, rfl, by decide, by decide, rfl, quiet _ _ rfl rfl, rfl, by decide, by decide, rfl, rfl, rfl, by decide⟩

/-- System core 3 with a block that names VA 0x10000 of the object, to tier 1, in its scratchpad. -/
def migrSt (e : Entry) : State := (withTables sys3 e).scrWrite 0 (bytesOfWords [handle0, 0, 1, 0, 0, 0, 0, 0])

theorem wit_SystemOperations :
    sys3.turn = .sys 3 ∧ Issues sys3 0 { s := [1, 2] } ∧ (sys3.sysCore 3).ctx.fence = none
      ∧ (bits (sys3.getS 2).toNat 63 62 = 0 ∧ hasStorage (bits (sys3.getS 2).toNat 31 0 / 32 * 32 * 65536) = true)
      ∧ (bits (sys3.getS 2).toNat 8 0 < 320
        ∧ ((sys3.setBank 0 0 core0.curBank).bank (bits (sys3.getS 2).toNat 8 0) (BitVec.ofNat 1 (bits (sys3.getS 2).toNat 9 9))).holds = true)
      ∧ (sys3.getS 2).toNat < 40 ∧ (1 : BitVec 3).toNat < 2 ∧ 2 ≤ (7 : BitVec 3).toNat
      ∧ sys3.scrCause (sys3.getA 0).toNat 64 64 = none ∧ sys3.known (wordAt (sys3.scrRead 0 64) 0) = none
      ∧ ((migrSt entry0).known handle0 = some entry0 ∧ migrBad ((migrSt entry0).scrRead 0 64) = false
        ∧ 0 % ePage entry0 = 0 ∧ 0 < eBufs entry0 * eSpan entry0 ∧ eLarge entry0 = false
        ∧ (migrSt entry0).walkTables (eVbase entry0 + 0) = .ok (0x130008, 0x8000000000000001, false) ∧ ePinned entry0 = false
        ∧ eState entry0 ≠ 2 ∧ leafLost 0x8000000000000001 = false ∧ leafHold 0x8000000000000001 = false)
      ∧ ((migrSt entryPinned).known handle0 = some entryPinned ∧ ePinned entryPinned = true)
      ∧ (Issues sysFence 0 { s := [1] } ∧ (sysFence.sysCore 3).ctx.fence ≠ none ∧ (sysFence.sysCore 3).secFault = false
        ∧ tfind sysFence.sec.keys 5 = none
        ∧ tfind ({ sysFence with sec := { sysFence.sec with keys := [(5, [])] } } : State).sec.keys 5 = some []) := by
  refine ⟨rfl, quiet _ _ rfl rfl, rfl, by decide, by decide, by decide, by decide, by decide, by decide, by decide, ?_, ?_,
    quiet _ _ rfl rfl, by decide, rfl, rfl, rfl⟩
  · refine ⟨by decide +kernel, by decide +kernel, by decide, by decide, by decide, ?_, by decide, by decide, by decide, by decide⟩
    exact okOf (by decide +kernel)
  · exact ⟨by decide +kernel, by decide⟩

/-- System core 3 with an object of 1,024 words of a decode map in h3, at hand in its unit. -/
def entryMap : Entry := (entry0.set 0 0x0000010401000000).set 3 0x0000000100000400
def mapSt : State :=
  let s := (withTables sys3 entryMap).setH 3 handle0
  s.setHunit (s.asker .C).unit { HandleUnit.initial with
    cache := [⟨5, 0, entryMap, 0⟩], tlb := [⟨0x10000, false, 0x2000, 0x8000000000000001, false, 0, none⟩] }

theorem wit_DecodeMaps :
    mapSt.turn = .sys 3 ∧ (2 ≤ (7 : BitVec 3).toNat) ∧ bits (mapSt.getS 2).toNat 8 0 < 320 ∧ hasRight entryMap 0 rightR = true ∧ eLayout entryMap = 0
      ∧ eFmt entryMap = 0x01 ∧ eExt entryMap 3 * eExt entryMap 2 * eExt entryMap 1 * eExt entryMap 0 = 1024 ∧ (mapSt.core 0).samples 7 = false
      ∧ eLayout (entryMap.set 0 0x0000010401400000) ≠ 0 := by
  and_intros <;> first | rfl | decide
theorem wit_DecodeMapFound : ∃ t, Finds mapSt t 3 entryMap := ⟨_, rfl⟩
/-- Its 1,024 words are read, and each is a well-formed entry of a map. -/
theorem wit_DecodeMapRead :
    (match mapSt.readCodes (mapSt.asker .C) (sysKey 3) handle0 entryMap needUnit 1024 0 [] with
      | .ok _ r => r.1.all mapEntryOk
      | _ => false) = true := by
  decide +kernel
/-! ### Hypotheses that are met: engine commands -/

/-- d1 and d2 are valid descriptors of 64 rows and 64 columns of the object in h3; d0 is not. -/
def descSt : State :=
  let w : DescW := 0
  (objSt.setD 1 (putDesc w)).setD 2 (putDesc w)
where putDesc (w : DescW) : DescW :=
  match exec (.dset 0 1 3 64 64 0 0) (objSt.setD 1 w) with
  | .next t => t.getD 1
  | _ => w

theorem wit_TileCommands :
    Issues descSt 0 {} ∧ OnCore descSt ∧ dValid (descSt.getD 1) = true ∧ descSt.getH (dHreg (descSt.getD 1)) ≠ 0
      ∧ (descSt.curBank.queue .LQ).length < 32 ∧ (descSt.curBank.queue .SQ).length < 32 ∧ (descSt.curBank.queue .XQ).length < 32
      ∧ (descSt.getA 0).toNat % 64 = 0 ∧ dValid (descSt.getD 0) = false :=
  ⟨quiet _ _ rfl rfl, rfl, by decide +kernel, by decide +kernel, by decide +kernel, by decide +kernel, by decide +kernel,
    by decide +kernel, by decide +kernel⟩

/-- A block of 1,024 bytes at offset 0 of h3, and one of which the source, in h4, is another object. -/
def blockSt : State := (objSt.setH 4 0x0000010000000006).scrWrite 0 (bytesOfWords [0, 0, 1024, 0, 0, 0, 0, 0])
/-- The block of an XSEND. -/
def sendSt : State := objSt.scrWrite 0 (bytesOfWords [64, 128, 0, 0, 0, 0, 0, 0])

theorem wit_AuxiliaryCommands :
    Issues blockSt 0 {} ∧ OnCore blockSt ∧ (blockSt.curBank.queue .XQ).length < 32 ∧ (blockSt.getA 0).toNat % 64 = 0
      ∧ (blockSt.getA 0).toNat + 64 ≤ blockSt.scrSize ∧ Committed blockSt
      ∧ nbBad ((nbOp (.nbfill 0 0 3 0 1 2)).getD { kind := 0 }) (blockSt.getH 3) 0 (blockSt.scrRead 0 64) = false
      ∧ nbBad ((nbOp (.rrzero 0 0 3 0)).getD { kind := 0 }) (blockSt.getH 3) 0 (blockSt.scrRead 0 64) = false
      ∧ nbBad ((nbOp (.nbcopy 0 0 3 4 0)).getD { kind := 0 }) (blockSt.getH 3) (blockSt.getH 4) (blockSt.scrRead 0 64) = false
      ∧ nbBad ((nbOp (.nbrelay 0 0 3 4 0)).getD { kind := 0 }) (blockSt.getH 3) (blockSt.getH 4) (blockSt.scrRead 0 64) = false
      ∧ nbBad ((nbOp (.rrcopy 0 0 3 4 0)).getD { kind := 0 }) (blockSt.getH 3) (blockSt.getH 4) (blockSt.scrRead 0 64) = false
      ∧ nbBad ((nbOp (.nbscale 0 0 3 0 1 0 0)).getD { kind := 0 }) (blockSt.getH 3) 0 (blockSt.scrRead 0 64) = false
      ∧ nbBad ((nbOp (.nbaxpy 0 0 3 4 0 1 0 0)).getD { kind := 0 }) (blockSt.getH 3) (blockSt.getH 4) (blockSt.scrRead 0 64) = false
      ∧ ((4194296 : U32).toNat % 8 = 0 ∧ (4194296 : U32).toNat + 8 ≤ blockSt.scrSize) ∧ Issues blockSt 0 { s := [5] }
      ∧ ((64 : U32) ≠ 0 ∧ (64 : U32).toNat % 64 = 0 ∧ blkWord (sendSt.scrRead 0 64) 0 % 64 = 0
        ∧ blkWord (sendSt.scrRead 0 64) 1 % 64 = 0 ∧ ∀ k < 5, blkWord (sendSt.scrRead 0 64) (3 + k) = 0) :=
  ⟨quiet _ _ rfl rfl, rfl, by decide +kernel, by decide +kernel, by decide +kernel, .inr rfl, by decide +kernel, by decide +kernel,
    by decide +kernel, by decide +kernel, by decide +kernel, by decide +kernel, by decide +kernel, by decide +kernel, quiet _ _ rfl rfl,
    by decide +kernel⟩

theorem wit_MatrixCommands :
    Issues core0 0 {} ∧ OnCore core0 ∧ (core0.curBank.queue .MQ).length < 32
      ∧ core0.regsOk 1532 4 = true ∧ core0.regsOk 1533 4 = false ∧ core0.regsOk 1535 (ceilDiv ((15 : BitVec 6).toNat + 1) 16) = true
      ∧ (∃ m, mmaSample 0 4 63 0 0 0 0 core0 = .ok m) ∧ ((0 : BitVec 2).toNat + (3 : BitVec 2).toNat + 1 ≤ 4)
      ∧ 4 < (1 : BitVec 2).toNat + (3 : BitVec 2).toNat + 1 :=
  ⟨quiet _ _ rfl rfl, rfl, by decide, by decide, by decide, by decide, ⟨_, rfl⟩, by decide, by decide⟩

/-- The last group of registers is legal, the one after it is not; a destination is its source, or apart from it, or overlaps it. -/
theorem wit_VectorArithmetic :
    OnCore core0 ∧ (core0.curBank.queue .VQ).length < 32 ∧ Issues core0 0 (vbUses 1 5) ∧ Issues core0 0 (vbUses 0 5) ∧ Issues core0 0 {}
      ∧ (core0.runLimits core0.coreNo core0.bankNo).1 = 1536 ∧ groupsOf 2 * tyRegs 0 = 4
      ∧ (Fits core0 1532 4 ∧ Fits core0 1528 4 ∧ ¬Fits core0 1533 4) ∧ (Clear 1532 1532 4 ∧ Clear 1532 1528 4 ∧ ¬Clear 1532 1530 4)
      ∧ (WellFormed.isFloat 0 = true ∧ WellFormed.isFloat 4 = false)
      ∧ (groupsOf 0 * tyRegs 0 = groupsOf 0 ∧ Apart 1532 1 1528 1 ∧ Fits core0 1535 1)
      ∧ (fmt64 0x42 = false ∧ fmt64 0x84 = false ∧ fmt64 0x43 = true ∧ Fits core0 1534 (fmtRegs 0x42) ∧ Apart 1534 (fmtRegs 0x42) 1530 (fmtRegs 0x84))
      ∧ vopCause (vopOf (.vadd 0 0 1533 0 1528 1524 0 2 0 0) 0) 1536 = some Cause.regBound
      ∧ vopCause (vopOf (.vadd 0 0 1532 0 1530 1524 0 2 0 0) 0) 1536 = some Cause.illegalOp :=
  ⟨rfl, by decide, quiet _ _ rfl rfl, quiet _ _ rfl rfl, quiet _ _ rfl rfl, rfl, by decide, by unfold Fits; decide, by unfold Clear Apart; decide,
    by decide, by unfold Apart Fits; decide, by unfold Apart Fits; decide, by decide, by decide⟩

theorem wit_VectorMovesAndFunctions :
    OnCore core0 ∧ (core0.curBank.queue .VQ).length < 32 ∧ Issues core0 0 (vbUses 0 5) ∧ Issues core0 0 (vbUses 1 5) ∧ Issues core0 0 {}
      ∧ Issues core0 0 { s := [5] }
      ∧ (Fits core0 1532 4 ∧ Fits core0 1528 4 ∧ Clear 1532 1528 4 ∧ Apart 1532 4 1528 4)
      ∧ ((63 : BitVec 11).toNat < 64 ∧ 64 ≤ (64 : BitVec 11).toNat ∧ (15 : BitVec 11).toNat < 16 * groupsOf 0 ∧ (63 : BitVec 11).toNat < 16 * groupsOf 2)
      ∧ (Fits core0 1535 (groupsOf 0) ∧ Fits core0 1534 (groupsOf 0 * (1 + (1 : BitVec 1).toNat)) ∧ Apart 1532 1 1534 (groupsOf 0 * (1 + (1 : BitVec 1).toNat)))
      ∧ (WellFormed.isFloat 2 = true ∧ WellFormed.isFloat 5 = false ∧ WellFormed.isP3109 0x84 = true)
      ∧ (Fits core0 1534 (2 * groupsOf 0) ∧ Apart 1534 (2 * groupsOf 0) 1530 (groupsOf 0 * tyRegs 2))
      ∧ (Fits core0 1535 1 ∧ Fits core0 1530 4 ∧ Apart 1535 1 1530 4 ∧ Apart 1530 4 1535 1) :=
  ⟨rfl, by decide, quiet _ _ rfl rfl, quiet _ _ rfl rfl, quiet _ _ rfl rfl, quiet _ _ rfl rfl, by unfold Fits Clear Apart; decide, by decide,
    by unfold Fits Apart; decide, by decide, by unfold Fits Apart; decide, by unfold Fits Apart; decide⟩

theorem wit_SequenceCommands :
    OnCore descSt ∧ (descSt.curBank.queue .XQ).length < 32 ∧ Issues descSt 0 {} ∧ (descSt.getA 0).toNat % 64 = 0
      ∧ (descSt.getA 0).toNat + 64 ≤ descSt.scrSize ∧ Committed descSt
      ∧ (dValid (descSt.getD 1) = true ∧ dValid (descSt.getD 2) = true ∧ descSt.getH (dHreg (descSt.getD 1)) ≠ 0
        ∧ attnBad (descSt.scrRead 0 64) = false ∧ dCols (descSt.getD 1) = 64 ∧ dCols (descSt.getD 2) = 64
        ∧ dRows (descSt.getD 1) = dRows (descSt.getD 2))
      ∧ attnBad (bytesOfWords [3, 0, 0, 0, 0, 0, 0, 0]) = true ∧ Issues descSt 0 { s := [18] }
      ∧ (descSt.runLimits descSt.coreNo descSt.bankNo).1 = 1536 ∧ 1532 + (3 : BitVec 2).toNat + 1 ≤ 1536
      ∧ 1536 < 1533 + (3 : BitVec 2).toNat + 1 :=
  ⟨rfl, by decide +kernel, quiet _ _ rfl rfl, by decide +kernel, by decide +kernel, .inr rfl, by decide +kernel, by decide,
    quiet _ _ rfl rfl, by decide +kernel, by decide, by decide⟩

theorem wit_CommandEntryFrame : OnCore core0 := rfl


/-! ### Hypotheses that are met: reset, power, the host's windows -/

/-- Bring-up at step n. -/
def boot (n : BitVec 8) : State := { State.reset with power := { State.reset.power with bootStep := n } }
/-- The package in Ready. -/
def ready : State := boot 9
/-- A layout of the object manager with its service object in frames 1 and 2 of slice 0. -/
def layout : OmLayout :=
  { (default : OmLayout) with
    otCap := 2
    svc := { (default : Alloc) with pfns := [1, 2], tabs := [0x2000, 0x4000, 0x6000] }
    cq0 := { (default : Alloc) with pfns := [32], vbase := 0x200000, tabs := [0x8000, 0xA000, 0xC000] } }
/-- An image signed with index 0 of the key of no bytes, of which the fuses hold the hash, and one that is not signed. -/
def signedImage : FwImage := { bytes := [], key := [], sig := xmssSignature [] 0 [], version := 0 }
def rooted : State := { boot 3 with sec := { (boot 3).sec with vroot := BitVec.ofNat 512 (ofBytes (shake256 [] 64)) } }

theorem wit_ImageTrusted :
    ofBytes (shake256 signedImage.key 64) = rooted.sec.vroot.toNat ∧ xmssVerify signedImage.key signedImage.bytes signedImage.sig = true
      ∧ minVersion rooted.sec.minfw ≤ signedImage.version.toNat ∧ xmssVerify [] [] [] = false
      ∧ ofBytes (shake256 [] 64) ≠ (boot 3).sec.vroot.toNat := by
  refine ⟨by decide +kernel, ?_, by decide +kernel, ?_, by decide +kernel⟩
  · have h : ofBytes ((xmssSignature [] 0 []).take 5).reverse = 0 := by
      simp only [xmssSignature]
      rw [List.take_left' (by decide)]
      decide
    simp [xmssVerify, signedImage, h]
  · simp only [xmssVerify, List.length_nil, Nat.reduceBEq, Bool.false_and, Bool.or_false]
    exact beq_eq_false_iff_ne.mpr (List.cons_ne_nil _ _).symm

theorem wit_ResetAndBringUp :
    (∃ a : Nat, a < 2 ^ 53) ∧ (∃ a : Nat, 2 ^ 53 ≤ a)
      ∧ ({ boot 1 with power := { (boot 1).power with bootFail := .mem } } : State).power.bootFail ≠ .none
      ∧ (∀ n, n ≤ 8 → (boot n).power.bootFail = .none ∧ (boot n).power.bootStep = n)
      ∧ (boot 3).power.backupTried = false
      ∧ (let s := { boot 3 with power := { (boot 3).power with backupTried := true }, sec := { (boot 3).sec with minfw := 1 } }
         s.power.backupTried = true ∧ s.power.bootFail = .none ∧ s.power.bootStep = 3 ∧ (0 : U32).toNat < minVersion s.sec.minfw)
      ∧ ((boot 5).power.memRetried.contains 7 = false
        ∧ ({ boot 5 with power := { (boot 5).power with memRetried := [7] } } : State).power.memRetried.contains 7 = true)
      ∧ ((boot 7).isMaster = true ∧ layoutOk layout = true ∧ (boot 8).power.trans = none) := by
  refine ⟨⟨0, by decide⟩, ⟨2 ^ 53, by decide⟩, by decide, fun _ _ => ⟨rfl, rfl⟩, by decide, by decide, by decide, by decide⟩

/-- Ready in a power state, with a transition in progress, at a time of TETHERCNT. -/
def inState (p : PState) (t : Option PState) (now : Word) : State :=
  { ready with
    tether := now
    power := { ready.power with pstate := p, trans := t.map fun x => { target := x, was := 2200, seq := 5, start := 1000 } } }
/-- Core 0 runs a step. -/
def withStep (s : State) : State := s.setBank 0 0 core0.curBank

theorem wit_PowerStates :
    State.reset.ready = false ∧ (inState .ps0 (some .ps1) 0).power.trans.isSome = true
      ∧ ((inState .ps0 none 0).ready = true ∧ (inState .ps0 none 0).power.trans = none)
      ∧ (transitionOk .ps0 .ps2 = false ∧ transitionOk .ps0 .ps1 = true ∧ transitionOk .ps1 .ps2 = true ∧ transitionOk .ps2 .ps3 = true)
      ∧ ((999 : U16).toNat < 1000 ∧ 2400 < (2500 : U16).toNat ∧ (1050 : U16).toNat % 100 ≠ 0)
      ∧ ((inState .ps3 none 0).power.pstate ≠ .ps2 ∧ 1000 ≤ (1000 : U16).toNat ∧ (2400 : U16).toNat ≤ 2400 ∧ (2400 : U16).toNat % 100 = 0)
      ∧ (inState .ps0 (some .ps1) 0).busyBanks = [] ∧ (withStep (inState .ps0 (some .ps1) 100001000)).busyBanks ≠ []
      ∧ (1000 + 100000000 ≤ (withStep (inState .ps0 (some .ps1) 100001000)).tether.toNat
        ∧ (inState .ps0 (some .ps1) 100000999).tether.toNat < 1000 + 100000000)
      ∧ (let s := inState .ps1 (some .ps2) 0
         s.allTasks = [] ∧ s.host.hlq = [] ∧ s.coreReqs = false ∧ s.cores = [] ∧ s.host.cmds = [] ∧ s.host.omcalls = []) := by
  and_intros <;> decide

theorem wit_PowerAndThermalLimits :
    let at_ := fun (n : Nat) (p : Power) => ({ ready with now := n, power := p } : State)
    let p := ready.power
    ((at_ 1000 p).power.lastSample + 1000 ≤ (at_ 1000 p).now ∧ p.windowCount + 1 < 1000 ∧ ({ p with windowCount := 999 } : Power).windowCount = 999)
      ∧ ((at_ 10000 p).power.lastPowerStep + 10000 ≤ (at_ 10000 p).now ∧ 3600000 < (3600001 : U32).toNat ∧ (3600000 : U32).toNat ≤ 3600000)
      ∧ (let q := { p with powerCap := 1500 }
         q.windowMean < 3450000 ∧ q.powerCap ≠ 2400 ∧ q.powerCap.toNat + 100 < q.freqCmd.toNat)
      ∧ (p.thermStopped = false ∧ p.lastThermStep + 10000 ≤ 10000 ∧ 105000 < (105001 : U32).toNat ∧ (99999 : U32).toNat < 100000)
      ∧ (let q := { p with thermCap := 1500 }
         q.thermCap ≠ 2400 ∧ q.thermCap.toNat + 100 < q.freqCmd.toNat)
      ∧ (115000 < (115001 : U32).toNat ∧ ({ p with thermStopped := true } : Power).thermStopped = true ∧ (109999 : U32).toNat < 110000)
      ∧ ((inState .ps2 none 0).power.pstate = .ps2 ∧ (13 : BitVec 4).toNat < 14
        ∧ tget (inState .ps2 none 0).power.lastAccess 0 13 + 100000 ≤ (at_ 100000 p).now)
      ∧ (ready.tether.toNat % 1000000 = 0) := by decide

/-- Ready, with completion object 0 at hand and one record in it, not signalled. -/
def cq0 : CompletionObj :=
  { log2 := 6, vector := 64, modcnt := 1, modus := 1, head := 0, tail := 1, count := 1, held := 0, events := 0, phase := true,
    kinds := [false], irqCount := 1, irqFirst := some 0, cqerr := false, handle := 0, base := 0x200000 }
def hostSt : State := ({ ready with now := 1000 } : State).setCq 0 cq0
/-- The words of a launch record: one step of template 0x0000010000000005 in class standard. -/
def wholeSlot (s : State) (ws : List Word) : State :=
  s.setLaunchSlot 1023 ((List.range 7).foldl (fun x k => x.put k (ws.getD k 0)) (s.launchSlot 1023))

/-! ### Hypotheses that are met: submissions, registers, faults -/

def entryTempl : Entry := entry0.set 0 0x0000012400000000
/-- Words of a launch slot but the last: one step of the template, on cluster 0 of die 0. -/
def lrWords : Vector Word 8 := #v[handle0, 0, 0, 0x1004000000000000, 0, 0, 0, 0]
def slotWith (ws : Vector Word 8) : Slot := { Slot.initial with words := ws, mask := 0x7F }
/-- Launch slot 1023 holds the launch record, and command slot 255 an OBJQUERY. -/
def submitSt : State :=
  let s := withTables hostSt entryTempl
  (s.setLaunchSlot 1023 (slotWith lrWords)).setCmdSlot 255 (slotWith (Vector.replicate 8 0 |>.set 0 0x1600000000000000))

/-- Every record of unit 0 is in use. -/
def fullUnit (s : State) : State :=
  { s with sched := { s.sched with units := [(0, { tasks := List.replicate 65536 (0, default), seqs := [], depstale := 0 })] } }
/-- The launch record is in the host launch queue. -/
def acceptSt : State := { submitSt with host := { submitSt.host with hlq := [lrWords] } }

theorem wit_HostQueue :
    Here submitSt [lrTemplate lrWords, lrParam lrWords, lrPipe lrWords] ∧ lrPipe lrWords = 0
      ∧ (acceptSt.host.hlq[(0 : BitVec 12).toNat]? = some lrWords ∧ acceptSt.homeUnit lrWords = some 0 ∧ acceptSt.freeRecords 0 ≠ 0
        ∧ acceptSt.askRecord lrWords false = (acceptSt, true) ∧ acceptSt.recordsFor lrWords ≤ acceptSt.freeRecords 0)
      ∧ (fullUnit acceptSt).freeRecords 0 = 0 :=
  ⟨hereOf (by decide +kernel), by decide, ⟨by decide +kernel, by decide +kernel, by decide +kernel, rfl, by decide +kernel⟩,
    Nat.sub_eq_zero_of_le (Nat.le_of_eq (List.length_replicate (n := 65536) (a := ((0, default) : Nat × Task))).symm)⟩

theorem wit_Submissions :
    let x := fun (s : State) => (s.launchSlot 1023).put 7 0
    let y := fun (s : State) => (s.cmdSlot 255).put 7 0
    (boot 8).ready = false ∧ ready.ready = true ∧ (x ready).whole = false ∧ (y ready).whole = false
      ∧ ((x submitSt).whole = true ∧ submitSt.launchStatus (x submitSt).words (x submitSt).world = 0)
      ∧ (let s := ready.setLaunchSlot 1023 (slotWith lrWords)
         (x s).whole = true ∧ s.launchStatus (x s).words (x s).world ≠ 0)
      ∧ ((y submitSt).whole = true ∧ submitSt.power.pstate ≠ .ps3 ∧ (submitSt.cq 0).isSome = true ∧ cmdNeeds (y submitSt).words[0] ≤ submitSt.cqFree 0)
      ∧ (let s := { ready with power := { ready.power with pstate := .ps3 } }.setCmdSlot 255 (slotWith (.replicate 8 0))
         (y s).whole = true ∧ s.power.pstate = .ps3)
      ∧ (let s := ready.setCmdSlot 255 (slotWith (.replicate 8 0))
         (y s).whole = true ∧ s.power.pstate ≠ .ps3 ∧ s.cq 0 = none)
      ∧ (let s := { submitSt with host := { submitSt.host with hlq := [lrWords] } }
         s.host.hlq[(0 : BitVec 12).toNat]? = some lrWords ∧ s.homeUnit lrWords = some 0 ∧ s.recordsFor lrWords ≤ s.freeRecords 0)
      ∧ ready.host.hlq[(0 : BitVec 12).toNat]? = none := by
  and_intros <;> decide +kernel

theorem wit_Completions :
    hostSt.cq (0 : BitVec 6).toNat = some cq0
      ∧ cq0.size = 4096 ∧ cq0.size ≤ (4096 : Word).toNat % 2 ^ 14 ∧ ((1 : Word).toNat % 2 ^ 14 < cq0.size ∧ ((1 : Word).toNat % 2 ^ 14 + cq0.size - cq0.head.toNat) % cq0.size ≤ cq0.count)
      ∧ cq0.count < ((2 : Word).toNat % 2 ^ 14 + cq0.size - cq0.head.toNat) % cq0.size
      ∧ (cq0.irqFirst = some 0 ∧ cq0.modus ≠ 0 ∧ 0 + cq0.modus.toNat * 1000 ≤ hostSt.now)
      ∧ ({ cq0 with irqFirst := none } : CompletionObj).irqFirst = none := by decide

/-- Peer port 17 up, and port 16 disabled. -/
def portsSt : State := (ready.setPeer 17 { PeerPort.initial with st := 2 }).setPeer 16 { PeerPort.initial with st := 3, dis := true }

theorem wit_HostRegisters :
    (((0 : Word) ||| 575 <<< 22).toNat / 2 ^ 22 % 2 ^ 10 < 576) ∧ portsSt.isMaster = true
      ∧ ({ portsSt with links := { portsSt.links with master := 1 } } : State).isMaster = false
      ∧ ((17 : BitVec 5).toNat < 18 ∧ (portsSt.peer 17).st = 2 ∧ (portsSt.peer 16).st ≠ 2 ∧ (portsSt.peer 16).dis = true
        ∧ (portsSt.peer 17).dis = false ∧ (portsSt.peer 17).st ≠ 0 ∧ (portsSt.peer 15).st = 0)
      ∧ (inState .ps3 none 0).power.pstate = .ps3 ∧ (inState .ps0 none 0).power.pstate ≠ .ps3
      ∧ ((16 : BitVec 7) ≠ 8 ∧ (16 : BitVec 7) ≠ 4) ∧ (6 : BitVec 26).toNat % 4 ≠ 0
      ∧ (4194296 - 8 : BitVec 26).toNat = 4096 * 1023 + 8 * 510 - 0 ∧ (4190256 : BitVec 26).toNat = 4096 * 1023 + 8 * 6
      ∧ (4190248 : BitVec 26).toNat = 4096 * 1023 + 8 * 5 ∧ (assigned (4 + 0) = true ∧ ∀ j < 8, assigned (0xFFF4 + j) = false)
      ∧ ((16 : BitVec 7).toNat ≠ 8 * (1 + ([] : List Word).length) ∧ (3 : BitVec 3) ≠ 0 ∧ (3 : BitVec 3) ≠ 2 ∧ (3 : BitVec 3) ≠ 7)
      ∧ (boot 8).ready = false ∧ (4 : BitVec 26) ≠ 0 ∧ portsSt.ready = true ∧ (0x100 : BitVec 26).toNat < 0x10000 ∧ (4 : BitVec 7) ≠ 8 := by decide

/-- Bank 1 of core 319 stopped in a state, of a step r of task 0. -/
def fault0 : FaultInfo := { (default : FaultInfo) with cause := 0x31 }
def run0 : StepRun := { probeRun with committed := false }
def stopped (st : BankState) (r : StepRun) : State :=
  ready.setBank 319 1 { core0.curBank with st, fault := some fault0, run := some r }
/-- A dirty line of that step in the Basin. -/
def line0 (dirty : List (Nat × Nat × Path)) : BasinLine :=
  { handle := handle0, pkg := 0, pa := 0x10000, off := 0, way := 0, va := 0x10000, data := .replicate 64 7, dirty, task := 0, world := 0, run := 0, rrpv := 0,
    stamp := 0 }
def basinSt (dirty : List (Nat × Nat × Path)) : State :=
  ready.setBank 0 0 { core0.curBank with basin := [line0 dirty], run := some run0 }
/-- A command of the running step, or of the step before it, at the head of LQ. -/
def headSt (run : Nat) (r : StepRun) : State :=
  ready.setBank 319 1 { Bank.initial with st := .running, run := some r, lq := [{ (default : Cmd) with run }] }
/-- The object lies in frame 1, which was promoted from flash. -/
def copySt : State :=
  let s := withTables ready entry0
  { s with objs := { s.objs with flashHome := [(0x130008, 0x8000000000000001)] } }

theorem wit_EngineErrors :
    (((headSt 0 run0).bank 319 1).queue .LQ).head? = some { (default : Cmd) with run := 0 } ∧ ((headSt 0 run0).bank 319 1).run = some run0
      ∧ (0 : Nat) = run0.id ∧ (1 : Nat) ≠ run0.id ∧ (((headSt 1 run0).bank 319 1).queue .LQ).head? = some { (default : Cmd) with run := 1 }
      ∧ ((headSt 0 { run0 with ended := true }).bank 319 1).run = some { run0 with ended := true } ∧ ready.power.freqAct ≠ 0 := by
  decide +kernel

theorem wit_FaultsAndParking :
    (State.reset.bank 319 1).fault = none ∧ ((stopped .parked run0).bank 319 1).fault = some fault0
      ∧ ((stopped .parked run0).bank 319 1).st = .parked ∧ ((stopped .parked run0).bank 319 1).runOnFault = false
      ∧ (((stopped .parked run0).bank 319 1).run = some run0 ∧ run0.committed = false ∧ run0.task = fault0.task)
      ∧ (((stopped .parked probeRun).bank 319 1).run = some probeRun ∧ probeRun.committed = true)
      ∧ (640 ≤ (640 : BitVec 10).toNat ∧ (639 : BitVec 10).toNat < 640
        ∧ ((stopped .running run0).bank (639 / 2) (BitVec.ofNat 1 639)).framed = false
        ∧ ((stopped .running run0).bank (639 / 2) (BitVec.ofNat 1 639)).st = .running
        ∧ (State.reset.bank (639 / 2) (BitVec.ofNat 1 639)).framed = false ∧ (State.reset.bank (639 / 2) (BitVec.ofNat 1 639)).st = .idle)
      ∧ (let s := { ready with faults := { ready.faults with fqTail := 2, fqHead := 1 } }
         ((2 : Word) - s.faults.fqHead).toNat % 16384 ≤ s.faults.count ∧ s.faults.count < ((3 : Word) - s.faults.fqHead).toNat % 16384 ∧ s.cores = [])
      ∧ (let s := stopped .draining run0
         let k := s.bank 319 1
         k.fault.isSome = true ∧ k.st = .draining ∧ s.valuesOut 319 1 = false ∧ k.cmds = [] ∧ k.landings = [] ∧ k.plan = none)
      ∧ (let s := stopped .resumable run0
         let k := s.bank 319 1
         k.fault = some fault0 ∧ k.st = .resumable ∧ k.skip = false ∧ (s.bank 319 0).st = .idle)
      ∧ ((stopped .resumable run0).setBank 319 0 core0.curBank).bank 319 0 = core0.curBank ∧ core0.curBank.st = .running
      ∧ (2 ≤ ({ run0 with replays := 2 } : StepRun).replays.toNat ∧ run0.ended = false)
      ∧ (ready.objectAt 0 = none ∧ copySt.objectAt 0x1FFFF = some (handle0, entry0) ∧ copySt.otherCopy handle0 entry0 0x130008 = true)
      ∧ (∃ leaf, copySt.walkTables 0x1FFFF = .ok (0x130008, leaf, false))
      ∧ ((∀ l ∈ ((basinSt []).bank 0 0).basin, l.dirty = [])
        ∧ ((basinSt [(63, 1, .C)]).bank 0 0).basin.find? (fun l => !l.dirty.isEmpty) = some (line0 [(63, 1, .C)])) := by
  and_intros <;> first | exact ⟨0x8000000000000001, okOf (by decide +kernel)⟩ | decide +kernel

/-! ### Hypotheses that are met: object-manager commands -/

/-- A command of an OPC with its first operands, in slot 255. -/
def omCmd (opc : Nat) (ws : List Word) : OmCmd :=
  { src := 255, words := .ofFn fun k => if k.val = 0 then BitVec.ofNat 64 (opc * 2 ^ 56) else ws.getD (k.val - 1) 0, world := 0, started := false,
    result := 0 }
/-- The object manager has the object of e at index 5, and the command to carry out. -/
def serving (e : Entry) (c : OmCmd) : State :=
  let s := withTables hostSt e
  { s with host := { s.host with cmds := [c] } }
theorem serves_iff (s : State) (src : BitVec 9) (opc : Nat) (c : OmCmd) :
    Serves s src opc c ↔ (s.omRuns = true ∧ s.pickCmd src opc = some c ∧ c.opc = opc ∧ c.wellFormed = true
      ∧ (c.world = 0 ∨ (opc ≠ 0x01 ∧ opc ≠ 0x02 ∧ opc ≠ 0x20)) ∧ (c.fromTask = true → s.askResult c = (s, true))) := Iff.rfl

/-- Operands of CQCREATE: number, SIZE, vector, MODCNT; each list breaks one limit. -/
def cqWords (n size vec m : Nat) : List Word := [BitVec.ofNat 64 (n + size * 256 + vec * 65536), BitVec.ofNat 64 m]

/-- Where a new ring lies: entry 6, VBASE 4 MiB, large page 64 of slice 0, its tables at 3 MiB. -/
def ringAlloc : Alloc := { index := 6, vbase := 0x400000, pfns := [64], tabs := [0x300000, 0x302000, 0x304000] }
/-- The table has no free entry. -/
def fullTable (s : State) : State := { s with objs := { s.objs with otCap := 1, retired := [0] } }

theorem wit_RingSpace :
    (serving entry0 (omCmd 0x01 (cqWords 63 8 64 4096))).tableFull = false ∧ (serving entry0 (omCmd 0x01 (cqWords 63 8 64 4096))).ringOk ringAlloc = true
      ∧ (fullTable (serving entry0 (omCmd 0x01 (cqWords 63 8 64 4096)))).tableFull = true
      ∧ (omCmd 0x01 (cqWords 63 8 64 4096)).world = 0 ∧ (omCmd 0x01 (cqWords 63 8 64 4096)).fromTask = false := by
  decide +kernel

theorem wit_CompletionCommands :
    (∀ x ∈ [cqWords 63 8 64 4096, cqWords 0 8 64 1, cqWords 1 9 64 1, cqWords 1 0 63 1, cqWords 1 0 2047 0, cqWords 1 0 64 4097],
        (serving entry0 (omCmd 0x01 x)).omRuns = true ∧ (serving entry0 (omCmd 0x01 x)).pickCmd 255 0x01 = some (omCmd 0x01 x)
          ∧ (omCmd 0x01 x).opc = 0x01 ∧ (omCmd 0x01 x).wellFormed = true)
      ∧ (serving entry0 (omCmd 0x01 (cqWords 63 8 64 4096))).cq 63 = none
      ∧ (((serving entry0 (omCmd 0x01 (cqWords 63 8 64 4096))).setCq 63 cq0).cq 63).isSome = true
      ∧ (let c := omCmd 0x02 [63]
         let s := serving entry0 c
         s.omRuns = true ∧ s.pickCmd 255 0x02 = some c ∧ c.opc = 0x02 ∧ c.wellFormed = true ∧ s.cq 63 = none ∧ (63 : Nat) ≠ c.cq
           ∧ (s.setCq 63 cq0).cq 63 = some cq0 ∧ cq0.held + cq0.count ≠ 0
           ∧ (s.setCq 63 { cq0 with count := 0 }).cq 63 = some { cq0 with count := 0 })
      ∧ (∀ x ∈ [[0x700], [0x4FF], [0x3FF]], (serving entry0 (omCmd 0x20 x)).pickCmd 255 0x20 = some (omCmd 0x20 x)
          ∧ (omCmd 0x20 x).opc = 0x20 ∧ (omCmd 0x20 x).wellFormed = true)
      ∧ (bit 0x700 10 = true ∧ 256 ≤ bits 0x700 9 0 ∧ bit 0x4FF 10 = true ∧ bits 0x4FF 9 0 < 256 ∧ bit 0x3FF 10 = false) := by
  and_intros <;> decide +kernel

/-- A gang of two packages, within 1 ms. -/
def gangCmd : OmCmd := omCmd 0x30 [0x1000, 0x2000, 2, 1000, 0x3000]
def gangSt (first : Byte) : State :=
  { serving entry0 gangCmd with hostMem := mwrite (mwrite [] 0x1000 (bytesOfWords lrWords.toList)) 0x2000 [first, 0, 575 % 256, 2] }

theorem wit_GangCommand :
    ((gangSt 0).omRuns = true ∧ (gangSt 0).pickCmd 255 0x30 = some gangCmd ∧ gangCmd.opc = 0x30 ∧ gangCmd.wellFormed = true)
      ∧ (let list := fun (s : State) => (List.range (bits (gangCmd.word 3) 9 0)).map fun k => ofBytes (mread s.hostMem (gangCmd.word 2 + 2 * k) 2)
         list (gangSt 0) = [0, 575] ∧ list (gangSt 1) = [1, 575] ∧ ([1, 575] : List Nat).contains (gangSt 1).pkgNo = false
           ∧ (∀ p ∈ list (gangSt 0), p < 576) ∧ (list (gangSt 0)).Nodup ∧ (gangSt 0).pkgNo ∈ list (gangSt 0))
      ∧ (Vector.ofFn fun (k : Fin 8) => mword (gangSt 0).hostMem (gangCmd.word 1 + 8 * k.val)) = lrWords ∧ lrWorld lrWords = 0
      ∧ (lrReserved lrWords = false ∧ lrDie lrWords ≠ 0 ∧ lrCl lrWords ≠ 0 ∧ lrPipe lrWords = 0 ∧ lrPrio lrWords ≠ 7)
      ∧ bits (gangCmd.word 4) 9 0 = 1000 ∧ (gangSt 0).coord? 0xFFFF = none := by
  and_intros <;> decide +kernel

/-- Host memory with the image of an object at 0x1000, and the choices for it: index 6, VBASE 0x20000, frame 2. -/
def imageSt (opc : Nat) (ws : List Word) : State := { serving entry0 (omCmd opc ws) with hostMem := mwrite [] 0x1000 (bytesOfWords entry0.toList) }
def alloc0 : Alloc := { (default : Alloc) with index := 6, vbase := 0x20000, pfns := [2] }
def flashUp (s : State) : State := { s with links := { s.links with flash := [(7, { TierPort.initial with st := 2 })] } }

theorem wit_Creation :
    (∀ x ∈ [[0x1000, 0], [0x1000, 2], [0x1000, 3]], (imageSt 0x10 x).pickCmd 255 0x10 = some (omCmd 0x10 x) ∧ (omCmd 0x10 x).opc = 0x10
        ∧ (omCmd 0x10 x).wellFormed = true ∧ (imageSt 0x10 x).omRuns = true)
      ∧ (let s := imageSt 0x10 [0x1000, 0]
         let c := omCmd 0x10 [0x1000, 0]
         let e := completeImage (s.hostImage 0x1000) c.world (s.nextGen 6) 0 0x20000
         let code := fun k => mread s.hostMem (c.word 1 + 128 + 64 * k) 64
         s.imageOk e (efield (s.hostImage 0x1000) 15 63 32) code = true ∧ s.tableFull = false ∧ eShards e = 1 ∧ eReps e = 1
           ∧ (pagesOf e).length = 1 ∧ s.choiceOk e alloc0 = true ∧ s.tabsOk (pagesOf e) alloc0.tabs = true ∧ s.framesOk 0 (eLarge e) [2] = true
           ∧ (∀ p ∈ [2], s.modeOk (eCompute e || eLayout e == 2) p = true)
           ∧ s.imageOk (e.set 3 0) 0 code = false
           ∧ (fullTable s).tableFull = true)
      ∧ (∀ x ∈ [[0x1000, 0xF00000007], [0x1000, 0x1000000007]], (imageSt 0x15 x).pickCmd 255 0x15 = some (omCmd 0x15 x)
        ∧ (omCmd 0x15 x).opc = 0x15 ∧ (omCmd 0x15 x).wellFormed = true)
      ∧ (let s := imageSt 0x15 [0x1000, 0x1000000007]
         let e := completeImage (s.hostImage 0x1000) 0 (s.nextGen 6) 3 0x20000
         s.imageOk e 0 (fun _ => []) = true ∧ (s.flashPort 7).st ≠ 2 ∧ ((flashUp s).flashPort 7).st = 2
           ∧ (flashUp s).tableFull = false ∧ (flashUp s).choiceOk e alloc0 = true
           ∧ (flashUp s).tabsOk (pagesOf e) alloc0.tabs = true)
      ∧ (bits 0x1000000007 63 32 % 16 = 0 ∧ bits 0xF00000007 63 32 % 16 ≠ 0) := by
  and_intros <;> decide +kernel

/-- The object is being deleted; its page is busy, or it has none. -/
def entryDel : Entry := entry0.set 0 0x0000010C03000000
def deleting (busy pages : Bool) : State :=
  let s := withTables hostSt entryDel
  let s := if busy then { s with mem := mputWord s.mem 0x130008 0x8000010000000001 } else s
  if pages then s else { s with mem := mputWord s.mem 0x130008 0 }

theorem wit_Deletion :
    ((serving entry0 (omCmd 0x11 [handle0])).pickCmd 255 0x11 = some (omCmd 0x11 [handle0]) ∧ (omCmd 0x11 [handle0]).opc = 0x11
        ∧ (omCmd 0x11 [handle0]).wellFormed = true ∧ (serving entry0 (omCmd 0x11 [handle0])).omRuns = true)
      ∧ (serving entry0 (omCmd 0x11 [handle0])).omObject (omCmd 0x11 [handle0]) .manage true = .ok entry0 ∧ eGen entry0 ≠ 0xFFFF
      ∧ eState ((serving entry0 (omCmd 0x11 [handle0])).entryInMem 5) ≠ 3
      ∧ ((deleting true true).segments ((deleting true true).entryInMem 5) ≠ []
        ∧ ∀ x ∈ (deleting true true).segments ((deleting true true).entryInMem 5), leafBusy ((deleting true true).leafNow x.2.1) ≠ 0)
      ∧ (eState ((deleting false false).entryInMem 5) = 3 ∧ (deleting false false).segments ((deleting false false).entryInMem 5) = []
        ∧ (deleting false false).objs.reqs = [] ∧ (deleting false false).host.cmds = [] ∧ (deleting false false).host.omcalls = []) := by
  and_intros <;> first | decide +kernel | exact okOf (by decide +kernel)

/-- Words of OBJWRITE and OBJREAD: offset and length. -/
def rwWords (h : Word) (off len : Word) : List Word := [h, off, 0x4000, len]

theorem wit_ReadsAndWrites :
    (∀ opc ∈ [0x12, 0x13], ∀ x ∈ [rwWords handle0 65472 64, rwWords handle0 65473 64, rwWords 0 0 64],
        (serving entry0 (omCmd opc x)).pickCmd 255 opc = some (omCmd opc x) ∧ (omCmd opc x).opc = opc ∧ (omCmd opc x).wellFormed = true)
      ∧ (∀ n ∈ [OmNeed.read, .write, .publish],
        (serving entry0 (omCmd 0x12 (rwWords handle0 65472 64))).omObject (omCmd 0x12 (rwWords handle0 65472 64)) n false = .ok entry0
          ∧ (serving entry0 (omCmd 0x12 (rwWords 0 0 64))).omObject (omCmd 0x12 (rwWords 0 0 64)) n false = .error 0x0011)
      ∧ (rangeOk entry0 65472 64 = true ∧ rangeOk entry0 65473 64 = false ∧ eBufs entry0 = 1)
      ∧ (let s := serving entry0 (omCmd 0x12 (rwWords handle0 65472 64))
         ∀ rd, s.omPieces handle0 entry0 0 65472 64 rd = [(s.pkgNo, 0x1FFC0, 64, 0)]
           ∧ s.omPage 0x1FFC0 = .ok 0x8000000000000001 0x1FFC0 ∧ s.flashLeaf 0x1FFC0 = none ∧ hHome handle0 = s.pkgNo)
      ∧ (omCmd 0x12 (rwWords handle0 65472 64)).started = false ∧ (omCmd 0x14 [handle0, 1]).result = 0
      ∧ (∀ x ∈ [[handle0, 0], [handle0, 3], [handle0, 1], [handle0, 576 <<< 32]],
        (serving entry0 (omCmd 0x14 x)).pickCmd 255 0x14 = some (omCmd 0x14 x) ∧ (omCmd 0x14 x).opc = 0x14 ∧ (omCmd 0x14 x).wellFormed = true)
      ∧ (let s := serving entry0 (omCmd 0x14 [handle0, 1])
         s.omObject (omCmd 0x14 [handle0, 1]) .manage false = .ok entry0 ∧ bits 1 1 0 ≠ 3 ∧ ePinned entry0 = false ∧ bits 1 41 32 = s.pkgNo
           ∧ s.segments entry0 = [(0x10000, 0x130008, 0x8000000000000001)] ∧ leafTier (s.leafNow 0x130008) ≠ 1
           ∧ tfind s.objs.away (objKey handle0) = none ∧ s.pkgNo < 576
           ∧ leafHold (s.leafNow 0x130008) = false ∧ s.framesOk 1 (eLarge entry0) [7] = true)
      ∧ (bits 3 1 0 = 3 ∧ ePinned entryPinned = true ∧ 576 ≤ bits (576 <<< 32) 41 32)
      ∧ (let c := omCmd 0x16 [handle0, 0x5000]
         (serving entry0 c).pickCmd 255 0x16 = some c ∧ c.opc = 0x16 ∧ c.wellFormed = true
           ∧ (serving entry0 c).omObject c .read false = .ok entry0) := by
  and_intros <;> first
    | decide +kernel
    | exact okOf (by decide +kernel)
    | (intro n; cases n <;> exact fun _ => ⟨okOf (by decide +kernel), errOf (by decide +kernel)⟩)

/-! ### Hypotheses that are met: links and gangs -/

/-- CXL port 3 and flash port 7 at a time. -/
def tierSt (now : Nat) (cxl flash : TierPort) : State :=
  { ready with now, links := { ready.links with cxl := [(3, cxl)], flash := [(7, flash)] } }


/-- Devices that fit a CXL port and a flash port, and ones that do not. -/
def memDevice (type : BitVec 2) (switches : BitVec 4) : Device := { (default : Device) with type, switches }
def drive (block transfer : U32) : Device := { (default : Device) with block, transfer }
def extent0 : CxlRange := { base := 16, len := 4, ways := 1, way := 0 }

theorem wit_TierPorts :
    let x := TierPort.initial
    let up := { x with st := 2 }
    let s := tierSt 1000000000 { x with extents := [extent0] } { x with lost := true }
    ((¬((4 : BitVec 4).toNat < 4 ∨ 8 ≤ (4 : BitVec 4).toNat)) ∧ (3 : BitVec 4).toNat < 4 ∧ 8 ≤ (15 : BitVec 4).toNat)
      ∧ ((tierSt 0 up x).tierPort 3).st = 2 ∧ ((tierSt 0 x up).tierPort 15).st = 2
      ∧ ((s.tierPort 3).st ≠ 2 ∧ (s.tierPort 3).lost = false ∧ (s.tierPort 3).downSince + 1000000000 ≤ s.now ∧ (s.tierPort 15).lost = true
        ∧ (tierSt 999999999 x x).now < x.downSince + 1000000000)
      ∧ ((memDevice 3 1).type = 3 ∧ (memDevice 3 1).switches.toNat ≤ 1 ∧ ¬((memDevice 3 2).switches.toNat ≤ 1) ∧ (memDevice 2 0).type ≠ 3)
      ∧ ((drive 4096 262144).block = 4096 ∧ (drive 4096 262144).metadata = 0 ∧ 262144 ≤ (drive 4096 262144).transfer.toNat
        ∧ (drive 512 262144).block ≠ 4096 ∧ ¬(262144 ≤ (drive 4096 262143).transfer.toNat))
      ∧ (((4 : BitVec 3) = 1 ∨ (4 : BitVec 3) = 2 ∨ (4 : BitVec 3) = 4) ∧ (3 : BitVec 3).toNat < (4 : BitVec 3).toNat ∧ (s.cxlPort 3).extents.length < 8)
      ∧ (8 ≤ ((tierSt 0 { x with extents := List.replicate 8 extent0 } x).cxlPort 3).extents.length
        ∧ ¬((3 : BitVec 3) = 1 ∨ (3 : BitVec 3) = 2 ∨ (3 : BitVec 3) = 4))
      ∧ ((∀ e ∈ (s.cxlPort 3).extents, e.base ≠ (0 : U32).toNat) ∧ (∃ e ∈ (s.cxlPort 3).extents, e.base = (16 : U32).toNat)
        ∧ s.heldObjects = [] ∧ s.objs.migrations = []) := by decide

/-- Flash port 7 has command 9 outstanding since the start. -/
def nvmeSt (now : Nat) (last : Option Nat) : State :=
  tierSt now .initial { TierPort.initial with st := 2, cmds := [{ cid := 9, op := .read, start := 0 }], lastTimeout := last }

theorem wit_NvmeCommands :
    (∃ m ∈ ((nvmeSt 0 none).flashPort 7).cmds, m.cid = (9 : U16).toNat) ∧ (∀ m ∈ ((nvmeSt 0 none).flashPort 7).cmds, m.cid ≠ (8 : U16).toNat)
      ∧ ((nvmeSt 0 none).flashPort 7).cmds.find? (fun m => m.cid == (9 : U16).toNat) = some { cid := 9, op := .read, start := 0 }
      ∧ ((nvmeSt 7999999999 none).now < 0 + 8000000000 ∧ 0 + 8000000000 ≤ (nvmeSt 8000000000 none).now
        ∧ ((nvmeSt 8000000000 none).flashPort 7).lastTimeout = none ∧ ((nvmeSt 8000000000 none).flashPort 7).st = 2
        ∧ ((nvmeSt 8000000000 none).flashPort 7).cmds.length + ((nvmeSt 8000000000 none).flashPort 7).waiting.length ≤ 32768)
      ∧ (((nvmeSt 68000000000 (some 8000000000)).flashPort 7).lastTimeout = some 8000000000
        ∧ (nvmeSt 68000000000 (some 8000000000)).now ≤ 8000000000 + 60000000000) := by decide

theorem arrives_iff (s : State) (p : BitVec 5) (ty : Nat) (h : Word) :
    Arrives s p ty h ↔ (p.toNat < 18 ∧ (s.peer p.toNat).st = 2 ∧ hdrOk ty h = true ∧ hdrSeq h = (s.peer p.toNat).rxSeq
      ∧ (((ty < 8 ∨ ty = 9) ∧ ty ≠ 0) → hdrDst h = s.pkgNo)) := Iff.rfl

/-- The header of the first flit of a type, from package 575. -/
def firstHdr (ty : Nat) : Word := flitHdr ty 0 575 ((vcOf ty).getD 3) 0 0
/-- A request of another package that core 0 awaits: a load, a store, an atomic. -/
def farReq (kind : ReqKind) : Req :=
  { id := 7, unit := 0, who := .core 0 .C, bank := 0, run := 0, task := 0, world := 0, path := .C, ord := 0, issued := 0,
    place := noPlace handle0 575, floor := 0, fences := [], kind, remote := true }
def farSt (kind : ReqKind) (now : Nat) : State :=
  { portsSt with now, objs := { portsSt.objs with reqs := [farReq kind] } }

theorem wit_PeerFlits :
    (∀ ty ∈ List.range 11, (17 : BitVec 5).toNat < 18 ∧ (portsSt.peer 17).st = 2 ∧ hdrOk ty (firstHdr ty) = true
        ∧ hdrSeq (firstHdr ty) = (portsSt.peer 17).rxSeq ∧ hdrDst (firstHdr ty) = portsSt.pkgNo)
      ∧ (18 ≤ (18 : BitVec 5).toNat ∧ (portsSt.peer 16).st ≠ 2)
      ∧ (let q := fun (path : Path) (op : RemoteOp) => flitTypeOf { tag := 7, path, handle := handle0, run := 0, task := 0, world := 0, op }
         q .C (.load 0 8) = 1 ∧ q .C (.store 0 [] []) = 3 ∧ q .C (.strongLoad 0 8) = 5 ∧ q .X (.store 0 [] []) = 7)
      ∧ ((farSt (.command 0 (.forward [] 0)) 0).remoteReq? 7 = some (farReq (.command 0 (.forward [] 0))))
      ∧ ((farSt (.rawLine []) 0).remoteReq? 7 = some (farReq (.rawLine [])) ∧ (farReq (.rawLine [])).kind = .rawLine [])
      ∧ ((portsSt.peer 17).txq = [] ∧ ({ PeerPort.initial with st := 2, txq := [default] } : PeerPort).txq ≠ [])
      ∧ (portsSt.links.lastTsync + 1000 ≤ ({ portsSt with now := 1000 } : State).now ∧ ({ portsSt with now := 999 } : State).now < portsSt.links.lastTsync + 1000)
      ∧ ((farSt (.wstore []) 0).remoteReq? 7 = some (farReq (.wstore [])) ∧ (farReq (.wstore [])).kind = .wstore [])
      ∧ ((portsSt.peer 17).collective.length < 512 ∧ (portsSt.peer 17).txq = [])
      ∧ (let s := { portsSt with links := { portsSt.links with master := 575 } }
         s.isMaster = false ∧ s.links.tetherEn = true ∧ hdrSrc (firstHdr 8) = s.links.master.toNat
           ∧ hdrOk 8 (firstHdr 8) = true ∧ hdrSeq (firstHdr 8) = (s.peer 17).rxSeq)
      ∧ ({ portsSt with links := { portsSt.links with tetherEn := false } } : State).links.tetherEn = false
      ∧ (portsSt.links.tetherEn = true ∧ (portsSt.peer 17).replay.length < 512 ∧ 0 < (portsSt.peer 17).credits.toList.getD 3 0)
      ∧ ((portsSt.peer 17).lastRx + 2000 ≤ ({ portsSt with now := 2000 } : State).now
        ∧ ({ portsSt with now := 1999 } : State).now < (portsSt.peer 17).lastRx + 2000)
      ∧ ((farSt .openv 50000).req? 7 = some (farReq .openv) ∧ (farReq .openv).remote = true ∧ (farReq .openv).issued + 50000 ≤ (farSt .openv 50000).now
        ∧ (farSt .openv 49999).now < (farReq .openv).issued + 50000)
      ∧ ((portsSt.setPeer 15 { PeerPort.initial with st := 1 }).peer 15).st = 1 := by
  and_intros <;> decide +kernel

/-- Package 575 asks this package to be a member; Ready, locked, with completion object 0. -/
def memberSt : State :=
  let s := hostSt.setPeer 17 { PeerPort.initial with st := 2 }
  { s with links := { s.links with lock := true } }
def member0 (commit : Option Nat) (task : Option Word) : GangHere :=
  { src := 575, gid := 3, lr := lrWords, unit := 0, index := 0, core := 0, prepared := 0, commit, task, lastAlive := 0, lastSent := 0, peers := [575],
    over_ := false, silent := false }
def memberTask0 : Task := { blankTask lrWords 0 (.member 575 3) with st := .ready, loaded := true }
/-- This package is a member of gang 3 of package 575, at a time of TETHERCNT. -/
def inGang (g : GangHere) (now : Word) : State :=
  let s := { memberSt with tether := now, host := { memberSt.host with members := [g] } }
  s.putTask 0 memberTask0
/-- This package coordinates gang 3 of packages 0 and 575, whose states are a and b. -/
def coord0 (phase a b : BitVec 3) : GangCoord :=
  { gid := 3, members := [⟨0, a, 0⟩, ⟨575, b, 0⟩], lr := lrWords, deadline := 1000, phase, t := 64, lastPrepared := 0, reason := 0, present := 0x3000,
    tag := 0, cq := 0, abortAt := 0, replays := 0, preempts := 0, lastAlive := 0 }
def coordSt (c : GangCoord) (now : Word) : State := { memberSt with tether := now, host := { memberSt.host with coords := [c] } }

theorem wit_Gangs :
    (hdrOk 9 (firstHdr 9) = true ∧ (memberSt.peer 17).st = 2 ∧ hdrSeq (firstHdr 9) = (memberSt.peer 17).rxSeq ∧ hdrDst (firstHdr 9) = memberSt.pkgNo)
      ∧ (afterFlit ready 17 9 (firstHdr 9)).refusal lrWords = some Status.tetherUnlocked
      ∧ (let u := afterFlit memberSt 17 9 (firstHdr 9)
         recOfList lrWords.toList = lrWords ∧ u.refusal lrWords = none ∧ u.homeUnit lrWords = some 0 ∧ u.memberCore lrWords = some 0)
      ∧ ((coordSt (coord0 1 1 0) 0).coord? 3 = some (coord0 1 1 0) ∧ (∀ m ∈ (coord0 1 1 0).members, m.state = 1 ∨ (m.state = 0 ∧ m.pkg = 575)))
      ∧ ((coord0 2 3 1).phase = 2 ∧ (∀ m ∈ (coord0 2 3 1).members, m.state = 3 ∨ m.pkg = 575))
      ∧ ((coord0 1 1 0).deadline ≤ (1000 : Word).toNat ∧ (999 : Word).toNat < (coord0 1 1 0).deadline)
      ∧ ((coord0 2 1 1).members.find? (fun m => m.pkg == 575) = some ⟨575, 1, 0⟩ ∧ max (coord0 2 1 1).t 0 + 50000 ≤ (50064 : Word).toNat)
      ∧ ((coord0 3 4 0).phase = 3 ∧ (coord0 3 4 0).abortAt + 10000 ≤ (10000 : Word).toNat)
      ∧ ((inGang (member0 none none) 100000).member? 575 3 = some (member0 none none) ∧ (100000 : Word).toNat ≤ (inGang (member0 none none) 100000).tether.toNat
        ∧ (member0 none none).prepared + 100000 ≤ (100000 : Word).toNat ∧ (99999 : Word).toNat < (member0 none none).prepared + 100000)
      ∧ ((member0 none none).silent = false ∧ (member0 none none).over_ = false ∧ { member0 none (some 0) with over_ := true }.over_ = true
        ∧ { member0 none (some 0) with silent := true }.silent = true)
      ∧ ((member0 (some 64) (some 0)).task = some 0 ∧ (member0 (some 64) (some 0)).lastAlive + 50000 ≤ (50000 : Word).toNat)
      ∧ (let g := member0 (some 64) none
         let s := inGang g 64
         g.commit = some 64 ∧ s.memberTask g = some 0 ∧ s.freeBank g.core = some 0 ∧ s.task? 0 = some memberTask0 ∧ (63 : Word).toNat < 64
           ∧ memberTask0.loaded = true ∧ s.dispatches = true ∧ memberTask0.killed = none
           ∧ ∃ w q, (s.mapMember 575 3 (fun g => { g with task := some 0, lastAlive := 64, lastSent := 64 })).handOut 0 memberTask0 [] = .step w q)
      ∧ (ready.host.members = [] ∧ ready.host.coords = [])
      ∧ (let g := member0 (some 64) (some 0)
         (inGang g 10000).host.members = [g] ∧ (inGang g 10000).host.coords = [] ∧ g.lastSent + 10000 ≤ (10000 : Word).toNat) := by
  and_intros <;> first | exact ⟨_, _, rfl⟩ | decide +kernel

/-! ### Hypotheses that are met: requests at their home, units, migrations -/

/-- The byte at the last address of the object's page, in frame 1. -/
def place0 : Place :=
  { handle := handle0, pkg := 0, va := 0x101F8, pa := 0x101F8, width := 64, nib := false, leafPa := 0x130008, idx := 63 }
/-- A request of the step of core 0 in its home, in cycle and with tables. -/
def homeReq (kind : ReqKind) : Req :=
  { id := 7, unit := 0, who := .core 0 .C, bank := 0, run := 0, task := 0, world := 0, path := .C, ord := 1, issued := 0, place := place0, floor := 0,
    fences := [], kind, remote := false }
def homeSt (kind : ReqKind) : State :=
  let s := withTables core0 entry0
  { s with objs := { s.objs with reqs := [homeReq kind] } }
/-- The same with another request of the step before it, a store to the same object. -/
def behind (kind : ReqKind) : State :=
  let s := homeSt kind
  { s with objs := { s.objs with reqs := [homeReq kind, { homeReq (.wstore []) with id := 6, ord := 0, place := { place0 with va := 0 } }] } }
/-- The slice of the object: waiting requests, Spout entries, at a cycle. -/
def sliceSt (kind : ReqKind) (waiting : List CascWait) (spout : List SpoutEntry) (cycle : Nat) : State :=
  ({ homeSt kind with cycle } : State).setSlice 0 { Slice.initial with waiting, spout }

theorem wit_SliceAccesses :
    (∀ k : ReqKind, (homeSt k).req? 7 = some (homeReq k) ∧ (homeReq k).remote = false ∧ (homeReq k).far = false ∧ (homeSt k).blocked (homeReq k) = false
        ∧ (homeReq k).place.pkg = (homeSt k).pkg)
      ∧ hasStorage place0.pa = true ∧ (homeSt .openv).nearbankHolds place0.pa true = false ∧ (homeSt .openv).nearbankHolds place0.pa false = false
      ∧ (homeSt (.sstore 0 true)).released (homeReq (.sstore 0 true)) = true
      ∧ (behind (.sstore 0 true)).released (homeReq (.sstore 0 true)) = false
      ∧ (homeSt .openv).codeAt place0 = 0
      ∧ ((core0.bank (0 : BitVec 9).toNat 0).run = some probeRun ∧ probeRun.id = (homeReq .openv).run)
      ∧ ((0 : Nat) = (0 : Word).toNat % 2 ^ place0.width ∧ (0 : Nat) ≠ (1 : Word).toNat % 2 ^ place0.width)
      ∧ (homeSt (.wstore [])).inBasin (homeReq (.wstore [])).asker handle0 ((homeSt (.wstore [])).entryAny 0 handle0) 0x101F8 = false
      ∧ ((behind .pub).pubReady (homeReq .pub) = false ∧ (homeSt .pub).pubReady (homeReq .pub) = true
        ∧ eReps ((homeSt .pub).entryInMem (hIndex handle0)) = 1 ∧ (noPlace handle0 0).leafPa = 0)
      ∧ ((homeSt .openv).canOpen ((homeSt .openv).verOf handle0) 0 = true
        ∧ ({ homeSt .openv with objs := { (homeSt .openv).objs with drafts := [(objKey handle0, ⟨1, 0⟩)] } } : State).canOpen
            ((homeSt .openv).verOf handle0) 0 = false)
      ∧ (let k := ReqKind.casc true 0 1 4 5 handle0
         let y : CascWait := ⟨7, 0⟩
         (behind k).released (homeReq k) = false ∧ (homeSt k).released (homeReq k) = true ∧ sliceOf place0.pa = 0
           ∧ (∀ y ∈ ((homeSt k).slice 0).waiting, y.req ≠ 7) ∧ ((homeSt k).slice 0).waiting.length < 512
           ∧ (let s := sliceSt k [y] (List.replicate 63 default) 4096
              (s.slice 0).waiting = [y] ∧ y.req = (homeReq k).id ∧ s.cycle ≤ y.arrived + 4096 ∧ (s.slice 0).spout.length < 64 ∧ y.arrived + 4096 ≤ s.cycle)
           ∧ (let s := sliceSt k [y] (List.replicate 64 default) 4095
              64 ≤ (s.slice 0).spout.length ∧ s.cycle < y.arrived + 4096)) := by
  refine ⟨fun k => ⟨rfl, rfl, rfl, by cases k <;> rfl, rfl⟩, ?_⟩
  decide +kernel

/-- A load of the first line of the range of CXL port 0, alone, or behind another of the same line. -/
def cxlReq (id : Nat) : Req :=
  { homeReq (.wload 1 false 0) with id, ord := id, place := { place0 with pa := 2 ^ 53, handle := BitVec.ofNat 64 id } }
def cxlSt (l : List Req) : State :=
  let s := homeSt .openv
  { s with objs := { s.objs with reqs := l }
           links := { s.links with cxl := [(0, { TierPort.initial with st := 2, extents := [{ base := 0, len := 1, ways := 1, way := 0 }] })] } }

theorem wit_CxlRequests :
    (∀ l ∈ [[cxlReq 7], [cxlReq 6, cxlReq 7]], (cxlSt l).req? 7 = some (cxlReq 7) ∧ (cxlSt l).blocked (cxlReq 7) = false)
      ∧ hasStorage (cxlReq 7).place.pa = true ∧ (cxlReq 7).place.leafPa ≠ 0
      ∧ (cxlSt [cxlReq 7]).cxlGoes (cxlReq 7) = true ∧ (cxlSt [cxlReq 6, cxlReq 7]).cxlGoes (cxlReq 7) = false
      ∧ (eReps ((withTables core0 (entry0.set 3 0x0000000100020040)).entryInMem (hIndex handle0)) ≠ 1 ∨ (homeReq .pub).floor = 0)
      ∧ 512 ≤ ({ place0 with width := 512 } : Place).width := by
  decide +kernel

/-- Handle unit 0 reads the entry of the object, whose CRC is wrong or right, and walks for its page. -/
def goodEntry : Entry := sealEntry entry0
def fillSt (e : Entry) (retried : Bool) : State :=
  (withTables ready e).setHunit 0 { HandleUnit.initial with
    fills := [{ handle := handle0, stale := false, retried, remote := none, joined := [] }]
    walks := [{ va := 0x10000, stale := false, joined := [] }, { va := 0x20000, stale := false, joined := [] }] }
/-- The handle of an object of package 575, whose entry handle unit 0 has asked for; its answer has come, or not. -/
def farHandle : Word := 0x0000018FC0000005
def farFill (answer : Option Entry) : State :=
  ready.setHunit 0 { HandleUnit.initial with fills := [{ handle := farHandle, stale := false, retried := false, remote := answer, joined := [] }] }
/-- A walk that a request of a core has joined, in this package's tables or in those of package 575, which has answered. -/
def waiter0 : Waiter :=
  { who := .core 0 .C, bank := 0, source := 1, path := .C, handle := handle0, idx := [], va := 0x20000, fpc := { line := 0, slot := 0 }, ord := 3 }
def walkSt (w : Walk) : State := (withTables ready entry0).setHunit 0 { HandleUnit.initial with walks := [w] }
def localWalk : Walk := { va := 0x20000, stale := false, joined := [waiter0] }
def farWalk : Walk := { va := 0x20000, stale := false, joined := [], far := some 575, answer := some (0, 0x8000000000000001, false) }

theorem wit_FarFills :
    hHome farHandle ≠ ready.pkgNo ∧ entryCrcOk goodEntry = true
      ∧ ((farFill none).hunit 0).fills.find? (fun y => objKey y.handle == objKey farHandle)
        = some { handle := farHandle, stale := false, retried := false, remote := none, joined := [] }
      ∧ ((farFill (some goodEntry)).hunit 0).fills.find? (fun y => objKey y.handle == objKey farHandle)
        = some { handle := farHandle, stale := false, retried := false, remote := some goodEntry, joined := [] } := by
  decide +kernel

theorem wit_Walks :
    (∀ w ∈ [localWalk, farWalk], ((walkSt w).hunit 0).walks.find? (fun w => w.va == 0x20000 && (w.far.isNone || w.answer.isSome)) = some w ∧ w.stale = false)
      ∧ (∃ l, (walkSt localWalk).walkTables 0x20000 = .error l) ∧ localWalk.joined = [waiter0]
      ∧ (∀ q ∈ ((walkSt localWalk).bank 0 0).lq, q.ord ≠ waiter0.ord) ∧ farWalk.answer = some (0, 0x8000000000000001, false) := by
  refine ⟨by decide +kernel, ⟨4, errOf (by decide +kernel)⟩, rfl, by decide, rfl⟩

/-- A Spout entry that launches the template of handle0, which names cluster 0 of die 0. -/
def entrySpout : Entry := (entryTempl.set 11 0x0000000011000000)
def launch0 : SpoutEntry := { object := handle0, index := 0, old := 0, template := handle0, world := 0, pkg := 0, forwarded := 0 }
def spoutSt (e : Entry) (y : SpoutEntry) (cycle : Nat) : State :=
  ({ withTables hostSt e with cycle } : State).setSlice 191 { Slice.initial with spout := [y] }
/-- The recall of the copies of n bytes from va, not answered. -/
def recallReq (va : BitVec 52) (n : U32) : Req := { homeReq (.command 0 (.recall va n)) with remote := true }
/-- A near-bank command that its slice has accepted. -/
def nbCmd (started : Bool) : Cmd :=
  { (default : Cmd) with instr := .nbscale 0 0 1 1 0x40200000 0 0, accepted := true, started, snap := [0x10000, 0, 64, 0, 0, 0] }
def nbSt (started busy : Bool) : State :=
  let s := ready.setBank 319 1 { Bank.initial with xq := [nbCmd started] }
  if busy then s.setSlice 0 { Slice.initial with nearbank := [(319, 1, 1), (319, 1, 0)] } else s
/-- The same slice, which runs another command over the same bytes first. -/
def nbBusy : State := (nbSt false true).setBank 319 1 { Bank.initial with xq := [nbCmd false, { nbCmd true with ser := 1 }] }
/-- Block 5 of the sequence is retired; a request pins it, or none. -/
def retiredSt (pins : List SpanPin) : State :=
  { ready with objs := { ready.objs with attnFree := [(objKey handle0, 5)], spans := [(objKey handle0, pins)] } }

theorem wit_SpoutHere : Here (spoutSt entrySpout launch0 0) [launch0.template] ∧ Here (spoutSt entrySpout launch0 0) [tDefparam entrySpout] :=
  ⟨hereOf (by decide), hereOf (by decide)⟩

theorem wit_UnitEvents :
    (let s := fillSt goodEntry false
     (s.hunit 0).fills.find? (fun y => objKey y.handle == objKey handle0)
         = some { handle := handle0, stale := false, retried := false, remote := none, joined := [] } ∧ hHome handle0 = s.pkgNo
       ∧ entryCrcOk (s.entryInMem (hIndex handle0)) = true)
      ∧ (entryCrcOk ((fillSt entry0 false).entryInMem (hIndex handle0)) = false ∧ entryBlank ((fillSt entry0 false).entryInMem (hIndex handle0)) = false
        ∧ ((fillSt entry0 true).hunit 0).fills.all (fun y => y.retried) = true)
      ∧ (ready.hunit 0).fills = []
      ∧ (((fillSt entry0 true).hunit 0).walks.find? (fun w => w.va == 0x10000) = some { va := 0x10000, stale := false, joined := [] }
        ∧ ((fillSt entry0 true).hunit 0).walks.find? (fun w => w.va == 0x20000) = some { va := 0x20000, stale := false, joined := [] })
      ∧ (fillSt entry0 true).walkTables 0x10000 = .ok (0x130008, 0x8000000000000001, false)
      ∧ (∃ l, (fillSt entry0 true).walkTables 0x20000 = .error l)
      ∧ ((spoutSt entrySpout { launch0 with template := 0 } 0).known 0 = none ∧ ((spoutSt entrySpout launch0 0).slice 191).spout = [launch0])
      ∧ ((spoutSt entry0 launch0 0).known handle0 = some entry0 ∧ eKind entry0 ≠ 2)
      ∧ ((spoutSt (entrySpout.set 8 0) launch0 0).known handle0 = some (entrySpout.set 8 0) ∧ eKind (entrySpout.set 8 0) = 2
        ∧ hasRight (entrySpout.set 8 0) 0 rightL = false)
      ∧ (let s := spoutSt entrySpout launch0 4096
         let lr := spoutRecord launch0 entrySpout
         s.known handle0 = some entrySpout ∧ eKind entrySpout = 2 ∧ hasRight entrySpout 0 rightL = true ∧ lrParam lr = 0 ∧ s.homeUnit lr = some 0
           ∧ s.freeRecords 0 ≠ 0 ∧ (s.cq (lrCq lr)).isSome = true ∧ lrNeeds lr ≤ s.cqFree (lrCq lr) ∧ launch0.forwarded + 4096 ≤ s.cycle
           ∧ (spoutSt entrySpout launch0 4095).cycle < launch0.forwarded + 4096)
      ∧ ((fullUnit (spoutSt entrySpout launch0 4096)).freeRecords 0 = 0)
      ∧ ((nbSt false false).nbAt 319 1 0 = some (nbCmd false) ∧ (nbSt false false).nbFree 319 1 (nbCmd false) = true ∧ (nbCmd false).nbLeaves = []
        ∧ (nbSt true false).nbAt 319 1 0 = some (nbCmd true) ∧ (nbSt true false).nbRecalling (nbCmd true) = false
        ∧ ({ nbSt true false with objs := { (nbSt true false).objs with reqs := [recallReq 0 64] } } : State).nbRecalling (nbCmd true) = true ∧ nbBusy.nbAt 319 1 0 = some (nbCmd false) ∧ nbBusy.nbFree 319 1 (nbCmd false) = false)
      ∧ ((objKey handle0, 5) ∈ (retiredSt []).objs.attnFree ∧ (retiredSt []).spanPins handle0 = [] ∧ (retiredSt []).blkLeaf entrySeq 5 = none)
      ∧ (⟨5, 0, 0, 0⟩ : SpanPin) ∈ (retiredSt [⟨5, 0, 0, 0⟩]).spanPins handle0 := by
  and_intros <;> first
    | decide +kernel
    | exact okOf (by decide +kernel)
    | exact ⟨4, errOf (by decide +kernel)⟩
    | exact Nat.sub_eq_zero_of_le (Nat.le_of_eq (List.length_replicate (n := 65536) (a := ((0, default) : Nat × Task))).symm)

/-- A move of the object's page to frame 7 of LPDDR6, or to package 575. -/
def move0 (phase : BitVec 3) (pkg : BitVec 10) : Migration :=
  { id := 7, handle := handle0, va := 0x10000, large := false, leafPa := 0x130008, tier := 1, pkg, pfn := 7, phase, since := 0, why := .evict }
def moveSt (m : Migration) (now : Nat) : State :=
  let s := withTables ready entry0
  { s with now, tether := BitVec.ofNat 64 now, objs := { s.objs with migrations := [m] } }

/-- The bytes of a segment of an object of package 575 have arrived for page 0x20000, and its REBIND has come. -/
def arrived : Incoming := { src := 575, id := 3, handle := farHandle, va := 0x20000, size := 65536, rebind := some (575, 3) }
def arriving (m : Migration) : State :=
  let s := moveSt m 0
  { s with objs := { s.objs with incoming := [arrived], guests := [(farHandle, entry0.set 5 0x20000)] } }
/-- Bank 0 of core 0 is parked for a page of the object, which is pinned. -/
def missing : FaultInfo := { (default : FaultInfo) with cause := Cause.objMissing, va := 0x10000 }
def wanting (m : Migration) (e : Entry) (l : List Migration) : State :=
  let s := (withTables ready e).setBank 0 0 { Bank.initial with st := .parked, fault := some missing }
  { s with objs := { s.objs with migrations := m :: l } }
/-- Every frame of HBM is the target of a move of a large page. -/
def crowd (m : Migration) : List Migration :=
  (List.range 393216).map fun k => { m with large := true, tier := 0, pkg := 0, pfn := BitVec.ofNat 32 (32 * k) }

theorem crowd_holds (s : State) (p : Nat) (hp : p < 192 * 65536) (m : Migration) (hk : s.pkg = 0)
    (hc : ∀ k, k < 393216 → { m with large := true, tier := 0, pkg := 0, pfn := BitVec.ofNat 32 (32 * k) } ∈ s.objs.migrations) :
    s.frameFree 0 p = false := by
  have hm := hc (p / 32) (by omega)
  unfold State.frameFree
  refine Bool.and_eq_false_iff.mpr (.inr (List.all_eq_false.mpr ⟨_, hm, ?_⟩))
  simp only [hk, Migration.size, BitVec.toNat_ofNat, if_true]
  have : 32 * (p / 32) % 2 ^ 32 = 32 * (p / 32) := Nat.mod_eq_of_lt (by omega)
  simp [this]
  omega

theorem none_left {l : List Nat} {q : Nat → Bool} (h : ∀ p ∈ l, q p = false) : (l.eraseDups.filter q).length = 0 :=
  List.length_eq_zero_iff.mpr (List.filter_eq_nil_iff.mpr fun p hp => by simp [h p (List.mem_eraseDups.mp hp)])

theorem frames_none (s : State) (large : Bool) (p : Nat) (h : s.frameFree 0 p = false) : s.framesOk 0 large [p] = false := by
  unfold State.framesOk
  refine Bool.and_eq_false_iff.mpr (.inr (List.all_eq_false.mpr ⟨p, by simp, ?_⟩))
  simp only [Bool.not_eq_true]
  refine Bool.and_eq_false_iff.mpr (.inr (List.all_eq_false.mpr ⟨0, ?_, by simpa using h⟩))
  cases large <;> simp

theorem left_none (s : State) (large striped : Bool) (h : ∀ p, p < 192 * 65536 → s.frameFree 0 p = false) : s.framesLeft 0 large striped = 0 := by
  unfold State.framesLeft
  generalize 192 * 65536 = n at h ⊢
  generalize 2 ^ 24 = m
  refine none_left fun p hp => ?_
  split at hp
  · rw [frames_none s large p (h p (List.mem_range.mp hp))]; rfl
  · contradiction
  · contradiction

theorem wit_NoSpace :
    let m := move0 7 0
    let s := wanting m entryPinned (crowd m)
    s.migration? 7 = some m ∧ (s.bank 0 0).fault = some missing ∧ (s.bank 0 0).st = .parked ∧ missing.cause = Cause.objMissing
      ∧ s.framesLeft 0 (eLarge entryPinned) (eCompute entryPinned || eLayout entryPinned == 2) = 0 :=
  ⟨rfl, rfl, rfl, rfl, left_none _ _ _ fun p hp => crowd_holds _ p hp (move0 7 0) rfl fun k hk =>
    List.mem_cons_of_mem _ (List.mem_map.mpr ⟨k, List.mem_range.mpr hk, rfl⟩)⟩

theorem wit_Space :
    let s := wanting (move0 7 0) entry0 []
    let t := wanting (move0 7 0) entryPinned []
    (s.bank 0 0).fault = some missing ∧ (s.bank 0 0).st = .parked ∧ s.objectAt missing.va.toNat = some (handle0, entry0) ∧ s.mayQualify 0 = true
      ∧ t.objectAt missing.va.toNat = some (handle0, entryPinned) ∧ t.mayQualify 0 = false := by
  decide +kernel

theorem wit_Rebind :
    let s := arriving (move0 2 0)
    s.mapDue 0x20000 = some (65536, farHandle, some arrived) ∧ s.mapDue 0x10000 = none
      ∧ (let l : Word := 0x8000000000000009
         leafTier l ≠ 3 ∧ s.tabsOk [0x20000] [] = true ∧ s.framesOk (leafTier l) (65536 == 2097152) [leafPfn l] = true
           ∧ s.modeOk (eCompute (s.entryHere farHandle) || eLayout (s.entryHere farHandle) == 2) (leafPfn l) = true
           ∧ hasStorage (frameBase (leafTier l) 0 (leafPfn l)) = true)
      ∧ leafTier 0xE000000000000001 = 3 := by
  decide +kernel

/-- The object's page lies in flash behind port 0, and the command that reads it for the move is outstanding, or not. -/
def flashSt (busy : Bool) : State :=
  let s := moveSt (move0 2 0) 0
  let c : NvmeCmd := { cid := 7, op := .read, start := 0 }
  { s with mem := mputWord s.mem 0x130008 0xE000000000000001
           links := { s.links with flash := [(0, { TierPort.initial with st := 2, cmds := if busy then [c] else [] })] } }

theorem wit_MovesUnderWay :
    (let s := moveSt (move0 1 0) 0
     s.recallOpen (move0 1 0).va.toNat (move0 1 0).size = false
       ∧ ({ s with objs := { s.objs with reqs := [recallReq 0x10000 65536] } } : State).recallOpen (move0 1 0).va.toNat (move0 1 0).size = true)
      ∧ (leafTier ((flashSt true).leafNow 0x130008) = 3
        ∧ ((flashSt true).flashPort (leafPort ((flashSt true).leafNow 0x130008))).nvmeOpen (7 % 32768) = true
        ∧ ((flashSt false).flashPort (leafPort ((flashSt false).leafNow 0x130008))).nvmeOpen (7 % 32768) = false)
      ∧ (hHome handle0 = ready.pkgNo ∧ hHome farHandle ≠ ready.pkgNo)
      ∧ (let s := moveSt (move0 4 575) 1000000
         (¬∃ q ∈ s.objs.reqs, q.run = moveRun 7) ∧ (move0 4 575).since + 1000000 ≤ s.now
           ∧ ∃ q ∈ ({ s with objs := { s.objs with reqs := [{ homeReq .openv with run := moveRun 7 }] } } : State).objs.reqs, q.run = moveRun 7)
      ∧ (let s := withTables ready entry0
         s.framesOk (leafTier 0x8000000000000001 + 1) false [7] = true ∧ s.framesOk (leafTier 0x8000000000000001 + 1) false [2 ^ 24] = false) := by
  decide +kernel

theorem wit_Migrations :
    (∀ m : Migration, m.id = 7 → ∀ n, (moveSt m n).migration? (7 : U32).toNat = some m)
      ∧ (leafBusy ((moveSt (move0 1 0) 0).leafNow 0x130008) = 0 ∧ (move0 1 0).pkg = (moveSt (move0 1 0) 0).pkg ∧ (move0 1 575).pkg ≠ ready.pkg
        ∧ hWorld handle0 = 0 ∧ hWorld 0x0100010000000005 ≠ 0)
      ∧ leafBusy (((moveSt (move0 1 0) 0).busyUp 0x130008 1).leafNow 0x130008) ≠ 0
      ∧ ((move0 2 0).phase = 2 ∧ leafTier ((moveSt (move0 2 0) 0).leafNow 0x130008) ≠ 3 ∧ hasStorage (frameBase 1 0 7) = true)
      ∧ ((move0 3 575).phase = 3 ∧ (move0 3 575).since + 1000000 ≤ (moveSt (move0 3 575) 1000000).now
        ∧ (moveSt (move0 3 575) 999999).now < (move0 3 575).since + 1000000)
      ∧ ((move0 5 575).phase = 5 ∧ (move0 5 575).since + 5000000 ≤ (moveSt (move0 5 575) 5000000).tether.toNat
        ∧ (moveSt (move0 5 575) 4999999).tether.toNat < (move0 5 575).since + 5000000)
      ∧ (let s := withTables ready entry0
         s.objectAt 0x1FFFF = some (handle0, entry0) ∧ s.qualifies handle0 entry0 0x10000 0x8000000000000001 = true
           ∧ s.qualifies handle0 entry0 0x10000 0x9000000000000001 = false ∧ s.usedAt 0x10000 = 0)
      ∧ (withTables ready entry0).walkTables 0x1FFFF = .ok (0x130008, 0x8000000000000001, false)
      ∧ ((moveSt (move0 2 0) 999999).tether.toNat < 0 + 1000000 ∧ (moveSt (move0 2 0) 999999).objs.lastSampleNs = 0) := by
  refine ⟨fun m h n => ?_, ?_⟩
  · simp [State.migration?, moveSt, h]
  · and_intros <;> first | decide +kernel | exact okOf (by decide +kernel)

/-! ### Hypotheses that are met: the security service, the scheduler -/

/-- The service object of bring-up, at VBASE 0x10000 in frames 1 and 2, at an odd or even VERSION. -/
def svcSt (version : Word) : State :=
  let e := (serviceEntry 0x10000).set 0 ((serviceEntry 0x10000)[0] ||| 0x0000000400000000)
  let m := mwrite (mputWord pageTables 0x130010 0x8000000000000002) 0x200080 (bytesOfWords e.toList)
  { ready with mem := mputWord m 0x200088 (version <<< 32), objs := { ready.objs with otCap := 7, otBase := 0x200000, ptRoot := 0x100000 } }
/-- World 7 has a key, and is in use by a slot. -/
def keyed (inUse : Bool) : State :=
  let s := { ready with sec := { ready.sec with keys := [(7, [1])], engineKeys := [(7, [1])] } }
  if inUse then s.setLaunchSlot 0 { Slot.initial with world := 7 } else s
/-- A request of an opc for world 7. -/
def svcReq (opc : Byte) : List Byte := [opc, 7]
def secSt (exhausted : Bool) (cert : Option (List Byte)) (idx res : Nat) : State :=
  { ready with sec := { ready.sec with exhausted, cert, nextIdx := idx, nextRes := res } }

theorem wit_SecurityService :
    (boot 8).ready = false ∧ (ready.ready = true ∧ ready.sec.request = none ∧ ready.versionAt 1 = ready.sec.answered)
      ∧ (reqWorld (svcReq 2)).toNat ≠ 0 ∧ (tfind ready.sec.keys 7 = none ∧ (tfind (keyed true).sec.keys 7).isSome = true)
      ∧ ((keyed true).worldInUse 7 = true ∧ (keyed false).worldInUse 7 = false)
      ∧ ((secSt true none 0 0).sec.exhausted = true ∧ (secSt false none 0 0).sec.exhausted = false ∧ (secSt false none 0 0).sec.cert = none)
      ∧ ((secSt false (some []) (2 ^ 40 - 1) (2 ^ 40)).sec.cert.isSome = true
        ∧ (secSt false (some []) (2 ^ 40 - 1) (2 ^ 40)).sec.nextIdx < 2 ^ 40
        ∧ (secSt false (some []) (2 ^ 40 - 1) (2 ^ 40)).sec.nextIdx < (secSt false (some []) (2 ^ 40 - 1) (2 ^ 40)).sec.nextRes)
      ∧ (secSt true (some []) 0 0).sec.cert.isSome = true := by
  and_intros <;> decide

/-- A request of each opc that a step of the requester has published; VERSION is odd, or the requester has published again. -/
theorem wit_ServiceRequests :
    ((svcSt 1).versionAt 1 ≠ (svcSt 1).sec.answered ∧ ((svcSt 1).versionAt 1).getLsbD 0 = true ∧ ((svcSt 2).versionAt 1).getLsbD 0 = false
        ∧ (svcSt 2).versionAt 1 ≠ (svcSt 2).sec.answered ∧ (svcSt 1).ready = true ∧ (svcSt 1).sec.request = none)
      ∧ (∃ bs, (svcSt 1).svcRead 0 8 = some bs)
      ∧ (∃ r, { svcSt 1 with mem := mset (svcSt 1).mem 0x10000 6 }.svcRead 0 4096 = some r ∧ reqOpc r = 6)
      ∧ (let s := { svcSt 1 with sec := { (svcSt 1).sec with request := some (svcReq 6) } }
         s.sec.request = some (svcReq 6) ∧ reqOpc (svcReq 6) = 6 ∧ s.sec.faulted = false ∧ (∃ bs, s.svcRead 0 8 = some bs))
      ∧ (∀ k ∈ List.range 8, reqOpc (svcReq (BitVec.ofNat 8 k)) = k) ∧ ready.svcRead 0 8 = none ∧ { ready.sec with faulted := true }.faulted = true := by
  refine ⟨by decide +kernel, Option.isSome_iff_exists.mp (by decide +kernel), ?_,
    ⟨rfl, rfl, rfl, Option.isSome_iff_exists.mp (by decide +kernel)⟩, by decide +kernel, by decide +kernel, rfl⟩
  exact Option.map_eq_some_iff.mp (by decide +kernel)

/-- A request that wraps a key, whatever the key agreement gives: its first 1,632 bytes, the key under the pad, and its check. -/
def wrapHead : List Byte := [2, 7] ++ List.replicate 1630 0
def padOf (s : State) : List Byte :=
  keyPad (s.mlkemDecaps (reqPart wrapHead 64 1568)) 7 (devIdBytes s)
def wrapped (s : State) (kw : List Byte) : List Byte :=
  wrapHead ++ ((List.range 64).map (fun j => byteAt kw j ^^^ byteAt (padOf s) j) ++ keyCheck kw)

theorem byteAt_left (a b : List Byte) (k : Nat) (h : k < a.length) : byteAt (a ++ b) k = byteAt a k := by
  simp [byteAt, List.getElem?_append_left h]
theorem byteAt_right (a b : List Byte) (k : Nat) : byteAt (a ++ b) (a.length + k) = byteAt b k := by
  simp [byteAt, List.getElem?_append_right (Nat.le_add_right a.length k)]

theorem unwrap_wrapped (s : State) (kw : List Byte) (hk : (List.range 64).map (byteAt kw) = kw)
    (hc : (List.range 8).map (byteAt (keyCheck kw)) = keyCheck kw) :
    s.unwrap (wrapped s kw) = (kw, kw.take 32 != kw.drop 32) := by
  have head : wrapHead.length = 1632 := by decide +kernel
  have h1 : reqPart (wrapped s kw) 64 1568 = reqPart wrapHead 64 1568 :=
    List.map_congr_left fun k hk => byteAt_left _ _ _ (by have := List.mem_range.mp hk; omega)
  have h2 : reqWorld (wrapped s kw) = 7 := byteAt_left _ _ 1 (by omega)
  have h3 : ∀ j, j < 64 → byteAt (wrapped s kw) (1632 + j) ^^^ byteAt (padOf s) j = byteAt kw j := fun j hj => by
    have h := byteAt_right wrapHead ((List.range 64).map (fun j => byteAt kw j ^^^ byteAt (padOf s) j) ++ keyCheck kw) j
    rw [head] at h
    rw [wrapped, h, byteAt_left _ _ _ (by simpa using hj)]
    simp [byteAt, hj, BitVec.xor_assoc]
  have h4 : reqPart (wrapped s kw) 1696 8 = keyCheck kw := by
    rw [← hc]
    refine List.map_congr_left fun k _ => ?_
    have h := byteAt_right wrapHead ((List.range 64).map (fun j => byteAt kw j ^^^ byteAt (padOf s) j) ++ keyCheck kw) (64 + k)
    have g := byteAt_right ((List.range 64).map (fun j => byteAt kw j ^^^ byteAt (padOf s) j)) (keyCheck kw) k
    rw [head] at h
    rw [List.length_map, List.length_range] at g
    rw [wrapped, show 1696 + k = 1632 + (64 + k) by omega, h, g]
  have h5 : (List.range 64).map (fun j => byteAt (wrapped s kw) (1632 + j) ^^^ byteAt (padOf s) j) = kw := by
    conv => rhs; rw [← hk]
    exact List.map_congr_left fun j hj => h3 j (List.mem_range.mp hj)
  have h6 : keyPad (s.mlkemDecaps (reqPart (wrapped s kw) 64 1568)) (reqWorld (wrapped s kw)) (devIdBytes s) = padOf s := by rw [h1, h2]; rfl
  simp only [State.unwrap, h6, h5, h4, beq_self_eq_true, Bool.true_and]

def goodKey : List Byte := List.replicate 32 1 ++ List.replicate 32 2
theorem wit_Unwrap (s : State) : s.unwrap (wrapped s goodKey) = (goodKey, true) ∧ (s.unwrap (wrapped s (List.replicate 64 1))).2 = false := by
  rw [unwrap_wrapped s goodKey (by decide) (by decide +kernel), unwrap_wrapped s (List.replicate 64 1) (by decide) (by decide +kernel)]
  decide

/-- A task of the template of handle0 that is ready, and the state that holds it as task 0. -/
def item0 : Task := { blankTask lrWords 0 .plain with st := .ready, loaded := true }
def itemSt (k : Task) : State := (withTables hostSt entryTempl).putTask 0 k
/-- A local gang of one member. -/
def gang0 : LocalGang := { world := 0, gid := 3, size := 1, members := [0], started := false, detail := none }
def gangItem : Task := { item0 with role := .gang 3 1 }
def gatherSt (k : Task) (held : List (Nat × Nat)) : State :=
  let s := itemSt k
  { s with sched := { s.sched with gangs := [gang0], gather := some { task := 0, held, higherSince := none } } }
/-- Every core of cluster 0 runs a step of task 2, of priority 0, and task 0 of priority 2 has waited 8,192 cycles. -/
def urgent : Task := { item0 with lr := lrWords.set 2 0x0000000000200000 }
def runOf (t : Word) : StepRun := { probeRun with task := t, committed := false }
def task2 : Word := taskIdOf 0 0 0 1
def pressed (cycle : Nat) : State :=
  let s := (itemSt urgent).putTask task2 { item0 with st := .running, running := 8 }
  (List.range 8).foldl (fun s f => s.setBank f 0 { Bank.initial with st := .running, run := some (runOf task2) }) { s with cycle }
/-- Core 7 discards a step of a task that has ended, for task 0, or for a task that has ended too. -/
def granted (discarding : Bool) (t : Word) : State :=
  let s := itemSt item0
  withGrants (s.setBank 7 0 { Bank.initial with st := .running, run := some { runOf task2 with discarding } }) [(7, t)]
/-- A pipeline of one core. -/
def pipe0 : PipeInfo := { cores := 1, stages := [], rings := [], held := [], started := false, lastBalance := 0, worst := none }
def pipeItem (started : Bool) : Task := { item0 with role := .pipeline, pipe := some { pipe0 with started } }

theorem wit_AtHandForDispatch :
    (∀ y ∈ (itemSt item0).allTasks, Here (itemSt item0) [lrTemplate y.2.lr]) ∧ (itemSt item0).askTemplate (lrTemplate item0.lr) = (itemSt item0, true)
      ∧ (∀ g ∈ (pressed 8192).sched.grants, g.2 ≠ 0) ∧ (pressed 8192).dispatches = true ∧ (granted true 0).power.freqAct ≠ 0
      ∧ (granted false 0).power.freqAct ≠ 0 := by
  refine ⟨?_, by decide +kernel, by decide +kernel, by decide +kernel, by decide +kernel, by decide +kernel⟩
  intro y hy
  have : y.2.lr = lrWords := by
    have h : (itemSt item0).allTasks.all (fun y => y.2.lr == lrWords) = true := by decide +kernel
    exact beq_iff_eq.mp (List.all_eq_true.mp h y hy)
  rw [this]
  exact hereOf (by decide +kernel)

/-- What core 7 does for task 0 once it has discarded the step: it may not have the core, or it gathers. -/
def afterDiscard (s : State) : State :=
  ((withGrants s []).discardStep 7 0).requeue { runOf task2 with discarding := true } true
def grantedTo (k : Task) : State :=
  let s := gatherSt k []
  let s := withGrants (s.setBank 7 0 { Bank.initial with st := .running, run := some { runOf task2 with discarding := true } }) [(7, 0)]
  { s with sched := { s.sched with gather := none } }

theorem wit_AfterDiscard :
    (let t := afterDiscard (grantedTo { item0 with st := .ended })
     t.task? 0 = some { item0 with st := .ended } ∧ t.mayRun 7 0 (t.holder 7) (0, { item0 with st := .ended }) = false)
      ∧ (let t := afterDiscard (grantedTo gangItem)
         t.task? 0 = some gangItem ∧ t.dispatches = true ∧ t.mayRun 7 0 (t.holder 7) (0, gangItem) = true ∧ t.gathers (0, gangItem) = true)
      ∧ (let t := afterDiscard (grantedTo item0)
         t.task? 0 = some item0 ∧ t.dispatches = true ∧ t.mayRun 7 0 (t.holder 7) (0, item0) = true ∧ t.gathers (0, item0) = false) := by
  and_intros <;> decide +kernel

theorem wit_AfterDiscardSteps :
    (afterDiscard (grantedTo item0)).askTemplate (lrTemplate item0.lr) = (afterDiscard (grantedTo item0), true)
      ∧ ∃ u q, (afterDiscard (grantedTo item0)).handOut 0 item0 [] = .step u q := ⟨by decide +kernel, _, _, rfl⟩

theorem wit_Dispatching :
    (boot 8).dispatches = false ∧ ((pressed 0).freeBank 7 = none)
      ∧ (let s := itemSt item0
         (7 : BitVec 9).toNat < 320 ∧ s.freeBank 7 = some 0 ∧ s.dispatches = true ∧ s.sched.grants = [] ∧ s.bestItem 7 0 = some (0, item0)
           ∧ s.gathers (0, item0) = false)
      ∧ (∃ u q, (itemSt item0).handOut 0 item0 [] = .step u q)
      ∧ (let s := { gatherSt gangItem [] with sched := { (gatherSt gangItem []).sched with gather := none } }
         s.freeBank 7 = some 0 ∧ s.bestItem 7 0 = some (0, gangItem) ∧ s.gathers (0, gangItem) = true ∧ s.sched.gather = none)
      ∧ ((itemSt item0).task? 0 = some item0 ∧ item0.isItem = true)
      ∧ (let s := fun (held : Bool) (k : Bank) => (itemSt item0).setBank 319 1 { k with st := .running, run := some { run0 with held, boundary := 1 } }
         ((s true Bank.initial).bank 319 1).queuesEmpty 1 = true ∧ ((s true { Bank.initial with lq := [default] }).bank 319 1).queuesEmpty 1 = false
           ∧ ((s true Bank.initial).bank 319 1).owner = (run0.task, run0.world)
           ∧ ((s true { Bank.initial with owner := (1, 0) }).bank 319 1).owner ≠ (run0.task, run0.world))
      ∧ (let s := pressed 8192
         s.task? 0 = some urgent ∧ urgent.isItem = true ∧ s.gathers (0, urgent) = false ∧ urgent.readyNs + 8192 ≤ s.cycle
           ∧ s.noneFree (0, urgent) = true ∧ (greatestBy victimKey (s.victims (0, urgent))).isSome = true ∧ (pressed 8191).cycle < urgent.readyNs + 8192)
      ∧ ((granted true 0).sched.grants.find? (fun g => g.1 == 7) = some (7, 0)
        ∧ ((granted true 0).bank 7 ((granted true 0).core 7).active).run = some { runOf task2 with discarding := true }
        ∧ ((granted false 0).bank 7 0).run = some (runOf task2))
      ∧ (let t := fun (id : Word) => afterDiscard (granted true id)
         (t task2).task? task2 = none ∧ (t 0).task? 0 = some item0 ∧ (t 0).mayRun 7 0 ((t 0).holder 7) (0, item0) = true)
      ∧ (gatherSt gangItem []).task? 0 = some gangItem ∧ (gatherSt gangItem []).allTasks = [(0, gangItem)]
      ∧ ((gatherSt gangItem []).task? 1 = none)
      ∧ ((gatherSt (pipeItem false) []).task? 0 = some (pipeItem false) ∧ ([] : List (Nat × Nat)).length < pipe0.cores
        ∧ pipe0.cores ≤ [((7 : Nat), (0 : Nat))].length ∧ (pipeItem false).killed = none)
      ∧ (let s := gatherSt gangItem [(7, 0)]
         s.gangOf 0 = some gang0 ∧ ([] : List (Nat × Nat)).length < gang0.size.toNat ∧ gang0.members = [0] ∧ gang0.size = 1 ∧ s.gangReady gang0 = true
           ∧ s.task? 0 = some gangItem ∧ s.freeBank 7 = some 0)
      ∧ (∃ u q, (gangStarted (gatherSt gangItem [(7, 0)]) gang0).handOut 0 gangItem [] = .step u q) := by
  and_intros <;> first | exact ⟨_, _, rfl⟩ | decide +kernel

/-- A release of a step of core 0 that has left it, alone, or behind a store of the same step. -/
def relSt (kind : ReqKind) (run : Nat) (store : Bool) (s : State) : State :=
  let q := { homeReq kind with run }
  let r := { homeReq (.wstore []) with id := 6, ord := 0, run }
  { s with objs := { s.objs with reqs := if store then [q, r] else [q] } }
def dec0 : ReqKind := .decrement 0 1 false false
def launchLr (words : Vector Word 8) : ReqKind := .spawn words false 1 2

theorem wit_TaskRequests :
    ((relSt dec0 0 false ready).req? 7 = some (homeReq dec0) ∧ (homeReq dec0).remote = false ∧ (homeReq dec0).place.pkg = ready.pkg
        ∧ (homeReq dec0).kind = .decrement 0 1 false false ∧ (homeReq dec0).run = 0)
      ∧ ((relSt dec0 1 true ready).req? 7 = some { homeReq dec0 with run := 1 } ∧ (relSt dec0 1 true ready).releaseReady { homeReq dec0 with run := 1 } = false)
      ∧ ((relSt (.arrive 3 true) 1 false ready).releaseReady { homeReq (.arrive 3 true) with run := 1 } = true)
      ∧ (let q := { homeReq (launchLr lrWords) with run := 1 }
         let s := relSt (launchLr lrWords) 1 false (withTables hostSt entryTempl)
         s.req? 7 = some q ∧ s.releaseReady q = true ∧ s.spawnStatus q lrWords false = 0 ∧ s.homeUnit lrWords = some 0
           ∧ (relSt (launchLr lrWords) 1 true s).releaseReady q = false
           ∧ (relSt (launchLr lrWords) 1 false ready).spawnStatus q lrWords false ≠ 0) := by
  and_intros <;> decide +kernel

/-- A task that waits for two dependences, or for one; it names a parameter block. -/
def waiting0 (n : U16) : Task := { blankTask (lrWords.set 1 handle0) 0 .plain with count := n }
/-- A task that has made its one step. -/
def done0 : Task := { item0 with st := .running, nextStep := 1, done := 1 }

/-- Core 319 holds a dirty line of the task in the Basin of its bank 1. -/
def dirtySt (k : Task) : State :=
  (itemSt k).setBank 319 1 { Bank.initial with basin := [{ (default : BasinLine) with task := 0, dirty := [(0, 0, .C)] }] }

theorem wit_LoadsAndRequests :
    (itemSt item0).askRecord lrWords false = (itemSt item0, true) ∧ Here (itemSt item0) [lrTemplate item0.lr] ∧ hasRight entry0 0 rightR = true
      ∧ (∃ x, ((cached entryGen).putTask 0 item0).readImage (unitAsker 0 0 0 .L) (unitKey 0) handle0 [] = .trap x)
      ∧ (let q := { homeReq dec0 with run := 1 }
         (relSt dec0 1 false ready).decBlocked q 0 = false
           ∧ ({ ready with objs := { ready.objs with reqs := [q, { q with id := 6, ord := 0 }] } } : State).decBlocked q 0 = true)
      ∧ ((dirtySt done0).dirtyBanks 0 = [(319, 1)] ∧ done0.allEnded = true)
      ∧ ({ ready with tether := 16001 } : State).tether.toNat % 16000 ≠ 0 ∧ ready.power.thermStopped = false
      ∧ (waiting0 0).count = 0 :=
  ⟨rfl, hereOf (by decide +kernel), by decide, ⟨_, rfl⟩, by decide +kernel, by decide +kernel, by decide, rfl, rfl⟩

theorem wit_TaskLifetimes :
    (let s := itemSt (waiting0 2)
     s.task? 0 = some (waiting0 2) ∧ tidUnit 0 < 40 ∧ (waiting0 2).st = .waiting ∧ lrWorld (waiting0 2).lr = (0 : Byte).toNat ∧ 1 < (waiting0 2).count.toNat
       ∧ (waiting0 2).count ≠ 0 ∧ (2 : Nat) = (waiting0 2).count.toNat ∧ lrParam (waiting0 2).lr ≠ 0)
      ∧ ((itemSt { item0 with st := .ended }).task? 0 = some { item0 with st := .ended })
      ∧ (item0.loaded = true ∧ ({ item0 with loaded := false } : Task).st = .ready ∧ ({ item0 with loaded := false } : Task).killed = none
        ∧ item0.role ≠ .pipeline)
      ∧ (∃ u, (itemSt item0).readImage (unitAsker 0 0 0 .L) (unitKey 0) handle0 [] = .wait u)
      ∧ (∃ u v, (objSt.putTask 0 item0).readImage (unitAsker 0 0 0 .L) (unitKey 0) handle0 [] = .ok u v)
      ∧ ((itemSt { pipeItem false with loaded := false }).task? 0 = some { pipeItem false with loaded := false }
        ∧ (itemSt (pipeItem false)).declBytes (lrPipe (pipeItem false).lr) = none)
      ∧ ((pipeItem true).pipe = some { pipe0 with started := true } ∧ ({ ready with tether := 15999 } : State).tether.toNat / 16000 ≤ pipe0.lastBalance
        ∧ pipe0.lastBalance < ({ ready with tether := 16000 } : State).tether.toNat / 16000)
      ∧ (ready.task? 0 = none ∧ (itemSt item0).stagesLive 0 item0 = false ∧ item0.allEnded = false)
      ∧ (let s := itemSt done0
         s.task? 0 = some done0 ∧ s.stagesLive 0 done0 = false ∧ done0.allEnded = true ∧ s.dirtyBanks 0 = [] ∧ s.quiet 0 = true
           ∧ (s.setBank 0 0 { Bank.initial with lq := [default] }).quiet 0 = false ∧ done0.role = .plain ∧ done0.killed = none
           ∧ lrNocmpl done0.lr = false ∧ s.cq (lrCq done0.lr) = some cq0) := by
  and_intros <;> first | exact ⟨_, rfl⟩ | exact gotOk (by decide +kernel) | decide +kernel

/-! ### Hypotheses that are met: intake chains, engines, units -/

/-- A source of bytes, a vocabulary and a merge table at indexes 1 to 3, in the object cache of the chains. -/
def chainEntries : List Entry :=
  [(entry0.set 0 0x0000010400000000), (entry0.set 0 0x0000010402000000).set 3 0x0000000100000100,
   (entry0.set 0 0x0000010403100000).set 3 0x0000010000000002]
def sub0 (source : Word) : Submission :=
  { words := #v[source, 0, 0x0001000000000000, 0, 77, 0x0000010000000002, 0x0000010000000003, 0], world := 0, task := 0, run := 0, core := 0, bank := 0,
    ord := 0 }
/-- A consumer: ring 0 of task 0, of two slots of 128 bytes, on core 0. -/
def consumerTask : Task := { item0 with st := .running, param := mputWord [] 128 0x0002000000000080, paramLen := 144 }
/-- Chain 15 with a message in its queue, tables that it holds, and a consumer at entry 0. -/
def chainSt (c : Chain) : State :=
  let s := (ready.putTask 0 consumerTask).setBank 0 0 core0.curBank
  let s := s.setCore 0 { s.core 0 with rings := [ring0 .free] }
  let s := s.setHunit 40 { HandleUnit.initial with cache := chainEntries.mapIdx fun k e => ⟨BitVec.ofNat 30 (k + 1), 0, e, 0⟩ }
  { s with objs := { s.objs with otCap := 7 } }.setChain 15 { c with
    cons := (Vector.replicate 16 0).set 0 0x80000000
    tables := [(0x0000010000000002, 0, List.replicate 256 0), (0x0000010000000003, 0, List.replicate 512 0)] }
def queued (source : Word) : Chain := { Chain.initial with queue := [sub0 source] }
def faulted (sump : Nat) : Chain :=
  { Chain.initial with
    msg := some { no := 0, sub := sub0 0, cons := [(0, 0x80000000)], cap := 16, tokens := [], sent := 0, first := true, fault := some (fetchFault 1 0) }
    sump := List.replicate sump (0, .replicate 8 0) }
/-- A full Sump whose chain waits to append: of one of its messages, or of a message behind another. -/
def fullSump : Chain := { faulted 1024 with sumpFull := true }
def crowded : Chain := { queued 0 with behind := List.replicate 5 { no := 0, sub := sub0 0, cons := [], cap := 16, tokens := [], sent := 0, first := true, fault := none } }
def otherWorld (c : Chain) : Chain := { c with queue := [{ sub0 0 with world := 5 }] }
def batched (w : Word) : Chain := { Chain.initial with out := [{ no := 0, sub := sub0 0, sent := 0, bytes := List.replicate 64 9, left := [(15, w)] }] }
/-- The chain's front reads the message to its end, and the stages give no token. -/
def readsNothing (s : State) : Bool :=
  match (s.setChain 15 { s.chain 15 with world := 0 }).chainFetch 15 (sub0 0x0000010000000001) [] with
  | .ok u (.read src v m k nv) => chainStages (subConfig (sub0 0)) src v.2.2 m.2.2 k.2.2 nv == ([], none) && (u.chain 15).out.length < 16
      && (u.chain 15).msg.isNone && (u.chain 15).behind.isEmpty && !(u.chain 15).stopped
  | _ => false

theorem wit_IntakeChains :
    (boot 8).chainRuns = false ∧ ((chainSt fullSump).chain 15).stopped = true ∧ (ready.chainRuns = true ∧ (ready.chain 15).queue = [])
      ∧ ((chainSt crowded).chain 15).room = false
      ∧ ((((chainSt (otherWorld (batched 0))).chain 15).queue.head?.map (·.world)) = some 5 ∧ ((chainSt (otherWorld (batched 0))).chain 15).lastWorld = 0
        ∧ ((chainSt (otherWorld (batched 0))).chain 15).out ≠ [])
      ∧ (((chainSt (faulted 0)).chain 15).msg.isSome = true ∧ ((chainSt (queued 0)).chain 15).queue = [sub0 0] ∧ ((chainSt (queued 0)).chain 15).msg = none
        ∧ ((chainSt (queued 0)).chain 15).stopped = false ∧ ((chainSt (queued 0)).chain 15).room = true ∧ ((chainSt (queued 0)).chain 15).behind = []
        ∧ (sub0 0).world = ((chainSt (queued 0)).chain 15).lastWorld)
      ∧ (match ((chainSt (queued 0)).setChain 15 { (chainSt (queued 0)).chain 15 with world := 0 }).chainFetch 15 (sub0 0) [] with
          | .ok u (.failed f) => f == fetchFault 1 (BitVec.ofNat 64 Cause.handleInvalid.toNat) && (u.chain 15).msg.isNone
              && (u.chain 15).behind.isEmpty && !(u.chain 15).stopped
          | _ => false) = true
      ∧ readsNothing (chainSt (queued 0x0000010000000001)) = true
      ∧ (((chainSt (faulted 1023)).chain 15).sump.length < 1024 ∧ ((chainSt (faulted 1023)).chain 15).out.length < 16
        ∧ ((chainSt (faulted 1023)).chain 15).behind = [] ∧ ((chainSt (faulted 1023)).chain 15).stopped = false
        ∧ 1024 ≤ ((chainSt (faulted 1024)).chain 15).sump.length ∧ ((chainSt (faulted 1024)).chain 15).stopped = false
        ∧ 16 ≤ ((chainSt { faulted 0 with out := List.replicate 16 { no := 0, sub := sub0 0, sent := 0, bytes := [], left := [(15, 0)] } }).chain 15).out.length
        ∧ (((chainSt { faulted 1023 with msg := (faulted 0).msg.map fun m => { m with closed := true } }).chain 15).msg.map (·.closed)) = some true)
      ∧ (let u := (chainSt (batched 0x80000000)).setChain 15 (Chain.settle 15 ((chainSt (batched 0x80000000)).chain 15))
         u.deliverable [] 0 (u.chain 15).out = none ∧ ready.deliverable [] 0 (ready.chain 15).out = none)
      ∧ (let u := (chainSt (batched 0x80020000)).setChain 15 (Chain.settle 15 ((chainSt (batched 0x80020000)).chain 15))
         ((u.deliverable [] 0 (u.chain 15).out).isSome = true ∧ (u.chain 15).out[0]?.isSome = true))
      ∧ (((chainSt (batched 0x80000001)).chain 15).out.length = 1 ∧ (chainSt (batched 0x80000001)).taskGone (entryTask 0x80000001) = true
        ∧ ((chainSt (batched 0x80000001)).chain 15).msg = none ∧ ((chainSt (batched 0x80000001)).chain 15).behind = []
        ∧ ((chainSt (batched 0x80000001)).chain 15).sump.length < 1024
        ∧ 1024 ≤ ((chainSt { batched 0x80000001 with sump := (faulted 1024).sump }).chain 15).sump.length
        ∧ ((chainSt { batched 0x80000001 with sump := (faulted 1024).sump }).chain 15).stopped = false
        ∧ (∀ w ∈ [((15 : Nat), (0x80000001 : Word))], w.1 ≠ (14 : BitVec 4).toNat)) := by
  and_intros <;> decide +kernel

/-- Core 319 runs step 0 in its bank 1, with these queues, at a cycle. -/
def engSt (k : Bank) (cycle : Nat) : State :=
  let s := ({ ready with cycle } : State).setBank 319 1 { k with st := .running, run := some run0 }
  s.setCore 319 { s.core 319 with active := 1 }
/-- MZERO of accumulator 7, which pops and pushes the tokens of tok. -/
def zeroCmd (tok : BitVec 4) (issued : Bool) : Cmd := { (default : Cmd) with instr := .mzero tok 0 7, tok, issued, word := some 0 }
def vecCmd : Cmd := { (default : Cmd) with instr := .vadd 0 0 0 0 1 2 0 0 0 1 }
def ldCmd (tok : BitVec 4) : Cmd := { (default : Cmd) with instr := .pft tok 0 0 0, tok }
def bankWith (mq vq lq : List Cmd) (words : List (U32 × Nat × Word)) (tokens : Vector Nat 10) (mrow : U16) : Bank :=
  { Bank.initial with mq, vq, lq, fmtq := words, tokens, mrow }
def noTokens : Vector Nat 10 := .replicate 10 0

theorem wit_EngineProgress :
    (ready.engineOn 319 1 = false ∧ (engSt (bankWith [] [] [] [] noTokens 0) 0).engineOn 319 1 = true
        ∧ ((engSt (bankWith [] [] [] [] noTokens 0) 0).core 319).active = 1)
      ∧ (∀ x : List (U32 × Nat × Word), x = [] ∨ x = [(0, 0, 9)] →
        let s := (engSt (bankWith [zeroCmd 0 false] [] [] x noTokens 0) 0).landDue 319 1
        (s.bank 319 1).queue .MQ = [zeroCmd 0 false] ∧ (zeroCmd 0 false).skip = false ∧ (zeroCmd 0 false).issued = false ∧ (zeroCmd 0 false).started = false
          ∧ s.mayIssue 319 1 .MQ (zeroCmd 0 false) = true ∧ isMatrix (zeroCmd 0 false).instr = true
          ∧ (s.bank 319 1).fmtq.find? (fun y => y.2.1 == (zeroCmd 0 false).run) = x.head?)
      ∧ (let s := (engSt (bankWith [zeroCmd 15 false] [] [] [] noTokens 0) 0).landDue 319 1
         (s.bank 319 1).queue .MQ = [zeroCmd 15 false] ∧ s.mayIssue 319 1 .MQ (zeroCmd 15 false) = false)
      ∧ (let s := (engSt (bankWith [] [] [ldCmd 0] [] noTokens 0) 0).landDue 319 1
         (s.bank 319 1).queue .LQ = [ldCmd 0] ∧ s.mayIssue 319 1 .LQ (ldCmd 0) = true ∧ isMatrix (ldCmd 0).instr = false)
      ∧ (let s := (engSt { bankWith [] [vecCmd] [] [] noTokens 0 with nextV := 6 } 5).landDue 319 1
         (s.bank 319 1).queue .VQ = [vecCmd] ∧ s.mayIssue 319 1 .VQ vecCmd = true ∧ isMatrix vecCmd.instr = false
           ∧ s.cycle < (s.bank 319 1).nextV)
      ∧ (let s := fun (tokens : Vector Nat 10) (mrow : U16) => ((engSt (bankWith [zeroCmd 15 true] [] [] [] tokens mrow) 0).landDue 319 1).bank 319 1
         (s noTokens 62).mq = [zeroCmd 15 true] ∧ (s noTokens 62).counter .MQ < (zeroCmd 15 true).steps ∧ (s noTokens 62).counter .MQ < 63
           ∧ (zeroCmd 15 true).steps ≤ (s noTokens 64).counter .MQ ∧ (s noTokens 64).canPush .MQ (zeroCmd 15 true) 0 = true
           ∧ (s (.replicate 10 15) 64).canPush .MQ (zeroCmd 15 true) 0 = false ∧ run0.fresh = false)
      ∧ (let s := fun (stall : Option (Nat × List Nat)) (cycle : Nat) =>
           (engSt { bankWith [zeroCmd 15 false] [] [] [] noTokens 0 with stall } cycle).landDue 319 1
         let sig := ((s none 0).bank 319 1).signature
         ((s none 0).bank 319 1).tokenBound 0 = true ∧ (s none 0).coreBusy 319 = false ∧ ((s none 0).bank 319 1).stall = none
           ∧ ((s (some (0, sig)) 65535).bank 319 1).stall = some (0, ((s (some (0, sig)) 65535).bank 319 1).signature) ∧ (s none 65535).cycle < 0 + 65536
           ∧ 0 + 65536 ≤ (s none 65536).cycle ∧ ((s none 0).bank 319 1).lq = [] ∧ ((s none 0).bank 319 1).mq.head? = some (zeroCmd 15 false))
      ∧ ((engSt (bankWith [zeroCmd 0 false] [] [] [] noTokens 0) 0).bank 319 1).tokenBound 0 = false := by
  refine ⟨by decide +kernel, ?_, ?_⟩
  · rintro x (rfl | rfl) <;> decide +kernel
  · decide +kernel

/-- Sequence commands on h3: SPANCLOSE in slots 0 and 1 of the queue of core 0, the first one accepted. -/
def closeCmd (accepted : Bool) (ser : Nat) (h : Word) : Cmd :=
  { (default : Cmd) with instr := .spanclose 0 0 3, hs := [h], issued := true, accepted, ser }
/-- A cached sequence of the object's home, of one entry and one block. -/
def entryOpen : Entry := ((entrySeq.set 9 0x00400000).set 10 0x0000000100000001).set 11 0x10000
def seqSt (first : Bool) : State :=
  let s := cached entryOpen
  let s := { s with objs := { s.objs with units := [(0, { s.hunit 0 with tlb := (objSt.hunit 0).tlb })] } }
  s.setBank 0 0 { core0.curBank with xq := [closeCmd first 0 0, closeCmd false 1 handle0] }
/-- An attention request of head 0 at the head of its engine's queue. -/
def attnCmd (started : Bool) : Cmd := { (default : Cmd) with instr := .attn 0 0 3 0 0 0, hs := [handle0], blk := List.replicate 64 0, started, ser := 2 }
def attnSt (started : Bool) : State :=
  let s := seqSt true
  let s := s.setBank 0 0 { s.bank 0 0 with xq := [attnCmd started] }
  s.setCluster 39 { Cluster.initial with attn := { queue := [(0, 0, 2)], world := 0 } }
/-- Core 0 runs a hop plan of one step on block 0 of the object in h3: a SEND, or a RECV from package 575 on port 17. -/
def planStep (op : Nat) : PlanEntry := #v[BitVec.ofNat 32 (17 * 2 ^ 26 + op * 2 ^ 23), BitVec.ofNat 32 (575 * 2 ^ 22), 0]
def plan0 (op : Nat) : PlanRun :=
  { hdr := #v[0x10000000, 0x01000000, 0], steps := [planStep op], s0 := 64, buf := handle0, bufNo := 0, done := [], held := none, leaves := [] }
def stepCmd : Cmd := { (default : Cmd) with instr := .xstep 0 0 1 0 0, started := true, issued := true }
def planSt (op : Nat) (lock : Bool) : State :=
  let s := objSt.setBank 0 0 { core0.curBank with plan := some (plan0 op), xq := [stepCmd] }
  let s := s.setPeer 17 { PeerPort.initial with st := 2, collective := [(575, 4096, List.replicate 120 1)] }
  { s with links := { s.links with lock }, tether := 4096, mem := pageTables, objs := { s.objs with ptRoot := 0x100000 } }
/-- A pipeline of two stages, whose ring 2 of the producer on core 1 sends slot 0 to ring 2 of the consumer on core 0. -/
def pipe2 : PipeInfo :=
  { cores := 2, stages := [⟨0, 0, 1, 1, 1⟩, ⟨0, 0, 1, 1, 0⟩], rings := [⟨2, 128, 0, 1, 2, 2, 0, 0⟩], held := [(1, 0), (0, 1)], started := true, lastBalance := 0, worst := none }
def pipeSt (consumer : SlotState) : State :=
  let s := ((ready.putTask 0 { item0 with role := .stage 2 1 }).putTask (taskIdOf 0 0 0 1) { item0 with role := .stage 2 0 }).putTask
    (taskIdOf 0 0 0 2) { item0 with role := .pipeline, pipe := some pipe2 }
  let s := (s.setBank 0 0 core0.curBank).setBank 1 0 { core0.curBank with run := some { probeRun with task := taskIdOf 0 0 0 1 } }
  let s := s.setCore 0 { s.core 0 with rings := [ring0 consumer] }
  s.setCore 1 { s.core 1 with rings := [{ ring0 .free with task := taskIdOf 0 0 0 1, xfer := [0], kind := .producer }] }
def waitSt (v : Word) : State :=
  let s := { core0 with tether := 5 }
  s.setBank 0 0 { s.bank 0 0 with S := { Ctx.initial with xsync := some (31, v) } }

theorem wit_UnitProgress :
    ((seqSt true).bank 0 0).xq[(2 : BitVec 5).toNat]? = none
      ∧ (((seqSt true).bank 0 0).xq[1]? = some (closeCmd false 1 handle0) ∧ seqOp (closeCmd false 1 handle0) = some (2, []) ∧ (seqSt true).engineOn 0 0 = true
        ∧ (∀ x ∈ ((seqSt true).bank 0 0).xq.take 1, x.accepted = true) ∧ (∃ x ∈ ((seqSt false).bank 0 0).xq.take 1, x.accepted = false)
        ∧ seqFirst (((seqSt true).bank 0 0).xq.take 1) (closeCmd false 1 handle0) = true ∧ ((seqSt true).bank 0 0).counter .XQ = 0
        ∧ (1 : BitVec 5) ≠ 0)
      ∧ (∃ t v, seqStep 0 0 (closeCmd false 1 handle0) 2 [] (seqSt true) = .ok t v)
      ∧ ((ready.cluster 39).attn.queue = [] ∧ ((attnSt true).cluster 39).attn.queue = [(0, 0, 2)]
        ∧ ((attnSt false).bank 0 0).xq.find? (fun c => c.ser == 2) = some (attnCmd false) ∧ (attnSt false).engineOn 0 0 = true
        ∧ (attnReq (attnCmd false).blk).head < qHeads entryOpen ∧ hHome handle0 = (attnSt false).pkgNo)
      ∧ (match (attnSt false).sequence (cmdAsker 0 0 .XQ (attnCmd false) .A) handle0 rightR with
          | .ok v en => v.bank 0 0 == (attnSt false).bank 0 0 && v.pkg == 0 && en == entryOpen
          | _ => false) = true
      ∧ ready.planBank 0 = none
      ∧ ((planSt 0 true).planBank 0 = some (0, plan0 0, stepCmd) ∧ (planSt 0 true).links.lock = true ∧ (planSt 0 false).links.lock = false
        ∧ (plan0 0).lost = false ∧ (planSt 0 true).power.freqAct ≠ 0 ∧ (plan0 0).steps = [planStep 0] ∧ (plan0 0).done = [] ∧ sOp (planStep 0) = 0 ∧ 64 * ((plan0 0).slotOf (planStep 0) + 9) ≤ 4672
        ∧ (((planSt 0 false).dropPlan 0 0).gangDetect stepCmd.task).isNone = true
        ∧ (let s := planSt 0 false
           let g := member0 (some 0) (some stepCmd.task)
           ((({ s with host := { s.host with members := [g] } } : State).dropPlan 0 0).gangDetect stepCmd.task).isSome = true)
        ∧ (plan0 0).pick 4096 (fun e => sOp e == 0 && 4096 < 64 * ((plan0 0).slotOf e + 9)) = some (0, planStep 0) ∧ sArith (planStep 0) ≠ 1 ∧ (plan0 0).done.length < (plan0 0).steps.length)
      ∧ (match (planSt 0 true).getEntry (cmdAsker 0 0 .XQ stepCmd .X) handle0 with
          | .ok v en => (match v.planBlock (cmdAsker 0 0 .XQ stepCmd .X) (cmdKey 0 0 stepCmd) (plan0 0) en 0 with
            | .ok _ bs => bs.length == 120
            | _ => false)
          | _ => false) = true
      ∧ (let s := planSt 1 true
         (plan0 1).pick s.tether.toNat (fun e => sOp e == 1
             && (s.peer (sPort e)).holdsBlock (sPeer e) (hFlits (plan0 1).hdr) (64 * ((plan0 1).slotOf e + 9))) = some (0, planStep 1)
           ∧ ((s.peer (sPort (planStep 1))).blockFrom (sPeer (planStep 1)) (hFlits (plan0 1).hdr)).isSome = true ∧ sArith (planStep 1) = 0)
      ∧ ({ plan0 0 with steps := [] } : PlanRun).steps = []
      ∧ ((ready.core 1).rings = [] ∧ (let s := pipeSt .free
          let t := taskIdOf 0 0 0 1
          let e := { ring0 .free with task := t, xfer := [0], kind := .producer }
          (s.core 1).rings.find? (fun e => e.k == 2 && !e.xfer.isEmpty && s.endCommitted 1 e.task) = some e ∧ e.xfer = [0] ∧ e.puts = []
            ∧ s.pipeOf t { item0 with role := .stage 2 0 } = some (pipe2, 0) ∧ s.task? t = some { item0 with role := .stage 2 0 }
            ∧ pipe2.rings.find? (fun r => r.prod == 0 && r.pring == 2) = some ⟨2, 128, 0, 1, 2, 2, 0, 0⟩ ∧ pipe2.stages[1]? = some ⟨0, 0, 1, 1, 0⟩
            ∧ tfind (s.unit 0).tasks 0 = some { item0 with role := .stage 2 1 }
            ∧ (s.bestEnd 0 2 fun f => pipe2.held.any fun x => x.1 == f && x.2 == 1).isSome = true
            ∧ ((pipeSt .full).bestEnd 0 2 fun f => pipe2.held.any fun x => x.1 == f && x.2 == 1) = none))
      ∧ (((core0.bank 0 (core0.core 0).active).ctx .S).xsync = none
        ∧ (((waitSt 5).bank 0 ((waitSt 5).core 0).active).ctx .S).xsync = some (31, 5) ∧ (5 : Word).toNat ≤ (waitSt 5).tether.toNat % 2 ^ 63
        ∧ (waitSt 6).tether.toNat % 2 ^ 63 < (6 : Word).toNat ∧ ((waitSt 5).bank 0 0).st = .running) := by
  and_intros <;> first | exact gotOk (by decide +kernel) | decide +kernel

/-! ### Values that the spec works out -/

/-- Table 13-11. -/
theorem test_div_rem_table :
    divOf false 23 4 = 5 ∧ remOf false 23 4 = 3 ∧ divOf true 23 0 = 0xFFFFFFFFFFFFFFFF ∧ remOf true 23 0 = 0x17
      ∧ divOf true 0x8000000000000000 0xFFFFFFFFFFFFFFFF = 0x8000000000000000 ∧ remOf true 0x8000000000000000 0xFFFFFFFFFFFFFFFF = 0 := by
  decide +kernel

/-- 11_number_formats.md, after Table 11-4: two codes of sb8p4f. -/
theorem test_codes_of_sb8p4f :
    Val.cmp (decFlt (p3109 false false 8 4) 0x4C) (.ofNat 3) = 0 ∧ Val.cmp (decFlt (p3109 false false 8 4) 5) (.fin false 5 1024) = 0 := by
  decide +kernel

/-- R271, its example: 1.0625 to sb8p4f under SR. -/
theorem test_stochastic_rounding :
    roundTo (.fin false 17 16) 0x84 (rndOf 4) true 128 = 0x41 ∧ roundTo (.fin false 17 16) 0x84 (rndOf 4) true 127 = 0x40 := by
  decide +kernel

/-- Table 11-6: one rounding against two. -/
theorem test_one_rounding :
    roundTo (decFlt fp32 0x3FA00001) 0x8A (rndOf 0) true 0 = 5 ∧ roundFlt bf16 (rndOf 0) true 0 (decFlt fp32 0x3FA00001) = 0x3FA0
      ∧ roundTo (decFlt bf16 0x3FA0) 0x8A (rndOf 0) true 0 = 4 := by
  decide +kernel

/-- Table 11-7: the group sums. -/
theorem test_group_sums :
    code32 (accumulate .zero [.ofNat 1, .ofInt (-1), .fin true 3 (2 ^ 41)]) = 0xAB800000
      ∧ code32 (accumulate .zero [.ofNat 1, .fin true 3 (2 ^ 41)]) = 0x3F800000
      ∧ code32 (accumulate (.ofNat 1) [.ofInt (-1)]) = 0 := by
  decide +kernel

/-- R277 and Table 11-8: the example of FMIN and FMAX. -/
theorem test_float_atomics :
    fatomResult 1 0x80000000 0 = (0x80000000, false) ∧ fatomResult 2 0x80000000 0 = (0, false)
      ∧ fatomResult 1 0x7FA00000 0x3F800000 = (0x3F800000, true) := by
  decide +kernel

/-- Table 16-9: scales and codes of VQNT.fp32.sb8p4f. -/
theorem test_block_quantisation :
    blockScale 0x84 [.ofNat 3, .fin true 2 5, .fin false 1 2] = 0x79 ∧ blockScale 0x84 [.fin false 1 2] = 0x77
      ∧ roundTo ((Val.ofNat 3).scale 6) 0x84 (rndOf 0) false 0 = 0x7C ∧ roundTo ((Val.fin true 2 5).scale 6) 0x84 (rndOf 0) false 0 = 0xE5
      ∧ roundTo ((Val.fin false 1 2).scale 6) 0x84 (rndOf 0) false 0 = 0x68
      ∧ roundTo ((Val.fin false 39 10).scale 6) 0x84 (rndOf 0) false 0 = 0x7F := by
  decide +kernel

/-- 17_isa_attention.md, the example of P4: 1, 0.5 and 0.75, and 11 / 2.25 as bf16. -/
theorem test_attention_weights :
    Val.cmp (p4 .zero 0) (.ofNat 1) = 0 ∧ Val.cmp (p4 (.ofInt (-1)) 0) (.fin false 1 2) = 0
      ∧ Val.cmp (p4 (.fin true 1 2) 0) (.fin false 3 4) = 0 ∧ roundFlt bf16 (rndOf 0) true 0 (.fin false 44 9) = 0x409C := by
  decide +kernel

/-- 04_objects.md, the example of BSTRIPE: element (0, 0, 21, 10) of 64 by 64 BF16 elements. -/
theorem test_bstripe_offset : pitchOf 2 16 64 = 128 ∧ layoutOffset 2 16 64 21 10 = (0xA0094, none) := by decide +kernel

/-- 05_worlds.md, the example of the tweak. -/
theorem test_tweak : tweakOf 2 3 0x200040040 = 0x00020003000000000000000008001001 := by decide +kernel

/-- Table 7-13: stages XFER and CHST of its message (ISO-8859-1 maps each byte to its own number), and the fault of CHARSET 0. -/
theorem test_intake_stages :
    (xferStage 2 true [0x43, 0x61, 0x66, 0x3D, 0x45, 0x39, 0x20, 0x6F, 0x6B]).out = [0x43, 0x61, 0x66, 0xE9, 0x20, 0x6F, 0x6B]
      ∧ (chstStage 0x10 false (List.range 256) true [0x43, 0x61, 0x66, 0xE9, 0x20, 0x6F, 0x6B]).out.flatMap utf8Of
          = [0x43, 0x61, 0x66, 0xC3, 0xA9, 0x20, 0x6F, 0x6B]
      ∧ (chstStage 0 true [] true [0x43, 0x61, 0x66, 0xE9, 0x20, 0x6F, 0x6B]).fault = some (0x0301, 3) := by
  decide +kernel

/-- R320: the examples of FCVT, one step each (s4 is the source, s5 the result). -/
theorem test_fcvt_steps :
    (∃ t, exec (.fcvt 0 5 4 0x8A 0x42 0 0) (core0.setS 4 0x3FA00001) = .next t ∧ t.getS 5 = 5)
      ∧ ∃ t, exec (.fcvt 0 5 4 0x04 0x03 0 0) (core0.setS 4 300) = .next t ∧ t.getS 5 = 127 :=
  ⟨⟨_, rfl, by decide +kernel⟩, _, rfl, by decide +kernel⟩

end Sys2Proof.Tests
end

section
/-!
PROOFS. What a signal, a change of PWRRES and a completion record can change, and what the work of the object manager on
memory leaves alone.
-/

namespace Sys2Proof.Laws

open Sys2Proof Sys2Proof.Machine Sys2Proof.Safety

theorem ends_next {t : State} {P : State → Prop} : Ends (.next t) P ↔ P t := by simp [Ends]

/-- A fold of updates that each keep a part of the state keeps that part. -/
theorem foldl_keeps {σ α β : Type} (part : σ → β) (f : σ → α → σ) (h : ∀ s x, part (f s x) = part s) (l : List α) (s : σ) :
    part (l.foldl f s) = part s :=
  List.foldlRecOn l f (motive := fun t => part t = part s) rfl fun t ht x _ => (h t x).trans ht

/-! ### Signals (R29, R64) -/

/-- A signal changes of the state the vectors held, those pending and those sent, and holds none while the host link is up. -/
theorem signal_eq (s : State) (v : Nat) : ∃ held pending sent,
    s.signal v = { s with links := { s.links with heldMsix := held, pba := pending, msixSent := sent } }
      ∧ (s.links.hostUp = true → held = s.links.heldMsix) := by
  unfold State.signal
  dsimp only
  split
  · rename_i hdown
    exact ⟨_, _, _, rfl, fun hup => by simp [hup] at hdown⟩
  · split
    · exact ⟨_, _, _, rfl, fun _ => rfl⟩
    · exact ⟨_, _, _, rfl, fun _ => rfl⟩

section
variable (s : State) (v : Nat)

@[simp] theorem signal_power : (s.signal v).power = s.power := by obtain ⟨_, _, _, h, _⟩ := signal_eq s v; rw [h]
@[simp] theorem signal_host : (s.signal v).host = s.host := by obtain ⟨_, _, _, h, _⟩ := signal_eq s v; rw [h]
@[simp] theorem signal_mem : (s.signal v).mem = s.mem := by obtain ⟨_, _, _, h, _⟩ := signal_eq s v; rw [h]
@[simp] theorem signal_cores : (s.signal v).cores = s.cores := by obtain ⟨_, _, _, h, _⟩ := signal_eq s v; rw [h]
@[simp] theorem signal_sched : (s.signal v).sched = s.sched := by obtain ⟨_, _, _, h, _⟩ := signal_eq s v; rw [h]
@[simp] theorem signal_tether : (s.signal v).tether = s.tether := by obtain ⟨_, _, _, h, _⟩ := signal_eq s v; rw [h]
@[simp] theorem signal_hostUp : (s.signal v).links.hostUp = s.links.hostUp := by obtain ⟨_, _, _, h, _⟩ := signal_eq s v; rw [h]
@[simp] theorem signal_msixEnable : (s.signal v).links.msixEnable = s.links.msixEnable := by
  obtain ⟨_, _, _, h, _⟩ := signal_eq s v; rw [h]
@[simp] theorem signal_msixFuncMask : (s.signal v).links.msixFuncMask = s.links.msixFuncMask := by
  obtain ⟨_, _, _, h, _⟩ := signal_eq s v; rw [h]
/-- While the host link is up no message is held. -/
theorem signal_heldMsix_of_up (hup : s.links.hostUp = true) : (s.signal v).links.heldMsix = s.links.heldMsix := by
  obtain ⟨_, _, _, h, held⟩ := signal_eq s v; rw [h]; exact held hup

end

/-! ### PWRRES (R69) -/

@[simp] theorem setPwrres_power (s : State) (seq st : U16) :
    (s.setPwrres seq st).power = { s.power with pwrres := BitVec.ofNat 64 (seq.toNat * 65536 + st.toNat) } := signal_power _ _
@[simp] theorem setPwrres_host (s : State) (seq st : U16) : (s.setPwrres seq st).host = s.host := signal_host _ _
@[simp] theorem setPwrres_mem (s : State) (seq st : U16) : (s.setPwrres seq st).mem = s.mem := signal_mem _ _
@[simp] theorem setPwrres_cores (s : State) (seq st : U16) : (s.setPwrres seq st).cores = s.cores := signal_cores _ _
@[simp] theorem setPwrres_sched (s : State) (seq st : U16) : (s.setPwrres seq st).sched = s.sched := signal_sched _ _
@[simp] theorem setPwrres_tether (s : State) (seq st : U16) : (s.setPwrres seq st).tether = s.tether := signal_tether _ _

/-! ### Completion records and device errors (R63, R66) -/

@[simp] theorem cq_setCq_same (s : State) (n : Nat) (c : CompletionObj) : (s.setCq n c).cq n = some c := tfind_tset_same ..

/-- What the power controller holds, but for the self-refresh of the memory units, which any access can end (R22). -/
def control (p : Power) : Power := { p with selfRefresh := 0, lastAccess := [] }

/-- Any other field of two power controllers that agree but for self-refresh is the same. -/
theorem eq_of_control {α : Type} {p q : Power} (field : Power → α) (h : control p = control q)
    (hfield : ∀ p, field (control p) = field p := by intro _; rfl) : field p = field q :=
  (hfield p).symm.trans ((congrArg field h).trans (hfield q))

@[simp] theorem touchStack_control (s : State) (a : Nat) : control (s.touchStack a).power = control s.power := by
  unfold State.touchStack
  split <;> rfl
@[simp] theorem touchStack_host (s : State) (a : Nat) : (s.touchStack a).host = s.host := by
  unfold State.touchStack
  split <;> rfl

@[simp] theorem setCq_power (s : State) (n : Nat) (c : CompletionObj) : (s.setCq n c).power = s.power := rfl
@[simp] theorem setCq_errstat (s : State) (n : Nat) (c : CompletionObj) : (s.setCq n c).host.errstat = s.host.errstat := rfl

/-- A completion record ends at most the self-refresh of the stack of its ring. -/
@[simp] theorem cqWrite_control (s : State) (n : Nat) (r : Record) : control (s.cqWrite n r).power = control s.power := by
  unfold State.cqWrite
  split
  · rfl
  · dsimp only
    split <;> simp

/-- A completion record leaves ERRSTAT alone. -/
@[simp] theorem cqWrite_errstat (s : State) (n : Nat) (r : Record) : (s.cqWrite n r).host.errstat = s.host.errstat := by
  unfold State.cqWrite
  split
  · rfl
  · dsimp only
    split <;> simp

/-- A device error reports on the links and in completion object 0: the power controller does not move. -/
theorem setErr_control (s : State) (k : Nat) (d4 d5 : Word) : control (s.setErr k d4 d5).power = control s.power := by
  unfold State.setErr
  dsimp only
  split
  · rw [signal_power]
  · split
    · rw [signal_power]; exact cqWrite_control ..
    · rw [signal_power]

/-- A device error sets its bit of ERRSTAT. -/
theorem setErr_errstat (s : State) (k : Nat) (d4 d5 : Word) (hk : k < 64) : (s.setErr k d4 d5).host.errstat.getLsbD k = true := by
  have hbit : (1#64 <<< k).getLsbD k = true := by simp [hk]
  unfold State.setErr
  dsimp only
  split
  · simp [hk]
  · split
    · simp [cqWrite_errstat, hk]
    · simp [hk]

/-! ### The work of the object manager on memory -/

/-- What the object manager leaves alone as it maps and zeroes segments: the power controller but for self-refresh, and the
host interface. -/
def steady (s : State) : Power × HostIf := (control s.power, s.host)

@[simp] theorem touchStack_steady (s : State) (a : Nat) : steady (s.touchStack a) = steady s := by simp [steady]

@[simp] theorem sendTo_steady (s : State) (dst ty : Nat) (pay : Payload) : steady (s.sendTo dst ty pay) = steady s := by
  unfold State.sendTo
  split <;> rfl

@[simp] theorem sendReq_steady (s : State) (dst : Nat) (q : RemoteReq) : steady (s.sendReq dst q) = steady s := by
  unfold State.sendReq
  dsimp only
  split
  · exact sendTo_steady ..
  · rw [sendTo_steady]
    exact foldl_keeps steady _ (fun _ _ => sendTo_steady ..) _ _

@[simp] theorem tellDomain_steady (s : State) (op : RemoteOp) : steady (s.tellDomain op) = steady s :=
  foldl_keeps steady _ (fun _ _ => sendReq_steady ..) _ _

theorem dropTlb_steady (s : State) (va n : Nat) (all : Bool) : steady (s.dropTlb va n all) = steady s := rfl
theorem dropEntry_steady (s : State) (h : Word) (all : Bool) : steady (s.dropEntry h all) = steady s := rfl
@[simp] theorem leafChanged_steady (s : State) (va n : Nat) : steady (s.leafChanged va n) = steady s :=
  (tellDomain_steady ..).trans (dropTlb_steady ..)
@[simp] theorem entryChanged_steady (s : State) (h : Word) : steady (s.entryChanged h) = steady s :=
  (tellDomain_steady ..).trans (dropEntry_steady ..)
@[simp] theorem writeEntry_steady (s : State) (h : Word) (e : Entry) : steady (s.writeEntry h e) = steady s := by
  unfold State.writeEntry
  exact entryChanged_steady _ _
@[simp] theorem touchPages_steady (s : State) (vas : List Nat) : steady (s.touchPages vas) = steady s :=
  foldl_keeps steady _ touchStack_steady _ _
@[simp] theorem offerShards_steady (s : State) (h : Word) (e : Entry) : steady (s.offerShards h e) = steady s :=
  foldl_keeps steady _ (fun _ _ => sendReq_steady ..) _ _

/-- Mapping a page writes tables in memory, whichever of them it finds. -/
@[simp] theorem mapPage_steady (s : State) (va : Nat) (large : Bool) (leaf : Word) (tabs : List (BitVec 40)) :
    steady (s.mapPage va large leaf tabs).1 = steady s := by
  simp only [State.mapPage, steady, apply_ite Prod.fst, apply_ite State.power, apply_ite State.host, ite_self]

@[simp] theorem mapFrames_steady (s : State) (tier : Nat) (large striped : Bool) (tabs : List (BitVec 40)) (l : List (Nat × Nat)) :
    steady (s.mapFrames tier large striped tabs l).1 = steady s := by
  induction l generalizing s tabs with
  | nil => rfl
  | cons x l ih =>
    rw [State.mapFrames, ih, mapPage_steady]
    split <;> rfl

@[simp] theorem perform_steady (s : State) (h : Word) (w : Writer) (shift : Int) (bs : List (Nat × Byte × Byte)) :
    steady (s.perform h w shift bs) = steady s := by
  refine foldl_keeps steady _ (fun t x => ?_) bs _
  unfold State.putByte
  dsimp only
  split <;> rfl

@[simp] theorem putSeqState_steady (s : State) (h : Word) (e : Entry) (w : Writer) (q : SeqState) :
    steady (s.putSeqState h e w q) = steady s := by
  unfold State.putSeqState State.seqPut
  dsimp only
  split
  · exact perform_steady ..
  · rfl

/-- The creation of an object leaves the power controller, but for self-refresh, and the host interface alone. -/
theorem createObject_steady (s : State) (h : Word) (e : Entry) (al : Alloc) : steady (s.createObject h e al) = steady s := by
  have leaves (vas : List Nat) (t : State) : steady (vas.foldl (fun (s : State) va => s.leafChanged va 1) t) = steady t :=
    foldl_keeps steady _ (fun _ _ => leafChanged_steady ..) _ _
  unfold State.createObject
  dsimp only
  split <;> split <;> split <;> simp [leaves]

@[simp] theorem createObject_control (s : State) (h : Word) (e : Entry) (al : Alloc) :
    control (s.createObject h e al).power = control s.power := (Prod.mk.inj (createObject_steady s h e al)).1
@[simp] theorem createObject_host (s : State) (h : Word) (e : Entry) (al : Alloc) : (s.createObject h e al).host = s.host :=
  (Prod.mk.inj (createObject_steady s h e al)).2

end Sys2Proof.Laws
end

section
/-!
PROOFS. Reset and bring-up (01_package.md, R24 and Table 1-7).
-/

namespace Sys2Proof.Laws

open Sys2Proof Sys2Proof.Machine Sys2Proof.Safety

/-! ### The reset state -/

theorem reset_core (f : Nat) : State.reset.core f = Core.initial := rfl

/-- Both banks of a core that is not listed are as no step has used them. -/
theorem initial_bank (b : BitVec 1) : Core.initial.bank b = Bank.initial := by
  rcases BitVec.eq_zero_or_eq_one b with rfl | rfl <;> rfl

theorem reset_bank (f : Nat) (b : BitVec 1) : State.reset.bank f b = Bank.initial := initial_bank b

/-- Settles O4: every field is read off the reset state, and a core of which the state lists nothing is as at reset. -/
theorem resetState : Obligations.ResetState := by
  refine ⟨rfl, rfl, rfl, rfl, rfl, rfl, rfl, fun f => ?_, fun f b => ?_⟩
  · rw [reset_core]
    exact ⟨rfl, rfl⟩
  · rw [reset_bank]
    exact ⟨rfl, rfl, rfl⟩

/-- Settles O5: a memory that lists nothing is canonical. -/
theorem memoryCanonicalAtReset : Obligations.MemoryCanonicalAtReset := ⟨rfl, rfl⟩

/-! ### Memory that loses what lies below the flash and CXL tiers -/

theorem mget_filter_flash (m : Memory) (a : Nat) :
    mget (m.filter fun x => 2 ^ 53 ≤ x.1) a = if 2 ^ 53 ≤ a then mget m a else 0 := by
  have h := tfind_filter m (fun i => decide (2 ^ 53 ≤ i)) a
  unfold mget tget
  rw [h]
  by_cases ha : 2 ^ 53 ≤ a
  · rw [if_pos ha, if_pos (decide_eq_true ha)]
  · rw [if_neg ha, if_neg fun e => ha (of_decide_eq_true e)]
    rfl

theorem mget_filter_flash_below (m : Memory) (a : Nat) (h : a < 2 ^ 53) : mget (m.filter fun x => 2 ^ 53 ≤ x.1) a = 0 := by
  rw [mget_filter_flash, if_neg (by omega)]

theorem mget_filter_flash_above (m : Memory) (a : Nat) (h : 2 ^ 53 ≤ a) :
    mget (m.filter fun x => 2 ^ 53 ≤ x.1) a = mget m a := by
  rw [mget_filter_flash, if_pos h]

/-! ### Digests -/

theorem ofBytes_lt (bs : List Byte) : ofBytes bs < 256 ^ bs.length := by
  induction bs with
  | nil => simp [ofBytes]
  | cons b bs ih =>
    have hb := b.isLt
    rw [ofBytes, List.length_cons, Nat.pow_succ]
    omega

/-- A digest of n bytes is a number of 8 n bits. -/
theorem ofBytes_shake256_lt (m : List Byte) (n : Nat) : ofBytes (shake256 m n) < 2 ^ (8 * n) :=
  calc ofBytes (shake256 m n) < 256 ^ (shake256 m n).length := ofBytes_lt _
    _ ≤ 256 ^ n := Nat.pow_le_pow_right (by decide) (List.length_take_le ..)
    _ = 2 ^ (8 * n) := (Nat.pow_mul 2 8 n).symm

/-! ### The steps of bring-up (Table 1-7) -/

section
variable {s : State} {ok : Bool} {d : U16} {ports : BitVec 18} {om : OmLayout} {img : FwImage}

/-- A bring-up that has stopped goes no further. -/
theorem bringup_stopped (h : s.power.bootFail ≠ .none) : exec (.bringupStepComplete ok d ports (om, img)) s = .next s := by
  change execBringupStepComplete ok d ports (om, img) s = _
  simp [execBringupStepComplete, h]

variable (h : s.power.bootFail = .none)
include h

theorem bringup_step1 (hn : s.power.bootStep = 1) :
    exec (.bringupStepComplete ok d ports (om, img)) s = .next (if ok then s.bootNext 2 else s.bootFails .rail 0) := by
  change execBringupStepComplete ok d ports (om, img) s = _
  simp [execBringupStepComplete, h, hn]

theorem bringup_step2 (hn : s.power.bootStep = 2) :
    exec (.bringupStepComplete ok d ports (om, img)) s = .next (if ok then s.bootNext 3 else s.bootFails .lock 0) := by
  change execBringupStepComplete ok d ports (om, img) s = _
  simp [execBringupStepComplete, h, hn]

theorem bringup_step3_trusted (hn : s.power.bootStep = 3) (hi : s.imageTrusted img = true) :
    exec (.bringupStepComplete ok d ports (om, img)) s = .next ((s.verified img).bootNext 4) := by
  change execBringupStepComplete ok d ports (om, img) s = _
  simp [execBringupStepComplete, h, hn, hi]

theorem bringup_step3_backup (hn : s.power.bootStep = 3) (hi : s.imageTrusted img = false) (hb : s.power.backupTried = false) :
    exec (.bringupStepComplete ok d ports (om, img)) s = .next { s with power := { s.power with backupTried := true } } := by
  change execBringupStepComplete ok d ports (om, img) s = _
  simp [execBringupStepComplete, h, hn, hi, hb]

theorem bringup_step3_fails (hn : s.power.bootStep = 3) (hi : s.imageTrusted img = false) (hb : s.power.backupTried = true) :
    exec (.bringupStepComplete ok d ports (om, img)) s = .next (s.bootFails .auth 0) := by
  change execBringupStepComplete ok d ports (om, img) s = _
  simp [execBringupStepComplete, h, hn, hi, hb]

theorem bringup_step4 (hn : s.power.bootStep = 4) :
    exec (.bringupStepComplete ok d ports (om, img)) s
      = .next (if ok then ({ s with sys := [] } : State).bootNext 5 else s.bootFails .sys 0) := by
  change execBringupStepComplete ok d ports (om, img) s = _
  simp [execBringupStepComplete, h, hn]

theorem bringup_step5_trained (hn : s.power.bootStep = 5) :
    exec (.bringupStepComplete true d ports (om, img)) s
      = .next (({ s with power := { s.power with trained := true } } : State).bootNext 6) := by
  change execBringupStepComplete true d ports (om, img) s = _
  simp [execBringupStepComplete, h, hn]

theorem bringup_step5_retries (hn : s.power.bootStep = 5) (hd : s.power.memRetried.contains d = false) :
    exec (.bringupStepComplete false d ports (om, img)) s
      = .next { s with power := { s.power with memRetried := d :: s.power.memRetried } } := by
  change execBringupStepComplete false d ports (om, img) s = _
  simp only [execBringupStepComplete, h, hn, hd]
  rfl

theorem bringup_step5_fails (hn : s.power.bootStep = 5) (hd : s.power.memRetried.contains d = true) :
    exec (.bringupStepComplete false d ports (om, img)) s = .next (s.bootFails .mem d) := by
  change execBringupStepComplete false d ports (om, img) s = _
  simp only [execBringupStepComplete, h, hn, hd]
  rfl

theorem bringup_step6 (hn : s.power.bootStep = 6) :
    exec (.bringupStepComplete ok d ports (om, img)) s = .next (s.zeroAll.bootNext 7) := by
  change execBringupStepComplete ok d ports (om, img) s = _
  simp [execBringupStepComplete, h, hn]

theorem bringup_step7 (hn : s.power.bootStep = 7) :
    exec (.bringupStepComplete ok d ports (om, img)) s = .next ((s.portsTrained ports).bootNext 8) := by
  change execBringupStepComplete ok d ports (om, img) s = _
  simp [execBringupStepComplete, h, hn]

theorem bringup_step8_fails (hn : s.power.bootStep = 8) :
    exec (.bringupStepComplete false d ports (om, img)) s = .next (s.bootFails .om 0) := by
  change execBringupStepComplete false d ports (om, img) s = _
  simp [execBringupStepComplete, h, hn]

theorem bringup_step8_ready (hn : s.power.bootStep = 8) (ho : layoutOk om = true) :
    exec (.bringupStepComplete true d ports (om, img)) s
      = .next ((s.startManager { om with svc := { om.svc with pfns := om.svc.pfns.take 2 } }).bootReady) := by
  change execBringupStepComplete true d ports (om, img) s = _
  simp [execBringupStepComplete, h, hn, ho]

end

/-! ### Firmware images (R109, R111) -/

/-- An image is trusted just if its key, its signature and its version are right. -/
theorem imageTrusted_iff (s : State) (img : FwImage) : s.imageTrusted img = true ↔
    ofBytes (shake256 img.key 64) = s.sec.vroot.toNat ∧ xmssVerify img.key img.bytes img.sig = true
      ∧ minVersion s.sec.minfw ≤ img.version.toNat := by
  simp [State.imageTrusted, and_assoc]

theorem imageTrusted_eq_false {s : State} {img : FwImage}
    (h : ofBytes (shake256 img.key 64) ≠ s.sec.vroot.toNat ∨ xmssVerify img.key img.bytes img.sig = false
      ∨ img.version.toNat < minVersion s.sec.minfw) : s.imageTrusted img = false := by
  rw [← Bool.not_eq_true, imageTrusted_iff]
  rintro ⟨hkey, hsig, hver⟩
  rcases h with h | h | h
  · exact h hkey
  · rw [hsig] at h; exact absurd h (by decide)
  · omega

theorem verified_fwHash (s : State) (img : FwImage) : (s.verified img).sec.fwHash.toNat = ofBytes (shake256 img.bytes 64) :=
  (BitVec.toNat_ofNat ..).trans (Nat.mod_eq_of_lt (ofBytes_shake256_lt img.bytes 64))

theorem verified_fwVersion (s : State) (img : FwImage) : (s.verified img).sec.fwVersion.toNat = img.version.toNat :=
  BitVec.toNat_setWidth_of_le (by decide)

/-! ### Ports and the time master at step 7 (R48) -/

@[simp] theorem portsTrained_power (s : State) (ports : BitVec 18) : (s.portsTrained ports).power = s.power := by
  unfold State.portsTrained
  dsimp only
  split <;> rfl

theorem portsTrained_lock {s : State} (ports : BitVec 18) (h : s.isMaster = true) : (s.portsTrained ports).links.lock = true := by
  unfold State.portsTrained
  dsimp only
  rw [if_pos (by exact h)]

/-! ### The start of the object manager at step 8 -/

/-- The ring of a completion object changes of the power controller self-refresh at most. -/
theorem createRing_control (s : State) (n : Nat) (q : CompletionObj) (al : Alloc) :
    control (s.createRing n q al).power = control s.power := by
  unfold State.createRing
  dsimp only
  rw [setCq_power, createObject_control]

theorem createRing_cq (s : State) (n : Nat) (q : CompletionObj) (al : Alloc) : ((s.createRing n q al).cq n).isSome = true := by
  unfold State.createRing
  rw [cq_setCq_same]
  rfl

/-- The object manager starts: completion object 0 exists, and the power controller is as before but for self-refresh. -/
theorem startManager_spec (s : State) (om : OmLayout) :
    control (s.startManager om).power = control s.power ∧ ((s.startManager om).cq 0).isSome = true := by
  unfold State.startManager
  dsimp only
  split
  · rw [createRing_control, createObject_control]
    exact ⟨rfl, createRing_cq ..⟩
  · rename_i hnone
    rw [State.cq, createObject_host] at hnone
    cases (tfind_tset_same ..).symm.trans hnone

/-- Ready with no transition in progress. -/
theorem bootReady_spec {s : State} (h : s.power.trans = none) :
    s.bootReady.power.bootStep = 9 ∧ s.bootReady.power.pstate = .ps0 ∧ s.bootReady.power.freqCmd = s.power.resumeFreq.getD 2200
      ∧ s.bootReady.host.replaycnt = 0 ∧ s.bootReady.cq 0 = s.cq 0 := by
  unfold State.bootReady
  dsimp only
  rw [h]
  exact ⟨rfl, rfl, rfl, rfl, rfl⟩

/-! ### The obligation -/

/-- A cold reset leaves every unit as at reset, and flash, fuses and the host's memory as they are (R24). -/
theorem coldReset_ends (s : State) : Ends (exec .coldReset s) (fun t =>
    t.power = State.reset.power ∧ t.host = State.reset.host ∧ t.sys = State.reset.sys ∧ t.cores = [] ∧ t.tether = State.reset.tether
      ∧ t.ready = false ∧ t.hostMem = s.hostMem ∧ t.sec.minfw = s.sec.minfw ∧ t.sec.nextRes = s.sec.nextRes
      ∧ (∀ a, a < 2 ^ 53 → mget t.mem a = 0) ∧ (∀ a, 2 ^ 53 ≤ a → mget t.mem a = mget s.mem a)) :=
  ⟨s.afterReset, rfl, rfl, rfl, rfl, rfl, rfl, rfl, rfl, rfl, rfl, mget_filter_flash_below s.mem, mget_filter_flash_above s.mem⟩

/-- A warm reset differs in the training results alone. -/
theorem warmReset_ends (s : State) (ok : Bool) : Ends (exec (.warmReset ok) s) (fun t =>
    t.power.bootStep = 1 ∧ t.power.trained = s.power.trained ∧ t.power.warm = (ok && s.power.trained) ∧ t.host = State.reset.host
      ∧ t.cores = [] ∧ t.hostMem = s.hostMem ∧ (∀ a, a < 2 ^ 53 → mget t.mem a = 0)) :=
  ⟨_, rfl, rfl, rfl, rfl, rfl, rfl, rfl, mget_filter_flash_below s.mem⟩

/-- Step 8 ends in Ready. -/
theorem bringup_step8_ends {s : State} {d : U16} {ports : BitVec 18} {om : OmLayout} {img : FwImage} (h : s.power.bootFail = .none)
    (hn : s.power.bootStep = 8) (ho : layoutOk om = true) (ht : s.power.trans = none) :
    Ends (exec (.bringupStepComplete true d ports (om, img)) s) (fun t =>
      t.power.bootStep = 9 ∧ t.power.pstate = .ps0 ∧ t.power.freqCmd = s.power.resumeFreq.getD 2200 ∧ t.host.replaycnt = 0
        ∧ (t.cq 0).isSome = true) := by
  refine ⟨_, bringup_step8_ready h hn ho, ?_⟩
  obtain ⟨hpower, hcq⟩ := startManager_spec s { om with svc := { om.svc with pfns := om.svc.pfns.take 2 } }
  have htrans := (eq_of_control Power.trans hpower).trans ht
  have hresume := eq_of_control Power.resumeFreq hpower
  obtain ⟨hstep, hps, hfreq, hreplay, hcq0⟩ := bootReady_spec htrans
  exact ⟨hstep, hps, by rw [hfreq, hresume], hreplay, hcq0 ▸ hcq⟩

/-- Settles O43: a reset keeps what its definition names, and each step of bring-up is one of the equations above. -/
theorem resetAndBringUp : Obligations.ResetAndBringUp := by
  unfold Obligations.ResetAndBringUp
  refine ⟨fun s ok => ⟨coldReset_ends s, warmReset_ends s ok⟩,
    fun s d ports om img => ⟨fun h ok => bringup_stopped h, fun h => ?_⟩⟩
  refine ⟨fun hn => ?step1, fun hn => ?step2, fun hn => ⟨fun hkey hsig hver ok => ?trusted, fun hbad => ?untrusted⟩, fun hn => ?step4,
    fun hn => ?step5, fun hn ok => ?step6, fun hn ok => ?step7, fun hn ho ht => ?step8⟩
  case step1 => exact ⟨⟨_, bringup_step1 h hn, rfl, rfl⟩, _, bringup_step1 h hn, rfl⟩
  case step2 => exact ⟨⟨_, bringup_step2 h hn, rfl⟩, _, bringup_step2 h hn, rfl⟩
  case trusted =>
    exact ⟨_, bringup_step3_trusted h hn ((imageTrusted_iff s img).mpr ⟨hkey, hsig, hver⟩), rfl, rfl, rfl, verified_fwHash s img,
      verified_fwVersion s img⟩
  case untrusted =>
    have hi := imageTrusted_eq_false hbad
    exact ⟨fun hb ok => ⟨_, bringup_step3_backup h hn hi hb, hn, h, rfl⟩, fun hb ok => ⟨_, bringup_step3_fails h hn hi hb, rfl⟩⟩
  case step4 => exact ⟨⟨_, bringup_step4 h hn, rfl, rfl⟩, _, bringup_step4 h hn, rfl⟩
  case step5 =>
    refine ⟨⟨_, bringup_step5_trained h hn, rfl, rfl⟩, fun hd => ⟨_, bringup_step5_retries h hn hd, hn, h, ?_⟩,
      fun hd => ⟨_, bringup_step5_fails h hn hd, rfl, rfl⟩⟩
    simp
  case step6 => exact ⟨_, bringup_step6 h hn, rfl, rfl, mget_filter_flash_below s.mem⟩
  case step7 => exact ⟨_, bringup_step7 h hn, rfl, portsTrained_lock ports⟩
  case step8 => exact ⟨bringup_step8_ends h hn ho ht, _, bringup_step8_fails h hn, rfl⟩

end Sys2Proof.Laws
end

section
/-!
PROOFS. The power window, the power and thermal limits, and power commands and transitions (01_package.md, R15 to R23; R69).
-/

namespace Sys2Proof.Laws

open Sys2Proof Sys2Proof.Machine Sys2Proof.Safety

/-! ### The power controller takes new values -/

/-- PWRLIM_SEEN and THERM_SEEN note a rise; every other value is the one given. -/
theorem setPower_power (s : State) (p : Power) : (s.setPower p).power
    = { p with
        pwrlimSeen := p.pwrlimSeen || (p.limited && !s.power.limited)
        thermSeen := p.thermSeen || (p.hot && !s.power.hot) } := by
  unfold State.setPower
  dsimp only
  split
  · exact signal_power ..
  · rfl

/-! ### The window and the limits (R15, R17, R18) -/

section
variable {s : State} {x : U32}

/-- A sample before the last one of its window is added. -/
theorem powerSample_adds (h : s.power.lastSample + 1000 ≤ s.now) (hc : s.power.windowCount + 1 < 1000) :
    exec (.powerSample x) s = .next { s with power := { s.power with
      lastSample := s.now, windowSum := s.power.windowSum + x.toNat, windowCount := s.power.windowCount + 1 } } := by
  change execPowerSample x s = _
  have hnow : ¬ s.now < s.power.lastSample + 1000 := by omega
  have hfull : ¬ 1000 ≤ s.power.windowCount + 1 := by omega
  simp only [execPowerSample, hnow, hfull, if_false]

/-- The last sample of a window gives its mean. -/
theorem powerSample_ends_window (h : s.power.lastSample + 1000 ≤ s.now) (hc : s.power.windowCount = 999) :
    exec (.powerSample x) s = .next { s with power := { s.power with
      lastSample := s.now, windowSum := 0, windowCount := 0, windowMean := (s.power.windowSum + x.toNat) / 1000 } } := by
  change execPowerSample x s = _
  have hnow : ¬ s.now < s.power.lastSample + 1000 := by omega
  simp [execPowerSample, hnow, hc]

theorem capDown_toNat (cap cmd : U16) : (capDown cap cmd).toNat = max 1000 (min cap.toNat cmd.toNat - 100) := by
  have hcap := cap.isLt
  rw [capDown, BitVec.toNat_ofNat, Nat.mod_eq_of_lt (by omega)]

theorem capUp_toNat {cap cmd : U16} (h : cap.toNat + 100 < cmd.toNat) : (capUp cap cmd).toNat = cap.toNat + 100 := by
  have hcmd := cmd.isLt
  rw [capUp, if_neg (by omega), BitVec.toNat_ofNat, Nat.mod_eq_of_lt (by omega)]

theorem powerThrottleStep_down (h : s.power.lastPowerStep + 10000 ≤ s.now) (hx : 3600000 < x.toNat) :
    exec (.powerThrottleStep x) s
      = .next (s.setPower { s.power with powerCap := capDown s.power.powerCap s.power.freqCmd, lastPowerStep := s.now }) := by
  change execPowerThrottleStep x s = _
  simp only [execPowerThrottleStep]
  rw [if_neg (by omega), if_pos hx]

theorem powerThrottleStep_up (h : s.power.lastPowerStep + 10000 ≤ s.now) (hx : x.toNat ≤ 3600000)
    (hm : s.power.windowMean < 3450000) (hc : s.power.powerCap ≠ 2400) :
    exec (.powerThrottleStep x) s
      = .next (s.setPower { s.power with powerCap := capUp s.power.powerCap s.power.freqCmd, lastPowerStep := s.now }) := by
  change execPowerThrottleStep x s = _
  simp only [execPowerThrottleStep]
  rw [if_neg (by omega), if_neg (by omega), if_pos (by simpa [hm] using hc)]

theorem thermalStep_down (hs : s.power.thermStopped = false) (h : s.power.lastThermStep + 10000 ≤ s.now) (hx : 105000 < x.toNat) :
    exec (.thermalStep x) s
      = .next (s.setPower { s.power with thermCap := capDown s.power.thermCap s.power.freqCmd, lastThermStep := s.now }) := by
  change execThermalStep x s = _
  simp only [execThermalStep]
  rw [if_neg (by simp [hs, h]), if_pos hx]

theorem thermalStep_up (hs : s.power.thermStopped = false) (h : s.power.lastThermStep + 10000 ≤ s.now) (hx : x.toNat < 100000)
    (hc : s.power.thermCap ≠ 2400) :
    exec (.thermalStep x) s
      = .next (s.setPower { s.power with thermCap := capUp s.power.thermCap s.power.freqCmd, lastThermStep := s.now }) := by
  change execThermalStep x s = _
  simp only [execThermalStep]
  rw [if_neg (by simp [hs, h]), if_neg (by omega), if_pos (by simpa [hx] using hc)]

/-- A clock that temperature has stopped does not run. -/
theorem freqAct_of_stopped {p : Power} (h : p.thermStopped = true) : p.freqAct = 0 := by
  rw [Power.freqAct, if_neg (by simp [h])]

/-- The power controller notes a stop, which raises the thermal vector though THERM may have been set before. -/
def noteStop (s : State) : State :=
  let u := s.setPower { s.power with thermStopped := true }
  if s.power.hot then u.signal 1 else u

theorem noteStop_power (s : State) : (noteStop s).power = (s.setPower { s.power with thermStopped := true }).power := by
  unfold noteStop
  dsimp only
  split
  · exact signal_power ..
  · rfl

/-- Above 115 °C the stop is noted, and THERMSTOP reported. -/
theorem thermalStop_stops (hs : s.power.thermStopped = false) (hx : 115000 < x.toNat) :
    exec (.thermalStop x) s = .next ((noteStop s).setErr 4 (noteStop s).power.pwrstat 0) := by
  change execThermalStop x s = _
  simp only [execThermalStop]
  rw [if_neg (by simp [hs, hx])]
  rfl

theorem thermalStop_ends (hs : s.power.thermStopped = false) (hx : 115000 < x.toNat) : Ends (exec (.thermalStop x) s) (fun t =>
    t.power.thermStopped = true ∧ t.power.thermSeen = (s.power.thermSeen || !s.power.hot) ∧ t.host.errstat.getLsbD 4 = true
      ∧ t.power.freqCmd = s.power.freqCmd ∧ t.power.freqAct = 0) := by
  refine ⟨_, thermalStop_stops hs hx, ?_⟩
  have hcontrol := setErr_control (noteStop s) 4 (noteStop s).power.pwrstat 0
  rw [noteStop_power, setPower_power] at hcontrol
  have hstop := eq_of_control Power.thermStopped hcontrol
  have hseen := eq_of_control Power.thermSeen hcontrol
  have hfreq := eq_of_control Power.freqCmd hcontrol
  rw [noteStop_power, setPower_power]
  exact ⟨hstop, hseen, setErr_errstat _ _ _ _ (by decide), hfreq, freqAct_of_stopped hstop⟩

theorem thermalRestart_restarts (hs : s.power.thermStopped = true) (hx : x.toNat < 110000) :
    exec (.thermalRestart x) s
      = .next { s with power := { s.power with thermStopped := false, thermCap := 1000, lastThermStep := s.now } } := by
  change execThermalRestart x s = _
  simp only [execThermalRestart]
  rw [if_neg (by simp [hs, hx])]

end

/-! ### Self-refresh (R22) -/

theorem selfRefreshIdle_enters {s : State} {u : BitVec 4} (hp : s.power.pstate = .ps2) (hu : u.toNat < 14)
    (ht : tget s.power.lastAccess 0 u.toNat + 100000 ≤ s.now) :
    exec (.selfRefreshIdle u) s
      = .next { s with power := { s.power with selfRefresh := s.power.selfRefresh ||| (1#14 <<< u.toNat) } } := by
  change execSelfRefreshIdle u s = _
  simp only [execSelfRefreshIdle]
  rw [if_pos ⟨hp, hu, ht⟩]

/-- Settles O45: each action of the controllers is one of the equations above. -/
theorem powerAndThermalLimits : Obligations.PowerAndThermalLimits := by
  intro s x u p
  refine ⟨fun h => ⟨fun hc => ?adds, fun hc => ?window⟩, fun h => ⟨fun hx => ?powerDown, fun hx hm hc hf => ?powerUp⟩,
    fun hs h => ⟨fun hx => ?thermDown, fun hx hc hf => ?thermUp⟩, thermalStop_ends, fun hs hx => ?restart,
    fun hp hu ht => ?refresh, fun ht => ?tick⟩
  case adds => exact ⟨_, powerSample_adds h hc, rfl, rfl, rfl, rfl⟩
  case window => exact ⟨_, powerSample_ends_window h hc, rfl, rfl, rfl⟩
  case powerDown =>
    rw [powerThrottleStep_down h hx, ends_next, setPower_power]
    exact ⟨capDown_toNat .., rfl, rfl⟩
  case powerUp =>
    rw [powerThrottleStep_up h hx hm hc, ends_next, setPower_power]
    exact capUp_toNat hf
  case thermDown =>
    rw [thermalStep_down hs h hx, ends_next, setPower_power]
    exact ⟨capDown_toNat .., rfl⟩
  case thermUp =>
    rw [thermalStep_up hs h hx hc, ends_next, setPower_power]
    exact capUp_toNat hf
  case restart => exact ⟨_, thermalRestart_restarts hs hx, rfl, rfl, rfl⟩
  case refresh =>
    refine ⟨_, selfRefreshIdle_enters hp hu ht, ?_, rfl⟩
    simp [hu]
  case tick => exact if_pos ht

/-! ### Power commands (R20, R69, Table 1-6) -/

/-- Table 1-6 by its columns. -/
theorem transitionOk_iff (p : PState) : (transitionOk p .ps0 = true ↔ p ≠ .ps2) ∧ (transitionOk p .ps1 = true ↔ p = .ps0 ∨ p = .ps2)
    ∧ (transitionOk p .ps2 = true ↔ p = .ps1) ∧ (transitionOk p .ps3 = true ↔ p = .ps2) := by
  cases p <;> decide

section
variable {s : State} {seq freq hi : U16} {lo : BitVec 14}

theorem badCommand_of_reserved (p : Power) (x : PState) (h : hi ≠ 0 ∨ lo ≠ 0) : p.badCommand x freq hi lo = true := by
  have hrsv : (decide (hi ≠ 0) || decide (lo ≠ 0)) = true := by rwa [Bool.or_eq_true, decide_eq_true_eq, decide_eq_true_eq]
  rw [Power.badCommand, hrsv, Bool.true_or, Bool.true_or]

/-- A change to PS0 needs a clock point of Table 1-5. -/
theorem badCommand_ps0 (p : Power) : p.badCommand .ps0 freq hi lo = false ↔ hi = 0 ∧ lo = 0 ∧ p.pstate ≠ .ps2
    ∧ 1000 ≤ freq.toNat ∧ freq.toNat ≤ 2400 ∧ freq.toNat % 100 = 0 := by
  simp [Power.badCommand, ← (transitionOk_iff p.pstate).1, and_assoc]

/-- A change to another state takes no clock point. -/
theorem badCommand_other (p : Power) {x : PState} (hx : x ≠ .ps0) :
    p.badCommand x freq hi lo = false ↔ hi = 0 ∧ lo = 0 ∧ transitionOk p.pstate x = true ∧ freq = 0 := by
  simp [Power.badCommand, hx, and_assoc, ← BitVec.toNat_inj]

theorem powerCommand_busy (x : PState) (h : s.ready = false ∨ s.power.trans.isSome = true) :
    s.powerCommand x seq freq hi lo = s.setPwrres seq Status.pwrBusy := by
  rw [State.powerCommand, if_pos (by simpa using h)]

theorem powerCommand_bad (x : PState) (hr : s.ready = true) (ht : s.power.trans = none)
    (hbad : s.power.badCommand x freq hi lo = true) : s.powerCommand x seq freq hi lo = s.setPwrres seq Status.pwrBadCmd := by
  rw [State.powerCommand, if_neg (by simp [hr, ht]), if_pos hbad]

theorem powerCommand_bad_ps0 (hr : s.ready = true) (ht : s.power.trans = none)
    (h : s.power.pstate = .ps2 ∨ freq.toNat < 1000 ∨ 2400 < freq.toNat ∨ freq.toNat % 100 ≠ 0) :
    s.powerCommand .ps0 seq freq hi lo = s.setPwrres seq Status.pwrBadCmd := by
  refine powerCommand_bad .ps0 hr ht ((Bool.not_eq_false _).mp fun hgood => ?_)
  obtain ⟨_, _, hps, hlow, hhigh, hpoint⟩ := (badCommand_ps0 _).mp hgood
  rcases h with h | h | h | h
  · exact hps h
  · omega
  · omega
  · exact h hpoint

theorem powerCommand_bad_other (hr : s.ready = true) (ht : s.power.trans = none) {x : PState} (hx : x ≠ .ps0)
    (h : ¬ transitionOk s.power.pstate x = true ∨ freq ≠ 0) :
    s.powerCommand x seq freq hi lo = s.setPwrres seq Status.pwrBadCmd := by
  refine powerCommand_bad x hr ht ((Bool.not_eq_false _).mp fun hgood => ?_)
  obtain ⟨_, _, hok, hfreq⟩ := (badCommand_other _ hx).mp hgood
  exact h.elim (fun h => h hok) fun h => h hfreq

/-- What the power controller holds once a transition has started. -/
theorem powerCommand_starts (x : PState) (hr : s.ready = true) (ht : s.power.trans = none)
    (hgood : s.power.badCommand x freq hi lo = false) :
    let p := (s.powerCommand x seq freq hi lo).power
    p.trans = some { target := x, was := s.power.freqCmd, seq, start := s.tether.toNat }
      ∧ p.pwrres = BitVec.ofNat 64 (seq.toNat * 65536 + 0x42) ∧ p.pstate = s.power.pstate
      ∧ p.freqCmd = if x = .ps0 then freq else s.power.freqCmd := by
  rw [State.powerCommand, if_neg (by simp [hr, ht]), if_neg (by simp [hgood])]
  dsimp only
  rw [setPower_power, setPwrres_power, setPwrres_tether]
  exact ⟨rfl, rfl, rfl, rfl⟩

/-- A command that starts no transition is that and no more. -/
theorem pwrCmdPs0_refused (h : (s.powerCommand .ps0 seq freq hi lo).power.trans = s.power.trans) :
    exec (.pwrCmdPs0 seq freq hi lo) s = .next (s.powerCommand .ps0 seq freq hi lo) := by
  change execPwrCmdPs0 seq freq hi lo s = _
  simp only [execPwrCmdPs0, h]
  cases s.power.trans <;> simp

/-- A command to PS0 that starts a transition runs bring-up from step 3 if it leaves PS3. -/
theorem pwrCmdPs0_starts (hr : s.ready = true) (ht : s.power.trans = none) (hgood : s.power.badCommand .ps0 freq hi lo = false) :
    exec (.pwrCmdPs0 seq freq hi lo) s
      = .next (if s.power.pstate = .ps3 then (s.powerCommand .ps0 seq freq hi lo).restart else s.powerCommand .ps0 seq freq hi lo) := by
  change execPwrCmdPs0 seq freq hi lo s = _
  obtain ⟨htrans, _⟩ := powerCommand_starts (seq := seq) .ps0 hr ht hgood
  simp [execPwrCmdPs0, ht, htrans]

/-- A command to PS0 that starts takes the clock point, and out of PS3 bring-up starts again at step 3 for it. -/
theorem pwrCmdPs0_ends (hr : s.ready = true) (ht : s.power.trans = none) (hgood : s.power.badCommand .ps0 freq hi lo = false) :
    Ends (exec (.pwrCmdPs0 seq freq hi lo) s) (fun t =>
      (t.power.trans = some { target := .ps0, was := s.power.freqCmd, seq, start := s.tether.toNat }
        ∧ t.power.pwrres = BitVec.ofNat 64 (seq.toNat * 65536 + 0x42) ∧ t.power.pstate = s.power.pstate)
      ∧ t.power.freqCmd = freq ∧ (s.power.pstate = .ps3 → t.power.bootStep = 3 ∧ t.power.resumeFreq = some freq)) := by
  obtain ⟨htrans, hres, hps, hfreq⟩ := powerCommand_starts (seq := seq) .ps0 hr ht hgood
  rw [if_pos rfl] at hfreq
  rw [pwrCmdPs0_starts hr ht hgood, ends_next]
  by_cases h3 : s.power.pstate = .ps3
  · rw [if_pos h3]
    exact ⟨⟨htrans, hres, hps⟩, hfreq, fun _ => ⟨rfl, congrArg some hfreq⟩⟩
  · rw [if_neg h3]
    exact ⟨⟨htrans, hres, hps⟩, hfreq, fun h => absurd h h3⟩

/-- Another command that starts keeps the clock point. -/
theorem powerCommand_starts_other (hr : s.ready = true) (ht : s.power.trans = none) {x : PState} (hx : x ≠ .ps0)
    (hok : transitionOk s.power.pstate x = true) (hf : freq = 0) (hh : hi = 0) (hl : lo = 0) :
    let p := (s.powerCommand x seq freq hi lo).power
    (p.trans = some { target := x, was := s.power.freqCmd, seq, start := s.tether.toNat }
      ∧ p.pwrres = BitVec.ofNat 64 (seq.toNat * 65536 + 0x42) ∧ p.pstate = s.power.pstate) ∧ p.freqCmd = s.power.freqCmd := by
  obtain ⟨htrans, hres, hps, hfreq⟩ := powerCommand_starts (seq := seq) x hr ht ((badCommand_other _ hx).mpr ⟨hh, hl, hok, hf⟩)
  exact ⟨⟨htrans, hres, hps⟩, hfreq.trans (if_neg hx)⟩

/-- Every power command that is not for PS0 starts its transition or is refused. -/
theorem exec_pwrCmd : exec (.pwrCmdPs1 seq freq hi lo) s = .next (s.powerCommand .ps1 seq freq hi lo)
    ∧ exec (.pwrCmdPs2 seq freq hi lo) s = .next (s.powerCommand .ps2 seq freq hi lo)
    ∧ exec (.pwrCmdPs3 seq freq hi lo) s = .next (s.powerCommand .ps3 seq freq hi lo) := ⟨rfl, rfl, rfl⟩

/-- All four commands are refused alike. -/
theorem pwrCmd_refused {st : U16} (h : ∀ x, s.powerCommand x seq freq hi lo = s.setPwrres seq st) :
    exec (.pwrCmdPs0 seq freq hi lo) s = .next (s.setPwrres seq st) ∧ exec (.pwrCmdPs1 seq freq hi lo) s = .next (s.setPwrres seq st)
      ∧ exec (.pwrCmdPs2 seq freq hi lo) s = .next (s.setPwrres seq st)
      ∧ exec (.pwrCmdPs3 seq freq hi lo) s = .next (s.setPwrres seq st) := by
  obtain ⟨h1, h2, h3⟩ := exec_pwrCmd (s := s) (seq := seq) (freq := freq) (hi := hi) (lo := lo)
  rw [pwrCmdPs0_refused (by rw [h, setPwrres_power]), h1, h2, h3, h, h, h, h]
  exact ⟨rfl, rfl, rfl, rfl⟩

end

/-! ### The end of a transition -/

@[simp] theorem arrivePs_power (s : State) (tr : Transition) : (s.arrivePs tr).power
    = { s.power with pstate := tr.target, trans := none, pwrres := BitVec.ofNat 64 (tr.seq.toNat * 65536 + 0x43) } :=
  setPwrres_power _ _ _
@[simp] theorem arrivePs_mem (s : State) (tr : Transition) : (s.arrivePs tr).mem = s.mem := setPwrres_mem _ _ _
@[simp] theorem arrivePs_cores (s : State) (tr : Transition) : (s.arrivePs tr).cores = s.cores := setPwrres_cores _ _ _
@[simp] theorem arrivePs_sched (s : State) (tr : Transition) : (s.arrivePs tr).sched = s.sched := setPwrres_sched _ _ _
@[simp] theorem arrivePs_host (s : State) (tr : Transition) : (s.arrivePs tr).host = s.host := setPwrres_host _ _ _

/-- A transition that ends leaves its target as the power state, and DONE in PWRRES. -/
theorem arrivePs_done (s : State) (tr : Transition) : (s.arrivePs tr).power.trans = none ∧ (s.arrivePs tr).power.pstate = tr.target
    ∧ (s.arrivePs tr).power.pwrres = BitVec.ofNat 64 (tr.seq.toNat * 65536 + 0x43) := by
  rw [arrivePs_power]
  exact ⟨rfl, rfl, rfl⟩

/-- No bank holds a command or a dirty line. -/
theorem banks_clean {s : State} (h : ∀ c ∈ s.cores, ∀ b, (c.2.bank b).cmds = [] ∧ ∀ l ∈ (c.2.bank b).basin, l.dirty = []) :
    (s.cores.any fun c => ([0, 1] : List (BitVec 1)).any fun b =>
      !(c.2.bank b).cmds.isEmpty || (c.2.bank b).basin.any fun l => !l.dirty.isEmpty) = false := by
  rw [List.any_eq_false]
  intro c hc
  rw [Bool.not_eq_true, List.any_eq_false]
  intro b _
  obtain ⟨hcmds, hdirty⟩ := h c hc b
  simpa [hcmds] using hdirty

/-- What still runs 100 ms after the command is returned or killed, and no core is given away any more (R21). -/
def drainedAtLimit (s : State) : State :=
  let u := (s.busyBanks.foldl (fun s x => s.drainStep x.1 x.2) s).regather
  { u with sched := { u.sched with grants := [] } }

section
variable {s : State} {tr : Transition} (ht : s.power.trans = some tr)
include ht

theorem ps1DrainComplete_arrives (hp : s.power.pstate = .ps0) (hx : tr.target = .ps1) (hb : s.busyBanks = []) :
    exec .ps1DrainComplete s = .next (s.arrivePs tr) := by
  change execPs1DrainComplete s = _
  simp [execPs1DrainComplete, ht, hp, hx, hb]

theorem ps1DrainComplete_waits (hb : s.busyBanks ≠ []) : exec .ps1DrainComplete s = .next s := by
  change execPs1DrainComplete s = _
  simp [execPs1DrainComplete, ht, hb]

theorem ps1DrainTimeout_arrives (hp : s.power.pstate = .ps0) (hx : tr.target = .ps1) (hb : s.busyBanks ≠ [])
    (hl : tr.start + 100000000 ≤ s.tether.toNat) : exec .ps1DrainTimeout s = .next ((drainedAtLimit s).arrivePs tr) := by
  change execPs1DrainTimeout s = _
  simp only [execPs1DrainTimeout, ht]
  exact if_pos ⟨hx, hp, hl, by simpa using hb⟩

theorem ps1DrainTimeout_early (hl : s.tether.toNat < tr.start + 100000000) : exec .ps1DrainTimeout s = .next s := by
  change execPs1DrainTimeout s = _
  simp only [execPs1DrainTimeout, ht]
  exact if_neg fun h => by omega

theorem transition_to_ps0 (hx : tr.target = .ps0) (hp : s.power.pstate = .ps0 ∨ s.power.pstate = .ps1) :
    exec .powerTransitionComplete s = .next (s.arrivePs tr) := by
  change execPowerTransitionComplete s = _
  rcases hp with hp | hp <;> simp [execPowerTransitionComplete, ht, hp, hx]

theorem transition_from_ps2 (hp : s.power.pstate = .ps2) (hx : tr.target = .ps1) :
    exec .powerTransitionComplete s = .next (s.ungate.arrivePs tr) := by
  change execPowerTransitionComplete s = _
  simp [execPowerTransitionComplete, ht, hp, hx]

theorem transition_to_ps3 (hp : s.power.pstate = .ps2) (hx : tr.target = .ps3) (hc : s.host.cmds = []) (ho : s.host.omcalls = []) :
    exec .powerTransitionComplete s = .next (s.powerOff.arrivePs tr) := by
  change execPowerTransitionComplete s = _
  simp [execPowerTransitionComplete, ht, hp, hx, hc, ho]

/-- The compute dies are gated once nothing is queued, requested, held or dirty. -/
theorem transition_to_ps2 (hp : s.power.pstate = .ps1) (hx : tr.target = .ps2) (hT : s.allTasks = []) (hq : s.host.hlq = [])
    (hr : s.coreReqs = false) (h : ∀ c ∈ s.cores, ∀ b, (c.2.bank b).cmds = [] ∧ ∀ l ∈ (c.2.bank b).basin, l.dirty = []) :
    exec .powerTransitionComplete s = .next (s.gate.arrivePs tr) := by
  have hclean := banks_clean h
  have hqueued : s.queuedTasks = [] := by simp [State.queuedTasks, hT]
  have hgate : s.gateWaits = false := by
    rw [State.gateWaits, hclean, hT, hr]
    rfl
  change execPowerTransitionComplete s = _
  simp only [execPowerTransitionComplete, ht, hp, hx]
  rw [hclean, hqueued, hq, hgate]
  rfl

end

theorem mem_gate_cores {s : State} {c : Nat × Core} (h : c ∈ s.gate.cores) : c.2.zeroPending = true ∧ c.2.codeCache = [] := by
  obtain ⟨x, _, rfl⟩ := List.mem_map.mp h
  exact ⟨rfl, rfl⟩

theorem mem_ungate_cores {s : State} {c : Nat × Core} (h : c ∈ s.ungate.cores) : c.2.zeroPending = false := by
  obtain ⟨x, _, rfl⟩ := List.mem_map.mp h
  dsimp only
  split
  · rfl
  · simpa using ‹¬ x.2.zeroPending = true›

/-- Settles O44: a command is busy, bad or starts a transition, and each transition ends by one of the equations above. -/
theorem powerStates : Obligations.PowerStates := by
  refine ⟨fun s seq freq hi lo => ⟨fun h => pwrCmd_refused fun x => powerCommand_busy x h, fun hr ht => ?commands⟩,
    fun s tr ht => ⟨fun hp hx => ⟨fun hb => ?drained, ps1DrainComplete_waits ht, fun hb hl => ?limit, ps1DrainTimeout_early ht⟩,
      fun hx hp => ?toPs0, fun hp hx hT hq hr h => ?toPs2, fun hp hx => ?fromPs2, fun hp hx hc ho => ?toPs3⟩⟩
  case commands =>
    obtain ⟨h1, h2, h3⟩ := exec_pwrCmd (s := s) (seq := seq) (freq := freq) (hi := hi) (lo := lo)
    obtain ⟨-, to1, to2, to3⟩ := transitionOk_iff s.power.pstate
    refine ⟨fun h => pwrCmd_refused fun x => powerCommand_bad x hr ht (badCommand_of_reserved _ x h),
      fun h => ?bad0, fun h => ?bad1, fun h => ?bad2, fun h => ?bad3, fun hp hf hh hl => ?starts1, fun hp hf hh hl => ?starts2,
      fun hp hf hh hl => ?starts3,
      fun hp hlow hhigh hpoint hh hl => pwrCmdPs0_ends hr ht ((badCommand_ps0 _).mpr ⟨hh, hl, hp, hlow, hhigh, hpoint⟩)⟩
    case bad0 =>
      have hbad := powerCommand_bad_ps0 (seq := seq) (hi := hi) (lo := lo) hr ht h
      rw [pwrCmdPs0_refused (by rw [hbad, setPwrres_power]), hbad]
    case bad1 =>
      have hno : ¬ transitionOk s.power.pstate .ps1 = true ∨ freq ≠ 0 :=
        (or_assoc.mpr h).imp_left fun h => mt to1.mp (by rcases h with h | h <;> simp [h])
      rw [h1, powerCommand_bad_other hr ht (by decide) hno]
    case bad2 => rw [h2, powerCommand_bad_other hr ht (by decide) (h.imp_left (mt to2.mp))]
    case bad3 => rw [h3, powerCommand_bad_other hr ht (by decide) (h.imp_left (mt to3.mp))]
    case starts1 => exact ⟨_, h1, powerCommand_starts_other hr ht (by decide) (to1.mpr hp) hf hh hl⟩
    case starts2 => exact ⟨_, h2, powerCommand_starts_other hr ht (by decide) (to2.mpr hp) hf hh hl⟩
    case starts3 => exact ⟨_, h3, powerCommand_starts_other hr ht (by decide) (to3.mpr hp) hf hh hl⟩
  case drained =>
    rw [ps1DrainComplete_arrives ht hp hx hb, ends_next]
    exact ⟨arrivePs_done s tr, arrivePs_mem s tr, arrivePs_cores s tr⟩
  case limit =>
    rw [ps1DrainTimeout_arrives ht hp hx hb hl, ends_next]
    exact arrivePs_done _ tr
  case toPs0 =>
    rw [transition_to_ps0 ht hx hp, ends_next]
    exact ⟨arrivePs_done s tr, arrivePs_mem s tr, arrivePs_cores s tr, arrivePs_sched s tr⟩
  case toPs2 =>
    rw [transition_to_ps2 ht hp hx hT hq hr h, ends_next, arrivePs_cores, arrivePs_mem]
    refine ⟨arrivePs_done s.gate tr, ?_, fun c => mem_gate_cores, rfl⟩
    rw [arrivePs_power]
    rfl
  case fromPs2 =>
    rw [transition_from_ps2 ht hp hx, ends_next, arrivePs_cores, arrivePs_mem]
    exact ⟨arrivePs_done s.ungate tr, fun c => mem_ungate_cores, rfl⟩
  case toPs3 =>
    rw [transition_to_ps3 ht hp hx hc ho, ends_next, arrivePs_host, arrivePs_cores, arrivePs_mem]
    exact ⟨arrivePs_done s.powerOff tr, rfl, rfl, mget_filter_flash_below s.mem, mget_filter_flash_above s.mem⟩

end Sys2Proof.Laws
end

section
/-!
PROOFS. The host's registers, slots and link (03_host_interface.md, R54 to R66; 02_links.md, R27 to R29, R43, R48, R49).
-/

namespace Sys2Proof.Laws

open Sys2Proof Sys2Proof.Machine Sys2Proof.Safety

/-! ### Registers that a write of ones clears -/

theorem clearTetherstat_links (s : State) (v : Word) : (s.clearTetherstat v).links.lostLock = (s.links.lostLock && !v.getLsbD 1)
    ∧ (s.clearTetherstat v).links.lock = s.links.lock := by
  unfold State.clearTetherstat
  split <;> simp_all

theorem clearPlstat_peer (s : State) (n : Nat) (v : Word) :
    ((s.clearPlstat n v).peer n).timeout = ((s.peer n).timeout && !v.getLsbD 3) ∧ ((s.clearPlstat n v).peer n).st = (s.peer n).st := by
  unfold State.clearPlstat
  split <;> simp_all

theorem clearSlstat_slice (s : State) (n : Nat) (v : Word) :
    ((s.clearSlstat n v).slice n).inv = ((s.slice n).inv && !v.getLsbD 0) ∧ ((s.clearSlstat n v).slice n).spout = (s.slice n).spout := by
  unfold State.clearSlstat
  split <;> simp_all

/-! ### TETHERCTL and PLCTLn (R48, R49) -/

/-- The time master after a write of TETHERCTL: a number of 576 or above is ignored (log entry 82). -/
def masterAfter (s : State) (v : Word) : BitVec 10 :=
  if 576 ≤ bits v.toNat 31 22 then s.links.master else BitVec.ofNat 10 (bits v.toNat 31 22)

/-- The time master locks (R48). -/
def lockMaster (t : State) : State := if t.isMaster then { t with links := { t.links with lock := true } } else t

theorem lockMaster_spec (t : State) : (lockMaster t).links.tetherEn = t.links.tetherEn ∧ (lockMaster t).links.master = t.links.master
    ∧ (lockMaster t).links.lock = ((lockMaster t).isMaster || t.links.lock) ∧ (lockMaster t).host = t.host := by
  cases h : t.isMaster with
  | true =>
    rw [lockMaster, if_pos h, show State.isMaster { t with links := { t.links with lock := true } } = true from h]
    exact ⟨rfl, rfl, rfl, rfl⟩
  | false =>
    rw [lockMaster, if_neg (by simp [h]), h]
    exact ⟨rfl, rfl, rfl, rfl⟩

/-- A write of TETHERCTL takes EN and MASTER; the time master locks, and another package keeps its lock while EN is 1 and
MASTER as before. -/
theorem writeTetherctl_spec (s : State) (v : Word) : (s.writeTetherctl v).links.tetherEn = v.getLsbD 0
    ∧ (s.writeTetherctl v).links.master = masterAfter s v
    ∧ (s.writeTetherctl v).links.lock
      = ((s.writeTetherctl v).isMaster || (s.links.lock && masterAfter s v == s.links.master && v.getLsbD 0))
    ∧ (s.writeTetherctl v).host = s.host := by
  have hhost (c : Bool) : (if c then s.losePlans else s).host = s.host := by cases c <;> rfl
  obtain ⟨hen, hmaster, hlock, hh⟩ := lockMaster_spec
    { (if s.links.lock && !(s.links.lock && masterAfter s v == s.links.master && v.getLsbD 0) then s.losePlans else s) with
      links := { s.links with
        master := masterAfter s v, tetherEn := v.getLsbD 0
        lock := s.links.lock && masterAfter s v == s.links.master && v.getLsbD 0 } }
  exact ⟨hen, hmaster, hlock, hh.trans (hhost _)⟩

theorem tetherctlWrite_ends (s : State) (v : Word) : Ends (exec (.tetherctlWrite v) s) (fun t => t.links.tetherEn = v.getLsbD 0
    ∧ (v.toNat / 2 ^ 22 % 2 ^ 10 < 576 → t.links.master.toNat = v.toNat / 2 ^ 22 % 2 ^ 10)
    ∧ (t.isMaster = false → (v.getLsbD 0 = false ∨ t.links.master ≠ s.links.master) → t.links.lock = false)
    ∧ (t.isMaster = true → t.links.lock = true) ∧ t.host.errstat = s.host.errstat) := by
  obtain ⟨hen, hmaster, hlock, hhost⟩ := writeTetherctl_spec s v
  refine ⟨_, rfl, hen, fun hm => ?_, fun hno hlost => ?_, fun hyes => ?_, congrArg HostIf.errstat hhost⟩
  · rw [hmaster, masterAfter, if_neg (by simpa [bits] using hm), BitVec.toNat_ofNat]
    exact Nat.mod_mod _ _
  · rw [hlock, hno]
    rw [hmaster] at hlost
    rcases hlost with h | h
    · rw [h, Bool.and_false]
      rfl
    · rw [beq_eq_false_iff_ne.mpr h, Bool.and_false]
      rfl
  · rw [hlock, hyes]
    rfl

theorem plctlDisable_down {s : State} {n : BitVec 5} (hn : n.toNat < 18) (h : (s.peer n.toNat).st ≠ 2) :
    Ends (exec (.plctlDisable n) s) (fun t => (t.peer n.toNat).dis = true ∧ (t.peer n.toNat).st = 3) := by
  change Ends (.next (s.writePlctl n.toNat true)) _
  rw [ends_next, State.writePlctl, if_neg (by omega), if_pos rfl, if_neg h, State.peer_setPeer_same]
  exact ⟨rfl, rfl⟩

theorem plctlDisable_up {s : State} {n : BitVec 5} (hn : n.toNat < 18) (h : (s.peer n.toNat).st = 2) :
    exec (.plctlDisable n) s
      = .next ((s.setPeer n.toNat { s.peer n.toNat with dis := true }).peerDown n.toNat 3 false) := by
  change Host.Outcome.next (s.writePlctl n.toNat true) = _
  rw [State.writePlctl, if_neg (by omega), if_pos rfl, if_pos h]

theorem plctlEnable_trains {s : State} {n : BitVec 5} (hn : n.toNat < 18) (h : (s.peer n.toNat).dis = true ∨ (s.peer n.toNat).st = 0) :
    Ends (exec (.plctlEnable n) s) (fun t => (t.peer n.toNat).dis = false ∧ (t.peer n.toNat).st = 1) := by
  change Ends (.next (s.writePlctl n.toNat false)) _
  rw [ends_next, State.writePlctl, if_neg (by omega), if_neg (by decide), if_pos (by simpa using h), State.peer_setPeer_same]
  exact ⟨rfl, rfl⟩

theorem plctlEnable_idle {s : State} {n : BitVec 5} (hn : n.toNat < 18) (hd : (s.peer n.toNat).dis = false)
    (h : (s.peer n.toNat).st ≠ 0) : exec (.plctlEnable n) s = .next s := by
  change Host.Outcome.next (s.writePlctl n.toNat false) = _
  rw [State.writePlctl, if_neg (by omega), if_neg (by decide), if_neg (by simpa [hd] using h)]

/-! ### The host link (R27 to R29) -/

/-- A table whose entries are mapped is read through the map. -/
theorem tfind_mapValues {α β : Type} (f : α → β) (t : List (Nat × α)) (k : Nat) :
    tfind (t.map fun x => (x.1, f x.2)) k = (tfind t k).map f := by
  induction t with
  | nil => rfl
  | cons e t ih =>
    simp only [List.map_cons, tfind, ih]
    split <;> rfl

/-- The part of a record that a slot holds is discarded (R29). -/
def discardPart (x : Slot) : Slot := { x with mask := 0 }

/-- With the link down no launch slot holds a part of a record. -/
theorem hostLinkDown_slots (l : Table Slot) (k : Nat) : (tget (l.map fun x => (x.1, discardPart x.2)) Slot.initial k).mask = 0 := by
  rw [tget, tfind_mapValues]
  cases tfind l k <;> rfl

/-- Held messages leave as the link comes up: none is held again. -/
theorem signalAll_up (l : List Nat) (s : State) (h : s.links.hostUp = true) :
    (l.foldl State.signal s).links.hostUp = true ∧ (l.foldl State.signal s).links.heldMsix = s.links.heldMsix := by
  induction l generalizing s with
  | nil => exact ⟨h, rfl⟩
  | cons v l ih =>
    obtain ⟨hup, hheld⟩ := ih (s.signal v) ((signal_hostUp s v).trans h)
    exact ⟨hup, hheld.trans (signal_heldMsix_of_up s v h)⟩

/-! ### Register writes (R54, R57) -/

/-- Unmasking a vector leaves the message control and memory alone. -/
theorem unmask_keeps (s : State) (v : Nat) :
    ((s.unmask v).links.msixEnable, (s.unmask v).links.msixFuncMask, (s.unmask v).mem)
      = (s.links.msixEnable, s.links.msixFuncMask, s.mem) := by
  unfold State.unmask
  split
  · simp
  · rfl

theorem writeMsixControl_spec (s : State) (v : Word) : (s.writeMsixControl v).links.msixEnable = v.getLsbD 15
    ∧ (s.writeMsixControl v).links.msixFuncMask = v.getLsbD 14 ∧ (s.writeMsixControl v).mem = s.mem := by
  have h := foldl_keeps (fun t : State => (t.links.msixEnable, t.links.msixFuncMask, t.mem)) State.unmask unmask_keeps s.links.pba
    { s with links := { s.links with msixEnable := v.getLsbD 15, msixFuncMask := v.getLsbD 14 } }
  simpa [State.writeMsixControl] using h

section
variable {s : State} {off : BitVec 26} {size : BitVec 7} {v w : Word} {more : List Word}

/-- The MSI-X table takes words of 4 and 8 bytes, aligned. -/
theorem registerWrite_control_dropped (h : size ≠ 8 ∧ size ≠ 4 ∨ off.toNat % 4 ≠ 0) :
    exec (.registerWrite 0 off size (v, more)) s = .next s := by
  have h' : size.toNat ≠ 8 ∧ size.toNat ≠ 4 ∨ off.toNat % 4 ≠ 0 := by simpa [← BitVec.toNat_inj] using h
  refine if_neg ?_
  simp only [Bool.and_eq_true, Bool.or_eq_true, decide_eq_true_eq]
  omega

/-- A slot takes whole words, as many as there are. -/
theorem registerWrite_slot_dropped (h : size.toNat ≠ 8 * (1 + more.length) ∨ off.toNat % 8 ≠ 0) :
    exec (.registerWrite 2 off size (v, more)) s = .next s := by
  refine if_pos ?_
  simp only [Bool.not_eq_true', Bool.and_eq_false_iff, decide_eq_false_iff_not]
  exact h.symm

theorem registerWrite_other_window {bar : BitVec 3} (h0 : bar ≠ 0) (h2 : bar ≠ 2) (h7 : bar ≠ 7) :
    exec (.registerWrite bar off size (v, more)) s = .next s := by
  change execRegisterWrite bar off size (v, more) s = _
  unfold execRegisterWrite
  dsimp only
  split
  · exact absurd (BitVec.eq_of_toNat_eq ‹bar.toNat = 0›) h0
  · exact absurd (BitVec.eq_of_toNat_eq ‹bar.toNat = 2›) h2
  · exact absurd (BitVec.eq_of_toNat_eq ‹bar.toNat = 7›) h7
  · rfl

/-- A word that does not submit a launch record is written. -/
theorem registerWrite_word (h8 : off.toNat % 8 = 0) (h : off.toNat % 4096 ≠ 56) :
    exec (.registerWrite 2 off 8 (v, [])) s = .next (s.writeSlot off.toNat v) := by
  change execRegisterWrite 2 off 8 (v, []) s = _
  simp [execRegisterWrite, h8, h]

/-- Two such words are written in turn. -/
theorem registerWrite_two_words (h8 : off.toNat % 8 = 0) (h : off.toNat % 4096 ≠ 56) (h' : (off.toNat + 8) % 4096 ≠ 56) :
    exec (.registerWrite 2 off 16 (v, [w])) s = .next ((s.writeSlot off.toNat v).writeSlot (off.toNat + 8) w) := by
  change execRegisterWrite 2 off 16 (v, [w]) s = _
  simp [execRegisterWrite, h8, h, h']

end

@[simp] theorem launchSlot_setLaunchSlot_same (s : State) (m : Nat) (x : Slot) : (s.setLaunchSlot m x).launchSlot m = x :=
  tget_tset_same ..

/-- A word of a launch slot before the last takes its value. -/
theorem writeSlot_launch (s : State) {m k : Nat} (hm : m < 1024) (hk : k < 7) (v : Word) :
    s.writeSlot (4096 * m + 8 * k) v = s.setLaunchSlot m ((s.launchSlot m).put k v) := by
  have hmod : (4096 * m + 8 * k) % 4096 / 8 = k := by omega
  have hdiv : (4096 * m + 8 * k) / 4096 = m := by omega
  simp only [State.writeSlot, hmod, hdiv]
  rw [if_neg (by simp; omega), if_neg (by omega), if_pos (by omega)]

/-! ### Register reads (R25, R55, R58) -/

/-- Before Ready BOOTSTAT alone is answered. -/
theorem hostRead_not_ready {s : State} {bar off size : Nat} (hr : s.ready = false) (h : bar ≠ 0 ∨ off ≠ 0) :
    s.hostRead bar off size = none := by
  unfold State.hostRead
  refine if_pos ?_
  rw [hr]
  simp only [Bool.not_false, Bool.true_and, Bool.not_eq_true', Bool.and_eq_false_iff, decide_eq_false_iff_not]
  exact h

/-- An aligned word of a control register reads as the register. -/
theorem hostRead_control {s : State} {off : Nat} (hr : s.ready = true ∨ off = 0) (ho : off < 0x10000) (h8 : off % 8 = 0) :
    s.hostRead 0 off 8 = some (toBytes 8 (s.controlWord off).toNat) := by
  have hready : ¬ (!s.ready && !(decide ((0 : Nat) = 0) && decide (off = 0))) = true := by rcases hr with hr | hr <;> simp [hr]
  have htable : ¬ (decide (0x10000 ≤ off) && decide (off < 0x18000)) = true := by simp; omega
  have hpba : ¬ (decide (0x18000 ≤ off) && decide (off < 0x18100)) = true := by simp; omega
  unfold State.hostRead
  dsimp only
  rw [if_neg hready, if_neg htable, if_neg hpba, if_pos (by simp [h8])]
  rfl

/-- A read of another size or alignment reads as ones where it meets a register, and as zero elsewhere. -/
theorem hostRead_misaligned {s : State} {off size : Nat} (hr : s.ready = true) (ho : off < 0x10000) (h : size ≠ 8 ∨ off % 8 ≠ 0) :
    s.hostRead 0 off size
      = some (List.replicate size (if (List.range size).any fun j => assigned (off + j) then 0xFF else 0)) := by
  have htable : ¬ (decide (0x10000 ≤ off) && decide (off < 0x18000)) = true := by simp; omega
  have hpba : ¬ (decide (0x18000 ≤ off) && decide (off < 0x18100)) = true := by simp; omega
  have hsize : ¬ (decide (size = 8) && decide (off % 8 = 0)) = true := by simp; omega
  unfold State.hostRead
  dsimp only
  rw [if_neg (by simp [hr]), if_neg htable, if_neg hpba, if_neg hsize]
  rfl

/-- LSTAT is word 8 of a launch slot. -/
theorem hostRead_lstat {s : State} {m : Nat} (hr : s.ready = true) (hm : m < 1024) :
    s.hostRead 2 (4096 * m + 64) 8 = some (toBytes 8 (s.launchSlot m).stat.toNat) := by
  have hmod : (4096 * m + 64) % 4096 / 8 = 8 := by omega
  have hdiv : (4096 * m + 64) / 4096 = m := by omega
  have h8 : (4096 * m + 64) % 8 = 0 := by omega
  refine (if_neg (by simp [hr])).trans (congrArg some ((if_pos (by simp [h8])).trans ?_))
  simp only [State.slotRead, hmod, hdiv]
  rw [if_pos (by omega)]
  rfl

theorem controlWord_plstat (s : State) {k : Nat} (hk : k < 18) : s.controlWord (0x100 + 8 * k) = (s.peer k).plstat := by
  have hdiv : (0x100 + 8 * k - 0x100) / 8 = k := by omega
  unfold State.controlWord
  dsimp only
  rw [if_pos (by simp; omega), hdiv]

/-- Settles O47: each register, slot and event of the link is one of the equations above. -/
theorem hostRegisters : Obligations.HostRegisters := by
  intro s v n sl d bar off size w more
  refine ⟨rfl, ⟨_, rfl, rfl, rfl, rfl⟩, ⟨_, rfl, clearTetherstat_links s v⟩, ⟨_, rfl, clearPlstat_peer s n.toNat v⟩,
    ⟨_, rfl, clearSlstat_slice s sl.toNat v⟩, tetherctlWrite_ends s v, fun hn => ?plctl,
    ⟨_, rfl, rfl, rfl, fun k => .inl (hostLinkDown_slots _ k)⟩, ⟨_, rfl, signalAll_up _ _ rfl⟩,
    fun hd hp => ?d3hot, fun hd => ?d0, fun hd => ?d12,
    registerWrite_control_dropped, registerWrite_slot_dropped, registerWrite_other_window, fun k hk m hm ho => ?words,
    ⟨_, rfl, writeMsixControl_spec s v⟩, hostRead_control (.inr rfl) (by decide) rfl, fun hr h => ?notReady, fun hr => ?reads⟩
  case plctl =>
    exact ⟨plctlDisable_down hn, plctlDisable_up hn, fun h => plctlEnable_trains hn (.inl h), fun h => plctlEnable_trains hn (.inr h),
      plctlEnable_idle hn⟩
  case d3hot => exact if_pos (by simp [hd, hp])
  case d0 =>
    subst hd
    rfl
  case d12 =>
    rcases hd with rfl | rfl | ⟨rfl, hp⟩
    · rfl
    · rfl
    · exact (if_neg (by simp [hp])).trans (if_neg (by decide))
  case words =>
    refine ⟨?_, fun hk' => ?_⟩
    · rw [registerWrite_word (by omega) (by omega), ends_next, ho, writeSlot_launch s hm hk, launchSlot_setLaunchSlot_same]
      exact ⟨rfl, rfl, rfl⟩
    · rw [registerWrite_two_words (by omega) (by omega) (by omega), ends_next, ho, writeSlot_launch s hm hk,
        show 4096 * m + 8 * k + 8 = 4096 * m + 8 * (k + 1) by omega, writeSlot_launch _ hm (by omega), launchSlot_setLaunchSlot_same,
        launchSlot_setLaunchSlot_same]
      exact ⟨rfl, rfl, rfl⟩
  case notReady => exact hostRead_not_ready hr (by simpa [← BitVec.toNat_inj] using h)
  case reads =>
    refine ⟨hostRead_control (.inl hr) (by decide) rfl, fun k hk => ?_, fun m hm => hostRead_lstat hr hm, fun ho h => ?_⟩
    · rw [hostRead_control (.inl hr) (by omega) (by omega), controlWord_plstat s hk]
    · rw [hostRead_misaligned hr ho (by simpa [← BitVec.toNat_inj] using h)]
      refine ⟨fun ⟨j, hj, ha⟩ => ?_, fun hnone => ?_⟩
      · rw [if_pos (List.any_eq_true.mpr ⟨j, List.mem_range.mpr hj, ha⟩)]
      · rw [if_neg]
        rw [Bool.not_eq_true, List.any_eq_false]
        exact fun j hj => Bool.eq_false_iff.mp (hnone j (List.mem_range.mp hj))

end Sys2Proof.Laws
end

section
/-!
PROOFS. The CXL and flash ports (02_links.md, R30 to R36).
-/

namespace Sys2Proof.Laws

open Sys2Proof Sys2Proof.Machine Sys2Proof.Safety

/-! ### What reports and messages leave alone -/

/-- The tier ports, the Tether and the cores: a report to the host and a message to another package leave them alone. -/
def fabric (s : State) : Table TierPort × Table TierPort × Word × Bool × Byte × Table Core :=
  (s.links.cxl, s.links.flash, s.tether, s.links.lock, s.links.skew, s.cores)

theorem fabric_congr {s t : State} (hlinks : t.links = s.links) (htether : t.tether = s.tether) (hcores : t.cores = s.cores) :
    fabric t = fabric s := by
  rw [fabric, hlinks, htether, hcores, ← fabric]

theorem tierPort_of_fabric {s t : State} (h : fabric t = fabric s) (p : BitVec 4) : t.tierPort p = s.tierPort p := by
  obtain ⟨hcxl, hrest⟩ := Prod.mk.inj h
  obtain ⟨hflash, -⟩ := Prod.mk.inj hrest
  simp only [State.tierPort, State.cxlPort, State.flashPort, hcxl, hflash]

theorem cores_of_fabric {s t : State} (h : fabric t = fabric s) : t.cores = s.cores := congrArg (fun x => x.2.2.2.2.2) h

theorem tether_of_fabric {s t : State} (h : fabric t = fabric s) :
    t.tether = s.tether ∧ t.links.lock = s.links.lock ∧ t.links.skew = s.links.skew :=
  ⟨congrArg (fun x => x.2.2.1) h, congrArg (fun x => x.2.2.2.1) h, congrArg (fun x => x.2.2.2.2.1) h⟩

theorem sendTo_fabric (s : State) (dst ty : Nat) (pay : Payload) : fabric (s.sendTo dst ty pay) = fabric s := by
  unfold State.sendTo
  split <;> rfl

theorem sendReq_fabric (s : State) (dst : Nat) (q : RemoteReq) : fabric (s.sendReq dst q) = fabric s := by
  unfold State.sendReq
  dsimp only
  split
  · exact sendTo_fabric ..
  · rw [sendTo_fabric]
    exact foldl_keeps fabric _ (fun _ _ => sendTo_fabric ..) _ _

theorem tellDomain_fabric (s : State) (op : RemoteOp) : fabric (s.tellDomain op) = fabric s :=
  foldl_keeps fabric _ (fun _ _ => sendReq_fabric ..) _ _

theorem leafChanged_fabric (s : State) (va n : Nat) : fabric (s.leafChanged va n) = fabric s :=
  (tellDomain_fabric ..).trans (fabric_congr rfl rfl rfl)

theorem entryChanged_fabric (s : State) (h : Word) : fabric (s.entryChanged h) = fabric s :=
  (tellDomain_fabric ..).trans (fabric_congr rfl rfl rfl)

theorem setLeaf_fabric (s : State) (a : Nat) (g : Nat → Nat) : fabric (s.setLeaf a g) = fabric s := fabric_congr rfl rfl rfl

theorem putEntry_fabric (s : State) (i : Nat) (e : Entry) : fabric (s.putEntry i e) = fabric s := fabric_congr rfl rfl rfl

theorem signal_fabric (s : State) (v : Nat) : fabric (s.signal v) = fabric s := by
  obtain ⟨_, _, _, h, _⟩ := signal_eq s v
  rw [h]
  rfl

theorem touchStack_fabric (s : State) (a : Nat) : fabric (s.touchStack a) = fabric s := by
  unfold State.touchStack
  split <;> rfl

theorem cqWrite_fabric (s : State) (n : Nat) (r : Record) : fabric (s.cqWrite n r) = fabric s := by
  unfold State.cqWrite
  split
  · rfl
  · rename_i c _
    have hwrite (m : Memory) (q : CompletionObj) :
        fabric (({ s.touchStack (c.base + 64 * c.tail.toNat) with mem := m } : State).setCq n q) = fabric s :=
      (fabric_congr rfl rfl rfl).trans (touchStack_fabric s (c.base + 64 * c.tail.toNat))
    dsimp only
    split
    · exact (signal_fabric ..).trans (hwrite ..)
    · exact hwrite ..

theorem setErr_fabric (s : State) (k : Nat) (d4 d5 : Word) : fabric (s.setErr k d4 d5) = fabric s := by
  unfold State.setErr
  dsimp only
  split
  · exact signal_fabric ..
  · split
    · exact (signal_fabric ..).trans (cqWrite_fabric ..)
    · exact signal_fabric ..

theorem loseObject_fabric (s : State) (h : Word) : fabric (s.loseObject h) = fabric s := by
  unfold State.loseObject
  dsimp only
  split
  · exact sendReq_fabric ..
  · split
    · rfl
    · rw [setErr_fabric, entryChanged_fabric, putEntry_fabric]

/-- Segments become available or unavailable in their leaves, and TLB entries go. -/
theorem markUnav_fabric (s : State) (p : Word → Bool) (on : Bool) : fabric (s.markUnav p on) = fabric s :=
  foldl_keeps fabric _ (fun _ _ => by rw [leafChanged_fabric, setLeaf_fabric]) _ _

/-- Segments become LOST in their leaves and in the entries of their objects. -/
theorem markLost_fabric (s : State) (p : Word → Bool) : fabric (s.markLost p) = fabric s :=
  foldl_keeps fabric _ (fun _ _ => by rw [loseObject_fabric, leafChanged_fabric, setLeaf_fabric]) _ _

/-- The answer to faults on missing segments reaches the banks alone. -/
theorem answerMissing_links (s : State) (p : Word → Bool) : (s.answerMissing p).links = s.links := by
  refine foldl_keeps State.links _ (fun t c => foldl_keeps State.links _ (fun u b => ?_) _ t) _ s
  dsimp only
  split
  · split
    · rfl
    · split
      · split
        · rfl
        · split
          · rfl
          · split <;> rfl
      · rfl
  · rfl

/-! ### Ports read after an update -/

@[simp] theorem cxlPort_setCxl_same (s : State) (p : Nat) (t : TierPort) : (s.setCxl p t).cxlPort p = t := tget_tset_same ..
@[simp] theorem flashPort_setFlash_same (s : State) (p : Nat) (t : TierPort) : (s.setFlash p t).flashPort p = t := tget_tset_same ..

@[simp] theorem tierPort_setTier_same (s : State) (p : BitVec 4) (t : TierPort) : (s.setTier p t).tierPort p = t := by
  unfold State.tierPort State.setTier
  split
  · exact cxlPort_setCxl_same ..
  · exact flashPort_setFlash_same ..

@[simp] theorem setTier_cores (s : State) (p : BitVec 4) (t : TierPort) : (s.setTier p t).cores = s.cores := by
  unfold State.setTier
  split <;> rfl

@[simp] theorem setTier_mem (s : State) (p : BitVec 4) (t : TierPort) : (s.setTier p t).mem = s.mem := by
  unfold State.setTier
  split <;> rfl

/-- The tier port of a flash port (log entry 84). -/
theorem tierPort_flash (s : State) (q : BitVec 3) : s.tierPort (8 + q.setWidth 4) = s.flashPort q.toNat := by
  have hq := q.isLt
  have hno : (8 + q.setWidth 4 : BitVec 4).toNat = 8 + q.toNat := by
    have h8 : (8 : BitVec 4).toNat = 8 := rfl
    simp only [BitVec.toNat_add, BitVec.toNat_setWidth, h8]
    omega
  rw [State.tierPort, hno, if_neg (by omega), Nat.add_sub_cancel_left]

theorem tierPortOk_iff (p : BitVec 4) : tierPortOk p = true ↔ p.toNat < 4 ∨ 8 ≤ p.toNat := by simp [tierPortOk]

/-! ### Ports that go down and come up (R30, R33, R34, R36) -/

/-- A port that goes down keeps its extents, and its commands wait; the event is reported. -/
theorem tierDown_spec (s : State) (p : BitVec 4) (t : TierPort) (why : BitVec 4) :
    (s.tierDown p t why).tierPort p
        = { t with st := 0, why, downSince := s.now, lost := false, cmds := [], waiting := t.cmds ++ t.waiting }
      ∧ (s.tierDown p t why).host.errstat.getLsbD 2 = true ∧ (s.tierDown p t why).cores = s.cores := by
  have hfabric : fabric (s.tierDown p t why) = fabric (s.setTier p
      { t with st := 0, why, downSince := s.now, lost := false, cmds := [], waiting := t.cmds ++ t.waiting }) :=
    (setErr_fabric ..).trans (markUnav_fabric ..)
  refine ⟨?_, setErr_errstat _ _ _ _ (by decide), ?_⟩
  · rw [tierPort_of_fabric hfabric, tierPort_setTier_same]
  · rw [cores_of_fabric hfabric, setTier_cores]

/-- Commands that the queues have room for leave those that wait. -/
theorem issueNvme_eq (t : TierPort) (now : Nat) : ∃ l rest, t.issueNvme now = { t with cmds := t.cmds ++ l, waiting := rest }
    ∧ (t.waiting = [] → l = []) := by
  unfold TierPort.issueNvme
  split
  · exact ⟨[], t.waiting, by rw [List.append_nil], fun _ => rfl⟩
  · exact ⟨_, _, rfl, fun h => by rw [h, List.take_nil, List.map_nil]⟩

/-- With room for all of them, all commands that wait on a port that is up are issued. -/
theorem issueNvme_cmds {t : TierPort} {now : Nat} (hup : t.st = 2) (hroom : t.cmds.length + t.waiting.length ≤ nvmeDepth) :
    (t.issueNvme now).cmds = t.cmds ++ t.waiting.map fun c => { c with start := now } := by
  unfold TierPort.issueNvme
  rw [if_neg (not_not.mpr hup)]
  dsimp only
  rw [List.take_of_length_le (by omega)]

/-- The limits of R30 and R34. -/
theorem deviceFits_iff (p : BitVec 4) (d : Device) : deviceFits p d = true ↔ if p.toNat < 8 then d.type = 3 ∧ d.switches.toNat ≤ 1
    else d.block = 4096 ∧ d.metadata = 0 ∧ 262144 ≤ d.transfer.toNat := by
  unfold deviceFits
  split
  · simp [cxlFits, BitVec.le_def]
  · simp [nvmeFits, and_assoc]

section
variable {s : State} {p : BitVec 4} {why : BitVec 4} {d : Device}

theorem tierEvents_of_no_port (h : ¬ (p.toNat < 4 ∨ 8 ≤ p.toNat)) : exec (.cxlPortDown p why) s = .next s
    ∧ exec (.cxlPortUp (p, some d)) s = .next s ∧ exec (.cxlPortUp (p, none)) s = .next s ∧ exec (.cxlDownTimeout p) s = .next s := by
  have hno : (!tierPortOk p) = true := by simpa using mt (tierPortOk_iff p).mp h
  exact ⟨if_pos hno, if_pos (by rw [hno]; rfl), if_pos (by rw [hno]; rfl), if_pos (by rw [hno]; rfl)⟩

theorem cxlPortUp_of_up (dev : Option Device) (h : (s.tierPort p).st = 2) : exec (.cxlPortUp (p, dev)) s = .next s :=
  if_pos (by simp [h])

theorem cxlDownTimeout_waits
    (h : (s.tierPort p).st = 2 ∨ (s.tierPort p).lost = true ∨ s.now < (s.tierPort p).downSince + 1000000000) :
    exec (.cxlDownTimeout p) s = .next s :=
  if_pos (by rcases h with h | h | h <;> simp [h])

variable (hp : p.toNat < 4 ∨ 8 ≤ p.toNat)
include hp

theorem cxlPortDown_eq : exec (.cxlPortDown p why) s = .next (s.tierDown p (s.tierPort p) why) :=
  if_neg (by simpa using (tierPortOk_iff p).mpr hp)

variable (hdown : (s.tierPort p).st ≠ 2)
include hdown

theorem cxlPortUp_trains : exec (.cxlPortUp (p, none)) s = .next (s.setTier p { s.tierPort p with st := 1 }) :=
  if_neg (by simpa [(tierPortOk_iff p).mpr hp] using hdown)

/-- A port with a device that fits comes up. -/
theorem cxlPortUp_fit (h : deviceFits p d = true) : Ends (exec (.cxlPortUp (p, some d)) s) (fun t =>
    (t.tierPort p).st = 2 ∧ (t.tierPort p).lost = false ∧ (t.tierPort p).extents = (s.tierPort p).extents) := by
  obtain ⟨l, rest, hissue, -⟩ := issueNvme_eq { s.tierPort p with st := 2, why := 0, lost := false } s.now
  change Ends (execCxlPortUp (p, some d) s) _
  simp only [execCxlPortUp]
  rw [if_neg (by simpa [(tierPortOk_iff p).mpr hp] using hdown), if_neg (by simp [h]), ends_next]
  rw [show ∀ (t : State) g, (t.answerMissing g).tierPort p = t.tierPort p from fun t g => by
    simp only [State.tierPort, State.cxlPort, State.flashPort, answerMissing_links]]
  rw [tierPort_of_fabric (markUnav_fabric ..), tierPort_setTier_same, hissue]
  exact ⟨rfl, rfl, rfl⟩

/-- A port with a device that does not fit is left down. -/
theorem cxlPortUp_unfit (h : ¬ deviceFits p d = true) : Ends (exec (.cxlPortUp (p, some d)) s) (fun t =>
    (t.tierPort p).st = 0 ∧ (t.tierPort p).why = 1 ∧ t.mem = s.mem ∧ (t.tierPort p).extents = (s.tierPort p).extents) := by
  change Ends (execCxlPortUp (p, some d) s) _
  simp only [execCxlPortUp]
  rw [if_neg (by simpa [(tierPortOk_iff p).mpr hp] using hdown), if_pos (by simpa using h), ends_next, tierPort_setTier_same, setTier_mem]
  exact ⟨rfl, rfl, rfl, rfl⟩

/-- After 1 s down the segments behind a port are lost. -/
theorem cxlDownTimeout_loses (hlost : (s.tierPort p).lost = false) (hnow : (s.tierPort p).downSince + 1000000000 ≤ s.now) :
    Ends (exec (.cxlDownTimeout p) s) (fun t => (t.tierPort p).lost = true ∧ (t.tierPort p).st = (s.tierPort p).st) := by
  change Ends (execCxlDownTimeout p s) _
  simp only [execCxlDownTimeout]
  rw [if_neg (by simpa [(tierPortOk_iff p).mpr hp, hlost, hnow] using hdown), ends_next, tierPort_of_fabric (markLost_fabric ..),
    tierPort_setTier_same]
  exact ⟨rfl, rfl⟩

end

/-! ### Extents (R31) -/

section
variable {s : State} {z : BitVec 2} {base len : U32} {ways way : BitVec 3}

theorem cxlExtentAdd_registers (hshape : (ways = 1 ∨ ways = 2 ∨ ways = 4) ∧ way.toNat < ways.toNat)
    (hroom : (s.cxlPort z.toNat).extents.length < 8) :
    exec (.cxlExtentAdd z base (len, ways, way)) s = .next (s.setCxl z.toNat { s.cxlPort z.toNat with
      extents := (s.cxlPort z.toNat).extents ++ [{ base := base.toNat, len := len.toNat, ways := ways.toNat, way := way.toNat }] }) :=
  if_neg (by
    rw [Bool.or_eq_true, decide_eq_true_eq, Bool.not_eq_true', not_or, Bool.not_eq_false]
    exact ⟨by simpa [or_assoc] using hshape, by omega⟩)

theorem cxlExtentAdd_refuses (h : ¬ ((ways = 1 ∨ ways = 2 ∨ ways = 4) ∧ way.toNat < ways.toNat)
    ∨ 8 ≤ (s.cxlPort z.toNat).extents.length) : exec (.cxlExtentAdd z base (len, ways, way)) s = .next s :=
  if_pos (by
    rw [Bool.or_eq_true, decide_eq_true_eq, Bool.not_eq_true']
    exact h.imp_left fun hshape => by simpa [or_assoc] using hshape)

theorem cxlExtentRelease_unknown (h : ∀ e ∈ (s.cxlPort z.toNat).extents, e.base ≠ base.toNat) :
    exec (.cxlExtentRelease z base) s = .next s :=
  if_pos (by simpa [List.filter_eq_nil_iff] using h)

/-- An extent is released when no segment lies on it and none is on its way there. -/
theorem cxlExtentRelease_releases (h : ∃ e ∈ (s.cxlPort z.toNat).extents, e.base = base.toNat) (hheld : s.heldObjects = [])
    (hmoves : s.objs.migrations = []) : exec (.cxlExtentRelease z base) s = .next (s.setCxl z.toNat { s.cxlPort z.toNat with
      extents := (s.cxlPort z.toNat).extents.filter (fun e => e.base ≠ base.toNat)
      releasing := (s.cxlPort z.toNat).releasing.filter (· ≠ base.toNat) }) := by
  change execCxlExtentRelease z base s = _
  simp only [execCxlExtentRelease]
  rw [if_neg (by simpa [List.filter_eq_nil_iff] using h), if_neg (by simp [State.segmentsWhere, hheld, hmoves])]

end

/-! ### NVMe commands (R34, R36) -/

/-- The controller of a drive is reset: every command that was outstanding waits to be issued again (log entry 84). -/
def nvmeReset (t : TierPort) (now : Nat) : TierPort := { t with lastTimeout := some now, cmds := [], waiting := t.cmds ++ t.waiting }

/-- An event for the system cores leaves the links alone. -/
theorem wake_links (s : State) (k : Nat) : (s.wake k).links = s.links :=
  foldl_keeps State.links _ (fun t n => State.setSys_links t n _) _ _

theorem flashPort_wake (s : State) (k q : Nat) : (s.wake k).flashPort q = s.flashPort q := by
  rw [State.flashPort, wake_links, ← State.flashPort]

section
variable {s : State} {q : BitVec 3} {cid : U16}

theorem nvmeEvents_unknown (h : ∀ m ∈ (s.flashPort q.toNat).cmds, m.cid ≠ cid.toNat) :
    exec (.nvmeCompletion q cid) s = .next s ∧ exec (.nvmeTimeout q cid) s = .next s := by
  refine ⟨if_neg (by simpa using h), ?_⟩
  have hnone : (s.flashPort q.toNat).cmds.find? (fun c => c.cid == cid.toNat) = none := by simpa [List.find?_eq_none] using h
  change execNvmeTimeout q cid s = _
  simp only [execNvmeTimeout, hnone]

/-- A command that completes is over. -/
theorem nvmeCompletion_ends (h : ∃ m ∈ (s.flashPort q.toNat).cmds, m.cid = cid.toNat) : Ends (exec (.nvmeCompletion q cid) s) (fun t =>
    (t.flashPort q.toNat).st = (s.flashPort q.toNat).st ∧ ∃ l, (t.flashPort q.toNat).cmds
      = (s.flashPort q.toNat).cmds.filter (fun m => m.cid ≠ cid.toNat) ++ l ∧ ((s.flashPort q.toNat).waiting = [] → l = [])) := by
  obtain ⟨l, rest, hissue, hl⟩ := issueNvme_eq
    { s.flashPort q.toNat with cmds := (s.flashPort q.toNat).cmds.filter fun c => c.cid ≠ cid.toNat } s.now
  change Ends (execNvmeCompletion q cid s) _
  simp only [execNvmeCompletion]
  rw [if_pos (by simpa using h), ends_next, flashPort_wake, flashPort_setFlash_same, hissue]
  exact ⟨rfl, l, rfl, hl⟩

variable {m : NvmeCmd} (hm : (s.flashPort q.toNat).cmds.find? (fun m => m.cid == cid.toNat) = some m)
include hm

theorem nvmeTimeout_waits (h : s.now < m.start + 8000000000) : exec (.nvmeTimeout q cid) s = .next s := by
  change execNvmeTimeout q cid s = _
  simp only [execNvmeTimeout, hm]
  exact if_pos h

variable (h : m.start + 8000000000 ≤ s.now)
include h

/-- The first command of 8 s resets the controller: what was outstanding is issued again. -/
theorem nvmeTimeout_resets (hlast : (s.flashPort q.toNat).lastTimeout = none) : exec (.nvmeTimeout q cid) s
    = .next (s.setFlash q.toNat ((nvmeReset (s.flashPort q.toNat) s.now).issueNvme s.now)) := by
  change execNvmeTimeout q cid s = _
  simp only [execNvmeTimeout, hm, hlast]
  rw [if_neg (by omega)]
  rfl

theorem nvmeTimeout_resets_port (hlast : (s.flashPort q.toNat).lastTimeout = none) : Ends (exec (.nvmeTimeout q cid) s) (fun t =>
    (t.flashPort q.toNat).st = (s.flashPort q.toNat).st ∧ (t.flashPort q.toNat).lastTimeout = some s.now ∧ t.mem = s.mem
      ∧ ((s.flashPort q.toNat).st = 2 → (s.flashPort q.toNat).cmds.length + (s.flashPort q.toNat).waiting.length ≤ 32768 →
        (t.flashPort q.toNat).cmds
          = ((s.flashPort q.toNat).cmds ++ (s.flashPort q.toNat).waiting).map fun m => { m with start := s.now })) := by
  rw [nvmeTimeout_resets hm h hlast, ends_next, flashPort_setFlash_same]
  obtain ⟨l, rest, hissue, -⟩ := issueNvme_eq (nvmeReset (s.flashPort q.toNat) s.now) s.now
  refine ⟨by rw [hissue]; rfl, by rw [hissue]; rfl, rfl, fun hup hroom => ?_⟩
  exact issueNvme_cmds (t := nvmeReset (s.flashPort q.toNat) s.now) hup (by simpa [nvmeReset, nvmeDepth] using hroom)

/-- A second command of 8 s within 60 s takes the port down. -/
theorem nvmeTimeout_takes_down {l : Nat} (hlast : (s.flashPort q.toNat).lastTimeout = some l) (hl : s.now ≤ l + 60000000000) :
    exec (.nvmeTimeout q cid) s
      = .next (s.tierDown (8 + q.setWidth 4) { s.flashPort q.toNat with lastTimeout := some s.now } 3) := by
  change execNvmeTimeout q cid s = _
  simp only [execNvmeTimeout, hm, hlast]
  rw [if_neg (by omega), if_pos (by simpa using hl)]

end

end Sys2Proof.Laws
end

section
/-!
PROOFS. The peer ports and the Tether (02_links.md, R37 to R48).
-/

namespace Sys2Proof.Laws

open Sys2Proof Sys2Proof.Machine Sys2Proof.Safety

/-! ### Headers of flits (R38, Table 2-3) -/

theorem flitHdr_toNat (ty dst src vc seq ack : Nat) : (flitHdr ty dst src vc seq ack).toNat
    = ty % 16 * 2 ^ 60 + dst % 1024 * 2 ^ 50 + src % 1024 * 2 ^ 40 + vc % 4 * 2 ^ 38 + seq % 1024 * 2 ^ 28 + ack % 1024 * 2 ^ 18 := by
  rw [flitHdr, BitVec.toNat_ofNat]
  omega

theorem hdrType_flitHdr (ty dst src vc seq ack : Nat) : hdrType (flitHdr ty dst src vc seq ack) = ty % 16 := by
  rw [hdrType, flitHdr_toNat, bits]
  omega

theorem hdrVc_flitHdr (ty dst src vc seq ack : Nat) : hdrVc (flitHdr ty dst src vc seq ack) = vc % 4 := by
  rw [hdrVc, flitHdr_toNat, bits]
  omega

theorem relink_toNat (h : Word) (seq ack : BitVec 10) : (relink h seq ack).toNat
    = h.toNat % 2 ^ 18 + ack.toNat * 2 ^ 18 + seq.toNat * 2 ^ 28 + h.toNat / 2 ^ 38 * 2 ^ 38 := by
  have hh := h.isLt
  have hs := seq.isLt
  have ha := ack.isLt
  rw [relink, BitVec.toNat_ofNat, putBits, putBits]
  omega

/-- A transmission leaves the type of its flit alone. -/
theorem hdrType_relink (h : Word) (seq ack : BitVec 10) : hdrType (relink h seq ack) = hdrType h := by
  have hh := h.isLt
  have hs := seq.isLt
  have ha := ack.isLt
  rw [hdrType, hdrType, relink_toNat, bits, bits]
  omega

theorem hdrAck_relink (h : Word) (seq ack : BitVec 10) : hdrAck (relink h seq ack) = ack := by
  have hs := seq.isLt
  have ha := ack.isLt
  apply BitVec.eq_of_toNat_eq
  rw [hdrAck, relink_toNat, bits, BitVec.toNat_ofNat]
  omega

/-! ### Flits that leave (R40) -/

/-- What sending changes of a port: its sequence, its replay buffer, what waits, its credits and the record of what was sent. -/
def withSending (x y : PeerPort) : PeerPort :=
  { x with txSeq := y.txSeq, replay := y.replay, txq := y.txq, credits := y.credits, sent := y.sent }

theorem flush_eq (l : List Flit) (x : PeerPort) : PeerPort.flush l x = withSending x (PeerPort.flush l x) := by
  induction l generalizing x with
  | nil => rfl
  | cons f l ih =>
    rw [PeerPort.flush]
    split
    · exact ih (x.transmit (hdrVc f.hdr) f)
    · exact ih { x with txq := x.txq ++ [f] }

theorem peer_setPeer_other (s : State) {n m : Nat} (x : PeerPort) (h : m ≠ n) : (s.setPeer n x).peer m = s.peer m :=
  tget_tset_other _ _ _ _ _ h

theorem peer_sendFlit_other (s : State) {port n : Nat} (ty dst : Nat) (pay : Payload) (h : n ≠ port) :
    (s.sendFlit port ty dst pay).peer n = s.peer n := peer_setPeer_other s _ h

theorem peer_sendFlit_same (s : State) (port ty dst : Nat) (pay : Payload) :
    (s.sendFlit port ty dst pay).peer port = withSending (s.peer port) ((s.sendFlit port ty dst pay).peer port) := by
  rw [State.sendFlit, State.peer_setPeer_same]
  exact flush_eq _ (s.peer port)

/-- With a credit of its VC, room in the replay buffer and nothing before it, a flit leaves at once. -/
theorem sendFlit_transmits {s : State} {port ty vc : Nat} (dst : Nat) (pay : Payload) (hvc : vcOf ty = some vc) (hlt : vc < 4)
    (hq : (s.peer port).txq = []) (hreplay : (s.peer port).replay.length < 512) (hcredit : 0 < (s.peer port).credits.toList.getD vc 0) :
    (s.sendFlit port ty dst pay).peer port = (s.peer port).transmit vc { hdr := flitHdr ty dst s.pkgNo vc 0 0, pay } := by
  have hv : hdrVc (flitHdr ty dst s.pkgNo vc 0 0) = vc := by rw [hdrVc_flitHdr, Nat.mod_eq_of_lt hlt]
  rw [State.sendFlit, State.peer_setPeer_same, hvc, Option.getD_some, PeerPort.flush, hv, if_pos, PeerPort.flush]
  rw [PeerPort.canSend, hv, hq, decide_eq_true hcredit, decide_eq_true hreplay]
  rfl

/-! ### Flits that arrive (R39, R40) -/

/-- What no port shows is left alone by the receipt of a flit whose effect leaves it alone. -/
theorem receive_keeps {α : Type} (part : State → α) (hpart : ∀ t n x, part (t.setPeer n x) = part t) (s : State) (port ty : Nat)
    (h : Word) (crc : Bool) {g : State → State} (hg : ∀ t, part (g t) = part t) : part (s.receive port ty h crc g) = part s := by
  have hsend (t : State) (n ty dst : Nat) (pay : Payload) : part (t.sendFlit n ty dst pay) = part t := hpart ..
  unfold State.receive
  dsimp only
  split
  · rfl
  · split
    · rw [hsend, hpart]
    · split
      · split
        · rw [hsend, hpart]
        · rw [hpart]
      · split <;> split <;> simp only [hg, hsend, hpart]

theorem afterFlit_keeps {α : Type} (part : State → α) (hpart : ∀ t n x, part (t.setPeer n x) = part t) (s : State) (p : BitVec 5)
    (ty : Nat) (h : Word) : part (afterFlit s p ty h) = part s :=
  receive_keeps part hpart s p.toNat ty h true fun _ => rfl

/-- A port that is not up takes no flit. -/
theorem receive_down {s : State} {port ty : Nat} {h : Word} {crc : Bool} {g : State → State} (hdown : 18 ≤ port ∨ (s.peer port).st ≠ 2) :
    s.receive port ty h crc g = s := if_pos hdown

/-- A flit with a bad CRC is dropped, and answered with a NAK. -/
theorem receive_bad {s : State} {port : Nat} (ty : Nat) (h : Word) (g : State → State) (hport : port < 18) (hup : (s.peer port).st = 2) :
    s.receive port ty h false g = (s.setPeer port { s.peer port with
        lastRx := s.now, crcerr := if (s.peer port).crcerr = 0xFF then 0xFF else (s.peer port).crcerr + 1 }).sendFlit
      port 10 (s.peer port).nbr.toNat (.nak (s.peer port).rxSeq) := by
  unfold State.receive
  dsimp only
  rw [if_neg (not_or.mpr ⟨Nat.not_le.mpr hport, not_not.mpr hup⟩), Bool.not_false, Bool.true_or, if_pos rfl]

/-- The sequence of a port goes on by a flit that has arrived in order. -/
def countFlit (s : State) (x : PeerPort) : PeerPort := { x with lastRx := s.now, rxSeq := x.rxSeq + 1 }

/-- A flit with a bad CRC is counted, and has no effect. -/
theorem badFlit_counted {s : State} {port : Nat} (ty : Nat) (h : Word) (g : State → State) (hport : port < 18) (hup : (s.peer port).st = 2) :
    Ends (.next (s.receive port ty h false g)) (fun t =>
      (t.peer port).crcerr = (if (s.peer port).crcerr = 0xFF then 0xFF else (s.peer port).crcerr + 1)
        ∧ (t.peer port).rxSeq = (s.peer port).rxSeq ∧ t.objs = s.objs ∧ t.mem = s.mem ∧ t.tether = s.tether) := by
  rw [receive_bad ty h g hport hup, ends_next, peer_sendFlit_same, State.peer_setPeer_same]
  exact ⟨rfl, rfl, rfl, rfl, rfl⟩

/-- The port on which a flit has arrived in order: what the flit acknowledges is not kept. -/
def arrivedPort (s : State) (x : PeerPort) (h : Word) : PeerPort := ((countFlit s x).acked (hdrAck h)).drainTx

theorem arrivedPort_eq (s : State) (x : PeerPort) (h : Word) :
    arrivedPort s x h = withSending (countFlit s x) (arrivedPort s x h) :=
  flush_eq ((countFlit s x).acked (hdrAck h)).txq { (countFlit s x).acked (hdrAck h) with txq := [] }

/-- Receipt returns a credit for a flit that took one. -/
def received (s : State) (n ty : Nat) (h : Word) (x : PeerPort) : State :=
  if ty = 10 then s.setPeer n x else (s.setPeer n x).sendFlit n 10 x.nbr.toNat (.credit (BitVec.ofNat 2 (hdrVc h)) 1)

section
variable {s : State} {p : BitVec 5} {ty : Nat} {h : Word} (ha : Arrives s p ty h)
include ha

theorem receive_eq (g : State → State) :
    s.receive p.toNat ty h true g = g (received s p.toNat ty h (arrivedPort s (s.peer p.toNat) h)) := by
  obtain ⟨hport, hup, hok, hseq, hdst⟩ := ha
  have hmine : ¬ ((decide (ty < 8) || decide (ty = 9)) && decide (ty ≠ 0) && decide (hdrDst h ≠ s.pkgNo)) = true := by
    simpa using hdst
  unfold State.receive
  dsimp only
  rw [if_neg (not_or.mpr ⟨Nat.not_le.mpr hport, not_not.mpr hup⟩), if_neg (by simp [hok]), if_neg (not_not.mpr hseq), if_neg hmine]
  rfl

theorem afterFlit_eq : afterFlit s p ty h = received s p.toNat ty h (arrivedPort s (s.peer p.toNat) h) := receive_eq ha id

/-- A flit that arrives in order has its effect on the state after its receipt. -/
theorem receive_arrives (g : State → State) : s.receive p.toNat ty h true g = g (afterFlit s p ty h) := by
  rw [afterFlit_eq ha, receive_eq ha]

theorem afterFlit_peer : (afterFlit s p ty h).peer p.toNat
    = withSending (countFlit s (s.peer p.toNat)) ((afterFlit s p ty h).peer p.toNat) := by
  have harrived := arrivedPort_eq s (s.peer p.toNat) h
  rw [afterFlit_eq ha, received]
  split
  · rw [State.peer_setPeer_same]
    exact harrived
  · rw [peer_sendFlit_same, State.peer_setPeer_same, harrived]
    rfl

end

section
variable (p : BitVec 5) (h : Word) (q : RemoteReq) (qo : Option RemoteReq) (tag : U32) (more : Bool) (data : List Byte) (st : Byte)
  (old : Word) (rtt : U16) (seq : BitVec 10)

/-- The arrival of a flit by its type (Table 2-4), with what it may carry; crc says that its CRC is right. -/
noncomputable def arrivalOf (ty : Nat) (crc : Bool) : Instr :=
  match ty with
  | 0 => .idle p (some h) crc
  | 1 => .rdreq p h crc q
  | 2 => .rdrsp p h crc (tag, more) data
  | 3 => .wrreq p h crc q
  | 4 => .wrack p h crc tag
  | 5 => .atreq p h crc q
  | 6 => .atrsp p h crc tag st old
  | 7 => .xfer p h crc (qo, data)
  | 8 => .tsync p h crc old rtt
  | _ => .lctlNak p h crc seq

/-- Every flit is received by its port, whatever its effect. -/
theorem arrivalOf_receives (s : State) (ty : Nat) (crc : Bool) :
    ∃ k g, exec (arrivalOf p h q qo tag more data st old rtt seq ty crc) s = .next (s.receive p.toNat k h crc g) := by
  match ty with
  | 7 =>
    cases qo with
    | none => exact ⟨_, _, rfl⟩
    | some q => exact ⟨_, _, rfl⟩
  | 0 | 1 | 2 | 3 | 4 | 5 | 6 | 8 => exact ⟨_, _, rfl⟩
  | _ + 9 => exact ⟨_, _, rfl⟩

end

/-! ### IDLE flits, NAKs and credits (R40) -/

section
variable {s : State} {p : BitVec 5} {h : Word} {crc : Bool}

theorem idle_arrives (ha : Arrives s p 0 h) : Ends (exec (.idle p (some h) true) s) (fun t =>
    (t.peer p.toNat).rxSeq = (s.peer p.toNat).rxSeq + 1 ∧ (t.peer p.toNat).lastRx = s.now ∧ t.mem = s.mem) := by
  change Ends (.next (afterFlit s p 0 h)) _
  rw [ends_next, afterFlit_peer ha]
  exact ⟨rfl, rfl, afterFlit_keeps State.mem (fun _ _ _ => rfl) ..⟩

theorem idle_waits (hbusy : 18 ≤ p.toNat ∨ (s.peer p.toNat).st ≠ 2 ∨ (s.peer p.toNat).txq ≠ []) :
    exec (.idle p none crc) s = .next s :=
  if_pos (by simpa [or_assoc] using hbusy)

/-- A port with nothing else to send sends an IDLE flit, which acknowledges. -/
theorem idle_sends (hp : p.toNat < 18) (hup : (s.peer p.toNat).st = 2) (hq : (s.peer p.toNat).txq = [])
    (hcredit : 0 < (s.peer p.toNat).credits.toList.getD 3 0) (hreplay : (s.peer p.toNat).replay.length < 512) :
    Ends (exec (.idle p none crc) s) (fun t => ∃ g, (t.peer p.toNat).sent = g :: (s.peer p.toNat).sent ∧ hdrType g.hdr = 0
      ∧ hdrAck g.hdr = (s.peer p.toNat).rxSeq - 1) := by
  refine ⟨_, if_neg (by simp [hp, hup, hq]), ?_⟩
  dsimp only
  rw [sendFlit_transmits (vc := 3) _ _ rfl (by decide) hq hreplay hcredit]
  exact ⟨_, rfl, by rw [hdrType_relink, hdrType_flitHdr], hdrAck_relink ..⟩

/-- A NAK sends again what is held from its SEQ on. -/
theorem lctlNak_sends_again {seq : BitVec 10} (ha : Arrives s p 10 h) : Ends (exec (.lctlNak p h true seq) s) (fun t =>
    (t.peer p.toNat).sent = (((afterFlit s p 10 h).peer p.toNat).replay.filter fun f => (hdrSeq f.hdr - seq).toNat < 512).reverse
      ++ ((afterFlit s p 10 h).peer p.toNat).sent) := by
  change Ends (execLctlNak p h true seq s) _
  rw [execLctlNak, receive_arrives ha, ends_next, State.peer_setPeer_same]

/-- A credit return adds to the credits of its VC. -/
theorem lctlCredit_adds {vc : BitVec 2} {n : BitVec 9} (ha : Arrives s p 10 h) (hq : (s.peer p.toNat).txq = []) :
    Ends (exec (.lctlCredit p h true vc n) s) (fun t => (t.peer p.toNat).credits.toList.getD vc.toNat 0
      = min 256 ((s.peer p.toNat).credits.toList.getD vc.toNat 0 + n.toNat)) := by
  have hport : (afterFlit s p 10 h).peer p.toNat = { (countFlit s (s.peer p.toNat)).acked (hdrAck h) with txq := [] } := by
    rw [afterFlit_eq ha, received, if_pos rfl, State.peer_setPeer_same, arrivedPort, PeerPort.drainTx]
    rw [show ((countFlit s (s.peer p.toNat)).acked (hdrAck h)).txq = [] from hq]
    rfl
  have hvc := vc.isLt
  change Ends (execLctlCredit p h true vc n s) _
  rw [execLctlCredit, receive_arrives ha, ends_next, State.peer_setPeer_same, hport]
  simp [PeerPort.drainTx, PeerPort.flush, PeerPort.acked, countFlit, hvc]

end

/-! ### Requests and responses (R44) -/

/-- The request that is dropped is no longer outstanding. -/
theorem not_mem_dropReq (t : State) (r : Req) : ∀ q ∈ (t.dropReq r).objs.reqs, q.id ≠ r.id := by
  have hreqs : (t.dropReq r).objs.reqs = t.objs.reqs.filter fun q => q.id ≠ r.id := by
    unfold State.dropReq
    dsimp only
    split <;> rfl
  intro q hq
  rw [hreqs, List.mem_filter] at hq
  simpa using hq.2

/-- The copies of a handover of a run have had an answer (R119). -/
def noteCopied (t : State) (run now : Nat) : State :=
  { t with objs := { t.objs with migrations := t.objs.migrations.map fun m => if moveRun m.id = run then { m with since := now } else m } }

theorem since_noteCopied (t : State) (run now : Nat) :
    ∀ m ∈ (noteCopied t run now).objs.migrations, moveRun m.id = run → m.since = now := by
  intro m hm hrun
  obtain ⟨x, -, rfl⟩ := List.mem_map.mp hm
  split at hrun
  · rw [if_pos ‹_›]
  · exact absurd hrun ‹_›

section
variable {s : State} {p : BitVec 5} {h : Word}

/-- A request is served at its home. -/
theorem requestFlit_serves {ty : Nat} {q : RemoteReq} (ha : Arrives s p ty h) (hq : flitTypeOf q = ty) :
    (.next (s.requestFlit p ty h true q) : Host.Outcome State Fault Refusal) = .next ((afterFlit s p ty h).serveRemote (hdrSrc h) q) := by
  rw [State.requestFlit, receive_arrives ha, if_pos hq]

variable {tag : U32} {r : Req} (hr : s.remoteReq? tag = some r)
include hr

theorem remoteReq?_afterFlit (ty : Nat) : (afterFlit s p ty h).remoteReq? tag = some r :=
  (afterFlit_keeps (fun t => t.remoteReq? tag) (fun _ _ _ => rfl) s p ty h).trans hr

theorem rdrsp_completes {data : List Byte} (ha : Arrives s p 2 h) : exec (.rdrsp p h true (tag, false) data) s
    = .next ((afterFlit s p 2 h).readResponse r (r.got ++ data)) := by
  change execRdrsp p h true (tag, false) data s = _
  simp only [execRdrsp, receive_arrives ha, remoteReq?_afterFlit hr]
  rfl

/-- A part of an answer is kept with its request (R37). -/
theorem rdrsp_keeps_part {data : List Byte} (ha : Arrives s p 2 h) : Ends (exec (.rdrsp p h true (tag, true) data) s) (fun t =>
    t.mem = s.mem ∧ t.objs.reqs = s.objs.reqs.map fun q => if q.id = r.id then { q with got := q.got ++ data } else q) := by
  change Ends (execRdrsp p h true (tag, true) data s) _
  simp only [execRdrsp, receive_arrives ha, remoteReq?_afterFlit hr]
  rw [if_pos trivial, ends_next, afterFlit_keeps State.mem (fun _ _ _ => rfl), afterFlit_keeps State.objs (fun _ _ _ => rfl)]
  exact ⟨rfl, rfl⟩

/-- A store is over with its answer, and the copy of a handover notes it. -/
theorem wrack_stored (ha : Arrives s p 4 h) (hk : (∃ bs, r.kind = .wstore bs) ∨ ∃ bs, r.kind = .rawLine bs) :
    Ends (exec (.wrack p h true tag) s) (fun t =>
      (∀ q ∈ t.objs.reqs, q.id ≠ r.id) ∧ ∀ m ∈ t.objs.migrations, moveRun m.id = r.run → m.since = s.now) := by
  refine ⟨noteCopied (((afterFlit s p 4 h).farWritten r).dropReq r) r.run s.now, ?_, not_mem_dropReq _ r, since_noteCopied _ _ _⟩
  have hnow : (afterFlit s p 4 h).now = s.now := afterFlit_keeps State.now (fun _ _ _ => rfl) ..
  change execWrack p h true tag s = _
  rw [execWrack, receive_arrives ha, ← hnow]
  rcases hk with ⟨bs, hk⟩ | ⟨bs, hk⟩ <;> simp only [remoteReq?_afterFlit hr, hk, noteCopied]

theorem wrack_command {a : Nat} {op : RemoteOp} (ha : Arrives s p 4 h) (hk : r.kind = .command a op) :
    exec (.wrack p h true tag) s = .next ((afterFlit s p 4 h).dropReq r) := by
  change execWrack p h true tag s = _
  rw [execWrack, receive_arrives ha]
  simp only [remoteReq?_afterFlit hr, hk]

theorem atrsp_completes {st : Byte} {old : Word} (ha : Arrives s p 6 h) :
    exec (.atrsp p h true tag st old) s = .next ((afterFlit s p 6 h).atomicResponse r st old) := by
  change execAtrsp p h true tag st old s = _
  rw [execAtrsp, receive_arrives ha]
  simp only [remoteReq?_afterFlit hr]

end

/-- A block waits for its collective in the buffer of its port (R53). -/
theorem xfer_buffers {s : State} {p : BitVec 5} {h : Word} {data : List Byte} (ha : Arrives s p 7 h)
    (hroom : (s.peer p.toNat).collective.length < 512) : Ends (exec (.xfer p h true (none, data)) s) (fun t =>
      (t.peer p.toNat).collective = (s.peer p.toNat).collective ++ [(BitVec.ofNat 10 (hdrSrc h), s.tether.toNat, data)]) := by
  have hcollective : ((afterFlit s p 7 h).peer p.toNat).collective = (s.peer p.toNat).collective := by
    rw [afterFlit_peer ha]
    rfl
  have htether : (afterFlit s p 7 h).tether = s.tether := afterFlit_keeps State.tether (fun _ _ _ => rfl) ..
  change Ends (.next (s.receive p.toNat 7 h true fun s => s.blockFlit p h data)) _
  rw [receive_arrives ha, ends_next, State.blockFlit, hcollective, if_pos hroom, State.peer_setPeer_same, htether]

/-! ### The Tether (R46 to R48) -/

section
variable {s : State} {p : BitVec 5} {h old : Word} {rtt : U16}

/-- The master answers a TSYNC flit with its count. -/
theorem tsync_of_master (ha : Arrives s p 8 h) (hm : s.isMaster = true) : exec (.tsync p h true old rtt) s
    = .next ((afterFlit s p 8 h).sendFlit p.toNat 8 (hdrSrc h) (.tsync s.tether)) := by
  have hmaster : (afterFlit s p 8 h).isMaster = true := (afterFlit_keeps State.isMaster (fun _ _ _ => rfl) ..).trans hm
  have htether : (afterFlit s p 8 h).tether = s.tether := afterFlit_keeps State.tether (fun _ _ _ => rfl) ..
  change execTsync p h true old rtt s = _
  rw [execTsync, receive_arrives ha, if_pos hmaster, htether]

/-- LOCK falls, and the count and SKEW stay. -/
theorem loseLock_spec (s : State) : s.loseLock.tether = s.tether ∧ s.loseLock.links.lock = false ∧ s.loseLock.links.skew = s.links.skew := by
  unfold State.loseLock
  split
  · exact tether_of_fabric (setErr_fabric ..)
  · rename_i hlock
    exact ⟨rfl, by simpa using hlock, rfl⟩

/-- How far an estimate of the master's count lies from the count. -/
def skewOf (est count : Word) : Nat := min (est - count).toNat (count - est).toNat

/-- The master's time corrects TETHERCNT, and locks it where it was at most 4 ns off. -/
theorem tsync_corrects (ha : Arrives s p 8 h) (hm : s.isMaster = false) (hen : s.links.tetherEn = true)
    (hsrc : hdrSrc h = s.links.master.toNat) : Ends (exec (.tsync p h true old rtt) s) (fun t =>
      t.tether = old + BitVec.ofNat 64 (rtt.toNat / 2)
        ∧ t.links.lock = decide (skewOf (old + BitVec.ofNat 64 (rtt.toNat / 2)) s.tether ≤ 4)
        ∧ t.links.skew = BitVec.ofNat 8 (min 255 (skewOf (old + BitVec.ofNat 64 (rtt.toNat / 2)) s.tether))) := by
  have hmaster : (afterFlit s p 8 h).isMaster = false := (afterFlit_keeps State.isMaster (fun _ _ _ => rfl) ..).trans hm
  have htether : (afterFlit s p 8 h).tether = s.tether := afterFlit_keeps State.tether (fun _ _ _ => rfl) ..
  have hen' : (afterFlit s p 8 h).links.tetherEn = true := (afterFlit_keeps (fun t => t.links.tetherEn) (fun _ _ _ => rfl) ..).trans hen
  have hsrc' : hdrSrc h = (afterFlit s p 8 h).links.master.toNat :=
    hsrc.trans (congrArg BitVec.toNat (afterFlit_keeps (fun t => t.links.master) (fun _ _ _ => rfl) s p 8 h).symm)
  change Ends (execTsync p h true old rtt s) _
  rw [execTsync, receive_arrives ha, hmaster, if_neg (by decide), if_neg (by simp [hen', hsrc']), htether, ends_next]
  dsimp only
  rw [← skewOf]
  split
  · rename_i hnear
    exact ⟨rfl, (decide_eq_true hnear).symm, rfl⟩
  · rename_i hfar
    rw [decide_eq_false hfar]
    exact loseLock_spec _

theorem tsyncTimer_waits (hw : s.links.tetherEn = false ∨ s.now < s.links.lastTsync + 1000) : exec .tsyncTimer s = .next s :=
  if_pos (by simpa using hw)

end

/-- A TSYNC flit leaves on a port that is up. -/
def tsyncPort (s : State) (n : Nat) : State :=
  if (s.peer n).st = 2 then s.sendFlit n 8 (if s.isMaster then (s.peer n).nbr.toNat else s.links.master.toNat) (.tsync s.tether) else s

/-- The ports do not hold what part shows: sending the TSYNC flits leaves it alone. -/
theorem tsyncPort_keeps {α : Type} (part : State → α) (hpart : ∀ t n x, part (t.setPeer n x) = part t) (s : State) (n : Nat) :
    part (tsyncPort s n) = part s := by
  unfold tsyncPort
  split
  · exact hpart ..
  · rfl

theorem peer_tsyncPort_other (s : State) {n m : Nat} (h : m ≠ n) : (tsyncPort s n).peer m = s.peer m := by
  unfold tsyncPort
  split
  · exact peer_sendFlit_other s _ _ _ h
  · rfl

theorem peer_foldl_tsyncPort_other {l : List Nat} {n : Nat} (hn : n ∉ l) (s : State) : (l.foldl tsyncPort s).peer n = s.peer n := by
  induction l generalizing s with
  | nil => rfl
  | cons m l ih =>
    obtain ⟨hne, hl⟩ := not_or.mp (mt List.mem_cons.mpr hn)
    exact (ih hl (tsyncPort s m)).trans (peer_tsyncPort_other s hne)

/-- A port that is up, free and in credit sends the count at once. -/
theorem tsyncPort_sends {s : State} {n : Nat} (hup : (s.peer n).st = 2) (hq : (s.peer n).txq = []) (hreplay : (s.peer n).replay.length < 512)
    (hcredit : 0 < (s.peer n).credits.toList.getD 3 0) :
    ∃ g, ((tsyncPort s n).peer n).sent = g :: (s.peer n).sent ∧ g.pay = .tsync s.tether := by
  rw [tsyncPort, if_pos hup, sendFlit_transmits (vc := 3) _ _ rfl (by decide) hq hreplay hcredit]
  exact ⟨_, rfl, rfl⟩

theorem foldl_tsyncPort_sends {l : List Nat} (hl : l.Nodup) {s : State} {n : Nat} (hn : n ∈ l) (hup : (s.peer n).st = 2)
    (hq : (s.peer n).txq = []) (hreplay : (s.peer n).replay.length < 512) (hcredit : 0 < (s.peer n).credits.toList.getD 3 0) :
    ∃ g, ((l.foldl tsyncPort s).peer n).sent = g :: (s.peer n).sent ∧ g.pay = .tsync s.tether := by
  induction l generalizing s with
  | nil => cases hn
  | cons m l ih =>
    obtain ⟨hm, hl⟩ := List.nodup_cons.mp hl
    rw [List.foldl_cons]
    by_cases heq : n = m
    · subst heq
      rw [peer_foldl_tsyncPort_other hm]
      exact tsyncPort_sends hup hq hreplay hcredit
    · have hother := peer_tsyncPort_other s heq
      have htether : (tsyncPort s m).tether = s.tether := tsyncPort_keeps State.tether (fun _ _ _ => rfl) s m
      rw [← hother] at hup hq hreplay hcredit ⊢
      rw [← htether]
      exact ih hl ((List.mem_cons.mp hn).resolve_left heq) hup hq hreplay hcredit

/-- Every 1 µs a TSYNC flit leaves on each port that is up. -/
theorem tsyncTimer_sends {s : State} (hen : s.links.tetherEn = true) (hdue : s.links.lastTsync + 1000 ≤ s.now) :
    Ends (exec .tsyncTimer s) (fun t => t.tether = s.tether ∧ t.mem = s.mem ∧ t.links.lastTsync = s.now ∧ ∀ n, n < 18 →
      (s.peer n).st = 2 → (s.peer n).txq = [] → (s.peer n).replay.length < 512 → 0 < (s.peer n).credits.toList.getD 3 0 →
        ∃ g, (t.peer n).sent = g :: (s.peer n).sent ∧ g.pay = .tsync s.tether) := by
  refine ⟨(List.range 18).foldl tsyncPort { s with links := { s.links with lastTsync := s.now } }, if_neg (by simp [hen, hdue]), ?_⟩
  have hkeeps {α : Type} (part : State → α) (hpart : ∀ t n x, part (t.setPeer n x) = part t) :=
    foldl_keeps part tsyncPort (tsyncPort_keeps part hpart) (List.range 18) { s with links := { s.links with lastTsync := s.now } }
  exact ⟨hkeeps State.tether fun _ _ _ => rfl, hkeeps State.mem fun _ _ _ => rfl, hkeeps (fun t => t.links.lastTsync) fun _ _ _ => rfl,
    fun n hn hup hq hreplay hcredit => foldl_tsyncPort_sends List.nodup_range (List.mem_range.mpr hn) hup hq hreplay hcredit⟩

/-! ### Silence (R42) and training (R43) -/

section
variable {s : State} {p : BitVec 5}

theorem portRxTimeout_down (hup : (s.peer p.toNat).st = 2) (hrx : (s.peer p.toNat).lastRx + 2000 ≤ s.now) :
    exec (.portRxTimeout p) s = .next (s.peerDown p.toNat 0 true) := if_neg (by simp [hup, hrx])

theorem portRxTimeout_waits (hw : (s.peer p.toNat).st ≠ 2 ∨ s.now < (s.peer p.toNat).lastRx + 2000) :
    exec (.portRxTimeout p) s = .next s := if_pos (by simpa using hw)

variable {tag : U32} {r : Req} (hr : s.req? tag.toNat = some r)
include hr

theorem requestTimeout_ends (hfar : r.remote = true) (hdue : r.issued + 50000 ≤ s.now) :
    exec (.requestTimeout tag) s = .next (s.linkTimeout r) := by
  change execRequestTimeout tag s = _
  simp only [execRequestTimeout, hr]
  exact if_pos (by simp [hfar, hdue])

theorem requestTimeout_waits (hw : r.remote = false ∨ s.now < r.issued + 50000) : exec (.requestTimeout tag) s = .next s := by
  change execRequestTimeout tag s = _
  simp only [execRequestTimeout, hr]
  refine if_neg ?_
  rw [Bool.and_eq_true, decide_eq_true_eq, not_and_or, Bool.not_eq_true, Nat.not_le]
  exact hw

end

/-- Training ends: the port comes up, and its counts, sequences and credits start again. -/
theorem peerPortTrained_up {s : State} {p : BitVec 5} {nbr : BitVec 10} (h : (s.peer p.toNat).st = 1) :
    exec (.peerPortTrained p nbr) s = .next (s.setPeer p.toNat { PeerPort.initial with
      st := 2, nbr, timeout := (s.peer p.toNat).timeout, dis := (s.peer p.toNat).dis, lastRx := s.now, sent := (s.peer p.toNat).sent }) :=
  if_neg (not_not.mpr h)

/-- Settles O50: each event of a port is one of the equations above. -/
theorem ports : Obligations.Ports := by
  refine ⟨fun s p z q why base len ways way cid d => ?tier, fun s p h crc q qo tag more data st old rtt nbr seq vc n => ?peer⟩
  case tier =>
    refine ⟨tierEvents_of_no_port, fun hp => ?down, fun hup => ⟨cxlPortUp_of_up none hup, cxlPortUp_of_up (some d) hup⟩,
      fun hp hdown => ⟨cxlPortUp_trains hp hdown, fun hfit => cxlPortUp_fit hp hdown ((deviceFits_iff p d).mpr hfit),
        fun hunfit => cxlPortUp_unfit hp hdown (mt (deviceFits_iff p d).mp hunfit)⟩,
      fun hp hdown hlost hnow => cxlDownTimeout_loses hp hdown hlost hnow, cxlDownTimeout_waits, fun hshape hroom => ?add,
      cxlExtentAdd_refuses, cxlExtentRelease_unknown, fun hext hheld hmoves => ?release, nvmeEvents_unknown, nvmeCompletion_ends,
      fun m hm => ⟨nvmeTimeout_waits hm, nvmeTimeout_resets_port hm, fun l hold hlast hl => ?again⟩⟩
    case down =>
      obtain ⟨hport, herr, hcores⟩ := tierDown_spec s p (s.tierPort p) why
      rw [cxlPortDown_eq hp, ends_next, hport]
      exact ⟨rfl, rfl, rfl, rfl, rfl, rfl, herr, hcores⟩
    case add =>
      rw [cxlExtentAdd_registers hshape hroom, ends_next, cxlPort_setCxl_same]
      exact ⟨rfl, rfl, rfl⟩
    case release =>
      rw [cxlExtentRelease_releases hext hheld hmoves, ends_next, cxlPort_setCxl_same]
      exact ⟨rfl, rfl⟩
    case again =>
      obtain ⟨hport, herr, -⟩ := tierDown_spec s (8 + q.setWidth 4) { s.flashPort q.toNat with lastTimeout := some s.now } 3
      rw [nvmeTimeout_takes_down hm hold hlast hl, ends_next, ← tierPort_flash, hport]
      exact ⟨rfl, rfl, herr⟩
  case peer =>
    refine ⟨fun hdown ty => ⟨?noFlit, congrArg Host.Outcome.next (receive_down hdown)⟩, fun hp hup ty => ?bad, idle_arrives,
      fun hp hup hq hcredit hreplay => idle_sends hp hup hq hcredit hreplay, idle_waits,
      requestFlit_serves, requestFlit_serves, requestFlit_serves, requestFlit_serves,
      fun r hr => ⟨rdrsp_completes hr, rdrsp_keeps_part hr, fun bs hk ha => wrack_stored hr ha (.inl ⟨bs, hk⟩),
        fun bs hk ha => wrack_stored hr ha (.inr ⟨bs, hk⟩), fun a op hk ha => wrack_command hr ha hk, atrsp_completes hr⟩,
      xfer_buffers, tsync_of_master, tsync_corrects, tsyncTimer_waits, tsyncTimer_sends, lctlNak_sends_again, lctlCredit_adds,
      portRxTimeout_down, portRxTimeout_waits, fun r hr => ⟨requestTimeout_ends hr, requestTimeout_waits hr⟩, fun htraining => ?trained⟩
    case noFlit =>
      obtain ⟨k, g, hk⟩ := arrivalOf_receives p h q qo tag more data st old rtt seq s ty crc
      exact hk.trans (congrArg Host.Outcome.next (receive_down hdown))
    case bad =>
      obtain ⟨k, g, hk⟩ := arrivalOf_receives p h q qo tag more data st old rtt seq s ty false
      change Ends (exec (arrivalOf p h q qo tag more data st old rtt seq ty false) s) _
      rw [hk]
      exact badFlit_counted k h g hp hup
    case trained =>
      rw [peerPortTrained_up htraining, ends_next, State.peer_setPeer_same]
      exact ⟨rfl, rfl, rfl, rfl, rfl, rfl, rfl, rfl, rfl⟩

end Sys2Proof.Laws
end

section
/-!
PROOFS. The events of the auxiliary engine, of the attention engines, of ring ends and of contexts that wait for an instant
(02_links.md, R53; 07_intake.md, R168; 17_isa_attention.md, R430, R432; 18_isa_tasks_system.md, R454, R460, R461).
-/

namespace Sys2Proof.Laws

open Sys2Proof Sys2Proof.Machine Sys2Proof.Safety

/-! ### Sequence commands (R430) -/

section
variable {s : State} {f : BitVec 9} {b : BitVec 1} {n : BitVec 5} {c : Cmd} {op : Nat} {args : List Word}
  (hc : (s.bank f.toNat b).xq[n.toNat]? = some c) (hop : seqOp c = some (op, args))
include hc hop

/-- A sequence command whose turn has not come waits. -/
theorem seqCommandExecute_waits (h : s.engineOn f.toNat b = false ∨ c.issued = false ∨ c.accepted = true
      ∨ (∃ x ∈ (s.bank f.toNat b).xq.take n.toNat, x.accepted = false) ∨ seqFirst ((s.bank f.toNat b).xq.take n.toNat) c = false
      ∨ (n = 0 ∧ 1 ≤ (s.bank f.toNat b).counter .XQ)) :
    exec (.seqCommandExecute f b n) s = .next s := by
  change execSeqCommandExecute f b n s = _
  simp only [execSeqCommandExecute, hc, hop]
  exact if_pos (by simpa [or_assoc, ← BitVec.toNat_inj] using h)

/-- A sequence command whose turn has come executes. -/
theorem seqCommandExecute_executes (hon : s.engineOn f.toNat b = true) (hi : c.issued = true) (ha : c.accepted = false)
    (hbefore : ∀ x ∈ (s.bank f.toNat b).xq.take n.toNat, x.accepted = true)
    (hfirst : seqFirst ((s.bank f.toNat b).xq.take n.toNat) c = true) (hn : n ≠ 0 ∨ (s.bank f.toNat b).counter .XQ = 0)
    {t : State} (ht : seqStep f.toNat b c op args s = .ok t ()) : exec (.seqCommandExecute f b n) s = .next t := by
  have hcounter : n.toNat = 0 → (s.bank f.toNat b).counter .XQ = 0 := fun h0 => hn.resolve_left (not_not.mpr (BitVec.eq_of_toNat_eq h0))
  change execSeqCommandExecute f b n s = _
  simp only [execSeqCommandExecute, hc, hop, ht]
  exact if_neg (by simpa [hon, hi, ha, hfirst, List.all_eq_true] using ⟨hbefore, hcounter⟩)

end

/-! ### Attention requests (R432) -/

/-- The first command that p names is among the commands after it has been changed. -/
theorem mem_lmap1_of_find? {α : Type} {p : α → Bool} {g : α → α} {l : List α} {x : α} (h : l.find? p = some x) : g x ∈ lmap1 p g l := by
  induction l with
  | nil => cases h
  | cons y l ih =>
    rw [lmap1]
    by_cases hy : p y = true
    · rw [List.find?_cons_of_pos hy, Option.some.injEq] at h
      rw [if_pos hy, h]
      exact List.mem_cons_self
    · rw [List.find?_cons_of_neg hy] at h
      rw [if_neg hy]
      exact List.mem_cons_of_mem _ (ih h)

section
variable {s : State} {cl : BitVec 6} {ch : Choices} {f : Nat} {b : BitVec 1} {ser : Nat} {rest : List (Nat × BitVec 1 × Nat)} {c : Cmd}
  (hq : (s.cluster cl.toNat).attn.queue = (f, b, ser) :: rest) (hc : (s.bank f b).xq.find? (fun c => c.ser == ser) = some c)
include hq hc

/-- The oldest request has started, or its engines do not run. -/
theorem attnRequestStart_waits (h : c.started = true ∨ s.engineOn f b = false) : exec (.attnRequestStart cl ch) s = .next s := by
  change execAttnRequestStart cl ch s = _
  simp only [execAttnRequestStart, hq, hc]
  exact if_pos (by simpa using h)

/-- The oldest request starts at the home of its sequence. -/
theorem attnRequestStart_starts (hs : c.started = false) (hon : s.engineOn f b = true) {v : State} {en : Entry}
    (hv : s.sequence (cmdAsker f b .XQ c .A) c.handle rightR = .ok v en) (hbank : v.bank f b = s.bank f b) (hpkg : v.pkg = s.pkg)
    (hhead : (attnReq c.blk).head < qHeads en) (hhome : hHome c.handle = s.pkgNo) :
    Ends (exec (.attnRequestStart cl ch) s) (fun t => ∃ d ∈ (t.bank f b).xq, d.ser = ser ∧ d.started = true) := by
  change Ends (execAttnRequestStart cl ch s) _
  have hno : v.pkgNo = s.pkgNo := congrArg BitVec.toNat hpkg
  have hser : c.ser = ser := by simpa using List.find?_some hc
  simp only [execAttnRequestStart, hq, hc, hs, hon, hv, Got.bind]
  rw [if_neg (by decide), if_neg (by omega), if_neg (by rw [hhome]; exact not_not.mpr hno.symm)]
  refine ends_next.mpr ?_
  rw [State.bank_setBank_same]
  exact ⟨_, mem_lmap1_of_find? ((congrArg (fun k : Bank => k.xq.find? fun c => c.ser == ser) hbank).trans hc), hser, rfl⟩

end

/-! ### Hop plans (R53, R461) -/

/-- Without a plan that runs on the core nothing moves. -/
theorem hopplan_without_plan {s : State} {f : BitVec 9} (h : s.planBank f.toNat = none) : exec (.hopplanSendSlot f) s = .next s
    ∧ exec (.hopplanRecvStep f) s = .next s ∧ exec (.hopplanRecvDeadline f) s = .next s := by
  refine ⟨?_, ?_, ?_⟩
  · change execHopplanSendSlot f s = _
    simp only [execHopplanSendSlot, h]
  · change execHopplanRecvStep f s = _
    simp only [execHopplanRecvStep, h]
  · change execHopplanRecvDeadline f s = _
    simp only [execHopplanRecvDeadline, h]

/-- What stops every plan of the package: LOCK is 0, or has been since the plan started, or the clock stands still. -/
theorem planStops_iff (s : State) (p : PlanRun) : (!s.links.lock || p.lost || decide (s.power.freqAct = 0)) = true
    ↔ ¬ (s.links.lock = true ∧ p.lost = false ∧ s.power.freqAct ≠ 0) := by
  cases s.links.lock <;> cases p.lost <;> simp

theorem sendFlit_keeps (s : State) (port ty dst : Nat) (pay : Payload) :
    ((s.sendFlit port ty dst pay).cores, (s.sendFlit port ty dst pay).mem) = (s.cores, s.mem) := rfl

/-- The flits of a block leave on a port (R53). -/
def sendBlock (s : State) (port dst n : Nat) (bs : List Byte) : State :=
  (List.range n).foldl (fun s n => s.sendFlit port 7 dst (.block ((bs.drop (120 * n)).take 120))) s

theorem sendBlock_keeps (s : State) (port dst n : Nat) (bs : List Byte) :
    ((sendBlock s port dst n bs).cores, (sendBlock s port dst n bs).mem) = (s.cores, s.mem) :=
  foldl_keeps (fun t : State => (t.cores, t.mem)) _ (fun t _ => sendFlit_keeps t port 7 dst _) _ s

/-- What a step of a plan notes of itself. -/
theorem planDone_bank (s : State) (f : Nat) (b : BitVec 1) (p : PlanRun) (i : Nat) (held : Option Nat) (rounded : Bool) :
    (∃ r, ((s.planDone f b p i held rounded).bank f b).plan = some r ∧ r.done = i :: p.done)
      ∧ ((s.planDone f b p i held rounded).bank f b).escx = (s.bank f b).escx + 1 := by
  rw [State.planDone, State.bank_setBank_same]
  exact ⟨⟨_, rfl, rfl⟩, rfl⟩

section
variable {s : State} {f : BitVec 9} {b : BitVec 1} {p : PlanRun} {c : Cmd} (hp : s.planBank f.toNat = some (b, p, c))
include hp

/-- While LOCK is 0, has been 0, or the clock stands still, no step of a plan runs. -/
theorem hopplan_stands (h : ¬ (s.links.lock = true ∧ p.lost = false ∧ s.power.freqAct ≠ 0)) :
    exec (.hopplanSendSlot f) s = .next s ∧ exec (.hopplanRecvStep f) s = .next s := by
  constructor
  · change execHopplanSendSlot f s = _
    simp only [execHopplanSendSlot, hp]
    exact if_pos ((planStops_iff s p).mpr h)
  · change execHopplanRecvStep f s = _
    simp only [execHopplanRecvStep, hp]
    exact if_pos ((planStops_iff s p).mpr h)

/-- No SEND has come to its slot. -/
theorem hopplanSendSlot_waits
    (h : p.pick s.tether.toNat (fun e => sOp e == 0 && s.tether.toNat < 64 * (p.slotOf e + 9)) = none) :
    exec (.hopplanSendSlot f) s = .next s := by
  change execHopplanSendSlot f s = _
  simp only [execHopplanSendSlot, hp, h]
  exact ite_self _

variable (hgo : s.links.lock = true ∧ p.lost = false ∧ s.power.freqAct ≠ 0)
include hgo

/-- The block of a SEND leaves as flits of its port: the plan notes the step, and memory is as its reads leave it. -/
theorem hopplanSendSlot_sends {i : Nat} {e : PlanEntry}
    (hpick : p.pick s.tether.toNat (fun e => sOp e == 0 && s.tether.toNat < 64 * (p.slotOf e + 9)) = some (i, e)) (ha : sArith e ≠ 1)
    {v w : State} {en : Entry} {bs : List Byte} (hv : s.getEntry (cmdAsker f.toNat b .XQ c .X) p.buf = .ok v en)
    (hw : v.planBlock (cmdAsker f.toNat b .XQ c .X) (cmdKey f.toNat b c) p en (sBlock e) = .ok w bs) :
    Ends (exec (.hopplanSendSlot f) s) (fun t => (∃ r, (t.bank f.toNat b).plan = some r ∧ r.done = i :: p.done)
      ∧ (t.bank f.toNat b).escx = (w.bank f.toNat b).escx + 1 ∧ t.mem = w.mem) := by
  change Ends (execHopplanSendSlot f s) _
  simp only [execHopplanSendSlot, hp, hpick, hv, hw, Got.bind]
  rw [if_neg (mt (planStops_iff s p).mp (not_not.mpr hgo)), if_neg ha]
  change Ends (.next ((sendBlock w (sPort e) (sPeer e) (hFlits p.hdr) bs).planDone f.toNat b p i p.held false)) _
  obtain ⟨hcores, hmem⟩ := Prod.mk.inj (sendBlock_keeps w (sPort e) (sPeer e) (hFlits p.hdr) bs)
  obtain ⟨hplan, hescx⟩ := planDone_bank (sendBlock w (sPort e) (sPeer e) (hFlits p.hdr) bs) f.toNat b p i p.held false
  refine ends_next.mpr ⟨hplan, hescx.trans ?_, hmem⟩
  rw [State.bank, State.core, hcores]
  rfl

/-- The block of a RECV without arithmetic is complete: the plan notes the step. -/
theorem hopplanRecvStep_receives {i : Nat} {e : PlanEntry}
    (hpick : p.pick s.tether.toNat (fun e => sOp e == 1
      && (s.peer (sPort e)).holdsBlock (sPeer e) (hFlits p.hdr) (64 * (p.slotOf e + 9))) = some (i, e))
    {blk : List Byte × PeerPort} (hblk : (s.peer (sPort e)).blockFrom (sPeer e) (hFlits p.hdr) = some blk) (ha : sArith e = 0)
    {v : State} {en : Entry} (hv : s.getEntry (cmdAsker f.toNat b .XQ c .X) p.buf = .ok v en) :
    Ends (exec (.hopplanRecvStep f) s) (fun t => ∃ r, (t.bank f.toNat b).plan = some r ∧ r.done = i :: p.done) := by
  change Ends (execHopplanRecvStep f s) _
  simp only [execHopplanRecvStep, hp, hpick, hblk, hv, Got.bind]
  rw [if_neg (mt (planStops_iff s p).mp (not_not.mpr hgo)), if_pos ha]
  exact ends_next.mpr (planDone_bank ..).1

end

/-- A plan is late: a block is not complete in time, or a SEND has missed its slot (R53). -/
def planLate (s : State) (p : PlanRun) : Bool := ((List.range p.steps.length).zip p.steps).any fun x =>
  !(p.done.contains x.1) && 64 * (p.slotOf x.2 + 9) ≤ s.tether.toNat && (sOp x.2 == 0 || !(s.inTime p x.1 x.2))

section
variable {s : State} {f : BitVec 9} {b : BitVec 1} {p : PlanRun} {c : Cmd} (hp : s.planBank f.toNat = some (b, p, c))
include hp

/-- A plan that is late, or that has lost lock before its end, stops: its gang ends, or its step takes a link timeout. -/
theorem hopplanRecvDeadline_stops
    (h : planLate s p = true ∨ (s.links.lock = false ∨ p.lost = true) ∧ p.done.length < p.steps.length) :
    exec (.hopplanRecvDeadline f) s = .next (((s.dropPlan f.toNat b).gangDetect c.task).getD
      ((s.dropPlan f.toNat b).timeoutStep (.core f .C) b c.run c.task [])) := by
  change execHopplanRecvDeadline f s = _
  simp only [execHopplanRecvDeadline, hp]
  exact if_pos (by simpa [planLate, or_comm] using h)

/-- A plan without steps is never late. -/
theorem hopplanRecvDeadline_waits (h : p.steps = []) :
    exec (.hopplanRecvDeadline f) s = .next s := by
  change execHopplanRecvDeadline f s = _
  simp only [execHopplanRecvDeadline, hp]
  exact if_neg (by simp [h])

end

/-! ### Ring transfers (R454) -/

section
variable {s : State} {f : BitVec 9} {kr : BitVec 3}

theorem ringTransfer_without_rings (h : (s.core f.toNat).rings = []) : exec (.ringTransfer f kr) s = .next s := by
  change execRingTransfer f kr s = _
  simp only [execRingTransfer, h, List.find?_nil]

variable {e : RingEnd} {i : Nat} {rest : List Nat} {pr : Task} {p : PipeInfo} {j : Nat} {r : RingDecl} {st : StageInfo} {ct : Task}
  (he : (s.core f.toNat).rings.find? (fun e => e.k == kr.toNat && !e.xfer.isEmpty && s.endCommitted f.toNat e.task) = some e)
  (hx : e.xfer = i :: rest) (hputs : e.puts = []) (hpr : s.task? e.task = some pr) (hpipe : s.pipeOf e.task pr = some (p, j))
  (hr : p.rings.find? (fun r => r.prod == j && r.pring == e.k) = some r) (hst : p.stages[r.cons]? = some st)
  (hct : tfind (s.unit (tidUnit e.task)).tasks st.index = some ct)
include he hx hputs hpr hpipe hr hst hct

/-- While no end of the consumer has a FREE slot the released slot waits. -/
theorem ringTransfer_waits (hbest : s.bestEnd (taskIdOf ct.seq.toNat s.pkgNo (tidUnit e.task) st.index) r.cring
    (fun f => p.held.any fun x => x.1 == f && x.2 == r.cons) = none) : exec (.ringTransfer f kr) s = .next s := by
  change execRingTransfer f kr s = _
  simp only [execRingTransfer, he, hx, hputs, List.find?_nil, hpr, Option.bind_some, hpipe, hr, hst, hct, hbest]

/-- The oldest released slot of a ring goes to the end of the consumer that has the most room. -/
theorem ringTransfer_moves {x : Nat × RingEnd} (hbest : s.bestEnd (taskIdOf ct.seq.toNat s.pkgNo (tidUnit e.task) st.index) r.cring
    (fun f => p.held.any fun x => x.1 == f && x.2 == r.cons) = some x) :
    exec (.ringTransfer f kr) s = .next ((s.fillSlot x.1 x.2 (s.slotBytes f.toNat e i)).slotSent f.toNat e i) := by
  change execRingTransfer f kr s = _
  simp only [execRingTransfer, he, hx, hputs, List.find?_nil, hpr, Option.bind_some, hpipe, hr, hst, hct, hbest]

end

/-! ### Waits for an instant (R460) -/

section
variable {s : State} {f : BitVec 9} {ci : CtxId}

theorem xsyncWaitRelease_without_wait (h : ((s.bank f.toNat (s.core f.toNat).active).ctx ci).xsync = none) :
    exec (.xsyncWaitRelease f ci) s = .next s := by
  change execXsyncWaitRelease f ci s = _
  simp only [execXsyncWaitRelease, h]

variable {x : BitVec 5} {v : Word} (h : ((s.bank f.toNat (s.core f.toNat).active).ctx ci).xsync = some (x, v))
include h

theorem xsyncWaitRelease_waits (hv : s.tether.toNat % 2 ^ 63 < v.toNat) : exec (.xsyncWaitRelease f ci) s = .next s := by
  change execXsyncWaitRelease f ci s = _
  simp only [execXsyncWaitRelease, h]
  exact if_pos (by rw [decide_eq_true hv, Bool.or_true])

/-- At the instant the context receives TETHERCNT and goes on. -/
theorem xsyncWaitRelease_releases (hrun : (s.bank f.toNat (s.core f.toNat).active).st = .running) (hv : v.toNat ≤ s.tether.toNat % 2 ^ 63)
    (hx : x ≠ 0) : Ends (exec (.xsyncWaitRelease f ci) s) (fun t =>
      ((t.bank f.toNat (s.core f.toNat).active).ctx ci).xsync = none
        ∧ ((t.bank f.toNat (s.core f.toNat).active).ctx ci).getS x = s.xsyncValue ∧ t.mem = s.mem) := by
  change Ends (execXsyncWaitRelease f ci s) _
  simp only [execXsyncWaitRelease, h]
  rw [if_neg (by simpa [hrun] using hv), ends_next, State.bank_setBank_same, Bank.ctx_setCtx_same]
  exact ⟨rfl, Ctx.getS_setS_same _ x _ hx, rfl⟩

end

/-- Settles O60: each event of the units is one of the equations above. -/
theorem unitProgress : Obligations.UnitProgress := by
  intro s f b n cl kr ci ch
  refine ⟨fun h => ?seqNone, fun c op args hc hop => ⟨seqCommandExecute_waits hc hop, fun hon hi ha hbefore hfirst hn t ht =>
      seqCommandExecute_executes hc hop hon hi ha hbefore hfirst hn ht⟩, fun h => ?attnNone, fun e rest c hq hc =>
      ⟨attnRequestStart_waits hq hc, fun v en hs hon hv hbank hpkg hhead hhome =>
        attnRequestStart_starts hq hc hs hon hv hbank hpkg hhead hhome⟩, hopplan_without_plan, fun p c hp => ?plan,
    ringTransfer_without_rings, fun e i rest pr p j r st ct x he hx hputs hpr hpipe hr hst hct =>
      ⟨ringTransfer_waits he hx hputs hpr hpipe hr hst hct, ringTransfer_moves he hx hputs hpr hpipe hr hst hct⟩,
    xsyncWaitRelease_without_wait, fun x v h => ⟨xsyncWaitRelease_waits h, fun hrun hv hx => ?release⟩⟩
  case seqNone =>
    change execSeqCommandExecute f b n s = _
    simp only [execSeqCommandExecute, h]
  case attnNone =>
    change execAttnRequestStart cl ch s = _
    simp only [execAttnRequestStart, h]
  case plan =>
    refine ⟨hopplan_stands hp, hopplanSendSlot_waits hp, fun i e v w en bs hgo hpick ha => hopplanSendSlot_sends hp hgo hpick ha,
      fun i e v en blk hgo hpick hblk ha => hopplanRecvStep_receives hp hgo hpick hblk ha, fun h => ?_, fun _ _ => hopplanRecvDeadline_waits hp⟩
    have hstop := hopplanRecvDeadline_stops hp (h.imp_left ?_)
    · exact ⟨fun hnone => by rw [hstop, hnone]; rfl, fun t ht => by rw [hstop, ht]; rfl⟩
    · rintro ⟨e, hsteps, hdone, hop, hlate⟩
      simp [planLate, hsteps, hdone, hop, hlate]
  case release =>
    obtain ⟨t, ht, hsync, hval, hmem⟩ := xsyncWaitRelease_releases h hrun hv hx
    refine ⟨t, ht, hsync, hval.trans ?_, hmem⟩
    rw [State.xsyncValue]
    cases s.links.lock <;> rfl

end Sys2Proof.Laws
end

section
/-!
PROOFS. Submissions at the host's windows, the host launch queue and completion rings (03_host_interface.md, R55 to R64).
-/

namespace Sys2Proof.Laws

open Sys2Proof Sys2Proof.Machine Sys2Proof.Safety

/-! ### Slots and completion objects read after an update -/

/-- The lowest bits of a number. -/
theorem bits_zero (x hi : Nat) : bits x hi 0 = x % 2 ^ (hi + 1) := by simp [bits]

@[simp] theorem cmdSlot_setCmdSlot_same (s : State) (n : Nat) (x : Slot) : (s.setCmdSlot n x).cmdSlot n = x := tget_tset_same ..

theorem cq_setCq_other (s : State) {n k : Nat} (c : CompletionObj) (h : k ≠ n) : (s.setCq n c).cq k = s.cq k :=
  tfind_tset_other _ _ _ _ h

/-- Credits are taken of one completion object; every other is as before (R62). -/
theorem cq_takeCredits {s : State} {k : Nat} {q : CompletionObj} (n need : Nat) (hq : s.cq k = some q) :
    (s.takeCredits n need).cq k = some { q with held := q.held + if k = n then need else 0 } := by
  unfold State.takeCredits
  by_cases hk : k = n
  · subst hk
    rw [hq, if_pos rfl]
    exact cq_setCq_same ..
  · rw [if_neg hk]
    split
    · exact (cq_setCq_other s _ hk).trans hq
    · exact hq

/-- Credits are noted in the completion objects alone. -/
theorem takeCredits_eq (s : State) (n need : Nat) : ∃ cqs, s.takeCredits n need = { s with host := { s.host with cqs } } := by
  unfold State.takeCredits
  split
  · exact ⟨_, rfl⟩
  · exact ⟨s.host.cqs, rfl⟩

/-! ### Launch records (R57 to R59, Table 3-6) -/

/-- A record of which every entry is at hand asks for nothing. -/
theorem askHandles_here {s : State} {lr : LaunchRec} (h : Here s [lrTemplate lr, lrParam lr, lrPipe lr]) :
    s.askHandles lr false = (s, true) := askEntries_here s _ h

section
variable {s : State} {n : BitVec 10} {w : Word} {x : Slot} (hx : (s.launchSlot n.toNat).put 7 w = x)
include hx

/-- Before Ready the slot is emptied. -/
theorem launchSubmit_not_ready (hr : s.ready = false) :
    exec (.launchSubmit n w) s = .next (s.setLaunchSlot n.toNat { x with mask := 0 }) := by
  change execLaunchSubmit n w s = _
  simp [execLaunchSubmit, State.askLaunch, State.submitLaunch, hr, hx]

theorem launchSubmit_partial (hr : s.ready = true) (hw : x.whole = false) :
    exec (.launchSubmit n w) s = .next (s.setLaunchSlot n.toNat (x.report Status.lrPartial)) := by
  change execLaunchSubmit n w s = _
  simp [execLaunchSubmit, State.askLaunch, State.submitLaunch, hr, hx, hw, Status.lrPartial, Status.ok]

variable (hr : s.ready = true) (hw : x.whole = true) (hh : Here s [lrTemplate x.words, lrParam x.words, lrPipe x.words])
include hr hw hh

/-- A whole slot is submitted at once where what it names is at hand (log entry 29). -/
theorem launchSubmit_whole : exec (.launchSubmit n w) s = .next (s.submitLaunch n.toNat w) := by
  change execLaunchSubmit n w s = _
  simp [execLaunchSubmit, State.askLaunch, hr, hx, hw, askHandles_here hh]

theorem launchSubmit_refused (hst : s.launchStatus x.words x.world ≠ Status.ok) :
    exec (.launchSubmit n w) s = .next (s.setLaunchSlot n.toNat (x.report (s.launchStatus x.words x.world))) := by
  rw [launchSubmit_whole hx hr hw hh]
  simp [State.submitLaunch, hr, hx, hw, hst]

/-- A record that passes takes its credits and joins the host launch queue. -/
theorem launchSubmit_accepted (hst : s.launchStatus x.words x.world = Status.ok) : Ends (exec (.launchSubmit n w) s) (fun t =>
    t.host.hlq = s.host.hlq ++ [x.words] ∧ t.launchSlot n.toNat = x.report 0 ∧ t.sched = s.sched ∧ t.mem = s.mem
      ∧ ∀ k q, s.cq k = some q → t.cq k = some { q with held := q.held + if k = lrCq x.words then lrNeeds x.words else 0 }) := by
  have hcq (k : Nat) (q : CompletionObj) (hq : s.cq k = some q) :=
    cq_takeCredits (s := s.setLaunchSlot n.toNat (x.report Status.ok)) (lrCq x.words) (lrNeeds x.words) hq
  obtain ⟨cqs, htake⟩ := takeCredits_eq (s.setLaunchSlot n.toNat (x.report Status.ok)) (lrCq x.words) (lrNeeds x.words)
  rw [launchSubmit_whole hx hr hw hh]
  simp only [State.submitLaunch, hr, hx, hw, hst, htake, Bool.not_true, if_false, Bool.false_eq_true, ne_eq, not_true_eq_false] at hcq ⊢
  exact ⟨_, rfl, rfl, launchSlot_setLaunchSlot_same s _ _, rfl, rfl, hcq⟩

end

/-! ### Commands (R60, R62) -/

theorem wake_host (s : State) (k : Nat) : (s.wake k).host = s.host := foldl_keeps State.host _ (fun t n => State.setSys_host t n _) _ _
theorem wake_mem (s : State) (k : Nat) : (s.wake k).mem = s.mem := foldl_keeps State.mem _ (fun t n => State.setSys_mem t n _) _ _

section
variable {s : State} {m : Byte} {w : Word} {y : Slot} (hy : (s.cmdSlot m.toNat).put 7 w = y)
include hy

theorem commandSlotSubmit_not_ready (hr : s.ready = false) :
    exec (.commandSlotSubmit m w) s = .next (s.setCmdSlot m.toNat { y with mask := 0 }) := by
  change execCommandSlotSubmit m w s = _
  simp [execCommandSlotSubmit, State.submitCommand, hr, hy]

variable (hr : s.ready = true)
include hr

theorem commandSlotSubmit_partial (hw : y.whole = false) :
    exec (.commandSlotSubmit m w) s = .next (s.setCmdSlot m.toNat (y.report Status.lrPartial)) := by
  change execCommandSlotSubmit m w s = _
  simp [execCommandSlotSubmit, State.submitCommand, hr, hy, hw, Status.lrPartial, Status.ok]

variable (hw : y.whole = true)
include hw

theorem commandSlotSubmit_ps3 (hp : s.power.pstate = .ps3) :
    exec (.commandSlotSubmit m w) s = .next (s.setCmdSlot m.toNat (y.report Status.pwrState)) := by
  change execCommandSlotSubmit m w s = _
  simp [execCommandSlotSubmit, State.submitCommand, hr, hy, hw, hp, Status.pwrState, Status.ok]

variable (hp : s.power.pstate ≠ .ps3)
include hp

theorem commandSlotSubmit_no_cq (hq : s.cq (bits y.words[0].toNat 47 42) = none) :
    exec (.commandSlotSubmit m w) s = .next (s.setCmdSlot m.toNat (y.report Status.lrCq)) := by
  change execCommandSlotSubmit m w s = _
  simp [execCommandSlotSubmit, State.submitCommand, hr, hy, hw, hp, hq, Status.lrCq, Status.ok]

/-- A command that passes takes its credits and joins the commands. -/
theorem commandSlotSubmit_accepted (hq : (s.cq (bits y.words[0].toNat 47 42)).isSome = true)
    (hfree : cmdNeeds y.words[0] ≤ s.cqFree (bits y.words[0].toNat 47 42)) : Ends (exec (.commandSlotSubmit m w) s) (fun t =>
      t.host.cmds = s.host.cmds ++ [{ src := m.setWidth 9, words := y.words, world := y.world, started := false, result := 0 }]
        ∧ t.cmdSlot m.toNat = y.report 0 ∧ t.mem = s.mem) := by
  change Ends (execCommandSlotSubmit m w s) _
  have hsome : (s.cq (bits y.words[0].toNat 47 42)).isNone = false := by rw [Option.isNone_eq_false_iff]; exact hq
  simp only [execCommandSlotSubmit, State.submitCommand, hr, hy, hw, hp, hsome, Nat.not_lt.mpr hfree, Bool.not_true, if_false,
    Bool.false_eq_true, ne_eq, not_true_eq_false]
  obtain ⟨cqs, htake⟩ := takeCredits_eq (s.setCmdSlot m.toNat (y.report Status.ok)) (bits y.words[0].toNat 47 42) (cmdNeeds y.words[0])
  rw [htake, ends_next, State.cmdSlot, wake_host, wake_mem]
  refine ⟨?_, cmdSlot_setCmdSlot_same s _ _, rfl⟩
  exact congrArg (fun c => s.host.cmds ++ [c]) (by rw [BitVec.ofNat_toNat])

end

/-! ### The host launch queue (R57, R122) -/

section
variable {s : State} {pos : BitVec 12}

theorem hostQueueAccept_none (h : s.host.hlq[pos.toNat]? = none) : exec (.hostQueueAccept pos) s = .next s := by
  change execHostQueueAccept pos s = _
  simp only [execHostQueueAccept, h]

variable {lr : LaunchRec} {u : Nat} (h : s.host.hlq[pos.toNat]? = some lr) (hu : s.homeUnit lr = some u)
include h hu

/-- A record that its home unit v has no room for stays in the queue. -/
theorem hostQueueAccept_full {v : State} (hask : s.askRecord lr false = (v, true)) (hfree : v.freeRecords u < v.recordsFor lr) :
    exec (.hostQueueAccept pos) s = .next v := by
  change execHostQueueAccept pos s = _
  simp only [execHostQueueAccept, h, hu, hask, hfree, if_true]
  rfl

/-- A unit with room takes the record from the queue. -/
theorem hostQueueAccept_takes {v t : State} (hask : s.askRecord lr false = (v, true)) (hfree : v.recordsFor lr ≤ v.freeRecords u)
    (ht : t = { v with host := { v.host with hlq := v.host.hlq.eraseIdx pos.toNat } }) :
    exec (.hostQueueAccept pos) s = .next ((t.accept u lr id (t.recheck lr)).1.dropBytes (lrPipe lr)) := by
  change execHostQueueAccept pos s = _
  subst ht
  simp only [execHostQueueAccept, h, hu, hask, Nat.not_lt.mpr hfree, if_false]
  rfl

end

/-- A record without a pipeline of which every entry is at hand asks for nothing. -/
theorem askRecord_here {s : State} {lr : LaunchRec} (h : Here s [lrTemplate lr, lrParam lr, lrPipe lr]) (hp : lrPipe lr = 0) :
    s.askRecord lr false = (s, true) := by
  simp [State.askRecord, askHandles_here h, hp]

/-- A record without a pipeline takes one record of its unit (R138). -/
theorem recordsFor_plain (s : State) {lr : LaunchRec} (hp : lrPipe lr = 0) : s.recordsFor lr = 1 := if_pos hp

/-! ### Completion rings (R55, R63, R64) -/

section
variable {s : State} {n : BitVec 6} {c : CompletionObj} (hc : s.cq n.toNat = some c)
include hc

theorem cqtailRead_clears : exec (.cqtailRead n) s = .next (s.setCq n.toNat { c with cqerr := false }) := by
  change execCqtailRead n s = _
  simp only [execCqtailRead, hc]

/-- A head past the tail, or beyond the ring, only sets CQERR. -/
theorem cqheadWrite_error {v : Word}
    (h : c.size ≤ v.toNat % 2 ^ 14 ∨ c.count < (v.toNat % 2 ^ 14 + c.size - c.head.toNat) % c.size) :
    exec (.cqheadWrite n v) s = .next (s.setCq n.toNat { c with cqerr := true }) := by
  change execCqheadWrite n v s = _
  simp only [execCqheadWrite, hc, bits_zero]
  rw [if_pos (by simpa using h)]

/-- The head moves on, and the records that it passes free their credits. -/
theorem cqheadWrite_moves {v : Word} (hi : v.toNat % 2 ^ 14 < c.size)
    (hd : (v.toNat % 2 ^ 14 + c.size - c.head.toNat) % c.size ≤ c.count) : Ends (exec (.cqheadWrite n v) s) (fun t => ∃ q,
      t.cq n.toNat = some q ∧ q.head = v.setWidth 14 ∧ q.count = c.count - (v.toNat % 2 ^ 14 + c.size - c.head.toNat) % c.size
        ∧ q.tail = c.tail ∧ q.base = c.base ∧ q.handle = c.handle ∧ q.cqerr = c.cqerr) := by
  change Ends (execCqheadWrite n v s) _
  simp only [execCqheadWrite, hc, bits_zero]
  rw [if_neg (by simpa using ⟨hi, hd⟩)]
  refine ⟨_, rfl, _, cq_setCq_same .., ?_, rfl, rfl, rfl, rfl, rfl⟩
  exact BitVec.eq_of_toNat_eq (by simp)

theorem completionModerationTimer_idle (h : c.irqFirst = none) : exec (.completionModerationTimer n) s = .next s := by
  change execCompletionModerationTimer n s = _
  simp only [execCompletionModerationTimer, hc, h]

/-- MODUS microseconds after the first record that was not signalled the vector is. -/
theorem completionModerationTimer_signals {t : Nat} (h : c.irqFirst = some t) (hm : c.modus ≠ 0)
    (ht : t + c.modus.toNat * 1000 ≤ s.now) : exec (.completionModerationTimer n) s
      = .next ((s.setCq n.toNat { c with irqCount := 0, irqFirst := none }).signal c.vector.toNat) := by
  change execCompletionModerationTimer n s = _
  simp only [execCompletionModerationTimer, hc, h]
  rw [if_neg (by simpa [ht] using hm)]

end

/-- Settles O46: each submission, each record of the launch queue and each completion ring is one of the equations above. -/
theorem submissionsAndCompletions : Obligations.SubmissionsAndCompletions := by
  refine ⟨fun s n m w pos => ⟨fun hr => ⟨launchSubmit_not_ready rfl hr, commandSlotSubmit_not_ready rfl hr⟩, fun hr => ?ready,
    fun lr u t h hu hh hp ht => ?here, fun lr u v t h hu hask hfree ht => hostQueueAccept_takes h hu hask hfree ht, hostQueueAccept_none⟩,
    fun s n v c hc => ⟨cqheadWrite_error hc, cqheadWrite_moves hc, cqtailRead_clears hc,
      fun t h hm ht => completionModerationTimer_signals hc h hm ht, completionModerationTimer_idle hc⟩⟩
  case ready =>
    exact ⟨launchSubmit_partial rfl hr, launchSubmit_refused rfl hr, launchSubmit_accepted rfl hr, commandSlotSubmit_partial rfl hr,
      commandSlotSubmit_ps3 rfl hr, commandSlotSubmit_no_cq rfl hr, commandSlotSubmit_accepted rfl hr⟩
  case here =>
    have hask := askRecord_here hh hp
    have hone := recordsFor_plain s hp
    refine ⟨fun hfree => ?_, fun hfree => hostQueueAccept_full h hu hask (by omega)⟩
    rw [hostQueueAccept_takes h hu hask (by omega) ht, hp]

end Sys2Proof.Laws
end

section
/-!
PROOFS. Gangs across packages: prepare, commit, start, abort and end (03_host_interface.md, R67, R68; 06_scheduler.md, R144).
-/

namespace Sys2Proof.Laws

open Sys2Proof Sys2Proof.Machine Sys2Proof.Safety

/-! ### A kill leaves the host interface alone (R151, R153) -/

theorem host_of_steady {s t : State} (h : steady t = steady s) : t.host = s.host := congrArg Prod.snd h

theorem sendReq_host (s : State) (dst : Nat) (q : RemoteReq) : (s.sendReq dst q).host = s.host := host_of_steady (sendReq_steady s dst q)
theorem setBank_host (s : State) (f : Nat) (b : BitVec 1) (k : Bank) : (s.setBank f b k).host = s.host := rfl
theorem putTask_host (s : State) (t : Word) (k : Task) : (s.putTask t k).host = s.host := rfl
theorem dropBasin_host (s : State) (f : Nat) (b : BitVec 1) (p : BasinLine → Bool) : (s.dropBasin f b p).host = s.host :=
  setBank_host s f b _
theorem setLeaf_host (s : State) (a : Nat) (g : Nat → Nat) : (s.setLeaf a g).host = s.host := rfl
theorem busyDown_host (s : State) (a n : Nat) : (s.busyDown a n).host = s.host := setLeaf_host s a _
theorem noteFree_host (s : State) (f : Nat) : (s.noteFree f).host = s.host := rfl

theorem perform_host (s : State) (h : Word) (w : Writer) (shift : Int) (bs : List (Nat × Byte × Byte)) :
    (s.perform h w shift bs).host = s.host := host_of_steady (perform_steady s h w shift bs)

theorem landDirty_host (s : State) (l : BasinLine) : (s.landDirty l).host = s.host := by
  unfold State.landDirty
  split
  · rfl
  · exact foldl_keeps State.host _ (fun t g => perform_host t _ _ _ _) _ s

theorem recall_host (s : State) (h : Word) (va n : Nat) : (s.recall h va n).host = s.host := by
  unfold State.recall
  dsimp only
  exact (foldl_keeps State.host _ (fun t (c : Nat × Core) => (dropBasin_host _ c.1 1 _).trans (dropBasin_host t c.1 0 _)) _ _).trans
    (foldl_keeps State.host _ landDirty_host _ s)

theorem nearbank_host (s : State) (w : Writer) (j : NbJob) : (s.nearbank w j).host = s.host :=
  (perform_host _ _ _ _ _).trans (recall_host s _ _ _)

theorem foldl_busyDown_host {α : Type} (a : α → Nat) (l : List α) (s : State) :
    (l.foldl (fun s x => s.busyDown (a x) 1) s).host = s.host :=
  foldl_keeps State.host _ (fun t x => busyDown_host t (a x) 1) l s

/-- A near-bank command that completes writes memory and frees its slice and segments. -/
theorem nbFinish_host (s : State) (f : Nat) (b : BitVec 1) (c : Cmd) : (s.nbFinish f b c).host = s.host := by
  unfold State.nbFinish
  split
  · rfl
  · rename_i j _
    have h := nearbank_host s { run := c.run, task := c.task, path := .N, ord := c.ord } j
    dsimp only
    rw [setBank_host]
    split
    · exact (foldl_busyDown_host id _ _).trans h
    · exact h

theorem nbFinishAll_host (s : State) (f : Nat) (b : BitVec 1) (p : Cmd → Bool) : (s.nbFinishAll f b p).host = s.host :=
  foldl_keeps State.host _ (fun t c => nbFinish_host t f b c) _ s

theorem releaseFar_host (s : State) (c : Cmd) : (s.releaseFar c).host = s.host := by
  unfold State.releaseFar
  split
  · dsimp only
    split
    · exact sendReq_host ..
    · rfl
  · rfl

theorem releaseBusy_host (s : State) (c : Cmd) : (s.releaseBusy c).host = s.host := by
  unfold State.releaseBusy
  split
  · exact foldl_busyDown_host BitVec.toNat _ s
  · rfl

theorem dropPlan_host (s : State) (f : Nat) (b : BitVec 1) : (s.dropPlan f b).host = s.host := by
  unfold State.dropPlan
  dsimp only
  split
  · rfl
  · exact foldl_busyDown_host id _ _

theorem dropPlanOf_host (s : State) (f : Nat) (b : BitVec 1) (p : Cmd → Bool) : (s.dropPlanOf f b p).host = s.host := by
  unfold State.dropPlanOf
  split
  · exact dropPlan_host s f b
  · rfl

theorem releasePins_host (s : State) (run : Nat) : (s.releasePins run).host = s.host := by
  unfold State.releasePins
  exact foldl_keeps State.host _ (fun t _ => sendReq_host t _ _) _ s

theorem releaseSpans_host (s : State) (p : SpanPin → Bool) : (s.releaseSpans p).host = s.host := rfl
theorem dropServed_host (s : State) (f : Nat) (b : BitVec 1) (gone : Nat → Bool) : (s.dropServed f b gone).host = s.host := rfl
theorem withdraw_host (s : State) (f : Nat) (b : BitVec 1) : (s.withdraw f b).host = s.host := rfl

/-- The commands of a step leave their bank, and what they hold elsewhere goes. -/
theorem releaseCmds_host (l : List Cmd) (s : State) : (l.foldl (fun s c => (s.releaseFar c).releaseBusy c) s).host = s.host :=
  foldl_keeps State.host _ (fun t c => (releaseBusy_host _ c).trans (releaseFar_host t c)) l s

theorem discardStep_host (s : State) (f : Nat) (b : BitVec 1) : (s.discardStep f b).host = s.host := by
  unfold State.discardStep
  dsimp only
  split
  · rfl
  · simp only [State.setCore_host, setBank_host, withdraw_host, dropServed_host, releaseSpans_host, releasePins_host, releaseCmds_host,
      dropPlanOf_host, nbFinishAll_host]

theorem mapTask_host (s : State) (t : Word) (g : Task → Task) : (s.mapTask t g).host = s.host := by
  unfold State.mapTask
  split <;> rfl

theorem dropStepOf_host (s : State) (f : Nat) (b : BitVec 1) (t : Word) : (s.dropStepOf f b t).host = s.host :=
  (mapTask_host _ _ _).trans ((noteFree_host _ _).trans (discardStep_host s f b))

theorem killOne_host (s : State) (t : Word) (st detail : U16) : (s.killOne t st detail).host = s.host := by
  unfold State.killOne
  split
  · rfl
  · split
    · rfl
    · refine (foldl_keeps State.host _ (fun v x => ?_) _ _).trans (putTask_host s t _)
      split
      · split
        · exact dropPlanOf_host ..
        · exact dropStepOf_host ..
      · rfl

theorem killTask_host (s : State) (t : Word) (st detail : U16) : (s.killTask t st detail).host = s.host := by
  unfold State.killTask
  dsimp only
  split
  · exact (foldl_keeps State.host _ (fun v m => killOne_host v m st detail) _ _).trans (killOne_host s t st detail)
  · exact killOne_host s t st detail

/-! ### So does a task that becomes ready (R127, R133) -/

theorem afterLoad_host (s : State) (t : Word) : (s.afterLoad t).host = s.host := by
  unfold State.afterLoad
  split
  · rfl
  · split
    · rfl
    · split
      · rfl
      · dsimp only
        split
        · rfl
        · split
          · rfl
          · exact killTask_host ..

theorem becomeReady_host (s : State) (t : Word) : (s.becomeReady t).host = s.host := by
  unfold State.becomeReady
  split
  · rfl
  · dsimp only
    split
    · rfl
    · split
      · exact afterLoad_host ..
      · rfl

/-! ### What messages and records of a gang leave alone (R67, R68) -/

theorem sendGang_host (s : State) (dst kind : Nat) (gid st reps pres : U16) (t : Word) (lr : List Word) :
    (s.sendGang dst kind gid st reps pres t lr).host = s.host := by
  unfold State.sendGang
  dsimp only
  split
  · rfl
  · exact host_of_steady (sendTo_steady ..)

theorem sendGang_hostMem (s : State) (dst kind : Nat) (gid st reps pres : U16) (t : Word) (lr : List Word) :
    (s.sendGang dst kind gid st reps pres t lr).hostMem = s.hostMem := by
  unfold State.sendGang State.sendTo
  dsimp only
  split
  · rfl
  · split <;> rfl

theorem toMembers_host (s : State) (c : GangCoord) (kind : Nat) (t : Word) : (s.toMembers c kind t).host = s.host :=
  foldl_keeps State.host _ (fun v (m : GangMember) => sendGang_host v m.pkg.toNat kind c.gid 0 0 0 t []) _ s

theorem setCq_coords (s : State) (n : Nat) (c : CompletionObj) : (s.setCq n c).host.coords = s.host.coords := rfl
theorem setCq_hostMem (s : State) (n : Nat) (c : CompletionObj) : (s.setCq n c).hostMem = s.hostMem := rfl

/-- A completion record leaves the gangs alone. -/
theorem cqWrite_coords (s : State) (n : Nat) (r : Record) : (s.cqWrite n r).host.coords = s.host.coords := by
  unfold State.cqWrite
  split
  · rfl
  · dsimp only
    split <;> simp [setCq_coords]

theorem touchStack_hostMem (s : State) (a : Nat) : (s.touchStack a).hostMem = s.hostMem := by
  unfold State.touchStack
  split <;> rfl

theorem signal_hostMem (s : State) (v : Nat) : (s.signal v).hostMem = s.hostMem := by obtain ⟨_, _, _, h, _⟩ := signal_eq s v; rw [h]

theorem cqWrite_hostMem (s : State) (n : Nat) (r : Record) : (s.cqWrite n r).hostMem = s.hostMem := by
  unfold State.cqWrite
  split
  · rfl
  · dsimp only
    split <;> simp [setCq_hostMem, signal_hostMem, touchStack_hostMem]

/-! ### Gangs read after an update -/

theorem coord?_of_coords {s t : State} (h : t.host.coords = s.host.coords) (gid : U16) : t.coord? gid = s.coord? gid := by
  rw [State.coord?, h, ← State.coord?]

theorem gid_of_coord? {s : State} {gid : U16} {c : GangCoord} (h : s.coord? gid = some c) : c.gid = gid := by
  simpa using List.find?_some h

theorem coord?_mapCoord {s : State} {gid : U16} {c : GangCoord} {f : GangCoord → GangCoord} (h : s.coord? gid = some c)
    (hf : ∀ x, x.gid = gid → (f x).gid = gid) : (s.mapCoord gid f).coord? gid = some (f c) := by
  have hkey : ((fun x : GangCoord => x.gid == gid) ∘ fun x => if x.gid == gid then f x else x) = fun x => x.gid == gid := by
    funext x
    by_cases hx : x.gid = gid <;> simp [hx, hf]
  have hgid := gid_of_coord? h
  rw [State.coord?] at h
  rw [State.coord?, State.mapCoord, List.find?_map, hkey, h]
  simp [hgid]

/-- A gang of a coordinator takes a new record. -/
theorem coord?_mapCoord_const {s : State} {gid : U16} {c d : GangCoord} (h : s.coord? gid = some c) (hd : d.gid = gid) :
    (s.mapCoord gid fun _ => d).coord? gid = some d := coord?_mapCoord h fun _ _ => hd

theorem coord?_dropCoord (s : State) (gid : U16) : (s.dropCoord gid).coord? gid = none := by
  simp [State.coord?, State.dropCoord, List.find?_eq_none]

theorem key_of_member? {s : State} {src : BitVec 10} {gid : U16} {g : GangHere} (h : s.member? src gid = some g) :
    g.src = src ∧ g.gid = gid := by
  simpa using List.find?_some h

theorem member?_of_members {s t : State} (h : t.host.members = s.host.members) (src : BitVec 10) (gid : U16) :
    t.member? src gid = s.member? src gid := by
  rw [State.member?, h, ← State.member?]

theorem member?_mapMember {s : State} {src : BitVec 10} {gid : U16} {g : GangHere} {f : GangHere → GangHere}
    (h : s.member? src gid = some g) (hf : ∀ x, (f x).src = x.src ∧ (f x).gid = x.gid) :
    (s.mapMember src gid f).member? src gid = some (f g) := by
  have hkey : ((fun x : GangHere => x.src == src && x.gid == gid) ∘ fun x => if x.src == src && x.gid == gid then f x else x)
      = fun x => x.src == src && x.gid == gid := by
    funext x
    by_cases hx : x.src = src ∧ x.gid = gid <;> simp [hx, hf]
  obtain ⟨hsrc, hgid⟩ := key_of_member? h
  rw [State.member?] at h
  rw [State.member?, State.mapMember, List.find?_map, hkey, h]
  simp [hsrc, hgid]

/-! ### The coordinator -/

/-- A gang after the PREPARED of a package. -/
def preparedBy (c : GangCoord) (src now : Nat) : GangCoord :=
  { c.setMember src (fun m => if m.state = 0 then { m with state := 1 } else m) with lastPrepared := now }

/-- A gang after the DONE of a package. -/
def doneBy (c : GangCoord) (src reps pres : Nat) : GangCoord :=
  { c.setMember src (fun m => { m with state := 3 }) with replays := c.replays + reps, preempts := c.preempts + pres }

theorem setMember_gid (c : GangCoord) (pkg : Nat) (f : GangMember → GangMember) : (c.setMember pkg f).gid = c.gid := rfl
theorem preparedBy_gid (c : GangCoord) (src now : Nat) : (preparedBy c src now).gid = c.gid := rfl
theorem doneBy_gid (c : GangCoord) (src reps pres : Nat) : (doneBy c src reps pres).gid = c.gid := rfl

theorem preparedBy_all {c : GangCoord} {src : BitVec 10} {now : Nat} (h : ∀ m ∈ c.members, m.state = 1 ∨ (m.state = 0 ∧ m.pkg = src)) :
    ((preparedBy c src.toNat now).members.all fun m => m.state == 1) = true := by
  simp only [preparedBy, GangCoord.setMember, List.all_map, List.all_eq_true, Function.comp_apply, beq_iff_eq]
  intro m hm
  rcases h m hm with hm | ⟨hm, hpkg⟩
  · simp [hm]
  · simp [hm, hpkg]

theorem doneBy_all {c : GangCoord} {src : BitVec 10} (reps pres : Nat) (h : ∀ m ∈ c.members, m.state = 3 ∨ m.pkg = src) :
    ((doneBy c src.toNat reps pres).members.all fun m => m.state == 3) = true := by
  simp only [doneBy, GangCoord.setMember, List.all_map, List.all_eq_true, Function.comp_apply, beq_iff_eq]
  intro m hm
  rcases h m hm with h | rfl
  · split <;> simp [h]
  · simp

/-- A time rounded up to a multiple of 64 is less than 64 later. -/
theorem roundUp_64 (x : Nat) : x ≤ roundUp x 64 ∧ roundUp x 64 < x + 64 ∧ roundUp x 64 % 64 = 0 := by
  unfold roundUp
  omega

section
variable {s : State} {gid : U16} {c : GangCoord} (hc : s.coord? gid = some c)
include hc

/-- Phase 4 notes the time of the abort, at which the members are told. -/
theorem abortAfter_spec {d : GangCoord} (hd : d.gid = gid) :
    (s.abortAfter d).coord? gid = some { c with phase := 3, abortAt := s.tether.toNat } := by
  unfold State.abortAfter
  rw [hd]
  exact coord?_mapCoord ((coord?_of_coords (congrArg HostIf.coords (toMembers_host s d 4 0)) gid).trans hc) fun _ h => h

omit hc in
theorem abortBefore_ends {d : GangCoord} (hd : d.gid = gid) (reason : U16) : (s.abortBefore d reason).coord? gid = none := by
  unfold State.abortBefore
  rw [hd]
  exact coord?_dropCoord _ gid

/-- A PREPARED counts, and with the last one the coordinator commits. -/
theorem gangPrepared_eq {src : Nat} {d : GangCoord} (hp : c.phase = 1) (hd : preparedBy c src s.tether.toNat = d) :
    s.gangPrepared src gid = if d.members.all (fun m => m.state == 1) then
        (((s.mapCoord gid fun _ => d).toMembers d 3 (BitVec.ofNat 64 (roundUp (s.tether.toNat + 8000) 64))).gangOmcmd d).mapCoord gid fun e =>
          { e with phase := 2, t := roundUp (s.tether.toNat + 8000) 64, lastAlive := roundUp (s.tether.toNat + 8000) 64
                   members := e.members.map fun m => { m with lastHeard := roundUp (s.tether.toNat + 8000) 64 } }
      else s.mapCoord gid fun _ => d := by
  subst hd
  unfold State.gangPrepared
  rw [hc]
  exact if_neg (not_not.mpr hp)

/-- With the last PREPARED the coordinator chooses T, at least 8 µs ahead and a multiple of 64 (R68), and commits. -/
theorem gangPrepared_commits {src : BitVec 10} (hp : c.phase = 1)
    (hall : ∀ m ∈ c.members, m.state = 1 ∨ (m.state = 0 ∧ m.pkg = src)) : ∃ d, (s.gangPrepared src.toNat gid).coord? gid = some d
      ∧ d.phase = 2 ∧ s.tether.toNat + 8000 ≤ d.t ∧ d.t < s.tether.toNat + 8064 ∧ d.t % 64 = 0 := by
  have hcoord := coord?_mapCoord_const hc ((preparedBy_gid c src.toNat s.tether.toNat).trans (gid_of_coord? hc))
  rw [gangPrepared_eq hc hp rfl, if_pos (preparedBy_all hall)]
  exact ⟨_, coord?_mapCoord ((coord?_of_coords ((cqWrite_coords _ _ _).trans (congrArg HostIf.coords (toMembers_host _ _ _ _))) gid).trans
    hcoord) fun _ h => h, rfl, roundUp_64 (s.tether.toNat + 8000)⟩

theorem gangRefused_aborts (src : Nat) (st : U16) (hp : c.phase = 1) : (s.gangRefused src gid st).coord? gid = none := by
  unfold State.gangRefused
  simp only [hc, hp, if_true]
  exact abortBefore_ends ((setMember_gid c src _).trans (gid_of_coord? hc)) st

/-- A DONE counts: one that is not OK starts phase 4, and the last one ends the gang. -/
theorem gangDone_eq {src : Nat} {reps pres : U16} {d : GangCoord} (st : U16) (hp : c.phase = 2) (hd : doneBy c src reps.toNat pres.toNat = d) :
    s.gangDone src gid st reps pres = if st ≠ Status.ok then (s.mapCoord gid fun _ => d).abortAfter d
      else if d.members.all (fun m => m.state == 3) then
        ((s.mapCoord gid fun _ => d).gangRecord d Status.ok d.members.length d.replays d.preempts).dropCoord gid
      else s.mapCoord gid fun _ => d := by
  subst hd
  unfold State.gangDone
  rw [hc]
  exact if_pos hp

/-- The last DONE ends the gang. -/
theorem gangDone_ends {src : BitVec 10} (reps pres : U16) (hp : c.phase = 2) (hall : ∀ m ∈ c.members, m.state = 3 ∨ m.pkg = src) :
    (s.gangDone src.toNat gid Status.ok reps pres).coord? gid = none := by
  rw [gangDone_eq hc Status.ok hp rfl, if_neg (not_not.mpr rfl), if_pos (doneBy_all reps.toNat pres.toNat hall)]
  exact coord?_dropCoord _ gid

/-- A DONE with another status starts phase 4 (log entry 37). -/
theorem gangDone_aborts (src : Nat) {st : U16} (reps pres : U16) (hp : c.phase = 2) (hst : st ≠ Status.ok) :
    ∃ d, (s.gangDone src gid st reps pres).coord? gid = some d ∧ d.phase = 3 ∧ d.abortAt = s.tether.toNat := by
  have hgid := (doneBy_gid c src reps.toNat pres.toNat).trans (gid_of_coord? hc)
  rw [gangDone_eq hc st hp rfl, if_pos hst]
  exact ⟨_, abortAfter_spec (coord?_mapCoord_const hc hgid) hgid, rfl, rfl⟩

theorem gangPrepareDeadline_aborts (hp : c.phase = 1) (hd : c.deadline ≤ s.tether.toNat) :
    exec (.gangPrepareDeadline gid) s = .next (s.abortBefore c Status.gangAborted) := by
  change execGangPrepareDeadline gid s = _
  simp [execGangPrepareDeadline, hc, hp, hd]

theorem gangPrepareDeadline_waits (hd : s.tether.toNat < c.deadline) : exec (.gangPrepareDeadline gid) s = .next s := by
  change execGangPrepareDeadline gid s = _
  simp [execGangPrepareDeadline, hc, Nat.not_le.mpr hd]

/-- A member that has been silent for 50 µs is aborted for. -/
theorem gangMemberSilent_aborts {pkg : BitVec 10} {m : GangMember} (hp : c.phase = 2)
    (hm : c.members.find? (fun m => m.pkg == pkg) = some m) (hst : m.state = 1) (hsilent : max c.t m.lastHeard + 50000 ≤ s.tether.toNat) :
    Ends (exec (.gangMemberSilent gid pkg) s) (fun t => ∃ d, t.coord? gid = some d ∧ d.phase = 3 ∧ d.abortAt = s.tether.toNat) := by
  have hgid := (setMember_gid c pkg.toNat fun m => { m with state := 5 }).trans (gid_of_coord? hc)
  change Ends (execGangMemberSilent gid pkg s) _
  simp only [execGangMemberSilent, hc, hm, hp, hst]
  rw [if_pos (by simpa using hsilent), ends_next]
  exact ⟨_, abortAfter_spec (coord?_mapCoord_const hc hgid) hgid, rfl, rfl⟩

section
variable (hp : c.phase = 3) (ha : c.abortAt + 10000 ≤ s.tether.toNat)
include hp ha

/-- 10 µs after an abort the list of the members that have answered goes to the host. -/
theorem gangAbortCollect_writes : Ends (exec (.gangAbortCollect gid true) s) (fun t => t.coord? gid = none
    ∧ t.hostMem = mwrite s.hostMem c.present.toNat ((c.members.filter fun m => m.state == 4).flatMap fun m => toBytes 2 m.pkg.toNat)) := by
  change Ends (execGangAbortCollect gid true s) _
  simp only [execGangAbortCollect, hc, hp, if_true]
  rw [if_pos (by simpa using ha), ends_next]
  exact ⟨coord?_dropCoord _ gid, (cqWrite_hostMem _ _ _).trans (by rw [List.flatMap_map])⟩

/-- Where the host does not take the write the gang ends all the same. -/
theorem gangAbortCollect_unwritten : Ends (exec (.gangAbortCollect gid false) s) (fun t => t.coord? gid = none ∧ t.hostMem = s.hostMem) := by
  change Ends (execGangAbortCollect gid false s) _
  simp only [execGangAbortCollect, hc, hp, Bool.false_eq_true, if_false]
  rw [if_pos (by simpa using ha), ends_next]
  exact ⟨coord?_dropCoord _ gid, cqWrite_hostMem _ _ _⟩

end

end

/-! ### The member -/

section
variable {s : State} {src : BitVec 10} {gid : U16} {g : GangHere} (hg : s.member? src gid = some g)
include hg

/-- A message names its coordinator by its number. -/
theorem member?_ofNat : s.member? (BitVec.ofNat 10 src.toNat) gid = some g := by simpa using hg

/-- A commit at or after T releases the reservation. -/
theorem gangCommit_late {t : Word} (hc : g.commit = none) (ht : t.toNat ≤ s.tether.toNat) :
    s.gangCommit src.toNat gid t = s.releaseMember g := by
  unfold State.gangCommit
  simp [hg, hc, ht]

/-- A commit before T is noted, and the task becomes ready. -/
theorem gangCommit_notes {t : Word} (hc : g.commit = none) (ht : s.tether.toNat < t.toNat) :
    ∃ x, (s.gangCommit src.toNat gid t).member? src gid = some x ∧ x.commit = some t.toNat := by
  have hsrc := (key_of_member? hg).1
  have hnoted := member?_mapMember (f := fun g => { g with commit := some t.toNat }) hg fun _ => ⟨rfl, rfl⟩
  unfold State.gangCommit
  simp only [member?_ofNat hg, hc, Option.isSome_none, Bool.false_eq_true, if_false, Nat.not_le.mpr ht, hsrc]
  refine ⟨{ g with commit := some t.toNat }, ?_, rfl⟩
  split
  · exact (member?_of_members (congrArg HostIf.members ((mapTask_host _ _ _).trans (becomeReady_host _ _))) src gid).trans hnoted
  · exact hnoted

theorem gangCommitWaitTimeout_releases (hc : g.commit = none) (ht : g.prepared + 100000 ≤ s.tether.toNat) :
    exec (.gangCommitWaitTimeout src gid) s = .next (s.releaseMember g) := by
  change execGangCommitWaitTimeout src gid s = _
  simp [execGangCommitWaitTimeout, hg, hc, ht]

theorem gangCommitWaitTimeout_waits (ht : s.tether.toNat < g.prepared + 100000) : exec (.gangCommitWaitTimeout src gid) s = .next s := by
  change execGangCommitWaitTimeout src gid s = _
  simp [execGangCommitWaitTimeout, hg, Nat.not_le.mpr ht]

section
variable {t : Word} (ht : g.task = some t)
include ht

theorem gangCoordinatorSilent_kills (hsilent : g.lastAlive + 50000 ≤ s.tether.toNat) (ho : g.over_ = false) :
    exec (.gangCoordinatorSilent src gid) s = .next (s.killTask t Status.gangIncomplete 0) := by
  change execGangCoordinatorSilent src gid s = _
  simp [execGangCoordinatorSilent, hg, ht, Nat.not_lt.mpr hsilent, ho]

/-- To a member whose task has ended the silence says that the gang has: its credit goes (log entry 81). -/
theorem gangCoordinatorSilent_leaves (hsilent : g.lastAlive + 50000 ≤ s.tether.toNat) (ho : g.over_ = true) :
    exec (.gangCoordinatorSilent src gid) s = .next ((s.dropMember src gid).dropCredits (lrCq g.lr) 1) := by
  change execGangCoordinatorSilent src gid s = _
  simp [execGangCoordinatorSilent, hg, ht, Nat.not_lt.mpr hsilent, ho]

theorem gangAbort_kills (hs : g.silent = false) :
    s.gangAbort src.toNat gid = (s.killTask t Status.gangAborted 0).sendGang src.toNat 6 gid Status.gangAborted 0 0 0 [] := by
  simp [State.gangAbort, State.gangAbortHere, hg, ht, hs]

theorem gangAbort_silent (hs : g.silent = true) : s.gangAbort src.toNat gid = s := by
  simp [State.gangAbort, State.gangAbortHere, hg, ht, hs]

end

theorem gangAbort_releases (ht : g.task = none) :
    s.gangAbort src.toNat gid = (s.releaseMember g).sendGang src.toNat 6 gid Status.gangAborted 0 0 0 [] := by
  simp [State.gangAbort, State.gangAbortHere, hg, ht]

section
variable {t : Nat} {id : Word} {b : BitVec 1} {k : Task} (hc : g.commit = some t) (hid : s.memberTask g = some id)
  (hb : s.freeBank g.core = some b) (hk : s.task? id = some k)
include hc hid hb hk

theorem gangStartT_waits (ht : s.tether.toNat < t) : exec (.gangStartT src gid) s = .next s := by
  change execGangStartT src gid s = _
  simp [execGangStartT, hg, hc, hid, hb, hk, ht]

/-- At T step 0 starts on the core that is held (R144). -/
theorem gangStartT_starts (ht : t ≤ s.tether.toNat) (hnone : g.task = none) (hl : k.loaded = true) (hd : s.dispatches = true)
    (hkill : k.killed = none) {v w : State} {q : Requeued}
    (hv : v = s.mapMember src gid fun g => { g with task := some id, lastAlive := s.tether.toNat, lastSent := s.tether.toNat })
    (hq : v.handOut id k [] = .step w q) : exec (.gangStartT src gid) s = .next (w.beginStep g.core b id q) := by
  subst hv
  change execGangStartT src gid s = _
  simp [execGangStartT, hg, hc, hid, hb, hk, Nat.not_lt.mpr ht, hnone, hl, hd, hkill, State.giveStep, hq]

end

end

/-! ### Prepares (R67) -/

theorem gangPrepare_refuses {s : State} {lr : LaunchRec} {r : U16} (src : Nat) (gid : U16) (peers : List (BitVec 10))
    (hr : s.refusal lr = some r) : s.gangPrepare src gid lr peers = s.sendGang src 2 gid r 0 0 0 [] := by
  unfold State.gangPrepare
  rw [hr]

/-- A member that can take part holds a record, a core and a credit, and notes the gang. -/
theorem gangPrepare_reserves {s : State} {lr : LaunchRec} {n c : Nat} (src : Nat) (gid : U16) (peers : List (BitVec 10))
    (hr : s.refusal lr = none) (hn : s.homeUnit lr = some n) (hc : s.memberCore lr = some c) :
    ∃ g, (s.gangPrepare src gid lr peers).host.members = s.host.members ++ [g] ∧ g.core = c ∧ g.gid = gid ∧ g.src = BitVec.ofNat 10 src
      ∧ g.peers = peers ∧ g.commit = none ∧ g.task = none ∧ g.prepared = s.tether.toNat := by
  obtain ⟨cqs, htake⟩ := takeCredits_eq s (lrCq lr) 1
  unfold State.gangPrepare
  simp only [hr, hn, hc]
  rw [sendGang_host, htake]
  exact ⟨_, rfl, rfl, rfl, rfl, rfl, rfl, rfl, rfl⟩

/-- A header holds the source in 10 bits. -/
theorem hdrSrc_lt (h : Word) : hdrSrc h < 2 ^ 10 := Nat.mod_lt _ (by decide)

/-! ### ALIVE messages (R67) -/

theorem gangAliveTimer_idle {s : State} (hm : s.host.members = []) (hc : s.host.coords = []) : exec .gangAliveTimer s = .next s := by
  change execGangAliveTimer s = _
  simp [execGangAliveTimer, hm, hc]

theorem gangAliveTimer_sends {s : State} {g : GangHere} (hm : s.host.members = [g]) (hc : s.host.coords = []) (ht : g.task.isSome = true)
    (ho : g.over_ = false) (hs : g.silent = false) (hdue : g.lastSent + 10000 ≤ s.tether.toNat) : exec .gangAliveTimer s
      = .next ((s.mapMember g.src g.gid fun g => { g with lastSent := s.tether.toNat }).sendGang g.src.toNat 5 g.gid 0 0 0 0 []) := by
  change execGangAliveTimer s = _
  simp only [execGangAliveTimer, hm, ht, ho, hs, hdue, List.foldl_cons, List.foldl_nil, Bool.not_false, Bool.and_true, decide_true, if_true]
  rw [sendGang_host, State.mapMember, hc, List.foldl_nil]

/-- Settles O51: each message, timer and deadline of a gang is one of the equations above. -/
theorem gangs : Obligations.Gangs := by
  intro s p h gid st rp pp lr at_ src pkg
  refine ⟨fun ha => ?arrives, fun c hc => ?coordinator, fun g hg => ?member, gangAliveTimer_idle,
    fun g hm hc ht ho hs hdue => gangAliveTimer_sends hm hc ht ho hs hdue⟩
  case arrives =>
    have harrives (f : State → State) : (.next (s.receive p.toNat 9 h true f) : Host.Outcome State Fault Refusal)
        = .next (f (afterFlit s p 9 h)) := congrArg _ (receive_arrives ha f)
    refine ⟨fun r hr => (harrives _).trans (congrArg _ (gangPrepare_refuses _ gid _ hr)), fun n c hr hn hcore => ?_, harrives _, harrives _,
      harrives _, harrives _, harrives _, harrives _⟩
    obtain ⟨g, hmembers, hc, hgid, hsrc, hpeers, hcommit, htask, hprepared⟩ :=
      gangPrepare_reserves (hdrSrc h) gid (peersOfList lr) hr hn hcore
    refine ⟨_, harrives _, g, hmembers.trans ?_, hc, hgid, ?_, hpeers, hcommit, htask, hprepared.trans ?_⟩
    · rw [afterFlit_keeps State.host (fun _ _ _ => rfl)]
    · rw [hsrc, BitVec.toNat_ofNat, Nat.mod_eq_of_lt (hdrSrc_lt h)]
    · rw [afterFlit_keeps State.tether (fun _ _ _ => rfl)]
  case coordinator =>
    exact ⟨gangPrepared_commits hc, gangRefused_aborts hc src.toNat st, fun hp hst hall => hst ▸ gangDone_ends hc rp pp hp hall,
      gangDone_aborts hc src.toNat rp pp, fun hp hd => ⟨gangPrepareDeadline_aborts hc hp hd, abortBefore_ends (gid_of_coord? hc) _⟩,
      gangPrepareDeadline_waits hc, fun hp m => gangMemberSilent_aborts hc hp,
      fun hp ha => ⟨gangAbortCollect_writes hc hp ha, gangAbortCollect_unwritten hc hp ha⟩⟩
  case member =>
    exact ⟨gangCommit_late hg, gangCommit_notes hg, gangCommitWaitTimeout_releases hg, gangCommitWaitTimeout_waits hg,
      fun t ht hsilent => ⟨gangCoordinatorSilent_kills hg ht hsilent, gangCoordinatorSilent_leaves hg ht hsilent⟩,
      fun t ht => gangAbort_kills hg ht, gangAbort_releases hg, fun t ht => gangAbort_silent hg ht,
      fun t id b k hc hid hb hk => ⟨gangStartT_waits hg hc hid hb hk, fun ht hnone hl hd hkill v w q =>
        gangStartT_starts hg hc hid hb hk ht hnone hl hd hkill⟩⟩

end Sys2Proof.Laws
end

section
/-!
PROOFS. OBJWRITE on a page whose frame holds the leaf that maps it (03_host_interface.md, R60, R61; R35, R485).
-/

namespace Sys2Proof.Laws

open Sys2Proof Sys2Proof.Machine Sys2Proof.Safety

/-! ### A page that maps its own leaf

The object manager looks up the blocks in flash of a promoted segment (R35) once the bytes of an OBJWRITE are stored. Where the
page table of an object lies in a frame of the object, the bytes can be a leaf in flash, and the write goes on to that flash
segment: memory differs from the store at more than the completion record. -/

/-- Tables that map VA 0x10000 to frame 0x13, in which the last of them lies. -/
def selfTables : Memory :=
  mputWord (mputWord (mputWord (mputWord [] 0x100000 0x8000000000110000) 0x110000 0x8000000000120000) 0x120000 0x8000000000130000)
    0x130008 0x8000000000000013

/-- 64 elements of .z64 in HBM at VBASE 0x10000, in world 0 with every right. -/
def selfEntry : Entry := #v[0x0000010403000000, 0, 0, 0x0000000100000040, 0x0000000100000001, 0x10000, 0, 0, 0xF, 0, 0, 0, 0, 0, 0, 0]

/-- OBJWRITE of 16 bytes of host memory at 0x4000 to the start of the object. -/
def selfWrite : OmCmd :=
  { src := 0, words := #v[0x1200000000000000, 0x0000010000000005, 0, 0x4000, 16, 0, 0, 0], world := 0, started := false, result := 0 }

/-- Ready, with the object at index 5 and the command to carry out. The second word in host memory is a leaf in flash. -/
def selfMapped : State :=
  { State.reset with
    power := { State.reset.power with bootStep := 9 }
    mem := mwrite selfTables 0x200280 (bytesOfWords selfEntry.toList)
    hostMem := mputWord [] 0x4008 0xE000000000000000
    objs := { State.reset.objs with otCap := 7, otBase := 0x200000, ptRoot := 0x100000 }
    host := { State.reset.host with cmds := [selfWrite] } }

/-- The OBJWRITE meets the hypotheses of the statement. -/
theorem selfMapped_serves : Serves selfMapped 0 0x12 selfWrite := by
  refine ⟨?_, ?_, ?_, ?_, .inl rfl, fun h => absurd h ?_⟩ <;> decide +kernel

theorem selfMapped_object : selfMapped.omObject selfWrite .write false = .ok selfEntry ∧ rangeOk selfEntry (selfWrite.word 2) (selfWrite.word 4) = true
    ∧ eBufs selfEntry = 1 ∧ hHome selfWrite.handle = selfMapped.pkgNo := by
  decide +kernel

theorem selfMapped_page :
    selfMapped.omPieces selfWrite.handle selfEntry 0 (selfWrite.word 2) (selfWrite.word 4) false
        = [(selfMapped.pkgNo, 0x10000, selfWrite.word 4, 0)]
      ∧ selfMapped.omPage 0x10000 = .ok 0x8000000000000013 0x130000 ∧ selfMapped.flashLeaf 0x10000 = none := by
  decide +kernel

/-- The memory of the package in the next state. -/
def nextMem : Host.Outcome State Fault Refusal → Memory
  | .next t => t.mem
  | _ => []

/-- The bytes of the OBJWRITE as a store, and nothing more: no byte of flash changes. -/
def selfStored : State :=
  selfMapped.storeRaw selfWrite.handle { run := omRun 0, task := selfMapped.omTask 0, path := .C, ord := 0 } 0x10000 0x130000
    (mread selfMapped.hostMem (selfWrite.word 3) (selfWrite.word 4))

theorem selfStored_flash : mget selfStored.mem (2 ^ 54 + 15) = 0 := by decide +kernel

/-- The OBJWRITE has written the bytes to the flash segment as well. -/
theorem objwrite_writes_flash : mget (nextMem (exec (.objwrite 0 true) selfMapped)) (2 ^ 54 + 15) = 0xE0 := by decide +kernel

/-- Refutes O49: of OBJWRITE it says that memory is as the store of its bytes leaves it, but for the completion record. Its hypotheses
allow a page whose frame holds the leaf that maps it. In selfMapped the bytes written make that leaf one in flash, and since the object
manager looks for a copy in flash after the store (R35), they are written to flash too: byte 2^54 + 15 is 0xE0, which the store
leaves 0. The statement lacks the hypothesis that the bytes written hold no page table. -/
theorem not_objectManagerCommands : ¬ Obligations.ObjectManagerCommands := by
  intro h
  obtain ⟨hobj, hrange, hbufs, hhome⟩ := selfMapped_object
  obtain ⟨hpieces, hpage, hflash⟩ := selfMapped_page
  obtain ⟨-, -, -, -, -, -, -, hobjwrite, -⟩ := h.2 selfMapped 0 selfWrite default selfEntry 0
  obtain ⟨-, -, hok⟩ := hobjwrite .write rfl selfMapped_serves rfl hhome
  obtain ⟨t, ht, hbut, -⟩ := (hok hobj hrange).2 _ _ _ hbufs hpieces hpage hflash rfl
  have hsame : mget t.mem (2 ^ 54 + 15) = mget selfStored.mem (2 ^ 54 + 15) := hbut _ fun q hq => by cases hq
  have hwritten := objwrite_writes_flash
  rw [ht, nextMem, hsame, selfStored_flash] at hwritten
  exact absurd hwritten (by decide)

end Sys2Proof.Laws
end

section
/-!
PROOFS. The checks of a handle (04_objects.md, R71, Table 4-2).
-/

namespace Sys2Proof.Laws

open Sys2Proof Sys2Proof.Machine Sys2Proof.Safety

section
variable {s : State} {k : Asker} {h : Word} {idx : List U32}
  (hplace : ¬ (h = 0 ∨ 576 ≤ hHome h ∨ (hHome h = s.pkgNo ∧ s.objs.otCap ≤ hIndex h)))
include hplace

/-- A handle that passes check 1, and whose entry the cache of the unit does not hold, waits for a fill. -/
theorem getEntry_miss (hmiss : (s.hunit k.unit).cache.find? (fun c => c.index.toNat == hIndex h && c.home.toNat == hHome h) = none) :
    s.getEntry k h idx = .wait (s.startFill k h (k.waiter h idx 0)) := by
  rw [State.getEntry, if_neg hplace]
  dsimp only
  rw [hmiss]

/-- A handle that passes check 1, and whose entry is cached, passes checks 2 and 3 or raises their cause; to pass leaves memory and
the cores alone. -/
theorem getEntry_hit {c : CacheEntry}
    (hhit : (s.hunit k.unit).cache.find? (fun c => c.index.toNat == hIndex h && c.home.toNat == hHome h) = some c) :
    ∃ t, t.mem = s.mem ∧ t.cores = s.cores ∧ s.getEntry k h idx =
      if (eState c.words ≠ 1 ∧ eState c.words ≠ 2) ∨ eGen c.words ≠ hGen h ∨ eOwner c.words ≠ hWorld h then
        .trap (k.cause Cause.handleInvalid h idx)
      else if eState c.words = 2 then .trap (k.cause Cause.objLost h idx) else .ok t c.words := by
  rw [State.getEntry, if_neg hplace]
  dsimp only
  rw [hhit]
  exact ⟨s.setHunit k.unit _, rfl, rfl, rfl⟩

end

/-- Settles O24: the checks before the look-up in the cache, a miss, and a hit by the STATE, generation and owner of the entry. -/
theorem handleChecks : Obligations.HandleChecks := by
  intro s k h idx
  refine ⟨fun hbad => if_pos hbad, fun hnull hhome hindex => ?_⟩
  have hplace : ¬ (h = 0 ∨ 576 ≤ hHome h ∨ (hHome h = s.pkgNo ∧ s.objs.otCap ≤ hIndex h)) := by
    rintro (hzero | hfar | ⟨hlocal, hcap⟩)
    · exact hnull hzero
    · exact absurd hfar (Nat.not_le.mpr hhome)
    · exact absurd hcap (Nat.not_le.mpr (hindex hlocal))
  constructor
  · intro hmiss
    refine getEntry_miss hplace (List.find?_eq_none.mpr fun c hc => ?_)
    simpa [imp_iff_not_or] using hmiss c hc
  · intro c hcache hi hh
    obtain ⟨t, hmem, hcores, hget⟩ := getEntry_hit (k := k) (idx := idx) (c := c) hplace (by simp [hcache, hi, hh])
    refine ⟨fun hbad => ?_, fun hgen howner hlost => ?_, fun hgen howner hlive => ⟨t, ?_, hmem, hcores⟩⟩
    · rw [hget, if_pos (by omega)]
    · rw [hget, if_neg (by omega), if_pos hlost]
    · rw [hget, if_neg (by omega), if_neg (by omega)]

end Sys2Proof.Laws
end

section
/-!
PROOFS. What messages to other packages, reports to the host and the object manager's writes of leaves and entries leave alone
(02_links.md, R37; 03_host_interface.md, R63, R66; 04_objects.md, R87, R95).
-/

namespace Sys2Proof.Laws

open Sys2Proof Sys2Proof.Machine Sys2Proof.Safety

/-! ### Messages -/

/-- A state but for its links. -/
def apartLinks (s : State) : State := { s with links := .initial }

/-- Any other part of two states that agree but for their links is the same. -/
theorem eq_of_apartLinks {α : Type} {s t : State} (part : State → α) (h : apartLinks t = apartLinks s)
    (hpart : ∀ u, part (apartLinks u) = part u := by intro _; rfl) : part t = part s :=
  (hpart t).symm.trans ((congrArg part h).trans (hpart s))

theorem sendTo_apartLinks (s : State) (dst ty : Nat) (pay : Payload) : apartLinks (s.sendTo dst ty pay) = apartLinks s := by
  unfold State.sendTo
  split <;> rfl

/-- A request to another package changes the links alone. -/
theorem sendReq_apartLinks (s : State) (dst : Nat) (q : RemoteReq) : apartLinks (s.sendReq dst q) = apartLinks s := by
  unfold State.sendReq
  dsimp only
  split
  · exact sendTo_apartLinks ..
  · rw [sendTo_apartLinks]
    exact foldl_keeps apartLinks _ (fun _ _ => sendTo_apartLinks ..) _ _

theorem tellDomain_apartLinks (s : State) (op : RemoteOp) : apartLinks (s.tellDomain op) = apartLinks s :=
  foldl_keeps apartLinks _ (fun _ _ => sendReq_apartLinks ..) _ _

section
variable (s : State)

@[simp] theorem sendReq_mem (dst : Nat) (q : RemoteReq) : (s.sendReq dst q).mem = s.mem :=
  eq_of_apartLinks State.mem (sendReq_apartLinks s dst q)
@[simp] theorem sendReq_cores (dst : Nat) (q : RemoteReq) : (s.sendReq dst q).cores = s.cores :=
  eq_of_apartLinks State.cores (sendReq_apartLinks s dst q)
@[simp] theorem sendReq_objs (dst : Nat) (q : RemoteReq) : (s.sendReq dst q).objs = s.objs :=
  eq_of_apartLinks State.objs (sendReq_apartLinks s dst q)
@[simp] theorem sendReq_tether (dst : Nat) (q : RemoteReq) : (s.sendReq dst q).tether = s.tether :=
  eq_of_apartLinks State.tether (sendReq_apartLinks s dst q)

@[simp] theorem entryChanged_mem (h : Word) : (s.entryChanged h).mem = s.mem :=
  (eq_of_apartLinks State.mem (tellDomain_apartLinks (s.dropEntry h false) _)).trans rfl
@[simp] theorem entryChanged_host (h : Word) : (s.entryChanged h).host = s.host :=
  (eq_of_apartLinks State.host (tellDomain_apartLinks (s.dropEntry h false) _)).trans rfl

@[simp] theorem entryChanged_otBase (h : Word) : (s.entryChanged h).objs.otBase = s.objs.otBase :=
  (eq_of_apartLinks (fun t => t.objs.otBase) (tellDomain_apartLinks (s.dropEntry h false) _)).trans rfl

end

/-! ### Reports to the host -/

/-- A completion record changes self-refresh, its completion object, memory and the signals. -/
theorem cqWrite_eq (s : State) (n : Nat) (r : Record) : ∃ p h m l, s.cqWrite n r = { s with power := p, host := h, mem := m, links := l } := by
  have htouch (a : Nat) : ∃ p, s.touchStack a = { s with power := p } := by
    unfold State.touchStack
    split <;> exact ⟨_, rfl⟩
  unfold State.cqWrite
  split
  · exact ⟨_, _, _, _, rfl⟩
  · rename_i c _
    obtain ⟨p, hp⟩ := htouch (c.base + 64 * c.tail.toNat)
    dsimp only
    rw [hp]
    split
    · obtain ⟨_, _, _, hsignal, -⟩ := signal_eq _ c.vector.toNat
      rw [hsignal]
      exact ⟨_, _, _, _, rfl⟩
    · exact ⟨_, _, _, _, rfl⟩

/-- A device error changes what a completion record does. -/
theorem setErr_eq (s : State) (k : Nat) (d4 d5 : Word) : ∃ p h m l, s.setErr k d4 d5 = { s with power := p, host := h, mem := m, links := l } := by
  unfold State.setErr
  dsimp only
  split
  · obtain ⟨_, _, _, hsignal, -⟩ := signal_eq _ 0
    rw [hsignal]
    exact ⟨_, _, _, _, rfl⟩
  · split
    · obtain ⟨_, _, _, hsignal, -⟩ := signal_eq _ 0
      rw [hsignal]
      obtain ⟨_, _, _, _, hwrite⟩ := cqWrite_eq _ 0 _
      rw [hwrite]
      exact ⟨_, _, _, _, rfl⟩
    · obtain ⟨_, _, _, hsignal, -⟩ := signal_eq _ 0
      rw [hsignal]
      exact ⟨_, _, _, _, rfl⟩

@[simp] theorem setErr_objs (s : State) (k : Nat) (d4 d5 : Word) : (s.setErr k d4 d5).objs = s.objs := by
  obtain ⟨_, _, _, _, h⟩ := setErr_eq s k d4 d5
  rw [h]
@[simp] theorem setErr_tether (s : State) (k : Nat) (d4 d5 : Word) : (s.setErr k d4 d5).tether = s.tether := by
  obtain ⟨_, _, _, _, h⟩ := setErr_eq s k d4 d5
  rw [h]

/-! ### Words of memory -/

theorem toBytes_length (n x : Nat) : (toBytes n x).length = n := by
  induction n generalizing x with
  | zero => rfl
  | succ n ih => simp [toBytes, ih]

theorem ofBytes_toBytes (n x : Nat) : ofBytes (toBytes n x) = x % 256 ^ n := by
  induction n generalizing x with
  | zero => simp [toBytes, ofBytes, Nat.mod_one]
  | succ n ih =>
    rw [toBytes, ofBytes, ih, BitVec.toNat_ofNat, show 256 ^ (n + 1) = 256 * 256 ^ n from Nat.pow_succ', Nat.mod_mul]

theorem bytesOfWords_length (ws : List Word) : (bytesOfWords ws).length = 8 * ws.length := by
  simp [bytesOfWords, toBytes_length, Nat.mul_comm]

/-- A word is as the 8 bytes from its address are. -/
theorem mword_congr {m n : Memory} {a : Nat} (h : ∀ c, a ≤ c → c < a + 8 → mget m c = mget n c) : mword m a = mword n a := by
  simp only [mword, mread]
  rw [h a, h (a + 1), h (a + 1 + 1), h (a + 1 + 1 + 1), h (a + 1 + 1 + 1 + 1), h (a + 1 + 1 + 1 + 1 + 1), h (a + 1 + 1 + 1 + 1 + 1 + 1),
    h (a + 1 + 1 + 1 + 1 + 1 + 1 + 1)] <;> omega

theorem mword_mputWord_same (m : Memory) (a : Nat) (w : Word) : mword (mputWord m a w) a = w := by
  have hread := mread_mwrite_same (toBytes 8 w.toNat) m a
  rw [toBytes_length] at hread
  rw [mword, mputWord, hread, ofBytes_toBytes, Nat.mod_eq_of_lt (show w.toNat < 256 ^ 8 from w.isLt), BitVec.ofNat_toNat, BitVec.setWidth_eq]

theorem mword_mputWord_other (m : Memory) {a b : Nat} (w : Word) (h : b + 8 ≤ a ∨ a + 8 ≤ b) : mword (mputWord m a w) b = mword m b :=
  mword_congr fun c hlo hhi => mget_mwrite_outside _ _ _ _ (by rw [toBytes_length]; omega)

/-! ### Object-table entries -/

@[simp] theorem putEntry_host (s : State) (i : Nat) (e : Entry) : (s.putEntry i e).host = s.host := rfl
@[simp] theorem putEntry_objs (s : State) (i : Nat) (e : Entry) : (s.putEntry i e).objs = s.objs := rfl

/-- Word 0 of an entry that the object manager writes. -/
theorem mword_putEntry (s : State) (i : Nat) (e : Entry) : mword (s.putEntry i e).mem (s.objAddr i) = e[0] := by
  rw [State.putEntry]
  dsimp only
  rw [List.range_succ_eq_map, List.foldl_cons, List.foldl_map]
  rw [foldl_keeps (fun m => mword m (s.objAddr i))]
  · simp [mword_mputWord_same, sealEntry]
  · intro m k
    split
    · rfl
    · exact mword_mputWord_other _ _ (.inl (by omega))

/-- STATE of an entry as its home reads it lies in its word 0. -/
theorem eState_entryInMem (s : State) (i : Nat) : eState (s.entryInMem i) = bits (mword s.mem (s.objAddr i)).toNat 35 34 := by
  simp [eState, efield, State.entryInMem]

/-- STATE as eput sets it. -/
theorem bits_eput_state (e : Entry) {v : Nat} (hv : v < 4) : bits (eput e 0 35 34 v)[0].toNat 35 34 = v := by
  simp only [eput, Vector.getElem_ofFn, if_true, BitVec.toNat_ofNat, putBits, bits]
  omega

/-! ### Where reports are written (R62, R63) -/

@[simp] theorem setCq_mem (s : State) (n : Nat) (c : CompletionObj) : (s.setCq n c).mem = s.mem := rfl

/-- A completion record lies at the tail of its ring. -/
theorem cqWrite_memoryBut (s : State) (n : Nat) (r : Record) : MemoryBut s (s.cqWrite n r) n := by
  intro a ha
  unfold State.cqWrite
  split
  · rfl
  · rename_i q hq
    have hout := ha q hq
    have hkeep : mget (mwrite (mzero s.mem (q.base + 64 * q.tail.toNat) 64) (q.base + 64 * q.tail.toNat)
        (bytesOfWords (r.words q.phase s.tether))) a = mget s.mem a := by
      have hlength : (bytesOfWords (r.words q.phase s.tether)).length = 64 := by rw [bytesOfWords_length]; rfl
      rw [mget_mwrite_outside _ _ _ _ (by omega), mget_mzero, if_neg (by omega)]
    dsimp only
    split
    · rw [signal_mem, setCq_mem, hkeep]
    · rw [setCq_mem, hkeep]

/-- A completion object stays where it is as it takes a record. -/
theorem cqWrite_base {s : State} {n : Nat} {q : CompletionObj} (hq : s.cq n = some q) (r : Record) :
    ∃ q', (s.cqWrite n r).cq n = some q' ∧ q'.base = q.base := by
  unfold State.cqWrite
  rw [hq]
  dsimp only
  split
  · rw [State.cq, signal_host, ← State.cq, cq_setCq_same]
    exact ⟨_, rfl, rfl⟩
  · rw [cq_setCq_same]
    exact ⟨_, rfl, rfl⟩

/-- A device error writes at most a record of completion object 0. -/
theorem setErr_memoryBut (s : State) (k : Nat) (d4 d5 : Word) : MemoryBut s (s.setErr k d4 d5) 0 := by
  intro a ha
  unfold State.setErr
  dsimp only
  split
  · rw [signal_mem]
  · split
    · rw [signal_mem]
      exact cqWrite_memoryBut { s with host := { s.host with errstat := s.host.errstat ||| (1#64 <<< k) } } 0 _ a ha
    · rw [signal_mem]

theorem setErr_base (s : State) (k : Nat) (d4 d5 : Word) {q' : CompletionObj} (hq' : (s.setErr k d4 d5).cq 0 = some q') :
    ∃ q, s.cq 0 = some q ∧ q'.base = q.base := by
  unfold State.setErr at hq'
  dsimp only at hq'
  split at hq'
  · rw [State.cq, signal_host, ← State.cq] at hq'
    exact ⟨q', hq', rfl⟩
  · rename_i q hq
    split at hq'
    · rw [State.cq, signal_host, ← State.cq] at hq'
      obtain ⟨c, hc, hbase⟩ := cqWrite_base hq _
      rw [hc] at hq'
      exact ⟨q, hq, Option.some.inj hq' ▸ hbase⟩
    · rw [State.cq, signal_host, ← State.cq] at hq'
      exact ⟨q', hq', rfl⟩

/-- ERRSTAT keeps the bits of other device errors. -/
theorem setErr_errstat_keeps (s : State) (k j : Nat) (d4 d5 : Word) (h : s.host.errstat.getLsbD j = true) :
    (s.setErr k d4 d5).host.errstat.getLsbD j = true := by
  unfold State.setErr
  dsimp only
  split
  · simp [h]
  · split
    · simp [h]
    · simp [h]

/-- A word away from the ring of completion object 0 stands through a device error. -/
theorem setErr_mword {s : State} {a : Nat} (k : Nat) (d4 d5 : Word)
    (h : ∀ q, s.cq 0 = some q → a + 8 ≤ q.base ∨ q.base + 1048576 ≤ a) : mword (s.setErr k d4 d5).mem a = mword s.mem a := by
  refine mword_congr fun c hlo hhi => setErr_memoryBut s k d4 d5 c fun q hq => ?_
  have htail := q.tail.isLt
  have := h q hq
  omega

end Sys2Proof.Laws
end

section
/-!
PROOFS. Migrations and handovers (04_objects.md, R90 to R95; 05_worlds.md, R118, R119; 08_cores.md, R210).
-/

namespace Sys2Proof.Laws

open Sys2Proof Sys2Proof.Machine Sys2Proof.Safety

/-! ### What is under way -/

/-- What is under way between frames and packages: the migrations, the segments that arrive here with their bytes, and the time that
a handover is measured by. -/
def underWay (s : State) : List Migration × List Incoming × List (Nat × List Byte) × Word :=
  (s.objs.migrations, s.objs.incoming, s.objs.stash, s.tether)

theorem migration?_of_underWay {s t : State} (h : underWay t = underWay s) (n : Nat) : t.migration? n = s.migration? n := by
  obtain ⟨hmigrations, -⟩ := Prod.mk.inj h
  rw [State.migration?, hmigrations, ← State.migration?]

theorem tether_of_underWay {s t : State} (h : underWay t = underWay s) : t.tether = s.tether := congrArg (fun x => x.2.2.2) h

theorem underWay_of_objs {s t : State} (hobjs : t.objs = s.objs) (htether : t.tether = s.tether) : underWay t = underWay s := by
  rw [underWay, hobjs, htether, ← underWay]

theorem sendReq_underWay (s : State) (dst : Nat) (q : RemoteReq) : underWay (s.sendReq dst q) = underWay s :=
  underWay_of_objs (sendReq_objs ..) (sendReq_tether ..)

theorem sendHand_underWay (s : State) (dst step : Nat) (h : Word) (args : List Nat) (data : List Byte) :
    underWay (s.sendHand dst step h args data) = underWay s := sendReq_underWay ..

theorem tellDomain_underWay (s : State) (op : RemoteOp) : underWay (s.tellDomain op) = underWay s :=
  eq_of_apartLinks underWay (tellDomain_apartLinks s op)

theorem leafChanged_underWay (s : State) (va n : Nat) : underWay (s.leafChanged va n) = underWay s :=
  (tellDomain_underWay ..).trans rfl

theorem entryChanged_underWay (s : State) (h : Word) : underWay (s.entryChanged h) = underWay s :=
  (tellDomain_underWay ..).trans rfl

theorem touchStack_underWay (s : State) (a : Nat) : underWay (s.touchStack a) = underWay s := by
  unfold State.touchStack
  split <;> rfl

theorem touchPages_underWay (s : State) (vas : List Nat) : underWay (s.touchPages vas) = underWay s :=
  foldl_keeps underWay _ touchStack_underWay _ _

theorem perform_underWay (s : State) (h : Word) (w : Writer) (shift : Int) (bs : List (Nat × Byte × Byte)) :
    underWay (s.perform h w shift bs) = underWay s := by
  refine foldl_keeps underWay _ (fun t x => ?_) bs _
  unfold State.putByte
  dsimp only
  split <;> rfl

theorem freeSegment_underWay (s : State) (leaf : Word) (large : Bool) : underWay (s.freeSegment leaf large) = underWay s := by
  unfold State.freeSegment
  split <;> rfl

theorem putEntry_underWay (s : State) (i : Nat) (e : Entry) : underWay (s.putEntry i e) = underWay s := underWay_of_objs rfl rfl

theorem setErr_underWay (s : State) (k : Nat) (d4 d5 : Word) : underWay (s.setErr k d4 d5) = underWay s :=
  underWay_of_objs (setErr_objs ..) (setErr_tether ..)

theorem rebind_underWay (s : State) (h : Word) (e : Entry) (src d : Nat) : underWay (s.rebind h e src d) = underWay s := by
  unfold State.rebind
  dsimp only
  split
  · rfl
  · split
    · rfl
    · split
      · rw [entryChanged_underWay, perform_underWay, touchStack_underWay]
      · rfl

theorem loseObject_underWay (s : State) (h : Word) : underWay (s.loseObject h) = underWay s := by
  unfold State.loseObject
  dsimp only
  split
  · exact sendReq_underWay ..
  · split
    · rfl
    · rw [setErr_underWay, entryChanged_underWay, putEntry_underWay]

theorem moveDone_underWay (s : State) (m : Migration) (how : Nat) : underWay (s.moveDone m how) = underWay s := by
  unfold State.moveDone
  split
  · rfl
  · dsimp only
    split <;> rfl
  · rfl

/-- Mapping a page writes tables in memory. -/
theorem mapPage_underWay (s : State) (va : Nat) (large : Bool) (leaf : Word) (tabs : List (BitVec 40)) :
    underWay (s.mapPage va large leaf tabs).1 = underWay s := by
  simp only [State.mapPage, underWay, apply_ite Prod.fst, apply_ite State.objs, apply_ite State.tether, ite_self]

theorem setLeaf_underWay (s : State) (a : Nat) (f : Nat → Nat) : underWay (s.setLeaf a f) = underWay s := rfl

/-- HOLD clears in the leaf, and requests leave the held lists. -/
theorem unhold_eq (s : State) (m : Migration) : ∃ u units, u = s.setLeaf m.leafPa (fun l => putBits l 60 60 0)
    ∧ s.unhold m = { u with objs := { u.objs with units } } := ⟨_, _, rfl, rfl⟩

theorem unhold_underWay (s : State) (m : Migration) : underWay (s.unhold m) = underWay s := by
  obtain ⟨u, units, hu, hunhold⟩ := unhold_eq s m
  have hunits : underWay { u with objs := { u.objs with units } } = underWay u := rfl
  rw [hunhold, hunits, hu, setLeaf_underWay]

theorem loseMove_underWay (s : State) (m : Migration) : underWay (s.loseMove m) = underWay s := by
  rw [State.loseMove, setLeaf_underWay, unhold_underWay]

/-- The source of a handover has given up its copy of the segment, and with the last one of its world the key (R118). -/
def copyErased (s : State) (m : Migration) : State :=
  let t := s.freeSegment (s.leafNow m.leafPa) m.large
  if hWorld m.handle ≠ 0 && !s.worldHasSegment (hWorld m.handle) (fun a => a == m.leafPa) then t.eraseKey (hWorld m.handle) else t

theorem copyErased_underWay (s : State) (m : Migration) : underWay (copyErased s m) = underWay s := by
  unfold copyErased
  dsimp only
  split <;> exact freeSegment_underWay ..

/-! ### The list of migrations -/

theorem id_of_migration? {s : State} {n : Nat} {m : Migration} (h : s.migration? n = some m) : m.id = n := by
  simpa using List.find?_some h

theorem migration?_putMigration {s : State} {n : Nat} {m k : Migration} (h : s.migration? n = some m) (hk : k.id = n) :
    (s.putMigration k).migration? n = some k := by
  have hfind : ∀ l : List Migration, l.find? (fun x => x.id == n) = some m →
      (l.map fun x => if x.id = k.id then k else x).find? (fun x => x.id == n) = some k := by
    intro l
    induction l with
    | nil => simp
    | cons x l ih =>
      by_cases hx : x.id = n
      · simp [hx, hk]
      · simpa [hx, hk] using ih
  exact hfind _ h

theorem migration?_dropMigration (s : State) (m : Migration) : (s.dropMigration m).migration? m.id = none := by
  simp [State.migration?, State.dropMigration, List.find?_eq_none]

/-! ### The steps of a migration (R91, R118, R119) -/

/-- A command that waits at a flash port stays outstanding there as the port issues what it can. -/
theorem issueNvme_outstanding {t : TierPort} {c : NvmeCmd} (now : Nat) (h : c ∈ t.waiting) :
    ∃ d ∈ (t.issueNvme now).cmds ++ (t.issueNvme now).waiting, d.cid = c.cid ∧ d.op = c.op := by
  unfold TierPort.issueNvme
  split
  · exact ⟨c, List.mem_append_right _ h, rfl, rfl⟩
  · dsimp only
    rw [← List.take_append_drop (nvmeDepth - t.cmds.length) t.waiting] at h
    rcases List.mem_append.mp h with hissued | hwaits
    · have hnow : { c with start := now } ∈ (t.waiting.take (nvmeDepth - t.cmds.length)).map fun c => { c with start := now } :=
        List.mem_map_of_mem hissued
      exact ⟨_, List.mem_append_left _ (List.mem_append_right _ hnow), rfl, rfl⟩
    · exact ⟨c, List.mem_append_right _ hwaits, rfl, rfl⟩

section
variable {s : State} {id : U32} {m : Migration} (hm : s.migration? id.toNat = some m)
include hm

/-- The migration as a step leaves it is the one that is found under its number. -/
theorem migration?_steps {k : Migration} {t : State} (hk : k.id = m.id) (ht : underWay t = underWay (s.putMigration k)) :
    t.migration? id.toNat = some k :=
  (migration?_of_underWay ht _).trans (migration?_putMigration hm (hk.trans (id_of_migration? hm)))

/-- A migration that is dropped is not found any more. -/
theorem migration?_dropped {t u : State} (ht : underWay t = underWay (u.dropMigration m)) : t.migration? id.toNat = none := by
  rw [migration?_of_underWay ht, ← id_of_migration? hm]
  exact migration?_dropMigration u m

theorem migrationBusyZero_waits (h : m.phase ≠ 1 ∨ leafBusy (s.leafNow m.leafPa) ≠ 0 ∨ s.recallOpen m.va.toNat m.size = true) :
    exec (.migrationBusyZero id) s = .next s := by
  change execMigrationBusyZero id s = _
  simp only [execMigrationBusyZero, hm]
  exact if_pos (by simpa [or_assoc] using h)

section
variable (hphase : m.phase = 1) (hbusy : leafBusy (s.leafNow m.leafPa) = 0) (hrecall : s.recallOpen m.va.toNat m.size = false)
include hphase hbusy hrecall

theorem migrationBusyZero_copies (hpkg : m.pkg = s.pkg) : Ends (exec (.migrationBusyZero id) s) (fun t =>
    t.migration? id.toNat = some { m with phase := 2, since := s.now } ∧ t.mem = s.mem
      ∧ (leafTier (s.leafNow m.leafPa) = 3 → ∃ c ∈ (t.flashPort (leafPort (s.leafNow m.leafPa))).cmds
          ++ (t.flashPort (leafPort (s.leafNow m.leafPa))).waiting, c.cid = m.id % 32768 ∧ c.op = .read)) := by
  change Ends (execMigrationBusyZero id s) _
  simp only [execMigrationBusyZero, hm, hphase, hbusy, hrecall, ne_eq, not_true_eq_false, decide_false, Bool.or_self, Bool.false_eq_true,
    if_false, if_pos hpkg]
  split
  · refine ends_next.mpr ⟨migration?_steps hm rfl rfl, rfl, fun _ => ?_⟩
    rw [State.nvmeIssue, flashPort_setFlash_same]
    exact issueNvme_outstanding (c := { cid := m.id % 32768, op := .read, start := s.now }) s.now
      (List.mem_append_right _ (List.mem_singleton_self _))
  · rename_i htier
    exact ends_next.mpr ⟨migration?_steps hm rfl rfl, rfl, fun h => absurd h htier⟩

theorem migrationBusyZero_asks_report (hpkg : m.pkg ≠ s.pkg) (hworld : hWorld m.handle ≠ 0) : exec (.migrationBusyZero id) s
    = .next ((s.putMigration { m with phase := 3, since := s.now }).sendHand m.pkg.toNat 11 m.handle m.args) := by
  change execMigrationBusyZero id s = _
  simp [execMigrationBusyZero, hm, hphase, hbusy, hrecall, hpkg, hworld]

theorem migrationBusyZero_sends_segment (hpkg : m.pkg ≠ s.pkg) (hworld : hWorld m.handle = 0) : exec (.migrationBusyZero id) s
    = .next ((s.putMigration { m with phase := 4, since := s.now }).sendSegment m) := by
  change execMigrationBusyZero id s = _
  simp [execMigrationBusyZero, hm, hphase, hbusy, hrecall, hpkg, hworld]

end

theorem migrationCopyDone_waits (h : m.phase ≠ 2 ∨ leafTier (s.leafNow m.leafPa) = 3
      ∧ (s.flashPort (leafPort (s.leafNow m.leafPa))).nvmeOpen (m.id % 32768) = true) :
    exec (.migrationCopyDone id) s = .next s := by
  change execMigrationCopyDone id s = _
  simp only [execMigrationCopyDone, hm]
  exact if_pos (by simpa using h)

theorem migrationCopyDone_moves (hphase : m.phase = 2)
    (hread : leafTier (s.leafNow m.leafPa) ≠ 3 ∨ (s.flashPort (leafPort (s.leafNow m.leafPa))).nvmeOpen (m.id % 32768) = false)
    (hstorage : hasStorage (frameBase m.tier.toNat 0 m.pfn.toNat) = true) : exec (.migrationCopyDone id) s = .next (s.moveHere m) := by
  change execMigrationCopyDone id s = _
  simp only [execMigrationCopyDone, hm, hstorage]
  rw [if_neg]
  · rfl
  · simpa [hphase, imp_iff_not_or] using hread

theorem moveHere_ends : (s.moveHere m).migration? id.toNat = none :=
  migration?_dropped hm (moveDone_underWay ..)

theorem handoverKeyxferAnswer_answered (hphase : m.phase = 3) :
    exec (.handoverKeyxferAnswer id true) s = .next ((s.putMigration { m with phase := 4, since := s.now }).sendSegment m)
      ∧ exec (.handoverKeyxferAnswer id false) s = .next (s.abortMove m) := by
  change execHandoverKeyxferAnswer id true s = _ ∧ execHandoverKeyxferAnswer id false s = _
  simp [execHandoverKeyxferAnswer, hm, hphase]

theorem abortMove_ends : (s.abortMove m).migration? id.toNat = none :=
  migration?_dropped hm ((moveDone_underWay ..).trans (sendHand_underWay ..))

theorem handoverDataok_waits (hphase : m.phase ≠ 4) : exec (.handoverDataok id) s = .next s := by
  change execHandoverDataok id s = _
  simp only [execHandoverDataok, hm, if_pos hphase]

/-- The home rewrites its map and waits for CONFIRM from this time on. -/
theorem sendRebind_waits (src : Nat) : (s.sendRebind m src).migration? id.toNat = some { m with phase := 5, since := s.tether.toNat } := by
  have hrebind := rebind_underWay s m.handle (s.entryInMem (hIndex m.handle)) src m.pkg.toNat
  have htether := tether_of_underWay hrebind
  unfold State.sendRebind
  dsimp only
  rw [htether]
  exact migration?_steps (s := s.rebind m.handle (s.entryInMem (hIndex m.handle)) src m.pkg.toNat)
    ((migration?_of_underWay hrebind _).trans hm) rfl (sendHand_underWay ..)

/-- DATAOK: the source gives up its copy, and the handover waits for CONFIRM. -/
theorem handoverDataok_rebinds (hphase : m.phase = 4) : Ends (exec (.handoverDataok id) s) (fun t =>
    t.migration? id.toNat = some { m with phase := 5, since := s.tether.toNat }) := by
  change Ends (execHandoverDataok id s) _
  rw [execHandoverDataok, hm]
  dsimp only
  rw [if_neg (not_not_intro hphase)]
  change Ends (if hHome m.handle = (copyErased s m).pkgNo then _ else _) _
  have hmu : (copyErased s m).migration? id.toNat = some m := (migration?_of_underWay (copyErased_underWay s m) _).trans hm
  rw [← tether_of_underWay (copyErased_underWay s m)]
  split
  · exact ends_next.mpr (sendRebind_waits hmu _)
  · exact ends_next.mpr (migration?_steps hmu rfl (sendHand_underWay ..))

/-- A handover that is lost is kept, in phase 6, for a CONFIRM that comes late. -/
theorem handoverLost_phase : (s.handoverLost m).migration? id.toNat = some { m with phase := 6 } := by
  unfold State.handoverLost
  split
  · exact migration?_steps (s := s.loseObject m.handle) ((migration?_of_underWay (loseObject_underWay ..) _).trans hm) rfl
      (sendHand_underWay ..)
  · have hlost : underWay ((s.loseMove m).loseObject m.handle) = underWay s := (loseObject_underWay ..).trans (loseMove_underWay s m)
    exact migration?_steps (s := (s.loseMove m).loseObject m.handle) ((migration?_of_underWay hlost _).trans hm) rfl
      (moveDone_underWay ..)

/-! ### CONFIRM and the timeouts -/

theorem handoverConfirm_waits (h : hHome m.handle ≠ s.pkgNo ∨ (m.phase ≠ 5 ∧ m.phase ≠ 6)) : exec (.handoverConfirm id) s = .next s := by
  change execHandoverConfirm id s = _
  rw [execHandoverConfirm, hm]
  dsimp only
  split
  · rfl
  · rename_i hhome
    obtain ⟨h5, h6⟩ := h.resolve_left hhome
    rw [if_neg h6, if_pos h5]

section
variable (hhome : hHome m.handle = s.pkgNo)
include hhome

/-- CONFIRM in time ends the handover, and one that comes late finds the object LOST and ends it as well. -/
theorem handoverConfirm_ends (hphase : m.phase = 5) : Ends (exec (.handoverConfirm id) s) (fun t => t.migration? id.toNat = none) := by
  change Ends (execHandoverConfirm id s) _
  rw [execHandoverConfirm, hm]
  dsimp only
  rw [if_neg (not_not_intro hhome), if_neg (by rw [hphase]; decide), if_neg (not_not_intro hphase)]
  split
  · exact ends_next.mpr (migration?_dropped hm (sendHand_underWay ..))
  · split
    · exact ends_next.mpr (migration?_dropped hm (sendHand_underWay ..))
    · exact ends_next.mpr (migration?_dropped hm (moveDone_underWay ..))

theorem handoverConfirm_late (hphase : m.phase = 5) (hlate : m.since + 5000000 ≤ s.tether.toNat) : exec (.handoverConfirm id) s
    = .next (((s.handoverLost m).dropMigration m).sendHand m.pkg.toNat 6 m.handle m.args) := by
  change execHandoverConfirm id s = _
  simp [execHandoverConfirm, hm, hhome, hphase, State.handoverLate, hlate]

/-- The CONFIRM of a handover that is lost erases the copy at the destination. -/
theorem handoverConfirm_erases (hphase : m.phase = 6) : Ends (exec (.handoverConfirm id) s) (fun t =>
    t.migration? id.toNat = none ∧ t.mem = s.mem) := by
  change Ends (execHandoverConfirm id s) _
  rw [execHandoverConfirm, hm]
  dsimp only
  rw [if_neg (not_not_intro hhome), if_pos hphase]
  exact ends_next.mpr ⟨migration?_dropped hm (sendHand_underWay ..), sendReq_mem ..⟩

theorem handoverTimeout_loses (hphase : m.phase = 5) (hlate : m.since + 5000000 ≤ s.tether.toNat) :
    Ends (exec (.handoverTimeout id) s) (fun t => t.migration? id.toNat = some { m with phase := 6 }) := by
  change Ends (execHandoverTimeout id s) _
  simp only [execHandoverTimeout, hm]
  rw [if_neg (by simp [hphase, hhome, State.handoverLate, hlate])]
  exact ends_next.mpr (handoverLost_phase hm)

end

theorem handoverTimeout_waits (h : m.phase ≠ 5 ∨ hHome m.handle ≠ s.pkgNo ∨ s.tether.toNat < m.since + 5000000) :
    exec (.handoverTimeout id) s = .next s := by
  change execHandoverTimeout id s = _
  simp only [execHandoverTimeout, hm]
  exact if_pos (by simpa [State.handoverLate, or_assoc] using h)

theorem handoverStepTimeout_aborts (h : m.phase = 7 ∨ m.phase = 3 ∧ m.since + 1000000 ≤ s.now
      ∨ m.phase = 4 ∧ (¬ ∃ q ∈ s.objs.reqs, q.run = moveRun m.id) ∧ m.since + 1000000 ≤ s.now) :
    exec (.handoverStepTimeout id) s = .next (s.abortMove m) := by
  change execHandoverStepTimeout id s = _
  simp only [execHandoverStepTimeout, hm]
  refine if_pos ?_
  rcases h with h7 | ⟨h3, hlate⟩ | ⟨h4, hcopied, hlate⟩
  · simp [h7]
  · simp [h3, hlate]
  · simpa [h4, hlate] using hcopied

theorem handoverStepTimeout_waits (h7 : m.phase ≠ 7)
    (h : s.now < m.since + 1000000 ∨ m.phase = 4 ∧ ∃ q ∈ s.objs.reqs, q.run = moveRun m.id) :
    exec (.handoverStepTimeout id) s = .next s := by
  change execHandoverStepTimeout id s = _
  simp only [execHandoverStepTimeout, hm]
  refine if_neg ?_
  rcases h with hearly | ⟨h4, hcopying⟩
  · simpa [Nat.not_le.mpr hearly] using h7
  · simpa [h4] using fun hcopied => absurd hcopying (by simpa using hcopied)

end

/-! ### The destination of a handover (R118) -/

/-- Nothing of the size bytes at va is on its way here any more. -/
def Settled (va size : Nat) (t : State) : Prop :=
  (∀ z ∈ t.objs.stash, z.1 < va ∨ va + size ≤ z.1) ∧ (∀ z ∈ t.objs.incoming, z.va ≠ va)

theorem settled_of_underWay {s t : State} {va size : Nat} (h : underWay t = underWay s) (hs : Settled va size s) : Settled va size t := by
  have hincoming : t.objs.incoming = s.objs.incoming := congrArg (fun x => x.2.1) h
  have hstash : t.objs.stash = s.objs.stash := congrArg (fun x => x.2.2.1) h
  rwa [Settled, hstash, hincoming]

theorem settled_of_filter {t : State} {va size : Nat} {stash : List (Nat × List Byte)} {incoming : List Incoming}
    (hstash : t.objs.stash = stash.filter fun l => !(decide (va ≤ l.1) && decide (l.1 < va + size)))
    (hincoming : t.objs.incoming = incoming.filter fun y => y.va ≠ va) : Settled va size t := by
  constructor
  · intro z hz
    rw [hstash] at hz
    have hout := (List.mem_filter.mp hz).2
    simp only [Bool.not_eq_true', Bool.and_eq_false_iff, decide_eq_false_iff_not] at hout
    omega
  · intro z hz
    rw [hincoming] at hz
    simpa using (List.mem_filter.mp hz).2

/-- Mapping a page leaves what has settled settled. -/
theorem settled_mapped {s : State} {va size : Nat} (large : Bool) (leaf : Word) (tabs : List (BitVec 40)) (h : Settled va size s) :
    Settled va size ((((s.mapPage va large leaf tabs).1.leafChanged va size).touchPages [va])) :=
  settled_of_underWay ((touchPages_underWay ..).trans ((leafChanged_underWay ..).trans (mapPage_underWay ..))) h

section
variable {s : State} {va : BitVec 52} (l : Word) (al : Alloc)

theorem handoverRebind_nothing_due (hdue : s.mapDue va.toNat = none) : exec (.handoverRebind va l al) s = .next s := by
  change execHandoverRebind va l al s = _
  simp only [execHandoverRebind, hdue]

variable {size : Nat} {h : Word} {y : Option Incoming} (hdue : s.mapDue va.toNat = some (size, h, y))
include hdue

/-- A frame that the rules do not allow is not taken. -/
theorem handoverRebind_refuses (hno : ¬ (leafTier l ≠ 3 ∧ s.tabsOk [va.toNat] al.tabs = true
      ∧ s.framesOk (leafTier l) (size == 2097152) [leafPfn l] = true
      ∧ (leafTier l = 0 → s.modeOk (eCompute (s.entryHere h) || eLayout (s.entryHere h) == 2) (leafPfn l) = true))) :
    exec (.handoverRebind va l al) s = .next s := by
  change execHandoverRebind va l al s = _
  simp only [execHandoverRebind, hdue]
  refine if_pos ?_
  by_contra hfits
  simp only [Bool.or_eq_true, decide_eq_true_eq, Bool.not_eq_true', Bool.and_eq_true, not_or, not_and, Bool.not_eq_false] at hfits
  obtain ⟨⟨⟨htier, htabs⟩, hframes⟩, hmode⟩ := hfits
  exact hno ⟨htier, htabs, hframes, hmode⟩

/-- The page is mapped over the bytes that have arrived, and nothing of it is on its way any more. -/
theorem handoverRebind_maps (htier : leafTier l ≠ 3) (htabs : s.tabsOk [va.toNat] al.tabs = true)
    (hframes : s.framesOk (leafTier l) (size == 2097152) [leafPfn l] = true)
    (hmode : leafTier l = 0 → s.modeOk (eCompute (s.entryHere h) || eLayout (s.entryHere h) == 2) (leafPfn l) = true)
    (hstorage : hasStorage (frameBase (leafTier l) 0 (leafPfn l)) = true) :
    Ends (exec (.handoverRebind va l al) s) (Settled va.toNat size) := by
  change Ends (execHandoverRebind va l al s) _
  simp only [execHandoverRebind, hdue]
  rw [if_neg, if_neg]
  · split
    · exact ends_next.mpr (settled_of_underWay (sendHand_underWay ..) (settled_mapped _ _ _ (settled_of_filter rfl rfl)))
    · exact ends_next.mpr (settled_mapped _ _ _ (settled_of_filter rfl rfl))
  · simp [hstorage]
  · simp [htier, htabs, hframes]
    exact hmode

end

/-! ### Eviction and access bits (R93, R210) -/

section
variable {s : State} {va : BitVec 52} {pfn : U32} {h : Word} {e : Entry} {a : Nat} {l : Word} {large : Bool}
  (hobj : s.objectAt va.toNat = some (h, e)) (hwalk : s.walkTables va.toNat = .ok (a, l, large))
include hobj hwalk

theorem eviction_refuses (hno : s.qualifies h e (va.toNat / ePage e * ePage e) l = false
      ∨ s.framesOk (leafTier l + 1) large [pfn.toNat] = false) : exec (.eviction va (pfn, none)) s = .next s := by
  change execEviction va (pfn, none) s = _
  simp only [execEviction, hobj, hwalk]
  refine if_pos ?_
  rcases hno with hq | hf
  · simp [hq]
  · simp [hf]

/-- A segment that qualifies is demoted if no page was used before its own. -/
theorem eviction_demotes (hq : s.qualifies h e (va.toNat / ePage e * ePage e) l = true)
    (hlru : ∀ y, s.usedAt (va.toNat / ePage e * ePage e) ≤ s.usedAt y)
    (hf : s.framesOk (leafTier l + 1) large [pfn.toNat] = true) : exec (.eviction va (pfn, none)) s
    = .next (s.startMove h (va.toNat / ePage e * ePage e) a large (leafTier l + 1) s.pkgNo pfn.toNat .evict) := by
  change execEviction va (pfn, none) s = _
  simp only [execEviction, hobj, hwalk]
  refine if_neg ?_
  simp [hq, hf, Nat.not_lt.mpr (hlru _)]

end

section
variable {s : State} {va : BitVec 52} {pfn : U32} {f : BitVec 9} {b : BitVec 1} {fi : FaultInfo} {h : Word} {e : Entry}
  (hfault : (s.bank f.toNat b).fault = some fi) (hobj : s.objectAt fi.va.toNat = some (h, e))
include hfault hobj

theorem eviction_kills (hparked : (s.bank f.toNat b).st = .parked) (hcause : fi.cause = Cause.objMissing)
    (hleft : s.framesLeft 0 (eLarge e) (eCompute e || eLayout e == 2) = 0) (hmay : s.mayQualify 0 = false) :
    exec (.eviction va (pfn, some (f, b))) s = .next (s.killParked f.toNat b fi Cause.objNoSpace) := by
  change Host.Outcome.next (s.noSpace f.toNat b) = _
  simp only [State.noSpace, hfault, hobj]
  rw [if_pos ⟨hparked, hcause, hleft, by simp [hmay]⟩]

theorem eviction_waits (hmay : s.mayQualify 0 = true) : exec (.eviction va (pfn, some (f, b))) s = .next s := by
  change Host.Outcome.next (s.noSpace f.toNat b) = _
  simp only [State.noSpace, hfault, hobj]
  rw [if_neg (by simp [hmay])]

end

theorem accessBitSample_waits {s : State} (h : s.tether.toNat < s.objs.lastSampleNs + 1000000) : exec .accessBitSample s = .next s :=
  if_pos h

/-- A sample counts, and clears every access bit. -/
theorem accessBitSample_samples {s : State} (h : s.objs.lastSampleNs + 1000000 ≤ s.tether.toNat) :
    Ends (exec .accessBitSample s) (fun t => t.objs.samples = s.objs.samples + 1 ∧ t.objs.lastSampleNs = s.tether.toNat
      ∧ (∀ y ∈ t.objs.units, ∀ z ∈ y.2.tlb, z.access = false) ∧ t.mem = s.mem) := by
  change Ends (execAccessBitSample s) _
  rw [execAccessBitSample, if_neg (Nat.not_lt.mpr h)]
  refine ends_next.mpr ⟨rfl, rfl, fun y hy z hz => ?_, rfl⟩
  obtain ⟨u, -, rfl⟩ := List.mem_map.mp hy
  obtain ⟨x, -, rfl⟩ := List.mem_map.mp hz
  rfl

/-- Settles O54: a lemma for each event and phase of the migration; what the messages, the leaves and the reports of a step leave alone
keeps the migration findable under its number. -/
theorem migrations : Obligations.Migrations := by
  intro s id m sl pfn f b hm
  refine ⟨fun _ hwait => migrationBusyZero_waits hm (.inr hwait), fun hphase hbusy hrecall =>
      ⟨migrationBusyZero_copies hm hphase hbusy hrecall, migrationBusyZero_asks_report hm hphase hbusy hrecall,
        migrationBusyZero_sends_segment hm hphase hbusy hrecall⟩,
    fun hphase => migrationBusyZero_waits hm (.inl hphase),
    fun hphase hread hstorage => ⟨migrationCopyDone_moves hm hphase hread hstorage, moveHere_ends hm⟩,
    fun _ htier hopen => migrationCopyDone_waits hm (.inr ⟨htier, hopen⟩), fun hphase => migrationCopyDone_waits hm (.inl hphase),
    handoverKeyxferAnswer_answered hm, handoverDataok_rebinds hm, handoverDataok_waits hm,
    handoverConfirm_ends hm, handoverConfirm_late hm, handoverConfirm_erases hm, handoverConfirm_waits hm,
    fun h => ⟨handoverStepTimeout_aborts hm h, abortMove_ends hm⟩, handoverStepTimeout_waits hm,
    fun hphase hhome => ⟨handoverTimeout_loses hm hhome hphase, fun hearly => handoverTimeout_waits hm (.inr (.inr hearly))⟩,
    fun h => handoverTimeout_waits hm (h.imp_right .inl),
    fun va l al hdue => handoverRebind_nothing_due l al hdue,
    fun va l al size h y hdue => ⟨fun ⟨htier, htabs, hframes, hmode⟩ hstorage =>
      handoverRebind_maps l al hdue htier htabs hframes hmode hstorage, handoverRebind_refuses l al hdue⟩,
    fun va h e a l large hobj hwalk => ⟨eviction_refuses hobj hwalk, eviction_demotes hobj hwalk⟩,
    fun va fi h e hfault hparked hcause hobj => ⟨eviction_kills hfault hobj hparked hcause, eviction_waits hfault hobj⟩,
    accessBitSample_waits, accessBitSample_samples, rfl⟩

end Sys2Proof.Laws
end

section
/-!
PROOFS. The end of fills and walks, launches of the Spout, near-bank commands and the freeing of retired blocks (04_objects.md, R72,
R87, R95; 06_scheduler.md, R146 to R148; 08_cores.md, R206 to R209; 14_isa_memory.md, R363; 17_isa_attention.md, R429).
-/

namespace Sys2Proof.Laws

open Sys2Proof Sys2Proof.Machine Sys2Proof.Safety

/-! ### Object-cache fills (R72, R206, R209) -/

/-- What a step puts in place of the members that p names: nothing. -/
theorem filterMap_none_eq_filter {α : Type} (p : α → Bool) (l : List α) :
    (l.filterMap fun x => if p x then none else some x) = l.filter fun x => !p x := by
  induction l with
  | nil => rfl
  | cons x l ih => cases hx : p x <;> simp [hx, ih]

/-- What a step puts in place of the members that p names: one each. -/
theorem length_filterMap_some {α : Type} (p : α → Bool) (y : α) (l : List α) :
    (l.filterMap fun x => if p x then some y else some x).length = l.length := by
  induction l with
  | nil => rfl
  | cons x l ih => cases hx : p x <;> simp [hx, ih]

@[simp] theorem hunit_setHunit_same (s : State) (n : Nat) (x : HandleUnit) : (s.setHunit n x).hunit n = x := tget_tset_same ..

@[simp] theorem setHunit_cq (s : State) (n : Nat) (x : HandleUnit) (i : Nat) : (s.setHunit n x).cq i = s.cq i := rfl
@[simp] theorem setHunit_objAddr (s : State) (n : Nat) (x : HandleUnit) (i : Nat) : (s.setHunit n x).objAddr i = s.objAddr i := rfl
@[simp] theorem installEntry_host (s : State) (n : Nat) (h : Word) (e : Entry) : (s.installEntry n h e).host = s.host := rfl
@[simp] theorem installEntry_entryInMem (s : State) (n : Nat) (h : Word) (e : Entry) (i : Nat) :
    (s.installEntry n h e).entryInMem i = s.entryInMem i := rfl

/-- A handle unit without its fills of an object. -/
def withoutFills (x : HandleUnit) (h : Word) : HandleUnit := { x with fills := x.fills.filter fun z => objKey z.handle ≠ objKey h }

theorem withoutFills_eq (x : HandleUnit) (h : Word) :
    { x with fills := x.fills.filterMap fun z => if objKey z.handle == objKey h then none else some z } = withoutFills x h := by
  rw [filterMap_none_eq_filter, withoutFills]
  simp only [ne_eq, decide_not, beq_eq_decide]

/-- The object is lost, and UEMEM and OBJLOST are reported (R72, R95). -/
def entryLost (s : State) (h : Word) : State :=
  (((s.setErr 1 (BitVec.ofNat 64 (sliceOf (s.objAddr (hIndex h)))) h).putEntry (hIndex h)
    (eput (s.entryInMem (hIndex h)) 0 35 34 2)).entryChanged h).setErr 6 h 0

theorem entryLost_errstat (s : State) (h : Word) :
    (entryLost s h).host.errstat.getLsbD 1 = true ∧ (entryLost s h).host.errstat.getLsbD 6 = true := by
  constructor
  · refine setErr_errstat_keeps _ _ _ _ _ ?_
    rw [entryChanged_host, putEntry_host]
    exact setErr_errstat _ _ _ _ (by decide)
  · exact setErr_errstat _ _ _ _ (by decide)

/-- The entry says LOST, unless the ring that takes the events lies over it. -/
theorem entryLost_state {s : State} {h : Word}
    (hring : ∀ q, s.cq 0 = some q → s.objAddr (hIndex h) + 8 ≤ q.base ∨ q.base + 1048576 ≤ s.objAddr (hIndex h)) :
    eState ((entryLost s h).entryInMem (hIndex h)) = 2 := by
  unfold entryLost
  generalize ht : s.setErr 1 (BitVec.ofNat 64 (sliceOf (s.objAddr (hIndex h)))) h = t
  have hbase : t.objAddr (hIndex h) = s.objAddr (hIndex h) := by rw [← ht, State.objAddr, setErr_objs, ← State.objAddr]
  generalize hu : (t.putEntry (hIndex h) (eput (s.entryInMem (hIndex h)) 0 35 34 2)).entryChanged h = u
  have hmem : u.mem = (t.putEntry (hIndex h) (eput (s.entryInMem (hIndex h)) 0 35 34 2)).mem := by rw [← hu, entryChanged_mem]
  have hhost : u.host = t.host := by rw [← hu, entryChanged_host, putEntry_host]
  have haddr : u.objAddr (hIndex h) = t.objAddr (hIndex h) := by rw [← hu, State.objAddr, entryChanged_otBase, putEntry_objs, ← State.objAddr]
  have hapart : ∀ q, u.cq 0 = some q → t.objAddr (hIndex h) + 8 ≤ q.base ∨ q.base + 1048576 ≤ t.objAddr (hIndex h) := by
    intro q hq
    rw [State.cq, hhost, ← State.cq, ← ht] at hq
    obtain ⟨q₀, hq₀, hsame⟩ := setErr_base s _ _ _ hq
    rw [hsame, hbase]
    exact hring q₀ hq₀
  rw [eState_entryInMem, State.objAddr, setErr_objs, ← State.objAddr, haddr, setErr_mword 6 h 0 hapart, hmem, mword_putEntry,
    bits_eput_state _ (by decide)]

section
variable {s : State} {u : BitVec 6} {h : Word} {y : Fill}
  (hfind : (s.hunit u.toNat).fills.find? (fun y => objKey y.handle == objKey h) = some y)
include hfind

theorem objectCacheFill_unanswered (hhome : hHome h ≠ s.pkgNo) (hremote : y.remote = none) : exec (.objectCacheFill u h) s = .next s := by
  change execObjectCacheFill u h s = _
  simp only [execObjectCacheFill, hfind, hhome, hremote, if_false]

variable (hstale : y.stale = false)
include hstale

theorem objectCacheFill_remote {w : Entry} (hhome : hHome h ≠ s.pkgNo) (hremote : y.remote = some w) (hok : entryCrcOk w = true) :
    exec (.objectCacheFill u h) s = .next ((s.setHunit u.toNat (withoutFills (s.hunit u.toNat) h)).installEntry u.toNat h w) := by
  change execObjectCacheFill u h s = _
  simp only [execObjectCacheFill, hfind, hhome, hremote, hstale, hok, if_false, Bool.true_or, if_true, Bool.false_eq_true, withoutFills_eq]

section
variable (hhome : hHome h = s.pkgNo)
include hhome

theorem objectCacheFill_installs (hok : entryCrcOk (s.entryInMem (hIndex h)) = true ∨ entryBlank (s.entryInMem (hIndex h)) = true) :
    exec (.objectCacheFill u h) s = .next ((s.setHunit u.toNat (withoutFills (s.hunit u.toNat) h)).installEntry u.toNat h
      ((s.entryInMem (hIndex h)).set 1 0)) := by
  change execObjectCacheFill u h s = _
  simp only [execObjectCacheFill, hfind, hhome, hstale, Bool.or_eq_true, hok, if_true, Bool.false_eq_true, if_false, withoutFills_eq]

variable (hcrc : entryCrcOk (s.entryInMem (hIndex h)) = false) (hblank : entryBlank (s.entryInMem (hIndex h)) = false)
include hcrc hblank

/-- The first mismatch: the entry is read again. -/
theorem objectCacheFill_reads_again (hretried : y.retried = false) : Ends (exec (.objectCacheFill u h) s) (fun t =>
    t.mem = s.mem ∧ (t.hunit u.toNat).cache = (s.hunit u.toNat).cache
      ∧ (t.hunit u.toNat).fills.length = (s.hunit u.toNat).fills.length) := by
  change Ends (execObjectCacheFill u h s) _
  simp only [execObjectCacheFill, hfind, hhome, hstale, hcrc, hblank, hretried, Bool.or_self, Bool.false_eq_true, if_false, if_true,
    Bool.not_false]
  refine ends_next.mpr ⟨rfl, ?_⟩
  rw [hunit_setHunit_same]
  exact ⟨rfl, length_filterMap_some ..⟩

/-- The second mismatch: the object is lost. -/
theorem objectCacheFill_loses (hretried : y.retried = true) : exec (.objectCacheFill u h) s
    = .next ((entryLost (s.setHunit u.toNat (withoutFills (s.hunit u.toNat) h)) h).installEntry u.toNat h
        ((eput (s.entryInMem (hIndex h)) 0 35 34 2).set 1 0)) := by
  change execObjectCacheFill u h s = _
  simp only [execObjectCacheFill, hfind, hhome, hstale, hcrc, hblank, hretried, Bool.or_self, Bool.false_eq_true, if_false, if_true,
    Bool.not_true, withoutFills_eq]
  rfl

end

end

/-- What the loss of an object by a fill leaves (R72, R95). -/
theorem objectCacheFill_loses_reports {s : State} {u : BitVec 6} {h : Word} {y : Fill}
    (hfind : (s.hunit u.toNat).fills.find? (fun y => objKey y.handle == objKey h) = some y) (hstale : y.stale = false)
    (hhome : hHome h = s.pkgNo) (hcrc : entryCrcOk (s.entryInMem (hIndex h)) = false) (hblank : entryBlank (s.entryInMem (hIndex h)) = false)
    (hretried : y.retried = true) : Ends (exec (.objectCacheFill u h) s) (fun t =>
      t.host.errstat.getLsbD 1 = true ∧ t.host.errstat.getLsbD 6 = true
      ∧ ((∀ q, s.cq 0 = some q → s.objAddr (hIndex h) + 128 ≤ q.base ∨ q.base + 1048576 ≤ s.objAddr (hIndex h)) →
        eState (t.entryInMem (hIndex h)) = 2)) := by
  rw [objectCacheFill_loses hfind hstale hhome hcrc hblank hretried, ends_next]
  generalize ht : s.setHunit u.toNat (withoutFills (s.hunit u.toNat) h) = t
  obtain ⟨huemem, hobjlost⟩ := entryLost_errstat t h
  rw [installEntry_host, installEntry_entryInMem]
  refine ⟨huemem, hobjlost, fun hring => entryLost_state fun q hq => ?_⟩
  rw [← ht, setHunit_cq] at hq
  rw [← ht, setHunit_objAddr]
  have hapart := hring q hq
  omega

theorem objectCacheFill_without_fills {s : State} {u : BitVec 6} (h : Word) (hnone : (s.hunit u.toNat).fills = []) :
    exec (.objectCacheFill u h) s = .next s := by
  change execObjectCacheFill u h s = _
  simp only [execObjectCacheFill, hnone, List.find?_nil]

/-! ### Page walks (R87, R206, R208) -/

theorem pageWalkComplete_without_walks {s : State} {u : BitVec 6} (va : BitVec 52) (hnone : (s.hunit u.toNat).walks = []) :
    exec (.pageWalkComplete u va) s = .next s := by
  change execPageWalkComplete u va s = _
  simp only [execPageWalkComplete, hnone, List.find?_nil]

/-- A handle unit without its walks of a page by the tables of a package. -/
def withoutWalks (x : HandleUnit) (va : BitVec 52) (far : Option (BitVec 10)) : HandleUnit :=
  { x with walks := x.walks.filter fun z => !(z.va == va && z.far == far) }

section
variable {s : State} {u : BitVec 6} {va : BitVec 52} {w : Walk}
  (hfind : (s.hunit u.toNat).walks.find? (fun w => w.va == va && (w.far.isNone || w.answer.isSome)) = some w) (hstale : w.stale = false)
include hfind hstale

/-- The walk found a leaf in the tables of this package, or another package has answered with it. -/
theorem pageWalkComplete_installs {a : Nat} {l : Word} {large : Bool}
    (hfound : w.answer = none ∧ s.walkTables va.toNat = .ok (a, l, large) ∨ w.answer = some (0, l, large) ∧ a = 0) :
    exec (.pageWalkComplete u va) s
      = .next ((s.setHunit u.toNat (withoutWalks (s.hunit u.toNat) va w.far)).installTlb u.toNat va.toNat a l large w.far) := by
  change execPageWalkComplete u va s = _
  rcases hfound with ⟨hanswer, hwalk⟩ | ⟨hanswer, rfl⟩
  · simp only [execPageWalkComplete, hfind, hstale, hanswer, hwalk, Bool.false_eq_true, if_false, filterMap_none_eq_filter, withoutWalks]
  · simp only [execPageWalkComplete, hfind, hstale, hanswer, Bool.false_eq_true, if_false, filterMap_none_eq_filter, withoutWalks]

/-- The walk stopped at a level: of those that had joined it, the first of each bank takes the cause. -/
theorem pageWalkComplete_fails {level : Nat} (hanswer : w.answer = none) (hwalk : s.walkTables va.toNat = .error level) :
    exec (.pageWalkComplete u va) s = .next ((firstPerBank w.joined).foldl
      (fun t x => t.failWaiter x Cause.objMissing level (t.waiterTask x)) (s.setHunit u.toNat (withoutWalks (s.hunit u.toNat) va w.far))) := by
  change execPageWalkComplete u va s = _
  simp only [execPageWalkComplete, hfind, hstale, hanswer, hwalk, Bool.false_eq_true, if_false, filterMap_none_eq_filter, withoutWalks]

end

/-- A bank whose load queue has no command of the place of a request takes the cause of its walk (R351). -/
theorem failWaiter_raises {s : State} {y : Waiter} {c : BitVec 9} {z : CtxId} (hwho : y.who = .core c z)
    (hlq : ∀ q ∈ (s.bank c.toNat y.bank).lq, q.ord ≠ y.ord) (cause : U16) (level : Nat) (task : Word) :
    s.failWaiter y cause level task = s.raise c.toNat y.bank y.source y.fpc task
      { cause, path := pathCode y.path, level := BitVec.ofNat 4 level, handle := y.handle, idx := y.idx, va := y.va } := by
  unfold State.failWaiter
  rw [hwho]
  dsimp only
  refine if_neg ?_
  rw [List.any_eq_true]
  rintro ⟨q, hq, hord⟩
  exact hlq q hq (by simpa using (Bool.and_eq_true_iff.mp hord).1)

/-- One waiter is the first of its bank. -/
theorem firstPerBank_singleton (y : Waiter) : firstPerBank [y] = [y] := rfl

/-- A page walk that nothing had joined fails no one. -/
theorem pageWalkComplete_fails_alone {s : State} {u : BitVec 6} {va : BitVec 52} {w : Walk} {level : Nat}
    (hfind : (s.hunit u.toNat).walks.find? (fun w => w.va == va && (w.far.isNone || w.answer.isSome)) = some w) (hstale : w.stale = false)
    (hanswer : w.answer = none) (hwalk : s.walkTables va.toNat = .error level) (hjoined : w.joined = []) :
    exec (.pageWalkComplete u va) s = .next (s.setHunit u.toNat (withoutWalks (s.hunit u.toNat) va w.far)) := by
  rw [pageWalkComplete_fails hfind hstale hanswer hwalk, hjoined]
  rfl

/-- The one that had joined a page walk that stops takes OBJ_MISSING. -/
theorem pageWalkComplete_raises {s : State} {u : BitVec 6} {va : BitVec 52} {w : Walk} {level : Nat} {y : Waiter} {c : BitVec 9} {z : CtxId}
    (hfind : (s.hunit u.toNat).walks.find? (fun w => w.va == va && (w.far.isNone || w.answer.isSome)) = some w) (hstale : w.stale = false)
    (hanswer : w.answer = none) (hwalk : s.walkTables va.toNat = .error level) (hjoined : w.joined = [y]) (hwho : y.who = .core c z)
    (hlq : ∀ q ∈ (s.bank c.toNat y.bank).lq, q.ord ≠ y.ord) : exec (.pageWalkComplete u va) s
      = .next ((s.setHunit u.toNat (withoutWalks (s.hunit u.toNat) va w.far)).raise c.toNat y.bank y.source y.fpc (s.waiterTask y)
          { cause := Cause.objMissing, path := pathCode y.path, level := BitVec.ofNat 4 level, handle := y.handle, idx := y.idx, va := y.va }) := by
  rw [pageWalkComplete_fails hfind hstale hanswer hwalk, hjoined, firstPerBank_singleton, List.foldl_cons, List.foldl_nil,
    failWaiter_raises (s := s.setHunit u.toNat (withoutWalks (s.hunit u.toNat) va w.far)) hwho hlq]
  rfl

/-! ### Launches of the Spout (R146 to R148) -/

theorem spout_empty {s : State} {sl : Byte} (h : (s.slice sl.toNat).spout = []) :
    exec (.spoutLaunchTaken sl) s = .next s ∧ exec (.spoutNoRecord sl) s = .next s := by
  change execSpoutLaunchTaken sl s = _ ∧ execSpoutNoRecord sl s = _
  simp only [execSpoutLaunchTaken, execSpoutNoRecord, h, and_self]

/-- Nothing is asked of other packages for a launch whose template and parameters are at hand. -/
theorem askSpout_here {s : State} {y : SpoutEntry} {e : Entry} (htemplate : Here s [y.template]) (hknown : s.known y.template = some e)
    (hparam : Here s [tDefparam e]) : s.askSpout y = (s, true) := by
  simp only [State.askSpout, askEntries_here s _ htemplate, askEntries_here s _ hparam, hknown, if_true]

section
variable {s : State} {sl : Byte} {y : SpoutEntry} {rest : List SpoutEntry} (hspout : (s.slice sl.toNat).spout = y :: rest)
  (htemplate : Here s [y.template])
include hspout htemplate

theorem spoutLaunchTaken_unknown (hknown : s.known y.template = none) :
    exec (.spoutLaunchTaken sl) s = .next (s.launchFault sl.toNat y 1) := by
  have hask : s.askSpout y = (s, true) := by simp only [State.askSpout, askEntries_here s _ htemplate, hknown]
  change execSpoutLaunchTaken sl s = _
  simp only [execSpoutLaunchTaken, hspout, hask, hknown, Bool.not_true, Bool.false_eq_true, if_false]

variable {e : Entry} (hknown : s.known y.template = some e) (hparam : Here s [tDefparam e])
include hknown hparam

theorem spoutLaunchTaken_no_template (hkind : eKind e ≠ 2) : exec (.spoutLaunchTaken sl) s = .next (s.launchFault sl.toNat y 4) := by
  change execSpoutLaunchTaken sl s = _
  simp only [execSpoutLaunchTaken, hspout, askSpout_here htemplate hknown hparam, hknown, Bool.not_true, Bool.false_eq_true, if_false]
  exact if_pos hkind

theorem spoutLaunchTaken_no_right (hkind : eKind e = 2) (hright : hasRight e y.world.toNat rightL = false) :
    exec (.spoutLaunchTaken sl) s = .next (s.launchFault sl.toNat y 2) := by
  change execSpoutLaunchTaken sl s = _
  simp only [execSpoutLaunchTaken, hspout, askSpout_here htemplate hknown hparam, hknown, Bool.not_true, Bool.false_eq_true, if_false]
  rw [if_neg (not_not_intro hkind), if_pos (by simp [hright])]

section
variable {v : Nat} (hkind : eKind e = 2) (hright : hasRight e y.world.toNat rightL = true) (hlr : lrParam (spoutRecord y e) = 0)
  (hunit : s.homeUnit (spoutRecord y e) = some v)
include hkind hright hlr hunit

/-- A launch that its template allows waits for a record, is recorded as a fault without credits, or is taken. -/
theorem spoutLaunchTaken_eq : exec (.spoutLaunchTaken sl) s =
    if s.freeRecords v = 0 then .next s
    else if (s.cq (lrCq (spoutRecord y e))).isNone || s.cqFree (lrCq (spoutRecord y e)) < lrNeeds (spoutRecord y e) then
      .next (s.launchFault sl.toNat y 5)
    else .next (((s.setSlice sl.toNat { s.slice sl.toNat with spout := rest }).takeCredits (lrCq (spoutRecord y e))
      (lrNeeds (spoutRecord y e))).accept v (spoutRecord y e) (fun k => { k with viaCasc := true }) none).1 := by
  change execSpoutLaunchTaken sl s = _
  simp only [execSpoutLaunchTaken, hspout, askSpout_here htemplate hknown hparam, hknown, Bool.not_true, Bool.false_eq_true, if_false]
  rw [if_neg (not_not_intro hkind), if_neg (by simp [hright, hlr]), hunit]

theorem spoutLaunchTaken_waits (hfree : s.freeRecords v = 0) : exec (.spoutLaunchTaken sl) s = .next s := by
  rw [spoutLaunchTaken_eq hspout htemplate hknown hparam hkind hright hlr hunit, if_pos hfree]

theorem spoutLaunchTaken_no_credit (hfree : s.freeRecords v ≠ 0)
    (hcq : (s.cq (lrCq (spoutRecord y e))).isNone = true ∨ s.cqFree (lrCq (spoutRecord y e)) < lrNeeds (spoutRecord y e)) :
    exec (.spoutLaunchTaken sl) s = .next (s.launchFault sl.toNat y 5) := by
  rw [spoutLaunchTaken_eq hspout htemplate hknown hparam hkind hright hlr hunit, if_neg hfree, if_pos (by simpa using hcq)]

theorem spoutLaunchTaken_accepts (hfree : s.freeRecords v ≠ 0) (hcq : (s.cq (lrCq (spoutRecord y e))).isSome = true)
    (hcredit : lrNeeds (spoutRecord y e) ≤ s.cqFree (lrCq (spoutRecord y e))) : exec (.spoutLaunchTaken sl) s
      = .next (((s.setSlice sl.toNat { s.slice sl.toNat with spout := rest }).takeCredits (lrCq (spoutRecord y e))
        (lrNeeds (spoutRecord y e))).accept v (spoutRecord y e) (fun k => { k with viaCasc := true }) none).1 := by
  rw [spoutLaunchTaken_eq hspout htemplate hknown hparam hkind hright hlr hunit, if_neg hfree, if_neg]
  simp [Option.isSome_iff_ne_none.mp hcq, hcredit]

end

/-- A launch that finds no record for 4,096 cycles is recorded as a fault. -/
theorem spoutNoRecord_faults {v : Nat} (hunit : s.homeUnit (spoutRecord y e) = some v) (hfree : s.freeRecords v = 0)
    (hlate : y.forwarded + 4096 ≤ s.cycle) : exec (.spoutNoRecord sl) s = .next (s.launchFault sl.toNat y 3) := by
  change execSpoutNoRecord sl s = _
  simp [execSpoutNoRecord, hspout, askSpout_here htemplate hknown hparam, hknown, hunit, hfree, hlate]

theorem spoutNoRecord_waits (h : (∃ v, s.homeUnit (spoutRecord y e) = some v ∧ s.freeRecords v ≠ 0) ∨ s.cycle < y.forwarded + 4096) :
    exec (.spoutNoRecord sl) s = .next s := by
  change execSpoutNoRecord sl s = _
  simp only [execSpoutNoRecord, hspout, askSpout_here htemplate hknown hparam, hknown, Bool.not_true, Bool.false_eq_true, if_false]
  rw [if_neg]
  rcases h with ⟨v, hunit, hfree⟩ | hearly
  · simp [hunit, hfree]
  · simp [Nat.not_le.mpr hearly]

end

/-! ### Near-bank commands (R363) -/

/-- A request without a segment counts nowhere. -/
theorem pushReq_mem {s : State} {r : Req} (h : r.place.leafPa = 0) : (s.pushReq r).mem = s.mem := by
  simp [State.pushReq, h]

theorem setLeaf_cores (s : State) (a : Nat) (g : Nat → Nat) : (s.setLeaf a g).cores = s.cores := rfl

theorem pushReq_cores (s : State) (r : Req) : (s.pushReq r).cores = s.cores := by
  unfold State.pushReq
  dsimp only
  split
  · rw [State.busyUp, setLeaf_cores]
  · rfl

theorem issueReq_mem {s : State} {r : Req} (h : r.place.leafPa = 0) : (s.issueReq r).mem = s.mem := by
  unfold State.issueReq
  split
  · split
    · rw [sendReq_mem, pushReq_mem (by split <;> exact h)]
      split <;> rfl
    · exact pushReq_mem h
  · exact pushReq_mem h

theorem issueReq_cores (s : State) (r : Req) : (s.issueReq r).cores = s.cores := by
  unfold State.issueReq
  split
  · split
    · rw [sendReq_cores, pushReq_cores]
      split <;> rfl
    · exact pushReq_cores ..
  · exact pushReq_cores ..

/-- To recall copies from other packages is to ask them. -/
theorem recallFar_mem (s : State) (h : Word) (va n : Nat) : (s.recallFar h va n).mem = s.mem := by
  unfold State.recallFar
  refine foldl_keeps State.mem _ (fun _ _ => issueReq_mem ?_) _ _
  simp only [noPlace]

theorem recallFar_cores (s : State) (h : Word) (va n : Nat) : (s.recallFar h va n).cores = s.cores :=
  foldl_keeps State.cores _ (fun _ _ => issueReq_cores ..) _ _

section
variable {s : State} {f : BitVec 9} {b : BitVec 1} {n : BitVec 5} {c : Cmd} (hc : s.nbAt f.toNat b n.toNat = some c)
include hc

theorem nearbankStart_waits (hfree : s.nbFree f.toNat b c = false) : exec (.nearbankStart f b n) s = .next s := by
  change execNearbankStart f b n s = _
  simp [execNearbankStart, hc, hfree]

/-- A command without segments to hold starts, and asks other packages for the copies of its lines. -/
theorem nearbankStart_starts (hstarted : c.started = false) (hfree : s.nbFree f.toNat b c = true) (hleaves : c.nbLeaves = []) :
    Ends (exec (.nearbankStart f b n) s) (fun t => t.mem = s.mem
      ∧ (t.bank f.toNat b).xq = ((s.bank f.toNat b).mapCmd .XQ c.ser fun c => { c with started := true }).xq) := by
  change Ends (execNearbankStart f b n s) _
  simp only [execNearbankStart, hc, hstarted, hfree, hleaves, Bool.not_true, List.any_nil, Bool.or_self, Bool.false_eq_true, if_false,
    List.foldl_nil]
  refine ends_next.mpr ⟨recallFar_mem .., ?_⟩
  rw [State.bank_setBank_same, State.bank, State.core, recallFar_cores, ← State.core, ← State.bank]

theorem nearbankComplete_waits (h : c.started = false ∨ s.nbRecalling c = true) : exec (.nearbankComplete f b n) s = .next s := by
  change execNearbankComplete f b n s = _
  simp only [execNearbankComplete, hc]
  rw [if_neg]
  rcases h with hidle | hrecall
  · simp [hidle]
  · simp [hrecall]

theorem nearbankComplete_finishes (hstarted : c.started = true) (hrecall : s.nbRecalling c = false) :
    exec (.nearbankComplete f b n) s = .next (s.nbFinish f.toNat b c) := by
  change execNearbankComplete f b n s = _
  simp [execNearbankComplete, hc, hstarted, hrecall]

end

/-! ### Retired blocks (R429) -/

/-- A state without a block of an object that waits for its last pin. -/
def withoutRetired (s : State) (h : Word) (blk : BitVec 14) : State :=
  { s with objs := { s.objs with attnFree := s.objs.attnFree.filter fun y => !(y.1 == objKey h && y.2 == blk.toNat) } }

theorem withoutRetired_attnFree (s : State) (h : Word) (blk : BitVec 14) :
    (withoutRetired s h blk).objs.attnFree = s.objs.attnFree.filter fun y => !(y.1 == objKey h && y.2 == blk.toNat) := rfl

theorem withoutRetired_mem (s : State) (h : Word) (blk : BitVec 14) : (withoutRetired s h blk).mem = s.mem := rfl

section
variable {s : State} {h : Word} {blk : BitVec 14}

theorem pinReleaseFree_frees (hhome : hHome h = s.pkgNo) (hretired : (objKey h, blk.toNat) ∈ s.objs.attnFree)
    (hpins : ∀ p ∈ s.spanPins h, p.blk ≠ blk.toNat) (hleaf : s.blkLeaf (s.entryInMem (hIndex h)) blk.toNat = none) :
    exec (.pinReleaseFree h blk) s = .next ((withoutRetired s h blk).seqFree h (s.entryInMem (hIndex h))
      { run := 0, task := 0, path := .A, ord := 0 } blk.toNat) := by
  have hmine : s.objs.attnFree.any (fun x => x.1 == objKey h && x.2 == blk.toNat) = true := List.any_eq_true.mpr ⟨_, hretired, by simp⟩
  have hfree : (s.spanPins h).any (fun p => p.blk == blk.toNat) = false := List.any_eq_false.mpr fun p hp => by simpa using hpins p hp
  change execPinReleaseFree h blk s = _
  rw [execPinReleaseFree]
  dsimp only
  rw [hmine, hfree, hleaf, if_neg (by simp [hhome]), withoutRetired]

theorem pinReleaseFree_pinned (hpin : ∃ p ∈ s.spanPins h, p.blk = blk.toNat) : exec (.pinReleaseFree h blk) s = .next s := by
  have hpinned : (s.spanPins h).any (fun p => p.blk == blk.toNat) = true := by simpa using hpin
  change execPinReleaseFree h blk s = _
  rw [execPinReleaseFree]
  dsimp only
  rw [hpinned, if_pos (by simp)]

end

/-! ### The obligation -/

/-- Settles O53: each event is one of the cases above. -/
theorem unitEvents : Obligations.UnitEvents := by
  intro s u h va sl f b n blk
  refine ⟨fun y hfind hstale => ?fills, objectCacheFill_without_fills h, pageWalkComplete_without_walks va, fun w hfind hstale => ?walks,
    fun y rest hspout htemplate => ?spout, spout_empty, fun c hc => ?nearbank, fun hhome hretired hpins hleaf => ?retired,
    pinReleaseFree_pinned⟩
  case fills =>
    exact ⟨objectCacheFill_installs hfind hstale, objectCacheFill_unanswered hfind,
      fun _ hhome hremote hok => objectCacheFill_remote hfind hstale hhome hremote hok,
      objectCacheFill_reads_again hfind hstale, objectCacheFill_loses_reports hfind hstale⟩
  case walks =>
    exact ⟨fun _ _ _ hanswer hwalk => pageWalkComplete_installs hfind hstale (.inl ⟨hanswer, hwalk⟩),
      fun _ _ hanswer => pageWalkComplete_installs hfind hstale (.inr ⟨hanswer, rfl⟩),
      fun _ hanswer hwalk => ⟨pageWalkComplete_fails_alone hfind hstale hanswer hwalk,
        fun _ _ _ hjoined hwho hlq => pageWalkComplete_raises hfind hstale hanswer hwalk hjoined hwho hlq⟩⟩
  case spout =>
    refine ⟨spoutLaunchTaken_unknown hspout htemplate, fun e v hknown hparam => ⟨spoutLaunchTaken_no_template hspout htemplate hknown hparam,
      spoutLaunchTaken_no_right hspout htemplate hknown hparam, fun hkind hright hlr hunit => ⟨?_, ?_, ?_⟩,
      spoutNoRecord_faults hspout htemplate hknown hparam,
      fun hunit hfree => spoutNoRecord_waits hspout htemplate hknown hparam (.inl ⟨v, hunit, hfree⟩),
      fun hearly => spoutNoRecord_waits hspout htemplate hknown hparam (.inr hearly)⟩⟩
    · exact spoutLaunchTaken_waits hspout htemplate hknown hparam hkind hright hlr hunit
    · exact spoutLaunchTaken_no_credit hspout htemplate hknown hparam hkind hright hlr hunit
    · exact spoutLaunchTaken_accepts hspout htemplate hknown hparam hkind hright hlr hunit
  case nearbank =>
    exact ⟨nearbankStart_starts hc, nearbankStart_waits hc, nearbankComplete_waits hc, nearbankComplete_finishes hc⟩
  case retired =>
    exact ⟨withoutRetired s h blk, withoutRetired_attnFree s h blk, withoutRetired_mem s h blk,
      pinReleaseFree_frees hhome hretired hpins hleaf⟩

end Sys2Proof.Laws
end

section
/-!
PROOFS. The security service (05_worlds.md, R108, R112 to R117).
-/

namespace Sys2Proof.Laws

open Sys2Proof Sys2Proof.Machine Sys2Proof.Safety

/-! ### The answer of the service leaves the keys alone (R112) -/

theorem setLeaf_sec (s : State) (a : Nat) (g : Nat → Nat) : (s.setLeaf a g).sec = s.sec := rfl

theorem pushReq_sec (s : State) (r : Req) : (s.pushReq r).sec = s.sec := by
  unfold State.pushReq
  dsimp only
  split
  · rw [State.busyUp, setLeaf_sec]
  · rfl

theorem sendReq_sec (s : State) (dst : Nat) (q : RemoteReq) : (s.sendReq dst q).sec = s.sec :=
  eq_of_apartLinks State.sec (sendReq_apartLinks s dst q)

theorem issueReq_sec (s : State) (r : Req) : (s.issueReq r).sec = s.sec := by
  unfold State.issueReq
  split
  · split
    · rw [sendReq_sec, pushReq_sec]
      split <;> rfl
    · exact pushReq_sec ..
  · exact pushReq_sec ..

theorem perform_sec (s : State) (h : Word) (w : Writer) (shift : Int) (bs : List (Nat × Byte × Byte)) :
    (s.perform h w shift bs).sec = s.sec := by
  refine foldl_keeps State.sec _ (fun t x => ?_) bs _
  unfold State.putByte
  dsimp only
  split <;> rfl

/-- What the security complex holds. The steps of svcWrite are compared under this name and not under the field's: to compare fields the
kernel would evaluate the look-up of the service object. -/
def complexOf (s : State) : Security := s.sec

theorem sec_of_complexOf {s t : State} (h : complexOf t = complexOf s) : t.sec = s.sec := h

/-- Here the function is unfolded before it is applied, for the same reason. -/
theorem svcWrite_complexOf (s : State) (off : Nat) (bs : List Byte) : complexOf (s.svcWrite off bs) = complexOf s := by
  obtain ⟨write, hwrite⟩ : ∃ write, write = State.svcWrite := ⟨_, rfl⟩
  rw [← hwrite]
  delta State.svcWrite at hwrite
  subst hwrite
  beta_reduce
  cases s.known s.svcHandle with
  | none => rfl
  | some e =>
    refine foldl_keeps complexOf _ (fun t k => ?_) _ _
    extract_lets lo part va
    cases t.omPage va with
    | ok l pa => exact perform_sec ..
    | lost => rfl
    | wait => rfl

theorem svcWrite_sec (s : State) (off : Nat) (bs : List Byte) : (s.svcWrite off bs).sec = s.sec :=
  sec_of_complexOf (svcWrite_complexOf s off bs)

theorem putVersion_sec (s : State) (i : Nat) (v : U32) : (s.putVersion i v).sec = s.sec := by
  obtain ⟨m, hm⟩ : ∃ m, s.putVersion i v = { s with mem := m } := ⟨_, rfl⟩
  rw [hm]

theorem advanceVersion_sec (s : State) (v : Ver) (task : Word) : (s.advanceVersion v task).sec = s.sec := by
  rw [State.advanceVersion]
  refine (foldl_keeps State.sec _ (fun _ _ => issueReq_sec ..) _ _).trans ?_
  dsimp only
  exact putVersion_sec ..

theorem svcPublish_sec (s : State) (n : Nat) : (s.svcPublish n).sec = s.sec := by
  induction n generalizing s with
  | zero => rfl
  | succ n ih => rw [State.svcPublish, ih, advanceVersion_sec]

theorem wake_sec (s : State) (k : Nat) : (s.wake k).sec = s.sec :=
  foldl_keeps State.sec _ (fun t n => State.setSys_sec t n _) _ _

theorem setErr_sec (s : State) (k : Nat) (d4 d5 : Word) : (s.setErr k d4 d5).sec = s.sec := by
  obtain ⟨_, _, _, _, h⟩ := setErr_eq s k d4 d5
  rw [h]

/-- An answer ends the request, and takes note of the VERSION that it has published. -/
theorem respond_sec (s : State) (number status : Nat) (body : List Byte) :
    ∃ v, (s.respond number status body).sec = { s.sec with request := none, faulted := false, answered := v } := by
  rw [State.respond, wake_sec]
  dsimp only
  rw [svcPublish_sec, svcWrite_sec]
  exact ⟨_, rfl⟩

theorem respond_request (s : State) (number status : Nat) (body : List Byte) : (s.respond number status body).sec.request = none := by
  obtain ⟨v, h⟩ := respond_sec s number status body
  rw [h]

/-! ### Requests (R112) -/

section
variable {s : State} {r bs : List Byte} {opc : Nat} (f : List Byte → State → State × Nat × List Byte)

/-- Without a request, or before bring-up has ended, the service does nothing. -/
theorem service_idle (h : s.ready = false ∨ s.sec.request = none ∧ s.versionAt 1 = s.sec.answered) : s.service opc f = s := by
  rcases h with hready | ⟨hnone, hversion⟩
  · simp [State.service, hready]
  · simp [State.service, hnone, hversion]

/-- A published request is started while VERSION is odd; VERSION is even where the requester has published again. -/
theorem service_asked (h : s.ready = true ∧ s.sec.request = none ∧ s.versionAt 1 ≠ s.sec.answered ∧ s.svcRead 0 4096 = some r)
    (hopc : reqOpc r = opc) : s.service opc f = if (s.versionAt 1).getLsbD 0 then { s with sec := { s.sec with request := some r } }
      else s.respond (reqNumber r) SecStatus.busy [] := by
  obtain ⟨hready, hnone, hversion, hread⟩ := h
  simp [State.service, hready, hnone, hversion, hread, hopc]

/-- A started request of an opc of Table 5-4 is carried out and answered. -/
theorem service_runs (h : s.ready = true ∧ s.sec.request = some r ∧ s.sec.faulted = false ∧ s.svcRead 0 8 = some bs)
    (hopc : reqOpc r = opc) (hlo : 1 ≤ opc) (hhi : opc ≤ 6) :
    s.service opc f = (f r s).1.respond (reqNumber r) (f r s).2.1 (f r s).2.2 := by
  obtain ⟨hready, hrequest, hfaulted, hread⟩ := h
  simp [State.service, hready, hrequest, hfaulted, hread, hopc, hlo, hhi]

/-- A started request of no opc of Table 5-4 is answered BADREQ. -/
theorem service_unknown (h : s.ready = true ∧ s.sec.request = some r ∧ s.sec.faulted = false ∧ s.svcRead 0 8 = some bs)
    (hopc : reqOpc r = 0 ∨ 6 < reqOpc r) : s.service 1 f = s.respond (reqNumber r) SecStatus.badReq [] := by
  obtain ⟨hready, hrequest, hfaulted, hread⟩ := h
  have hnot : ¬ (1 ≤ reqOpc r ∧ reqOpc r ≤ 6) := by omega
  simp [State.service, hready, hrequest, hfaulted, hread, hnot]

/-- A request that a lockstep mismatch has ended is answered SEC_FAULT once the object can be written. -/
theorem service_faulted (hready : s.ready = true) (hrequest : s.sec.request = some r) (hfaulted : s.sec.faulted = true)
    (hread : s.svcRead 0 8 = some bs) (hopc : reqOpc r = opc) : s.service opc f = s.respond (reqNumber r) SecStatus.secFault [] := by
  simp [State.service, hready, hrequest, hfaulted, hread, hopc]

end

/-! ### World keys (R113, R114) -/

section
variable {s : State} {r kw : List Byte}

theorem worldZero_badReq (hw : (reqWorld r).toNat = 0) :
    worldCreate r s = (s, 1, []) ∧ worldDestroy r s = (s, 1, []) ∧ keyTransfer r s = (s, 1, []) := by
  simp [worldCreate, worldDestroy, keyTransfer, hw, SecStatus.badReq]

theorem loadKey_keys (s : State) (w : Nat) (kw : List Byte) :
    tfind (s.loadKey w kw).sec.keys w = some kw ∧ tfind (s.loadKey w kw).sec.engineKeys w = some kw :=
  ⟨tfind_tset_same .., tfind_tset_same ..⟩

theorem eraseKey_keys (s : State) (w : Nat) :
    tfind (s.eraseKey w).sec.keys w = none ∧ tfind (s.eraseKey w).sec.engineKeys w = none :=
  ⟨tfind_tdel_same .., tfind_tdel_same ..⟩

variable (hw : (reqWorld r).toNat ≠ 0)
include hw

theorem worldCreate_loads (hunwrap : s.unwrap r = (kw, true)) (hkey : tfind s.sec.keys (reqWorld r).toNat = none) :
    worldCreate r s = (s.loadKey (reqWorld r).toNat kw, 0, []) := by
  simp [worldCreate, hw, hkey, hunwrap, SecStatus.ok]

theorem worldCreate_exists (hkey : (tfind s.sec.keys (reqWorld r).toNat).isSome = true) : worldCreate r s = (s, 2, []) := by
  simp [worldCreate, hw, hkey, SecStatus.worldExists]

theorem worldCreate_badKey (hunwrap : (s.unwrap r).2 = false) (hkey : tfind s.sec.keys (reqWorld r).toNat = none) :
    worldCreate r s = (s, 5, []) := by
  simp [worldCreate, hw, hkey, hunwrap, SecStatus.badKey]

theorem keyTransfer_badKey (hunwrap : (s.unwrap r).2 = false) : keyTransfer r s = (s, 5, []) := by
  simp [keyTransfer, hw, hunwrap, SecStatus.badKey]

theorem keyTransfer_same (hunwrap : s.unwrap r = (kw, true)) (hkey : tfind s.sec.keys (reqWorld r).toNat = some kw) :
    keyTransfer r s = (s, 0, []) := by
  simp [keyTransfer, hw, hunwrap, hkey, SecStatus.ok]

theorem worldDestroy_noWorld (hkey : tfind s.sec.keys (reqWorld r).toNat = none) : worldDestroy r s = (s, 3, []) := by
  simp [worldDestroy, hw, hkey, SecStatus.noWorld]

variable (hkey : (tfind s.sec.keys (reqWorld r).toNat).isSome = true)
include hkey

theorem worldDestroy_busy (huse : s.worldInUse (reqWorld r).toNat = true) : worldDestroy r s = (s, 4, []) := by
  simp [worldDestroy, hw, Option.ne_none_iff_isSome.mpr hkey, huse, SecStatus.worldBusy]

theorem worldDestroy_erases (huse : s.worldInUse (reqWorld r).toNat = false) :
    worldDestroy r s = (s.eraseKey (reqWorld r).toNat, 0, []) := by
  simp [worldDestroy, hw, Option.ne_none_iff_isSome.mpr hkey, huse, SecStatus.ok]

end

/-! ### Signature indices (R115 to R117) -/

section
variable {s : State} (r : List Byte)

theorem keyGenerate_badReq (hused : s.sec.exhausted = false) : keyGenerate r s = (s, 1, []) := by
  simp [keyGenerate, hused, SecStatus.badReq]

/-- After exhaustion a new signature key begins at index 0, without a certificate. -/
theorem keyGenerate_new (hused : s.sec.exhausted = true) : (keyGenerate r s).1.sec.exhausted = false ∧ (keyGenerate r s).1.sec.cert = none
    ∧ (keyGenerate r s).1.sec.nextIdx = 0 ∧ (keyGenerate r s).2.1 = 0 := by
  simp [keyGenerate, hused, SecStatus.ok]

theorem attestReport_noCert (hused : s.sec.exhausted = false) (hcert : s.sec.cert = none) : attestReport r s = (s, 7, []) := by
  simp [attestReport, hused, hcert, SecStatus.noCert]

/-- An index of the block in use is reserved by counting it alone. -/
theorem nextSignature_counts (hused : s.sec.exhausted = false) (hmax : s.sec.nextIdx < 2 ^ 40) (hblock : s.sec.nextIdx < s.sec.nextRes) :
    s.nextSignature = (some s.sec.nextIdx, { s with sec := { s.sec with nextIdx := s.sec.nextIdx + 1 } }) := by
  have hlast : ¬ 2 ^ 40 ≤ s.sec.nextIdx := by omega
  have hinside : s.sec.nextIdx ≠ s.sec.nextRes := by omega
  simp only [State.nextSignature, hused, hlast, hinside, decide_false, Bool.false_and, Bool.or_self, Bool.false_eq_true, if_false]

theorem attestReport_counts (hused : s.sec.exhausted = false) (hcert : s.sec.cert.isSome = true) (hmax : s.sec.nextIdx < 2 ^ 40)
    (hblock : s.sec.nextIdx < s.sec.nextRes) : (attestReport r s).2.1 = 0 ∧ (attestReport r s).1.sec.nextIdx = s.sec.nextIdx + 1
      ∧ (attestReport r s).1.sec.keys = s.sec.keys := by
  simp [attestReport, nextSignature_counts hused hmax hblock, Option.ne_none_iff_isSome.mpr hcert, SecStatus.ok]

theorem attestReport_exhausted (hused : s.sec.exhausted = true) : (attestReport r s).2.1 = 6 := by
  simp [attestReport, State.nextSignature, hused, SecStatus.sigExhausted]

end

/-! ### Lockstep mismatches (R108, R116) -/

/-- The complex has reset: the rest of its block of signature indices is never used. -/
def complexReset (s : State) : State := { s with sec := { s.sec with nextIdx := s.sec.nextRes } }

/-- The request in progress ends with SEC_FAULT: at once where the service object can be written, else later. -/
def requestFailed (s : State) : State :=
  match s.sec.request with
  | some r =>
    if (s.svcRead 0 8).isSome then s.respond (reqNumber r) SecStatus.secFault [] else { s with sec := { s.sec with faulted := true } }
  | none => s

/-- KEYSETs in progress are to end with SEC_FAULT. -/
def keysetsFailed (s : State) : State :=
  { s with sys := s.sys.map fun x => (x.1, if x.2.ctx.fence.isSome then { x.2 with secFault := true } else x.2) }

/-- And UEMEM is raised. -/
def mismatchReported (s : State) : State := (keysetsFailed s).setErr 1 0xFFFFFFFF 0

theorem exec_lockstepMismatch (s : State) :
    exec .securityLockstepMismatch s = .next (mismatchReported (requestFailed (complexReset s))) := rfl

theorem mismatchReported_sec (s : State) : (mismatchReported s).sec = s.sec := setErr_sec ..

theorem mismatchReported_errstat (s : State) : (mismatchReported s).host.errstat.getLsbD 1 = true := setErr_errstat _ _ _ _ (by decide)

theorem mismatchReported_memoryBut (s : State) : MemoryBut s (mismatchReported s) 0 :=
  fun a ha => setErr_memoryBut (keysetsFailed s) 1 _ _ a ha

/-- What the service reads of its object does not hang on the signature indices. -/
theorem complexReset_svcRead (s : State) (off n : Nat) : (complexReset s).svcRead off n = s.svcRead off n := by
  have hknown (h : Word) : (complexReset s).known h = s.known h := rfl
  have hpage (va : Nat) : (complexReset s).omPage va = s.omPage va := rfl
  have hbyte (h : Word) (va pa : Nat) : (complexReset s).plainByte h va pa = s.plainByte h va pa := rfl
  have hhandle : (complexReset s).svcHandle = s.svcHandle := rfl
  obtain ⟨read, hdef⟩ : ∃ read, read = State.svcRead := ⟨_, rfl⟩
  rw [← hdef]
  delta State.svcRead at hdef
  subst hdef
  simp only [hknown, hpage, hbyte, hhandle]

section
variable {s : State} {r bs : List Byte}

/-- Without a request the mismatch is reported, and keys and memory stay. -/
theorem lockstepMismatch_idle (hnone : s.sec.request = none) : Ends (exec .securityLockstepMismatch s) (fun t => t.sec.request = none
    ∧ t.sec.keys = s.sec.keys ∧ t.sec.nextIdx = s.sec.nextRes ∧ t.host.errstat.getLsbD 1 = true ∧ MemoryBut s t 0) := by
  have hfailed : requestFailed (complexReset s) = complexReset s := by
    have hreset : (complexReset s).sec.request = none := hnone
    simp only [requestFailed, hreset]
  rw [exec_lockstepMismatch, hfailed, ends_next, mismatchReported_sec]
  exact ⟨hnone, rfl, rfl, mismatchReported_errstat _, mismatchReported_memoryBut (complexReset s)⟩

variable (hrequest : s.sec.request = some r)
include hrequest

/-- A request in progress ends with SEC_FAULT where the object can be written. -/
theorem lockstepMismatch_answers (hread : s.svcRead 0 8 = some bs) : Ends (exec .securityLockstepMismatch s) (fun t =>
    t.sec.request = none ∧ t.sec.keys = s.sec.keys ∧ t.sec.nextIdx = s.sec.nextRes ∧ t.host.errstat.getLsbD 1 = true) := by
  have hfailed : requestFailed (complexReset s) = (complexReset s).respond (reqNumber r) SecStatus.secFault [] := by
    have hreset : (complexReset s).sec.request = some r := hrequest
    simp only [requestFailed, hreset, complexReset_svcRead, hread, Option.isSome_some, if_true]
  obtain ⟨v, hsec⟩ := respond_sec (complexReset s) (reqNumber r) SecStatus.secFault []
  rw [exec_lockstepMismatch, hfailed, ends_next, mismatchReported_sec, hsec]
  exact ⟨rfl, rfl, rfl, mismatchReported_errstat _⟩

/-- Where the object cannot be written, the request is to be answered later. -/
theorem lockstepMismatch_waits (hread : s.svcRead 0 8 = none) : Ends (exec .securityLockstepMismatch s) (fun t =>
    t.sec.request = some r ∧ t.sec.faulted = true ∧ t.sec.nextIdx = s.sec.nextRes ∧ t.host.errstat.getLsbD 1 = true) := by
  have hfailed : requestFailed (complexReset s) = { complexReset s with sec := { (complexReset s).sec with faulted := true } } := by
    have hreset : (complexReset s).sec.request = some r := hrequest
    simp only [requestFailed, hreset, complexReset_svcRead, hread, Option.isSome_none, Bool.false_eq_true, if_false]
  rw [exec_lockstepMismatch, hfailed, ends_next, mismatchReported_sec]
  exact ⟨hrequest, rfl, rfl, mismatchReported_errstat _⟩

end

/-! ### The obligation -/

/-- An event of the service is one turn of it. -/
theorem exec_of_service {s t : State} {i : Instr} {opc : Nat} {f : List Byte → State → State × Nat × List Byte}
    (hexec : exec i s = .next (s.service opc f)) (h : s.service opc f = t) : exec i s = .next t := hexec.trans (congrArg _ h)

/-- Settles O55: each request and each lockstep mismatch is one of the cases above. -/
theorem securityService : Obligations.SecurityService := by
  intro s r bs kw
  refine ⟨fun h => ?idle, fun h => ?asked, fun h => ?runs, fun u => respond_request u _, worldZero_badReq, fun hw hunwrap hkey => ?create,
    worldCreate_exists, fun hw hunwrap hkey => ⟨worldCreate_badKey hw hunwrap hkey, keyTransfer_badKey hw hunwrap⟩, keyTransfer_same,
    worldDestroy_noWorld, worldDestroy_busy, fun hw hkey huse => ?destroy, keyGenerate_badReq r, keyGenerate_new r, attestReport_noCert r,
    attestReport_counts r, fun hused _ => attestReport_exhausted r hused, lockstepMismatch_idle, lockstepMismatch_answers,
    lockstepMismatch_waits, fun hready hrequest hfaulted hread hopc =>
      exec_of_service rfl (service_faulted worldCreate hready hrequest hfaulted hread hopc)⟩
  case idle =>
    exact ⟨exec_of_service rfl (service_idle attestReport h), exec_of_service rfl (service_idle worldCreate h),
      exec_of_service rfl (service_idle worldDestroy h), exec_of_service rfl (service_idle keyGenerate h),
      exec_of_service rfl (service_idle certInstall h), exec_of_service rfl (service_idle keyTransfer h)⟩
  case asked =>
    have first {i : Instr} {opc : Nat} {f : List Byte → State → State × Nat × List Byte} (hexec : exec i s = .next (s.service opc f))
        (hopc : reqOpc r = opc) := (exec_of_service hexec (service_asked f h hopc)).trans (apply_ite ..)
    exact ⟨first rfl, first rfl, first rfl, first rfl, first rfl, first rfl⟩
  case runs =>
    have done {i : Instr} {opc : Nat} {f : List Byte → State → State × Nat × List Byte} (hlo : 1 ≤ opc) (hhi : opc ≤ 6)
        (hexec : exec i s = .next (s.service opc f)) (hopc : reqOpc r = opc) := exec_of_service hexec (service_runs f h hopc hlo hhi)
    exact ⟨done (by decide) (by decide) rfl, done (by decide) (by decide) rfl, done (by decide) (by decide) rfl,
      done (by decide) (by decide) rfl, done (by decide) (by decide) rfl, done (by decide) (by decide) rfl,
      fun hopc => exec_of_service rfl (service_unknown attestReport h hopc)⟩
  case create =>
    rw [worldCreate_loads hw hunwrap hkey]
    exact ⟨rfl, loadKey_keys ..⟩
  case destroy =>
    rw [worldDestroy_erases hw hkey huse]
    exact ⟨rfl, eraseKey_keys ..⟩

end Sys2Proof.Laws
end

section
/-!
PROOFS. The intake chains (07_intake.md, R157, R158, R164 to R173).
-/

namespace Sys2Proof.Laws

open Sys2Proof Sys2Proof.Machine Sys2Proof.Safety

/-! ### Batches (R166, R167) -/

section
variable (n k : Nat) {c : Chain} {m : ChainMsg}

/-- Stages without a message form no batch. -/
theorem fill_idle (hmsg : c.msg = none) (hbehind : c.behind = []) : Chain.fill n (k + 1) c = { c with bpWait := false } := by
  have hshift : c.shift = c := by simp [Chain.shift, hmsg, hbehind]
  simp only [Chain.fill, hshift, hmsg]

/-- The only message of the stages comes to TOKN. -/
theorem shift_behind (hmsg : c.msg = none) (hbehind : c.behind = [m]) : c.shift = { c with msg := some m, behind := [] } := by
  simp [Chain.shift, hmsg, hbehind]

/-- A faulted message without tokens stands at TOKN. -/
theorem fill_faulted (hmsg : c.msg = none) (hbehind : c.behind = [m]) (htokens : m.tokens = []) (hfault : m.fault ≠ none) :
    Chain.fill n (k + 1) c = { c with msg := some m, behind := [], bpWait := false } := by
  have hnothing : (!m.tokens.isEmpty || m.fault.isNone) = false := by
    simp [htokens, Option.isSome_iff_ne_none, hfault]
  simp only [Chain.fill, shift_behind hmsg hbehind, hnothing, Bool.not_false, Bool.true_or, if_true]

/-- A message without tokens and without a fault gives one batch, and ends. -/
theorem fill_without_tokens (hmsg : c.msg = none) (hbehind : c.behind = [m]) (htokens : m.tokens = []) (hfault : m.fault = none)
    (hruns : c.stopped = false) (hroom : c.out.length < 16) : Chain.fill n (k + 2) c
      = { c with msg := none, behind := [], out := c.out ++ [batchOf n m [] true false], bpWait := false } := by
  have hgoes : Chain.stopped { c with msg := some m, behind := [] } = false := hruns
  rw [Chain.fill, shift_behind hmsg hbehind]
  simp only [hgoes, htokens, hfault, Option.isNone_none, Bool.or_true, Bool.not_true, Bool.or_self, Bool.false_eq_true, if_false,
    if_neg (Nat.not_le.mpr hroom), List.take_nil, List.drop_nil, List.isEmpty_nil, Bool.and_self, if_true]
  rw [fill_idle _ _ rfl rfl]

end

/-- A batch without tokens has its 64 bytes of header alone. -/
theorem batchOf_length (n : Nat) (m : ChainMsg) (last faultEnd : Bool) : (batchOf n m [] last faultEnd).bytes.length = 64 := by
  simp [batchOf, bytesOfWords_length]

/-! ### The start of a message (R157, R158, R170) -/

/-- A message as the front hands it to the stages: its number, its consumers that pass check 4, and what it gives. -/
def messageOf (u : State) (n : Nat) (x : Submission) (tokens : List Word) (f : Option ChainFault) : ChainMsg :=
  let names := chainNames (u.chain n) x
  let slots := names.filterMap fun w => u.consumerSlot x.world.toNat w.2
  { no := (u.chain n).count, sub := x, cons := names.filter fun w => (u.consumerSlot x.world.toNat w.2).isSome
    cap := ((slots.foldl min (slots.headD 128)) - 64) / 4, tokens, sent := 0, first := true, fault := f.map fun f => { f with when_ := u.tether } }

/-- The chain that has taken a message from its queue, with the tables that it holds. -/
def takenUp (u : State) (n : Nat) (x : Submission) (rest : List Submission) (tables : List (Word × U32 × List Word)) (tokens : List Word)
    (f : Option ChainFault) : Chain :=
  let c := u.chain n
  { c with queue := rest, behind := c.behind ++ [messageOf u n x tokens f], count := c.count + 1, tables }

/-- The message enters the stages, which form the batches that have room. -/
def entered (u : State) (n : Nat) (c : Chain) : State := (u.dropLines (chainKey n)).setChain n (Chain.fill n 22 c)

theorem entered_chain (u : State) (n : Nat) (c : Chain) : (entered u n c).chain n = Chain.fill n 22 c := State.chain_setChain_same ..

section
variable {u : State} {n : Nat} (x : Submission) (rest : List Submission) (tables : List (Word × U32 × List Word))
  (hmsg : (u.chain n).msg = none) (hbehind : (u.chain n).behind = [])
include hmsg hbehind

/-- A message that has failed a check comes to TOKN, and stands there. -/
theorem entered_faulted (f : ChainFault) : (entered u n (takenUp u n x rest tables [] (some f))).chain n
    = { takenUp u n x rest tables [] (some f) with msg := some (messageOf u n x [] (some f)), behind := [], bpWait := false } := by
  rw [entered_chain]
  exact fill_faulted n 21 hmsg (by simp [takenUp, hbehind]) rfl nofun

/-- A message that gives no tokens leaves one batch. -/
theorem entered_without_tokens (hgoes : (u.chain n).stopped = false) (hroom : (u.chain n).out.length < 16) :
    (entered u n (takenUp u n x rest tables [] none)).chain n = { takenUp u n x rest tables [] none with
      msg := none, behind := [], out := (u.chain n).out ++ [batchOf n (messageOf u n x [] none) [] true false], bpWait := false } := by
  rw [entered_chain]
  exact fill_without_tokens n 20 hmsg (by simp [takenUp, hbehind]) rfl rfl hgoes hroom

end

section
variable {s : State} {ci : BitVec 4} {ch : Choices}

theorem chainMessageStart_waits (h : (s.chain ci.toNat).queue = [] ∨ s.chainRuns = false ∨ (s.chain ci.toNat).stopped = true
      ∨ (s.chain ci.toNat).room = false) : exec (.chainMessageStart ci ch) s = .next s := by
  change execChainMessageStart ci ch s = _
  cases hqueue : (s.chain ci.toNat).queue with
  | nil => simp only [execChainMessageStart, hqueue]
  | cons x rest =>
    have hheld : (!s.chainRuns || (s.chain ci.toNat).stopped || !(s.chain ci.toNat).room) = true := by
      rcases h with hempty | hruns | hstopped | hroom
      · simp [hqueue] at hempty
      · simp [hruns]
      · simp [hstopped]
      · simp [hroom]
    simp only [execChainMessageStart, hqueue, hheld, Bool.true_or, if_true]

/-- A message of another world waits until the chain has drained (R102). -/
theorem chainMessageStart_drains {x : Submission} {rest : List Submission} (hqueue : (s.chain ci.toNat).queue = x :: rest)
    (hworld : x.world ≠ (s.chain ci.toNat).lastWorld) (hbusy : (s.chain ci.toNat).out ≠ [] ∨ (s.chain ci.toNat).msgs ≠ []) :
    exec (.chainMessageStart ci ch) s = .next s := by
  have hundrained : ((s.chain ci.toNat).out.isEmpty && (s.chain ci.toNat).msgs.isEmpty) = false := by
    rcases hbusy with hout | hmsgs
    · simp [hout]
    · simp [hmsgs]
  change execChainMessageStart ci ch s = _
  simp [execChainMessageStart, hqueue, hworld, hundrained]

variable {x : Submission} {rest : List Submission} {u : State} (hruns : s.chainRuns = true) (hgoes : (s.chain ci.toNat).stopped = false)
  (hroom : (s.chain ci.toNat).room = true) (hqueue : (s.chain ci.toNat).queue = x :: rest) (hworld : x.world = (s.chain ci.toNat).lastWorld)
include hruns hgoes hroom hqueue hworld

/-- A message that fails a check enters the stages with its fault, and without tokens. -/
theorem chainMessageStart_fails {f : ChainFault} (hfetch : (s.setChain ci.toNat { s.chain ci.toNat with
      world := x.world, lastWorld := x.world }).chainFetch ci.toNat x ch = .ok u (.failed f)) :
    exec (.chainMessageStart ci ch) s = .next (entered u ci.toNat (takenUp u ci.toNat x rest (u.chain ci.toNat).tables [] (some f))) := by
  have hsame : decide (x.world ≠ (s.chain ci.toNat).lastWorld) = false := by simp [hworld]
  change execChainMessageStart ci ch s = _
  simp only [hqueue] at hfetch
  simp only [execChainMessageStart, hqueue, hruns, hgoes, hroom, if_pos hworld, hsame, hfetch]
  rfl

/-- A message that passes its checks enters the stages with the tokens that they give. -/
theorem chainMessageStart_reads {src : List Byte} {v m k : Word × U32 × List Word} {nv : Nat} {tokens : List Word}
    (hfetch : (s.setChain ci.toNat { s.chain ci.toNat with world := x.world, lastWorld := x.world }).chainFetch ci.toNat x ch
      = .ok u (.read src v m k nv)) (hstages : chainStages (subConfig x) src v.2.2 m.2.2 k.2.2 nv = (tokens, none)) :
    exec (.chainMessageStart ci ch) s = .next (entered u ci.toNat (takenUp u ci.toNat x rest [v, m, k] tokens none)) := by
  have hsame : decide (x.world ≠ (s.chain ci.toNat).lastWorld) = false := by simp [hworld]
  change execChainMessageStart ci ch s = _
  simp only [hqueue] at hfetch
  simp only [execChainMessageStart, hqueue, hruns, hgoes, hroom, if_pos hworld, hsame, hfetch, hstages]
  rfl

end

/-! ### Faults and the Sump (R172, R173) -/

/-- The record of a fault (Table 7-10). -/
def sumpRecord (n : Nat) (x : Submission) (tokens : Nat) (f : ChainFault) : Vector Word 8 :=
  let w3 := tokens * 2 ^ 32 + x.world.toNat * 2 ^ 24 + n * 2 ^ 20 + f.stage.toNat * 2 ^ 16 + f.code.toNat
  #v[subMsgid x, subSource x, f.offset, BitVec.ofNat 64 w3, f.detail, f.when_, 0, 0]

section
variable {s : State} {n : Nat} (x : Submission) (tokens : Nat) (f : ChainFault) (go : Chain → Chain)

theorem sumpAdd_room (h : (s.chain n).sump.length < 1024) : (s.sumpAdd n x tokens f go).chain n
    = go { s.chain n with sump := (s.chain n).sump ++ [(x.world, sumpRecord n x tokens f)], sumpFull := false } := by
  rw [State.sumpAdd, if_neg (Nat.not_le.mpr h)]
  exact State.chain_setChain_same ..

/-- The stages go on from a recorded message; here they have no other. -/
theorem sumpAdd_setChain_room {c : Chain} (h : c.sump.length < 1024) (hbehind : c.behind = []) :
    ((s.setChain n c).sumpAdd n x tokens f fun c => Chain.fill n 22 { c with msg := none }).chain n
      = { c with sump := c.sump ++ [(x.world, sumpRecord n x tokens f)], sumpFull := false, msg := none, bpWait := false } := by
  rw [sumpAdd_room _ _ _ _ (by rw [State.chain_setChain_same]; exact h), State.chain_setChain_same]
  exact fill_idle n 21 rfl hbehind

/-- A full Sump takes no record, and the chain stops. -/
theorem sumpAdd_setChain_full {c : Chain} (h : 1024 ≤ c.sump.length) :
    ((s.setChain n c).sumpAdd n x tokens f go).chain n = { c with sumpFull := true } := by
  rw [State.sumpAdd, State.chain_setChain_same, if_pos h, State.chain_setChain_same]

end

/-- The chain with the closing batch of a faulted message in its output buffer. -/
def closing (n : Nat) (c : Chain) (m : ChainMsg) : Chain :=
  { c with out := c.out ++ [batchOf n m [] true true], msg := some { m with closed := true } }

section
variable {s : State} {ci : BitVec 4}

theorem chainStageFault_waits (h : s.chainRuns = false ∨ (s.chain ci.toNat).stopped = true) : exec (.chainStageFault ci) s = .next s := by
  have hheld : (!s.chainRuns || (s.chain ci.toNat).stopped) = true := by
    rcases h with hruns | hstopped
    · simp [hruns]
    · simp [hstopped]
  change execChainStageFault ci s = _
  unfold execChainStageFault
  dsimp only
  split
  · rfl
  · split
    · rfl
    · simp [hheld]

variable {m : ChainMsg} {f : ChainFault} (hmsg : (s.chain ci.toNat).msg = some m) (hfault : m.fault = some f)
include hmsg hfault

/-- The closing batch waits for room in the output buffer. -/
theorem chainStageFault_crowded (hopen : m.closed = false) (hout : 16 ≤ (s.chain ci.toNat).out.length) :
    exec (.chainStageFault ci) s = .next s := by
  change execChainStageFault ci s = _
  simp [execChainStageFault, hmsg, hfault, hopen, hout]

variable (hruns : s.chainRuns = true) (hgoes : (s.chain ci.toNat).stopped = false) (htokens : m.tokens = [])
include hruns hgoes htokens

/-- The closing batch and then the record. -/
theorem chainStageFault_closes (hopen : m.closed = false) (hout : (s.chain ci.toNat).out.length < 16) :
    exec (.chainStageFault ci) s = .next ((s.setChain ci.toNat (closing ci.toNat (s.chain ci.toNat) m)).sumpAdd ci.toNat m.sub m.sent f
      fun c => Chain.fill ci.toNat 22 { c with msg := none }) := by
  change execChainStageFault ci s = _
  simp [execChainStageFault, hmsg, hfault, hopen, hruns, hgoes, htokens, Nat.not_le.mpr hout, closing]

/-- The record of a message whose closing batch has been written. -/
theorem chainStageFault_records (hclosed : m.closed = true) :
    exec (.chainStageFault ci) s = .next ((s.setChain ci.toNat (s.chain ci.toNat)).sumpAdd ci.toNat m.sub m.sent f
      fun c => Chain.fill ci.toNat 22 { c with msg := none }) := by
  change execChainStageFault ci s = _
  simp [execChainStageFault, hmsg, hfault, hclosed, hruns, hgoes, htokens]

end

/-! ### Delivery (R168, R169) -/

section
variable {s : State} {ci : BitVec 4}

theorem batchDeliver_waits (h : s.chainRuns = false ∨ (s.chain ci.toNat).stopped = true) : exec (.batchDeliver ci) s = .next s := by
  change execBatchDeliver ci s = _
  rcases h with hruns | hstopped
  · simp [execBatchDeliver, hruns]
  · simp [execBatchDeliver, hstopped]

variable {u : State} (hruns : s.chainRuns = true) (hgoes : (s.chain ci.toNat).stopped = false)
  (hsettled : u = s.setChain ci.toNat (Chain.settle ci.toNat (s.chain ci.toNat)))
include hruns hgoes hsettled

theorem batchDeliver_nothing (hnone : u.deliverable [] 0 (u.chain ci.toNat).out = none) : exec (.batchDeliver ci) s = .next u := by
  subst hsettled
  change execBatchDeliver ci s = _
  simp only [execBatchDeliver, hruns, hgoes, hnone, Bool.not_true, Bool.or_self, Bool.false_eq_true, if_false]

/-- One batch goes into the free slot of one consumer. -/
theorem batchDeliver_delivers {j : Nat} {w : Nat × Word} {t : Nat × RingEnd} {b : Batch}
    (hsome : u.deliverable [] 0 (u.chain ci.toNat).out = some (j, w, t)) (hbatch : (u.chain ci.toNat).out[j]? = some b) {v : State}
    (hv : v = u.fillSlot t.1 t.2 b.bytes) : exec (.batchDeliver ci) s = .next (v.setChain ci.toNat (Chain.settle ci.toNat
      { v.chain ci.toNat with out := (v.chain ci.toNat).out.set j { b with left := b.left.filter fun z => z.1 ≠ w.1 } })) := by
  subst hsettled hv
  change execBatchDeliver ci s = _
  simp only [execBatchDeliver, hruns, hgoes, hsome, hbatch, Bool.not_true, Bool.or_self, Bool.false_eq_true, if_false]

end

/-! ### Consumers that have ended (R169, R172) -/

/-- The fault of a message with a consumer that has ended (Table 7-6). -/
def consumerFault (c : Chain) (e : Nat) (now : Word) : ChainFault :=
  { stage := 5, code := 0x0501, offset := 0, detail := BitVec.ofNat 64 e, when_ := c.goneAt.getD now }

/-- What a consumer entry has not taken of a message counts as taken. -/
def consumerDropped (n e no : Nat) (c : Chain) : Chain :=
  let keep := fun (l : List (Nat × Word)) => l.filter fun w => w.1 ≠ e
  let drop := fun (m : ChainMsg) => if m.no = no then { m with cons := keep m.cons } else m
  Chain.settle n { c with
    goneAt := none, out := c.out.map fun b => if b.no = no then { b with left := keep b.left } else b
    msg := c.msg.map drop, behind := c.behind.map drop }

/-- Where the stages have no message, what the consumer has not taken of the only batch goes, and no batch is formed. -/
theorem consumerDropped_frame {n e : Nat} {c : Chain} {b : Batch} (hout : c.out = [b]) (hmsg : c.msg = none) (hbehind : c.behind = []) :
    (consumerDropped n e b.no c).sump = c.sump ∧ ∀ d ∈ (consumerDropped n e b.no c).out, ∀ w ∈ d.left, w.1 ≠ e := by
  simp only [consumerDropped, Chain.settle, hout, hmsg, hbehind, List.map_cons, List.map_nil, Option.map_none, if_true]
  rw [fill_idle n 21]
  · refine ⟨rfl, fun d hd w hw => ?_⟩
    obtain ⟨hmem, -⟩ := List.mem_filter.mp hd
    obtain rfl := List.mem_singleton.mp hmem
    simpa using (List.mem_filter.mp hw).2
  · rfl
  · rfl

section
variable {s : State} {ci entry : BitVec 4}

theorem consumerGone_waits (h : s.chainRuns = false ∨ (s.chain ci.toNat).stopped = true) : exec (.consumerGone ci entry) s = .next s := by
  change execConsumerGone ci entry s = _
  rcases h with hruns | hstopped
  · simp [execConsumerGone, hruns]
  · simp [execConsumerGone, hstopped]

variable {b : Batch} (hruns : s.chainRuns = true) (hgoes : (s.chain ci.toNat).stopped = false) (hout : (s.chain ci.toNat).out = [b])
  (hmsg : (s.chain ci.toNat).msg = none) (hbehind : (s.chain ci.toNat).behind = [])
include hruns hgoes hout hmsg hbehind

theorem consumerGone_unnamed (hleft : ∀ w ∈ b.left, w.1 ≠ entry.toNat) : exec (.consumerGone ci entry) s = .next s := by
  have hnone : b.left.any (fun w => w.1 == entry.toNat && s.taskGone (entryTask w.2)) = false := by
    simp +contextual [hleft]
  change execConsumerGone ci entry s = _
  simp [execConsumerGone, hruns, hgoes, hout, hmsg, hbehind, Chain.msgs, hnone]

variable (hgone : ∃ w ∈ b.left, w.1 = entry.toNat ∧ s.taskGone (entryTask w.2) = true)
include hgone

/-- A consumer that has ended makes a record with the tokens batched; a record that waits for room keeps its time. -/
theorem consumerGone_records : exec (.consumerGone ci entry) s = .next
    (State.sumpAdd (if 1024 ≤ (s.chain ci.toNat).sump.length
      then s.setChain ci.toNat { s.chain ci.toNat with goneAt := some ((s.chain ci.toNat).goneAt.getD s.tether) } else s)
      ci.toNat b.sub b.sent (consumerFault (s.chain ci.toNat) entry.toNat s.tether) (consumerDropped ci.toNat entry.toNat b.no)) := by
  have hfind : [b].find? (fun b => b.left.any fun w => w.1 == entry.toNat && s.taskGone (entryTask w.2)) = some b := by
    simpa using hgone
  have hsent : ([b].filter fun x => x.no = b.no).foldl (fun k x => max k x.sent) 0 = b.sent := by simp
  change execConsumerGone ci entry s = _
  simp only [execConsumerGone, hruns, hgoes, hout, hmsg, hbehind, Chain.msgs, Option.toList_none, List.append_nil, List.find?_nil, hfind,
    hsent, Bool.not_true, Bool.or_self, Bool.false_eq_true, if_false]
  rfl

theorem consumerGone_drops (hroom : (s.chain ci.toNat).sump.length < 1024) : Ends (exec (.consumerGone ci entry) s) (fun t =>
    (t.chain ci.toNat).sump.length = (s.chain ci.toNat).sump.length + 1 ∧ ∀ d ∈ (t.chain ci.toNat).out, ∀ w ∈ d.left, w.1 ≠ entry.toNat) := by
  rw [consumerGone_records hruns hgoes hout hmsg hbehind hgone, if_neg (Nat.not_le.mpr hroom), ends_next, sumpAdd_room _ _ _ _ hroom]
  obtain ⟨hsump, hleft⟩ := consumerDropped_frame (n := ci.toNat) (e := entry.toNat) (c := { s.chain ci.toNat with
    sump := (s.chain ci.toNat).sump
      ++ [(b.sub.world, sumpRecord ci.toNat b.sub b.sent (consumerFault (s.chain ci.toNat) entry.toNat s.tether))]
    sumpFull := false }) hout hmsg hbehind
  exact ⟨by rw [hsump, List.length_append, List.length_singleton], hleft⟩

theorem consumerGone_stops (hfull : 1024 ≤ (s.chain ci.toNat).sump.length) : Ends (exec (.consumerGone ci entry) s) (fun t =>
    (t.chain ci.toNat).out = (s.chain ci.toNat).out ∧ (t.chain ci.toNat).stopped = true
      ∧ (t.chain ci.toNat).goneAt = some ((s.chain ci.toNat).goneAt.getD s.tether)) := by
  rw [consumerGone_records hruns hgoes hout hmsg hbehind hgone, if_pos hfull, ends_next, sumpAdd_setChain_full]
  · exact ⟨rfl, stopped_of_full _ rfl hfull, rfl⟩
  · exact hfull

end

/-! ### The obligation -/

/-- Settles O58: each event of a chain is one of the cases above. -/
theorem intakeChains : Obligations.IntakeChains := by
  intro s ci entry ch
  refine ⟨fun h => ?stopped, fun h => chainMessageStart_waits (h.imp_right fun hroom => .inr (.inr hroom)),
    fun x rest => chainMessageStart_drains, fun x rest u hruns hgoes hroom hqueue hworld hmsg hbehind hopen => ⟨fun f hfetch => ?fails,
      fun src v m k nv hfetch hstages hout => ?empty⟩,
    fun m f hruns hgoes hmsg hbehind hfault htokens => ⟨chainStageFault_crowded hmsg hfault, fun hopen hout hsump => ?closes,
      fun hopen hout hsump => ?fills, fun hclosed hsump => ?records⟩,
    fun u j w t b hruns hgoes hsettled => ⟨batchDeliver_nothing hruns hgoes hsettled,
      fun hsome hbatch v hv => batchDeliver_delivers hruns hgoes hsettled hsome hbatch hv⟩,
    fun b hruns hgoes hout hmsg hbehind => ⟨consumerGone_drops hruns hgoes hout hmsg hbehind,
      consumerGone_stops hruns hgoes hout hmsg hbehind, consumerGone_unnamed hruns hgoes hout hmsg hbehind⟩⟩
  case stopped =>
    exact ⟨chainMessageStart_waits (.inr (h.imp_right .inl)), chainStageFault_waits h, batchDeliver_waits h, consumerGone_waits h⟩
  case fails =>
    rw [chainMessageStart_fails hruns hgoes hroom hqueue hworld hfetch, ends_next, entered_faulted _ _ _ hmsg hbehind]
    exact ⟨rfl, _, rfl, rfl, rfl, rfl⟩
  case empty =>
    rw [chainMessageStart_reads hruns hgoes hroom hqueue hworld hfetch hstages, ends_next,
      entered_without_tokens _ _ _ hmsg hbehind hopen hout]
    exact ⟨rfl, rfl, _, rfl, rfl, rfl, batchOf_length ..⟩
  case closes =>
    rw [chainStageFault_closes hmsg hfault hruns hgoes htokens hopen hout, ends_next,
      sumpAdd_setChain_room (c := closing ci.toNat (s.chain ci.toNat) m) _ _ _ hsump hbehind]
    exact ⟨rfl, rfl, _, rfl, rfl, rfl, rfl⟩
  case fills =>
    rw [chainStageFault_closes hmsg hfault hruns hgoes htokens hopen hout, ends_next,
      sumpAdd_setChain_full (c := closing ci.toNat (s.chain ci.toNat) m) _ _ _ _ hsump]
    exact ⟨rfl, rfl, rfl, stopped_of_full _ rfl hsump⟩
  case records =>
    rw [chainStageFault_records hmsg hfault hruns hgoes htokens hclosed, ends_next, sumpAdd_setChain_room _ _ _ hsump hbehind]
    exact ⟨rfl, rfl, List.length_append⟩

end Sys2Proof.Laws
end

section
/-!
PROOFS. Tasks read after an update of the scheduler, and what the discard of a step, a kill and a decrement leave alone
(06_scheduler.md, R120, R127, R130, R150, R151).
-/

namespace Sys2Proof.Laws

open Sys2Proof Sys2Proof.Machine Sys2Proof.Safety

/-! ### Tasks read after an update (R120) -/

@[simp] theorem unit_setUnit_same (s : State) (n : Nat) (x : SchedUnit) : (s.setUnit n x).unit n = x := tget_tset_same ..

/-- An identifier names a record in use of its unit, of its SEQ. -/
theorem task?_eq_some {s : State} {t : Word} {k : Task} : s.task? t = some k ↔ (tidPkg t = s.pkgNo ∧ bits t.toNat 31 16 = 0)
    ∧ tfind (s.unit (tidUnit t)).tasks (tidIndex t) = some k ∧ k.seq.toNat = tidSeq t := by
  unfold State.task?
  split
  · rename_i hhere
    split
    · rename_i j hj
      rw [hj]
      split
      · rename_i hseq
        exact ⟨fun h => ⟨hhere, h, Option.some.inj h ▸ hseq⟩, fun h => h.2.1⟩
      · rename_i hseq
        exact ⟨nofun, fun h => absurd (Option.some.inj h.2.1 ▸ h.2.2) hseq⟩
    · rename_i hnone
      rw [hnone]
      exact ⟨nofun, fun h => nomatch h.2.1⟩
  · rename_i hother
    exact ⟨nofun, fun h => absurd h.1 hother⟩

/-- A record that is not in use has no task. -/
theorem task?_of_free {s : State} {t : Word} (h : tfind (s.unit (tidUnit t)).tasks (tidIndex t) = none) : s.task? t = none := by
  rw [Option.eq_none_iff_forall_ne_some]
  intro k hk
  rw [(task?_eq_some.mp hk).2.1] at h
  cases h

theorem unit_of_sched {s u : State} (h : u.sched = s.sched) (n : Nat) : u.unit n = s.unit n := by
  unfold State.unit
  rw [h]

theorem task?_of_sched {s u : State} (hsched : u.sched = s.sched) (hpkg : u.pkg = s.pkg) (t : Word) : u.task? t = s.task? t := by
  unfold State.task? State.pkgNo
  rw [unit_of_sched hsched, hpkg]

section
variable {s : State} {t : Word} {k : Task} (h : s.task? t = some k)
include h

theorem task?_putTask_same {j : Task} (hseq : j.seq = k.seq) : (s.putTask t j).task? t = some j := by
  obtain ⟨hhere, -, hk⟩ := task?_eq_some.mp h
  refine task?_eq_some.mpr ⟨hhere, ?_, hseq ▸ hk⟩
  rw [State.putTask, unit_setUnit_same, tfind_tset_same]

theorem mapTask_eq (g : Task → Task) : s.mapTask t g = s.putTask t (g k) := by
  rw [State.mapTask, h]

end

/-- The record of a task when core f becomes free: the 8,192 cycles of R149 start again for an item that may run there. -/
def refreshed (s : State) (f u i : Nat) (k : Task) : Task :=
  { k with readyNs := if k.isItem && s.freeFor f (taskIdOf k.seq.toNat s.pkgNo u i, k) then s.cycle else k.readyNs }

theorem tfind_mapKeyed {α β : Type} (f : Nat → α → β) (t : List (Nat × α)) (k : Nat) :
    tfind (t.map fun x => (x.1, f x.1 x.2)) k = (tfind t k).map (f k) := by
  induction t with
  | nil => rfl
  | cons e t ih =>
    simp only [List.map_cons, tfind, ih]
    split
    · rename_i hkey
      rw [hkey]
      rfl
    · rfl

/-- The records of a unit when core f becomes free. -/
def refreshedUnit (s : State) (f u : Nat) (x : SchedUnit) : SchedUnit :=
  { x with tasks := x.tasks.map fun y => (y.1, refreshed s f u y.1 y.2) }

theorem noteFree_eq (s : State) (f : Nat) : s.noteFree f
    = { s with sched := { s.sched with units := s.sched.units.map fun u => (u.1, refreshedUnit s f u.1 u.2) } } := by
  have hrecord (u i : Nat) (k : Task) : refreshed s f u i k
      = if k.isItem && s.freeFor f (taskIdOf k.seq.toNat s.pkgNo u i, k) then { k with readyNs := s.cycle } else k := by
    unfold refreshed
    split <;> rfl
  simp only [State.noteFree, refreshedUnit, hrecord]

theorem task?_noteFree (s : State) (f : Nat) (t : Word) :
    (s.noteFree f).task? t = (s.task? t).map (refreshed s f (tidUnit t) (tidIndex t)) := by
  have hunit : tfind ((s.noteFree f).unit (tidUnit t)).tasks (tidIndex t)
      = (tfind (s.unit (tidUnit t)).tasks (tidIndex t)).map (refreshed s f (tidUnit t) (tidIndex t)) := by
    rw [noteFree_eq]
    unfold State.unit tget
    dsimp only
    rw [tfind_mapKeyed]
    cases tfind s.sched.units (tidUnit t) with
    | none => rfl
    | some x => exact tfind_mapKeyed ..
  have hpkg : (s.noteFree f).pkgNo = s.pkgNo := rfl
  unfold State.task?
  rw [hunit, hpkg]
  split
  · cases tfind (s.unit (tidUnit t)).tasks (tidIndex t) with
    | none => rfl
    | some k => exact (apply_ite (Option.map _) (k.seq.toNat = tidSeq t) (some k) none).symm
  · rfl

/-! ### Messages, requests and commands -/

/-- A state but for what commands, requests and messages change: cores, clusters and slices, objects, memory and links. -/
def apartTraffic (s : State) : State :=
  { s with cores := [], clusters := [], slices := [], objs := .initial, mem := [], links := .initial }

/-- Any other part of two states that agree but for traffic is the same. -/
theorem eq_of_apartTraffic {α : Type} {s t : State} (part : State → α) (h : apartTraffic t = apartTraffic s)
    (hpart : ∀ u, part (apartTraffic u) = part u := by intro _; rfl) : part t = part s :=
  (hpart t).symm.trans ((congrArg part h).trans (hpart s))

theorem sendReq_apartTraffic (s : State) (dst : Nat) (q : RemoteReq) : apartTraffic (s.sendReq dst q) = apartTraffic s :=
  eq_of_apartLinks apartTraffic (sendReq_apartLinks s dst q)

theorem setCore_apartTraffic (s : State) (f : Nat) (c : Core) : apartTraffic (s.setCore f c) = apartTraffic s := rfl
theorem setBank_apartTraffic (s : State) (f : Nat) (b : BitVec 1) (k : Bank) : apartTraffic (s.setBank f b k) = apartTraffic s := rfl
theorem dropBasin_apartTraffic (s : State) (f : Nat) (b : BitVec 1) (p : BasinLine → Bool) :
    apartTraffic (s.dropBasin f b p) = apartTraffic s := rfl
theorem setLeaf_apartTraffic (s : State) (a : Nat) (g : Nat → Nat) : apartTraffic (s.setLeaf a g) = apartTraffic s := rfl
theorem busyDown_apartTraffic (s : State) (a n : Nat) : apartTraffic (s.busyDown a n) = apartTraffic s := setLeaf_apartTraffic s a _

theorem foldl_busyDown_apartTraffic {α : Type} (a : α → Nat) (l : List α) (s : State) :
    apartTraffic (l.foldl (fun s x => s.busyDown (a x) 1) s) = apartTraffic s :=
  foldl_keeps apartTraffic _ (fun t x => busyDown_apartTraffic t (a x) 1) l s

theorem pushReq_apartTraffic (s : State) (r : Req) : apartTraffic (s.pushReq r) = apartTraffic s := by
  unfold State.pushReq
  dsimp only
  split
  · exact setLeaf_apartTraffic _ _ _
  · rfl

theorem issueReq_apartTraffic (s : State) (r : Req) : apartTraffic (s.issueReq r) = apartTraffic s := by
  unfold State.issueReq
  split
  · split
    · dsimp only
      rw [sendReq_apartTraffic, pushReq_apartTraffic]
      split <;> rfl
    · exact pushReq_apartTraffic ..
  · exact pushReq_apartTraffic ..

theorem perform_apartTraffic (s : State) (h : Word) (w : Writer) (shift : Int) (bs : List (Nat × Byte × Byte)) :
    apartTraffic (s.perform h w shift bs) = apartTraffic s := by
  refine foldl_keeps apartTraffic _ (fun t x => ?_) bs _
  unfold State.putByte
  dsimp only
  split <;> rfl

theorem landDirty_apartTraffic (s : State) (l : BasinLine) : apartTraffic (s.landDirty l) = apartTraffic s := by
  unfold State.landDirty
  split
  · rfl
  · exact foldl_keeps apartTraffic _ (fun t g => perform_apartTraffic t _ _ _ _) _ s

theorem recall_apartTraffic (s : State) (h : Word) (va n : Nat) : apartTraffic (s.recall h va n) = apartTraffic s := by
  unfold State.recall
  dsimp only
  exact (foldl_keeps apartTraffic _ (fun t (c : Nat × Core) => (dropBasin_apartTraffic _ c.1 1 _).trans (dropBasin_apartTraffic t c.1 0 _))
    _ _).trans (foldl_keeps apartTraffic _ landDirty_apartTraffic _ s)

/-- A near-bank command that completes writes memory and frees its slice and segments (R363). -/
theorem nbFinish_apartTraffic (s : State) (f : Nat) (b : BitVec 1) (c : Cmd) : apartTraffic (s.nbFinish f b c) = apartTraffic s := by
  unfold State.nbFinish
  split
  · rfl
  · rename_i j _
    have h : apartTraffic (s.nearbank { run := c.run, task := c.task, path := .N, ord := c.ord } j) = apartTraffic s :=
      (perform_apartTraffic _ _ _ _ _).trans (recall_apartTraffic s _ _ _)
    dsimp only
    split
    · exact (foldl_busyDown_apartTraffic id _ _).trans h
    · exact h

theorem nbFinishAll_apartTraffic (s : State) (f : Nat) (b : BitVec 1) (p : Cmd → Bool) :
    apartTraffic (s.nbFinishAll f b p) = apartTraffic s :=
  foldl_keeps apartTraffic _ (fun t c => nbFinish_apartTraffic t f b c) _ s

theorem releaseFar_apartTraffic (s : State) (c : Cmd) : apartTraffic (s.releaseFar c) = apartTraffic s := by
  unfold State.releaseFar
  split
  · dsimp only
    split
    · exact sendReq_apartTraffic ..
    · rfl
  · rfl

theorem releaseBusy_apartTraffic (s : State) (c : Cmd) : apartTraffic (s.releaseBusy c) = apartTraffic s := by
  unfold State.releaseBusy
  split
  · exact foldl_busyDown_apartTraffic BitVec.toNat _ s
  · rfl

theorem dropPlan_apartTraffic (s : State) (f : Nat) (b : BitVec 1) : apartTraffic (s.dropPlan f b) = apartTraffic s := by
  unfold State.dropPlan
  dsimp only
  split
  · rfl
  · exact foldl_busyDown_apartTraffic id _ _

theorem dropPlanOf_apartTraffic (s : State) (f : Nat) (b : BitVec 1) (p : Cmd → Bool) :
    apartTraffic (s.dropPlanOf f b p) = apartTraffic s := by
  unfold State.dropPlanOf
  split
  · exact dropPlan_apartTraffic s f b
  · rfl

theorem releasePins_apartTraffic (s : State) (run : Nat) : apartTraffic (s.releasePins run) = apartTraffic s := by
  unfold State.releasePins
  exact foldl_keeps apartTraffic _ (fun t _ => sendReq_apartTraffic t _ _) _ s

theorem releaseSpans_apartTraffic (s : State) (p : SpanPin → Bool) : apartTraffic (s.releaseSpans p) = apartTraffic s := rfl
theorem dropServed_apartTraffic (s : State) (f : Nat) (b : BitVec 1) (gone : Nat → Bool) :
    apartTraffic (s.dropServed f b gone) = apartTraffic s := rfl
theorem withdraw_apartTraffic (s : State) (f : Nat) (b : BitVec 1) : apartTraffic (s.withdraw f b) = apartTraffic s := rfl

/-! ### The discard of a step (R150) -/

/-- The discard of a step changes cores, slices, objects, memory and links alone. -/
theorem discardStep_apartTraffic (s : State) (f : Nat) (b : BitVec 1) : apartTraffic (s.discardStep f b) = apartTraffic s := by
  have hrelease (l : List Cmd) (t : State) : apartTraffic (l.foldl (fun s c => (s.releaseFar c).releaseBusy c) t) = apartTraffic t :=
    foldl_keeps apartTraffic _ (fun t c => (releaseBusy_apartTraffic _ c).trans (releaseFar_apartTraffic t c)) l t
  unfold State.discardStep
  dsimp only
  split
  · rfl
  · simp only [setCore_apartTraffic, setBank_apartTraffic, withdraw_apartTraffic, dropServed_apartTraffic, releaseSpans_apartTraffic,
      releasePins_apartTraffic, hrelease, dropPlanOf_apartTraffic, nbFinishAll_apartTraffic]

theorem discardStep_sched (s : State) (f : Nat) (b : BitVec 1) : (s.discardStep f b).sched = s.sched :=
  eq_of_apartTraffic State.sched (discardStep_apartTraffic s f b)

/-! ### What gathers stands through kills and decrements (R139) -/

theorem putTask_gather (s : State) (t : Word) (k : Task) : (s.putTask t k).sched.gather = s.sched.gather := rfl

theorem mapTask_gather (s : State) (t : Word) (g : Task → Task) : (s.mapTask t g).sched.gather = s.sched.gather := by
  unfold State.mapTask
  split <;> rfl

theorem noteFree_gather (s : State) (f : Nat) : (s.noteFree f).sched.gather = s.sched.gather := rfl

theorem dropStepOf_gather (s : State) (f : Nat) (b : BitVec 1) (t : Word) : (s.dropStepOf f b t).sched.gather = s.sched.gather :=
  (mapTask_gather _ t _).trans ((noteFree_gather _ f).trans (congrArg Sched.gather (discardStep_sched s f b)))

theorem killOne_gather (s : State) (t : Word) (st detail : U16) : (s.killOne t st detail).sched.gather = s.sched.gather := by
  unfold State.killOne
  split
  · rfl
  · split
    · rfl
    · refine (foldl_keeps (fun v : State => v.sched.gather) _ (fun v x => ?_) _ _).trans (putTask_gather s t _)
      split
      · split
        · exact congrArg Sched.gather (eq_of_apartTraffic State.sched (dropPlanOf_apartTraffic ..))
        · exact dropStepOf_gather ..
      · rfl

theorem killTask_gather (s : State) (t : Word) (st detail : U16) : (s.killTask t st detail).sched.gather = s.sched.gather := by
  unfold State.killTask
  dsimp only
  split
  · exact (foldl_keeps (fun v : State => v.sched.gather) _ (fun v m => killOne_gather v m st detail) _ _).trans
      (killOne_gather s t st detail)
  · exact killOne_gather s t st detail

theorem afterLoad_gather (s : State) (t : Word) : (s.afterLoad t).sched.gather = s.sched.gather := by
  unfold State.afterLoad
  split
  · rfl
  · split
    · rfl
    · split
      · rfl
      · dsimp only
        split
        · rfl
        · split
          · rfl
          · exact killTask_gather ..

theorem becomeReady_gather (s : State) (t : Word) : (s.becomeReady t).sched.gather = s.sched.gather := by
  unfold State.becomeReady
  split
  · rfl
  · dsimp only
    split
    · rfl
    · split
      · exact afterLoad_gather ..
      · rfl

theorem decrement_gather (s : State) (t : Word) (n : Nat) (world : Byte) (system poison : Bool) :
    (s.decrement t n world system poison).sched.gather = s.sched.gather := by
  unfold State.decrement
  extract_lets u
  split
  · rfl
  · split
    · rfl
    · split
      · rfl
      · split
        · rfl
        · extract_lets k
          split
          · exact becomeReady_gather ..
          · rfl

end Sys2Proof.Laws
end

section
/-!
PROOFS. Dispatch, ageing, pre-emption and gathering (06_scheduler.md, R121, R124 to R131, R138 to R143, R149, R150, R184).
-/

namespace Sys2Proof.Laws

open Sys2Proof Sys2Proof.Machine Sys2Proof.Safety

/-! ### Cores that an item gathers (R138, R139, R143) -/

theorem mem_of_leastBy {α : Type} {key : α → Nat} {l : List α} {x : α} (h : leastBy key l = some x) : x ∈ l := by
  induction l generalizing x with
  | nil => cases h
  | cons y l ih =>
    rw [leastBy] at h
    split at h
    · exact Option.some.inj h ▸ List.mem_cons_self
    · rename_i z hz
      split at h
      · exact Option.some.inj h ▸ List.mem_cons_self
      · exact Option.some.inj h ▸ List.mem_cons_of_mem _ (ih hz)

/-- The first core that an item gathers is held for one of its members. -/
theorem gatherCore_first {s : State} {x : Word × Task} {f : Nat} (h : (s.gatherCore x [] f).isSome = true) :
    ∃ m, s.gatherCore x [] f = some [(f, m)] := by
  obtain ⟨l, hl⟩ := Option.isSome_iff_exists.mp h
  rw [hl]
  unfold State.gatherCore at hl
  split at hl
  · split at hl
    · exact ⟨0, hl ▸ rfl⟩
    · cases hl
  · split at hl
    · rw [reseat] at hl
      obtain ⟨m, -, hm⟩ := List.exists_of_findSome?_eq_some hl
      exact ⟨m, hm ▸ rfl⟩
    · cases hl
  · cases hl

/-- A core that becomes free changes no item's demands. -/
theorem gatherCore_noteFree (s : State) (n f : Nat) (x : Word × Task) (held : List (Nat × Nat)) :
    (s.noteFree n).gatherCore x held f = s.gatherCore x held f := by
  have hfits (g : LocalGang) : (s.noteFree n).memberFits g = s.memberFits g := by
    funext f i
    unfold State.memberFits
    cases g.members[i]? with
    | none => rfl
    | some m =>
      simp only [Option.bind_some, task?_noteFree]
      cases s.task? m with
      | none => rfl
      | some k => rfl
  have hgang : (s.noteFree n).gangOf x.1 = s.gangOf x.1 := rfl
  unfold State.gatherCore
  rw [hgang]
  simp only [hfits]

/-- An item that gathers takes a core that it may have. -/
theorem gatherCore_of_mayRun {s : State} {f : Nat} {b : BitVec 1} {h : Holder} {x : Word × Task} (hmay : s.mayRun f b h x = true)
    (hx : s.gathers x = true) : (s.gatherCore x (s.heldBy x.1) f).isSome = true := by
  unfold State.mayRun at hmay
  unfold State.gathers at hx
  cases hrole : x.2.role with
  | plain => simp [hrole] at hx
  | stage parent i => simp [hrole] at hx
  | member src gid => simp [hrole] at hx
  | pipeline =>
    cases h with
    | none =>
      simp only [hrole, Bool.and_eq_true] at hmay
      exact hmay.2.2
    | _ => simp [hrole] at hmay
  | gang gid size =>
    cases h with
    | none =>
      simp only [hrole, Bool.and_eq_true] at hmay hx
      obtain ⟨-, hgang⟩ := hmay
      split at hgang
      · rename_i g hg
        simp only [hg, Option.any_some, Bool.not_eq_true'] at hx
        simp only [hx, Bool.false_eq_true, if_false, Bool.and_eq_true] at hgang
        exact hgang.2
      · cases hgang
    | _ => simp [hrole] at hmay

/-! ### Dispatch (R124, R130) -/

/-- Nothing is asked for the templates of items that are at hand. -/
theorem askTemplates_here {s : State} (h : ∀ y ∈ s.allTasks, Here s [lrTemplate y.2.lr]) (f : Nat) : s.askTemplates f = (s, true) := by
  refine askEntries_here s _ fun t ht => ?_
  obtain ⟨y, hy, rfl⟩ := List.mem_map.mp ht
  exact h y (List.mem_filter.mp hy).1 _ List.mem_cons_self

/-- Bank b of core f is offered to the items: steps are handed out, the bank is free, and no pre-emption has given the core away. -/
def Offered (s : State) (f : Nat) (b : BitVec 1) : Prop :=
  f < 320 ∧ s.freeBank f = some b ∧ s.dispatches = true ∧ (∀ g ∈ s.sched.grants, g.1 ≠ f)
    ∧ ∀ y ∈ s.allTasks, Here s [lrTemplate y.2.lr]

theorem Offered.not_closed {s : State} {f : Nat} {b : BitVec 1} (h : Offered s f b) :
    (decide (320 ≤ f) || !s.dispatches || s.sched.grants.any fun g => g.1 == f) = false := by
  obtain ⟨hf, -, hd, hg, -⟩ := h
  rw [hd, List.any_eq_false.mpr fun g hmem => by simpa using hg g hmem]
  simpa using hf

section
variable {s : State} {f : BitVec 9} {b : BitVec 1} {ch : Choices}

theorem stepDispatch_waits (h : s.dispatches = false ∨ s.freeBank f.toNat = none) : exec (.stepDispatch f ch) s = .next s := by
  change execStepDispatch f ch s = _
  unfold execStepDispatch
  dsimp only
  split
  · rfl
  · rename_i b hb
    have hno : s.dispatches = false := h.resolve_right (by simp [hb])
    simp [hno]

variable (h : Offered s f.toNat b)
include h

theorem stepDispatch_idle (hbest : s.bestItem f.toNat b = none) : exec (.stepDispatch f ch) s = .next s := by
  have hclosed := h.not_closed
  obtain ⟨-, hb, -, -, hnear⟩ := h
  change execStepDispatch f ch s = _
  simp only [execStepDispatch, hb, hclosed, askTemplates_here hnear, hbest, Bool.not_true, Bool.false_eq_true, if_false]

theorem stepDispatch_begins {x : Word × Task} {u : State} {q : Requeued} (hbest : s.bestItem f.toNat b = some x)
    (hask : s.askTemplate (lrTemplate x.2.lr) = (s, true)) (hx : s.gathers x = false) (hhand : s.handOut x.1 x.2 ch = .step u q) :
    exec (.stepDispatch f ch) s = .next (u.beginStep f.toNat b x.1 q) := by
  have hclosed := h.not_closed
  obtain ⟨-, hb, -, -, hnear⟩ := h
  change execStepDispatch f ch s = _
  simp only [execStepDispatch, hb, hclosed, askTemplates_here hnear, hbest, hask, hx, State.giveStep, hhand, Bool.not_true,
    Bool.false_eq_true, if_false, if_true]

theorem stepDispatch_holds {x : Word × Task} (hbest : s.bestItem f.toNat b = some x) (hx : s.gathers x = true) :
    exec (.stepDispatch f ch) s = .next (s.holdCore f.toNat x) := by
  have hclosed := h.not_closed
  obtain ⟨-, hb, -, -, hnear⟩ := h
  change execStepDispatch f ch s = _
  simp only [execStepDispatch, hb, hclosed, askTemplates_here hnear, hbest, hx, Bool.not_true, Bool.false_eq_true, if_false, if_true]

end

/-- The first core that an item gathers. -/
theorem holdCore_first {s : State} {f : Nat} {b : BitVec 1} {x : Word × Task} (hbest : s.bestItem f b = some x) (hx : s.gathers x = true)
    (hgather : s.sched.gather = none) :
    ∃ m, (s.holdCore f x).sched.gather = some { task := x.1, held := [(f, m)], higherSince := none } := by
  have hheld : s.heldBy x.1 = [] := by simp [State.heldBy, hgather]
  have hmay := (List.mem_filter.mp (mem_of_leastBy hbest)).2
  have hsome := gatherCore_of_mayRun (Bool.and_eq_true_iff.mp hmay).1 hx
  rw [hheld] at hsome
  obtain ⟨m, hm⟩ := gatherCore_first hsome
  refine ⟨m, ?_⟩
  have hfree : (s.noteFree f).heldBy x.1 = [] := hheld
  simp only [State.holdCore, hfree, gatherCore_noteFree, hm, Option.getD_some]

/-! ### The start of a step (R124, R125) -/

@[simp] theorem mapTask_cores (s : State) (t : Word) (g : Task → Task) : (s.mapTask t g).cores = s.cores := by
  unfold State.mapTask
  split <;> rfl
@[simp] theorem mapTask_mem (s : State) (t : Word) (g : Task → Task) : (s.mapTask t g).mem = s.mem := by
  unfold State.mapTask
  split <;> rfl

/-- The bank of a core that a step starts or resumes in, when it becomes the active one. -/
theorem bank_restarted (c : Core) (a b : BitVec 1) (k : Bank) (rings : List RingEnd) :
    Core.bank { c.setBank b k with active := a, rings } b = k := Core.bank_setBank_same c b k

/-- The contexts of a step begin with the task's arguments, the indices, the step number and the tile record. -/
theorem startCtx_arguments (line : Nat) (k : Task) (q : Requeued) :
    (startCtx line k q).getS 22 = lrArg0 k.lr ∧ (startCtx line k q).getS 23 = lrArg1 k.lr
      ∧ (startCtx line k q).getS 30 = q.step.setWidth 64 ∧ (startCtx line k q).getS 31 = q.tileRec
      ∧ (startCtx line k q).getS 0 = 0 := by
  refine ⟨?_, ?_, ?_, ?_, rfl⟩ <;> simp [startCtx, Ctx.getS]

section
variable {s : State} {t : Word} {k : Task} (h : s.task? t = some k) (f : Nat) (b : BitVec 1) (q : Requeued)
include h

/-- The bank in which a step begins: its run waits at the step boundary, and context C starts at its entry. -/
theorem beginStep_bank : ∃ run line j, j.lr = k.lr ∧ ((s.beginStep f b t q).bank f b).run = some run
    ∧ ((s.beginStep f b t q).bank f b).st = .running ∧ ((s.beginStep f b t q).bank f b).C = startCtx line j q
    ∧ run.task = t ∧ run.step = q.step ∧ run.held = true ∧ run.committed = false ∧ run.world = BitVec.ofNat 8 (lrWorld k.lr) := by
  unfold State.beginStep
  simp only [task?_noteFree, h, Option.map_some, State.bank, State.core, mapTask_cores, State.dropBytes, State.setCore, tget_tset_same,
    bank_restarted]
  exact ⟨_, _, refreshed s f (tidUnit t) (tidIndex t) k, rfl, rfl, trivial, rfl, rfl, rfl, rfl, rfl, rfl⟩

theorem beginStep_mem : (s.beginStep f b t q).mem = s.mem := by
  unfold State.beginStep
  simp only [task?_noteFree, h, Option.map_some, mapTask_mem]
  rfl

end

/-! ### The step boundary (R97, R184, R190) -/

/-- The tokens and format words of the outgoing step go at most; the run that stands in the bank stays. -/
theorem settle_eq (k : Bank) : ∃ tokens mark fmtq run, k.settle = { k with tokens, tokMark := mark, fmtq, run }
    ∧ ∀ r, k.run = some r → ∃ fresh, run = some { r with fresh } := by
  unfold Bank.settle
  split
  · rename_i r hr
    split
    · exact ⟨_, _, _, _, rfl, fun p hp => ⟨false, by rw [hr] at hp; rw [Option.some.inj hp]⟩⟩
    · exact ⟨_, _, _, _, rfl, fun p hp => ⟨p.fresh, hp⟩⟩
  · exact ⟨_, _, _, _, rfl, fun p hp => ⟨p.fresh, hp⟩⟩

/-- A bank zeroed for a new owner (R97). -/
def zeroed (k : Bank) : Bank :=
  { k with
    vregs := [], accs := [], scratch := [], fmtq := [], tokens := .replicate 10 0, tokMark := none, landings := [], nextV := 0
    escl := 0, mrow := 0, escv := 0, escs := 0, escx := 0 }

/-- A step that passes its boundary: it owns the bank, and the generators start. -/
def released (k : Bank) (r : StepRun) : Bank :=
  let base := srBaseOf r.task r.step
  { k with
    run := some { r with held := false }, owner := (r.task, r.world), srbase := base
    srV := srState base 1, srM := srState base 2, srH := srState base 3 }

/-- The run and the memories of a bank whose step has passed its boundary. -/
theorem released_settle (k : Bank) (r : StepRun) :
    (∃ p, (released k r).settle.run = some p ∧ p.held = false ∧ p.task = r.task) ∧ (released k r).settle.owner = (r.task, r.world)
      ∧ (released k r).settle.vregs = k.vregs ∧ (released k r).settle.accs = k.accs ∧ (released k r).settle.scratch = k.scratch
      ∧ (released k r).settle.basin = k.basin := by
  obtain ⟨_, _, _, run, heq, hrun⟩ := settle_eq (released k r)
  obtain ⟨fresh, hfresh⟩ := hrun _ rfl
  rw [heq, hfresh]
  exact ⟨⟨_, rfl, rfl, rfl⟩, rfl, rfl, rfl, rfl, rfl⟩

theorem boundary_passed {k : Bank} {r : StepRun} (hst : k.st = .running) (hheld : r.held = true)
    (hempty : k.queuesEmpty r.boundary = true) : (decide (k.st ≠ .running) || !r.held || !k.queuesEmpty r.boundary) = false := by
  rw [hst, hheld, hempty]
  rfl

section
variable {s : State} {f : BitVec 9} {b : BitVec 1} {r : StepRun} (hr : (s.bank f.toNat b).run = some r)
include hr

theorem stepBoundaryRelease_waits
    (h : (s.bank f.toNat b).st ≠ .running ∨ r.held = false ∨ (s.bank f.toNat b).queuesEmpty r.boundary = false) :
    exec (.stepBoundaryRelease f b) s = .next s := by
  change execStepBoundaryRelease f b s = _
  simp only [execStepBoundaryRelease, hr]
  exact if_pos (by simpa [or_assoc] using h)

variable (hst : (s.bank f.toNat b).st = .running) (hheld : r.held = true) (hempty : (s.bank f.toNat b).queuesEmpty r.boundary = true)
include hst hheld hempty

theorem stepBoundaryRelease_same (hsame : (s.bank f.toNat b).owner = (r.task, r.world)) :
    exec (.stepBoundaryRelease f b) s = .next (s.setBank f.toNat b (released (s.bank f.toNat b) r).settle) := by
  have howner : ((s.bank f.toNat b).owner == (r.task, r.world)) = true := beq_iff_eq.mpr hsame
  change execStepBoundaryRelease f b s = _
  simp only [execStepBoundaryRelease, hr, boundary_passed hst hheld hempty, howner, Bool.false_eq_true, if_true, if_false]
  rfl

theorem stepBoundaryRelease_changes (hother : (s.bank f.toNat b).owner ≠ (r.task, r.world)) : ∃ t : State,
    exec (.stepBoundaryRelease f b) s = .next (t.setBank f.toNat b (released (zeroed (t.bank f.toNat b)) r).settle)
      ∧ (t.bank f.toNat b).basin = [] := by
  have howner : ((s.bank f.toNat b).owner == (r.task, r.world)) = false := beq_eq_false_iff_ne.mpr hother
  refine ⟨(s.flushBasin f.toNat b fun _ => true).dropBasin f.toNat b fun _ => true, ?_, by simp [State.dropBasin]⟩
  change execStepBoundaryRelease f b s = _
  simp only [execStepBoundaryRelease, hr, boundary_passed hst hheld hempty, howner, Bool.false_eq_true, if_false]
  rfl

end

/-! ### Ageing (R129) -/

theorem eprioNow_le (s : State) (k : Task) : s.eprioNow k ≤ 7 := by
  unfold State.eprioNow
  dsimp only
  split <;> omega

theorem agingStep_raises {s : State} {t : Word} {k : Task} (hk : s.task? t = some k) (hitem : k.isItem = true) :
    Ends (exec (.agingStep t) s) (fun u =>
      ∃ k', u.task? t = some k' ∧ k'.eprio.toNat = s.eprioNow k ∧ k'.st = k.st ∧ k'.lr = k.lr) := by
  change Ends (.next (s.mapTask t _)) _
  have hle := eprioNow_le s k
  rw [ends_next, mapTask_eq hk, if_pos hitem]
  refine ⟨_, task?_putTask_same hk rfl, ?_, rfl, rfl⟩
  rw [BitVec.toNat_ofNat]
  omega

/-! ### Pre-emption (R149, R150) -/

section
variable {s : State} {t : Word} {k : Task}

theorem preemptGrace_of_stopped (h : s.dispatches = false) : exec (.preemptGrace t) s = .next s := by
  change execPreemptGrace t s = _
  unfold execPreemptGrace
  split
  · rfl
  · simp [h]

variable (hk : s.task? t = some k)
include hk

theorem preemptGrace_early (h : s.cycle < k.readyNs + 8192) : exec (.preemptGrace t) s = .next s := by
  change execPreemptGrace t s = _
  simp [execPreemptGrace, hk, h]

theorem preemptGrace_preempts {v : Nat × StepRun} (hd : s.dispatches = true) (hitem : k.isItem = true) (hx : s.gathers (t, k) = false)
    (hlate : k.readyNs + 8192 ≤ s.cycle) (hnone : s.noneFree (t, k) = true) (hgrants : ∀ g ∈ s.sched.grants, g.2 ≠ t)
    (hv : greatestBy victimKey (s.victims (t, k)) = some v) : Ends (exec (.preemptGrace t) s) (fun u =>
      u.sched.grants = s.sched.grants ++ [(v.1, t)] ∧ (u.bank v.1 (s.core v.1).active).run = some { v.2 with discarding := true }) := by
  have hgrant : (s.sched.grants.any fun g => g.2 == t) = false := List.any_eq_false.mpr fun g hg => by simpa using hgrants g hg
  change Ends (execPreemptGrace t s) _
  simp only [execPreemptGrace, hk, hd, hitem, hx, hnone, hgrant, hv, Nat.not_lt.mpr hlate, Bool.not_true, Bool.false_and, Bool.or_self,
    decide_false, Bool.false_eq_true, if_false]
  rw [ends_next]
  refine ⟨rfl, ?_⟩
  exact congrArg Bank.run (State.bank_setBank_same s v.1 (s.core v.1).active _)

end

/-- The step of core f is discarded for an item that takes the core, and returns to its task. -/
def givenBack (s : State) (f : Nat) (r : StepRun) : State :=
  ((withGrants s (s.sched.grants.filter fun x => x.1 ≠ f)).discardStep f (s.core f).active).requeue r true

theorem discard_done {s : State} {r : StepRun} (hdisc : r.discarding = true) (hclock : s.power.freqAct ≠ 0) :
    (!r.discarding || decide (s.power.freqAct = 0)) = false := by
  rw [hdisc, decide_eq_false hclock]
  rfl

section
variable {s : State} {f : BitVec 9}

theorem preemptDiscardDone_no_grant (h : ∀ g ∈ s.sched.grants, g.1 ≠ f.toNat) : exec (.preemptDiscardDone f) s = .next s := by
  have hnone : s.sched.grants.find? (fun g => g.1 == f.toNat) = none := by simpa [List.find?_eq_none] using h
  change execPreemptDiscardDone f s = _
  simp only [execPreemptDiscardDone, hnone]

variable {g : Nat × Word} (hg : s.sched.grants.find? (fun g => g.1 == f.toNat) = some g)
include hg

theorem preemptDiscardDone_no_step (hr : (s.bank f.toNat (s.core f.toNat).active).run = none) :
    exec (.preemptDiscardDone f) s = .next (withGrants s (s.sched.grants.filter fun x => x ≠ g)) := by
  change execPreemptDiscardDone f s = _
  simp only [execPreemptDiscardDone, hg, hr]
  rfl

variable {r : StepRun} (hr : (s.bank f.toNat (s.core f.toNat).active).run = some r)
include hr

theorem preemptDiscardDone_waits (h : r.discarding = false ∨ s.power.freqAct = 0) : exec (.preemptDiscardDone f) s = .next s := by
  change execPreemptDiscardDone f s = _
  simp only [execPreemptDiscardDone, hg, hr]
  exact if_pos (by simpa using h)

variable (hdisc : r.discarding = true) (hclock : s.power.freqAct ≠ 0)
include hdisc hclock

theorem preemptDiscardDone_gone (hgone : (givenBack s f.toNat r).task? g.2 = none) :
    exec (.preemptDiscardDone f) s = .next ((givenBack s f.toNat r).noteFree f.toNat) := by
  unfold givenBack withGrants at hgone ⊢
  change execPreemptDiscardDone f s = _
  simp only [execPreemptDiscardDone, hg, hr, discard_done hdisc hclock, hgone, Bool.false_eq_true, if_false]

section
variable {t : State} {j : Task} (ht : t = givenBack s f.toNat r) (hj : t.task? g.2 = some j)
  (hask : t.askTemplate (lrTemplate j.lr) = (t, true))
include ht hj hask

theorem preemptDiscardDone_frees
    (hmay : ¬ (t.dispatches = true ∧ t.mayRun f.toNat (s.core f.toNat).active (t.holder f.toNat) (g.2, j) = true)) :
    exec (.preemptDiscardDone f) s = .next (t.noteFree f.toNat) := by
  have hno : (!t.dispatches || !t.mayRun f.toNat (s.core f.toNat).active (t.holder f.toNat) (g.2, j)) = true := by
    simpa [imp_iff_not_or] using hmay
  unfold givenBack withGrants at ht
  change execPreemptDiscardDone f s = _
  simp only [execPreemptDiscardDone, hg, hr, discard_done hdisc hclock, ← ht, hj, hask, hno, Bool.not_true, Bool.false_or,
    Bool.false_eq_true, if_false, if_true]

variable (hd : t.dispatches = true) (hmay : t.mayRun f.toNat (s.core f.toNat).active (t.holder f.toNat) (g.2, j) = true)
include hd hmay

theorem preemptDiscardDone_holds (hgather : t.gathers (g.2, j) = true) :
    exec (.preemptDiscardDone f) s = .next (t.holdCore f.toNat (g.2, j)) := by
  unfold givenBack withGrants at ht
  change execPreemptDiscardDone f s = _
  simp only [execPreemptDiscardDone, hg, hr, discard_done hdisc hclock, ← ht, hj, hask, hd, hmay, hgather, Bool.not_true,
    Bool.or_self, Bool.false_eq_true, if_false, if_true]

theorem preemptDiscardDone_begins {u : State} {q : Requeued} (hgather : t.gathers (g.2, j) = false)
    (hhand : t.handOut g.2 j [] = .step u q) :
    exec (.preemptDiscardDone f) s = .next (u.beginStep f.toNat (s.core f.toNat).active g.2 q) := by
  unfold givenBack withGrants at ht
  change execPreemptDiscardDone f s = _
  simp only [execPreemptDiscardDone, hg, hr, discard_done hdisc hclock, ← ht, hj, hask, hd, hmay, hgather, State.giveStep, hhand,
    Bool.not_true, Bool.or_self, Bool.false_eq_true, if_false]

end

end

/-! ### The end of gathering (R138, R139, R143) -/

theorem gatherEvents_idle {s : State} {ch : Choices} (h : s.sched.gather = none) : exec .gatherRelease s = .next s
    ∧ exec .pipelineGathered s = .next s ∧ exec (.localGangGathered ch) s = .next s := by
  refine ⟨?_, ?_, ?_⟩
  · change execGatherRelease s = _
    simp only [execGatherRelease, h]
  · change execPipelineGathered s = _
    simp only [execPipelineGathered, h]
  · change execLocalGangGathered ch s = _
    simp only [execLocalGangGathered, h]

section
variable {s : State} {g : Gather} (hg : s.sched.gather = some g)
include hg

/-- The cores of an item that is gone are free. -/
theorem gatherRelease_gone (hgone : s.task? g.task = none) : Ends (exec .gatherRelease s) (fun t => t.sched.gather = none) := by
  change Ends (execGatherRelease s) _
  simp only [execGatherRelease, hg, hgone, Option.isNone_none, Bool.or_true, if_true]
  exact ends_next.mpr rfl

/-- Nothing presses the one item that there is. -/
theorem gatherRelease_alone {k : Task} (hk : s.task? g.task = some k) (hall : s.allTasks = [(g.task, k)]) :
    exec .gatherRelease s = .next s := by
  change execGatherRelease s = _
  simp [execGatherRelease, hg, hk, hall]

section
variable {k : Task} {p : PipeInfo} (hk : s.task? g.task = some k) (hp : k.pipe = some p)
include hk hp

theorem pipelineGathered_waits (h : s.dispatches = false ∨ g.held.length < p.cores) : exec .pipelineGathered s = .next s := by
  change execPipelineGathered s = _
  simp only [execPipelineGathered, hg, hk, hp]
  exact if_pos (by rcases h with h | h <;> simp [h])

/-- The stages are decremented in one cycle, and the pipeline gathers no more. -/
theorem pipelineGathered_starts (hd : s.dispatches = true) (hcores : p.cores ≤ g.held.length) (hstarted : p.started = false)
    (hkilled : k.killed = none) : Ends (exec .pipelineGathered s) (fun t => t.sched.gather = none) := by
  change Ends (execPipelineGathered s) _
  simp only [execPipelineGathered, hg, hk, hp]
  rw [if_neg (by simp [hd, hstarted, hkilled, hcores]), ends_next]
  refine foldl_keeps (fun t : State => t.sched.gather) _ (fun t st => ?_) p.stages _
  split
  · exact decrement_gather ..
  · rfl

end

section
variable {x : LocalGang} (hx : s.gangOf g.task = some x) {ch : Choices}
include hx

theorem localGangGathered_waits (h : s.dispatches = false ∨ g.held.length < x.size.toNat) : exec (.localGangGathered ch) s = .next s := by
  change execLocalGangGathered ch s = _
  simp only [execLocalGangGathered, hg, hx]
  exact if_pos (by rcases h with h | h <;> simp [h])

/-- A gang of one member starts it on its core. -/
theorem localGangGathered_starts {m : Word} {c : Nat × Nat} {k : Task} {b : BitVec 1} {u : State} {q : Requeued} (hd : s.dispatches = true)
    (hmembers : x.members = [m]) (hheld : g.held = [c]) (hc : c.2 = 0) (hsize : x.size = 1) (hready : s.gangReady x = true)
    (hk : s.task? m = some k) (hb : s.freeBank c.1 = some b) (hhand : (gangStarted s x).handOut m k ch = .step u q) :
    exec (.localGangGathered ch) s = .next (u.beginStep c.1 b m q) := by
  have hgo : ¬ (!s.dispatches || decide (g.held.length < x.size.toNat) || !s.gangReady x) = true := by simp [hd, hheld, hsize, hready]
  have htask : (gangStarted s x).task? m = some k := hk
  have hbank : (gangStarted s x).freeBank c.1 = some b := hb
  have hpairs : g.held.map (fun h => (x.members.getD h.2 0, h.1)) = [(m, c.1)] := by simp [hheld, hmembers, hc]
  change execLocalGangGathered ch s = _
  simp only [execLocalGangGathered, hg, hx, if_neg hgo, hpairs]
  change (gangStarted s x).startMembers ch [(m, c.1)] = _
  simp only [State.startMembers, htask, hbank, hhand]

end

end

/-! ### The obligation -/

/-- Settles O56: each event is one of the cases above. -/
theorem dispatching : Obligations.Dispatching := by
  intro s f b ch task k
  refine ⟨stepDispatch_waits, fun hf hb hd hg hnear => ⟨stepDispatch_idle ⟨hf, hb, hd, hg, hnear⟩, fun x u q hbest hask =>
      ⟨stepDispatch_begins ⟨hf, hb, hd, hg, hnear⟩ hbest hask, fun hx hgather => ?holds⟩⟩,
    fun q hk => ⟨?step, ?context⟩, fun r hr => ⟨stepBoundaryRelease_waits hr, fun hst hheld hempty => ?boundary⟩,
    agingStep_raises, preemptGrace_of_stopped,
    fun hk hd hitem hx hlate hnone hgrants v => preemptGrace_preempts hk hd hitem hx hlate hnone hgrants, preemptGrace_early,
    fun g r t hg hr => ⟨preemptDiscardDone_waits hg hr, fun hdisc hclock ht => ⟨fun hgone => ?gone, fun j hj hask =>
      ⟨preemptDiscardDone_frees hg hr hdisc hclock ht hj hask,
        fun hmay => preemptDiscardDone_holds hg hr hdisc hclock ht hj hask hmay.1 hmay.2,
        fun u q hmay => preemptDiscardDone_begins hg hr hdisc hclock ht hj hask hmay.1 hmay.2⟩⟩⟩,
    preemptDiscardDone_no_grant, fun g => preemptDiscardDone_no_step, gatherEvents_idle,
    fun g hg => ⟨gatherRelease_gone hg, gatherRelease_alone hg,
      fun p hk hp => ⟨pipelineGathered_waits hg hk hp, pipelineGathered_starts hg hk hp⟩,
      fun x m c u q b hx => ⟨localGangGathered_waits hg hx, localGangGathered_starts hg hx⟩⟩⟩
  case holds =>
    rw [stepDispatch_holds ⟨hf, hb, hd, hg, hnear⟩ hbest hx, ends_next]
    exact ⟨rfl, holdCore_first hbest hx hgather⟩
  case step =>
    obtain ⟨run, -, -, -, hrun, hst, -, htask, hstep, hheld, hcommitted, hworld⟩ := beginStep_bank hk f.toNat b q
    exact ⟨hst, beginStep_mem hk _ _ _, run, hrun, htask, hstep, hheld, hcommitted, by rw [hworld, BitVec.toNat_ofNat]⟩
  case context =>
    obtain ⟨-, line, j, hlr, -, -, hctx, -⟩ := beginStep_bank hk f.toNat b q
    rw [hctx, ← hlr]
    exact startCtx_arguments line j q
  case boundary =>
    by_cases howner : (s.bank f.toNat b).owner = (r.task, r.world)
    · obtain ⟨hrun, hnow, hvregs, -, hscratch, -⟩ := released_settle (s.bank f.toNat b) r
      rw [stepBoundaryRelease_same hr hst hheld hempty howner, ends_next, State.bank_setBank_same]
      exact ⟨hrun, hnow, fun hother => absurd howner hother, fun _ => ⟨hvregs, hscratch, rfl⟩⟩
    · obtain ⟨t, hexec, hbasin⟩ := stepBoundaryRelease_changes hr hst hheld hempty howner
      obtain ⟨hrun, hnow, hvregs, haccs, hscratch, hlines⟩ := released_settle (zeroed (t.bank f.toNat b)) r
      rw [hexec, ends_next, State.bank_setBank_same]
      exact ⟨hrun, hnow, fun _ => ⟨hvregs, haccs, hscratch, hlines.trans hbasin⟩, fun hsame => absurd hsame howner⟩
  case gone =>
    subst ht
    exact preemptDiscardDone_gone hg hr hdisc hclock hgone

end Sys2Proof.Laws
end

section
/-!
PROOFS. Decrements, launches from steps, parameter images, pipelines and the end of a task (06_scheduler.md, R120, R127, R133, R137, R140,
R145; R219, R325, R444, R446).
-/

namespace Sys2Proof.Laws

open Sys2Proof Sys2Proof.Machine Sys2Proof.Safety

/-! ### Decrements and arrivals from steps (R127, R145, R219, R446) -/

section
variable {s : State} {id : U32} {r : Req} (hr : s.req? id.toNat = some r)
include hr

section
variable {t : Word} {n : Nat} {sys poison : Bool} (hkind : r.kind = .decrement t n sys poison) (hhere : r.remote = false)
include hkind hhere

theorem dependenceDecrement_reaches (hpkg : r.place.pkg = s.pkg)
    (hgo : r.run = 0 ∨ (s.releaseReady r = true ∧ s.decBlocked r t = false)) :
    exec (.dependenceDecrement id) s = .next ((s.decrement t n r.world sys poison).dropReq r) := by
  have hfree : (r.remote || (decide (r.run ≠ 0) && (!s.releaseReady r || s.decBlocked r t))) = false := by
    rcases hgo with hrun | ⟨hready, hblocked⟩
    · simp [hhere, hrun]
    · simp [hhere, hready, hblocked]
  change execDependenceDecrement id s = _
  simp only [execDependenceDecrement, hr, hkind, hfree, Bool.false_eq_true, if_false]
  exact if_neg (not_not.mpr hpkg)

theorem dependenceDecrement_waits (hrun : r.run ≠ 0) (hwait : s.releaseReady r = false ∨ s.decBlocked r t = true) :
    exec (.dependenceDecrement id) s = .next s := by
  change execDependenceDecrement id s = _
  simp only [execDependenceDecrement, hr, hkind]
  exact if_pos (by simpa [hhere, hrun] using hwait)

end

theorem dependenceDecrement_arrives {slot : Nat} {poison : Bool} (hkind : r.kind = .arrive slot poison) (hready : s.releaseReady r = true) :
    exec (.dependenceDecrement id) s = .next ((s.dropReq r).arriveSlot r.task slot poison) := by
  change execDependenceDecrement id s = _
  simp only [execDependenceDecrement, hr, hkind, hready, if_true]

/-! ### Launches from steps (R444) -/

section
variable {lr : LaunchRec} {viaRec : Bool} {sd st : BitVec 5} (hkind : r.kind = .spawn lr viaRec sd st)
include hkind

theorem spawnArrival_waits (hready : s.releaseReady r = false) : exec (.spawnArrival id) s = .next s := by
  change execSpawnArrival id s = _
  simp only [execSpawnArrival, hr, hkind, hready, Bool.not_false, if_true]

variable (hready : s.releaseReady r = true) (hask : s.askRecord lr viaRec = (s, true))
include hready hask

/-- A launch that is refused is answered with its status. -/
theorem spawnArrival_refused (hst : s.spawnStatus r lr viaRec ≠ 0) : ∃ u, (u = s ∨ u = s.dropBytes (lrPipe lr)) ∧
    exec (.spawnArrival id) s
      = .next ((u.deliver r fun c => Ctx.landS st ((s.spawnStatus r lr viaRec).setWidth 64) (Ctx.landS sd 0 c)).dropReq r) := by
  change ∃ u, _ ∧ execSpawnArrival id s = _
  simp only [execSpawnArrival, hr, hkind, hready, hask, Bool.not_true, Bool.false_eq_true, if_false]
  cases s.homeUnit lr with
  | none => exact ⟨s, .inl rfl, rfl⟩
  | some u => exact ⟨s.dropBytes (lrPipe lr), .inr rfl, if_neg hst⟩

/-- A launch that is accepted is answered with the identifier of its task. -/
theorem spawnArrival_accepted {u : Nat} {x : State × Word} (hst : s.spawnStatus r lr viaRec = 0) (hu : s.homeUnit lr = some u)
    (hx : x = (s.takeCredits (lrCq lr) (lrNeeds lr)).accept u lr (fun k => { k with viaRec }) none) :
    exec (.spawnArrival id) s
      = .next (((x.1.dropBytes (lrPipe lr)).deliver r fun c => Ctx.landS st 0 (Ctx.landS sd x.2 c)).dropReq r) := by
  change execSpawnArrival id s = _
  simp only [execSpawnArrival, hr, hkind, hready, hask, hst, hu, hx, Bool.not_true, Bool.false_eq_true, if_false]
  rfl

end

end

/-! ### A decrement at its unit (R127, R128) -/

section
variable {s : State} {t : Word} {k : Task} (hk : s.task? t = some k) (hu : tidUnit t < 40) {w : Byte} {n : Nat}
include hk hu

theorem decrement_of_ended (hst : k.st = .ended) : (s.decrement t n w true false).task? t = some k := by
  obtain ⟨hhere, hfind, hseq⟩ := task?_eq_some.mp hk
  have hstale : s.decrement t n w true false = s.staleAt (tidUnit t) := by
    simp only [State.decrement, if_neg (Nat.not_le.mpr hu), hk, hst, true_or, if_true]
  rw [hstale]
  refine task?_eq_some.mpr ⟨hhere, ?_, hseq⟩
  rw [State.staleAt, unit_setUnit_same]
  exact hfind

variable (hst : k.st ≠ .ended) (hw : lrWorld k.lr = w.toNat)
include hst hw

theorem decrement_lowers (hn : n < k.count.toNat) : s.decrement t n w false false = s.putTask t { k with count := k.count - BitVec.ofNat 16 n } := by
  have hcount : k.count ≠ 0 := by
    rintro h
    rw [h] at hn
    exact absurd hn (Nat.not_lt_zero n)
  have hne : ¬ k.count = 0#16 := hcount
  simp [State.decrement, Nat.not_le.mpr hu, hk, hst, hw, hne, Nat.not_le.mpr hn]

theorem decrement_of_zero (hcount : k.count = 0) : s.decrement t n w false true = s.putTask t k.setDeperr := by
  simp [State.decrement, Nat.not_le.mpr hu, hk, hst, hw, hcount]

theorem decrement_to_zero (hcount : k.count ≠ 0) (hn : n = k.count.toNat) : s.decrement t n w false false = (s.putTask t k).becomeReady t := by
  have hne : ¬ k.count = 0#16 := hcount
  simp [State.decrement, Nat.not_le.mpr hu, hk, hst, hw, hne, hn]

end

/-- A task with a parameter block is ready before its image is loaded (R325). -/
theorem becomeReady_of_param {s : State} {t : Word} {k : Task} (hk : s.task? t = some k) (hparam : lrParam k.lr ≠ 0) :
    ∃ k', (s.becomeReady t).task? t = some k' ∧ k'.st = .ready ∧ k'.count = 0 := by
  unfold State.becomeReady
  rw [hk]
  dsimp only
  split
  · exact ⟨_, task?_putTask_same hk rfl, rfl, rfl⟩
  · rw [if_neg (mt And.left hparam)]
    exact ⟨_, task?_putTask_same hk rfl, rfl, rfl⟩

/-! ### Parameter images and declarations (R133, R137, R325) -/

/-- What comes of the parameter image of a task that is no pipeline, once its record is at hand. -/
def loadImage (s : State) (t : Word) (k : Task) (ch : Choices) : Host.Outcome State Fault Refusal :=
  match s.readImage (unitAsker (tidUnit t) t (BitVec.ofNat 8 (lrWorld k.lr)) .L) (unitKey t) (lrParam k.lr) ch with
  | .ok u r =>
    .next (((u.dropLines (unitKey t)).mapTask t fun k => { k with param := mwrite [] 0 r.1, paramLen := r.1.length }).afterLoad t)
  | .wait u => .next u
  | .trap x => .next (if x.cause = Cause.objMissing then s else s.killCause t x.cause)
  | .fault r => .fault r

section
variable {s : State} {t : Word} {k : Task} {ch : Choices} (hk : s.task? t = some k)
include hk

theorem paramImageLoaded_not_due (h : k.st ≠ .ready ∨ k.loaded = true) : exec (.paramImageLoaded t ch) s = .next s := by
  change execParamImageLoaded t ch s = _
  simp only [execParamImageLoaded, hk]
  exact if_pos (by rcases h with h | h <;> simp [h])

variable (hst : k.st = .ready) (hloaded : k.loaded = false) (hkilled : k.killed = none) (hask : s.askRecord k.lr false = (s, true))
  (hhere : Here s (lrTemplate k.lr :: ((k.pipe.map fun p => p.stages.map fun y => y.template).getD [])))
include hst hloaded hkilled hask hhere

theorem paramImageLoaded_reads (hrole : k.role ≠ .pipeline) : exec (.paramImageLoaded t ch) s = loadImage s t k ch := by
  change execParamImageLoaded t ch s = _
  simp only [execParamImageLoaded, hk]
  rw [if_neg (by simp [hst, hloaded, hkilled]), askEntries_here]
  · simp only [hask, Bool.not_true, Bool.or_self, Bool.false_eq_true, if_false]
    rfl
  · cases hp : k.pipe <;> simpa [hp] using hhere

/-- A pipeline whose declaration cannot be read is killed (log entry 30). -/
theorem paramImageLoaded_undeclared (hrole : k.role = .pipeline) (hdecl : s.declBytes (lrPipe k.lr) = none) :
    exec (.paramImageLoaded t ch) s = .next (s.killTask t 0x0020 Cause.pipeBad) := by
  change execParamImageLoaded t ch s = _
  simp only [execParamImageLoaded, hk]
  rw [if_neg (by simp [hst, hloaded, hkilled]), askEntries_here]
  · simp only [hask, hrole, hdecl, Bool.not_true, Bool.or_self, Bool.false_eq_true, if_false]
    rfl
  · cases hp : k.pipe <;> simpa [hp] using hhere

end

/-! ### Rebalancing (R140) -/

section
variable {s : State} {t : Word} {k : Task} {p : PipeInfo} (hk : s.task? t = some k) (hp : k.pipe = some p)
include hk hp

theorem pipelineRebalance_not_due (h : s.tether.toNat / 16000 ≤ p.lastBalance ∨ s.tether.toNat % 16000 ≠ 0) :
    exec (.pipelineRebalance t) s = .next s := by
  change execPipelineRebalance t s = _
  simp only [execPipelineRebalance, hk, hp]
  exact if_pos (by rcases h with h | h <;> simp [h])

/-- Rebalancing moves at most one core to another stage, and the occupancies count anew. -/
theorem pipelineRebalance_moves (hstarted : p.started = true) (hlast : p.lastBalance < s.tether.toNat / 16000)
    (hdue : s.tether.toNat % 16000 = 0) (htherm : s.power.thermStopped = false) :
    Ends (exec (.pipelineRebalance t) s) (fun u => ∃ k' p', u.task? t = some k' ∧ k'.pipe = some p'
      ∧ p'.lastBalance = s.tether.toNat / 16000 ∧ p'.held.length = p.held.length ∧ (∀ y ∈ p'.rings, y.occ = 0)) := by
  change Ends (execPipelineRebalance t s) _
  simp only [execPipelineRebalance, hk, hp]
  rw [if_neg (by simp [hstarted, hdue, htherm, hlast]), ends_next]
  refine ⟨_, _, task?_putTask_same hk rfl, rfl, rfl, ?held, ?rings⟩
  case held =>
    dsimp only
    split
    · split
      · split
        · exact List.length_map _
        · rfl
      · rfl
    · rfl
  case rings =>
    intro y hy
    obtain ⟨r, -, rfl⟩ := List.mem_map.mp hy
    rfl

end

/-! ### The end of a task (R65, R120, R145, R153, R219) -/

/-- Arrivals at barriers mark the task's record, and leave the host interface alone. -/
theorem arriveSlot_marks {s : State} {t : Word} {k : Task} (hk : s.task? t = some k) (slot : Nat) (poison : Bool) :
    ∃ a, (s.arriveSlot t slot poison).task? t = some { k with arrived := a } ∧ (s.arriveSlot t slot poison).host = s.host := by
  unfold State.arriveSlot
  rw [hk]
  dsimp only
  split
  · exact ⟨k.arrived, hk, rfl⟩
  · refine ⟨k.arrived ||| (1#4 <<< slot), ?_,
      (eq_of_apartTraffic State.host (issueReq_apartTraffic ..)).trans (putTask_host s t _)⟩
    rw [task?_of_sched (eq_of_apartTraffic State.sched (issueReq_apartTraffic ..)) (eq_of_apartTraffic State.pkg (issueReq_apartTraffic ..))]
    exact task?_putTask_same hk rfl

theorem foldl_arriveSlot_marks (poison : Nat → Bool) (l : List Nat) {s : State} {t : Word} {k : Task} (hk : s.task? t = some k) :
    ∃ a, (l.foldl (fun s j => s.arriveSlot t j (poison j)) s).task? t = some { k with arrived := a }
      ∧ (l.foldl (fun s j => s.arriveSlot t j (poison j)) s).host = s.host := by
  induction l generalizing s k with
  | nil => exact ⟨k.arrived, hk, rfl⟩
  | cons j l ih =>
    obtain ⟨a, hmark, hhost⟩ := arriveSlot_marks hk j (poison j)
    obtain ⟨c, hmarks, hhosts⟩ := ih hmark
    exact ⟨c, hmarks, hhosts.trans hhost⟩

theorem closeTask_apartTraffic (s : State) (t : Word) : apartTraffic (s.closeTask t) = apartTraffic s := by
  unfold State.closeTask
  exact foldl_keeps apartTraffic _ (fun _ _ => sendReq_apartTraffic ..) _ s

/-- A freed record is not in use. -/
theorem freeTask_free (s : State) (t : Word) : tfind ((s.freeTask t).unit (tidUnit t)).tasks (tidIndex t) = none := by
  rw [State.freeTask, unit_setUnit_same, tfind_tdel_same]

theorem cqWrite_sched (s : State) (n : Nat) (r : Record) : (s.cqWrite n r).sched = s.sched := by
  obtain ⟨_, _, _, _, h⟩ := cqWrite_eq s n r
  rw [h]
theorem setErr_sched (s : State) (k : Nat) (d4 d5 : Word) : (s.setErr k d4 d5).sched = s.sched := by
  obtain ⟨_, _, _, _, h⟩ := setErr_eq s k d4 d5
  rw [h]
theorem sendGang_sched (s : State) (dst kind : Nat) (gid st reps pres : U16) (t : Word) (lr : List Word) :
    (s.sendGang dst kind gid st reps pres t lr).sched = s.sched := by
  unfold State.sendGang
  dsimp only
  split
  · rfl
  · exact eq_of_apartLinks State.sched (sendTo_apartLinks ..)

/-- A completion record is counted in its ring (R63). -/
theorem cqWrite_count {s : State} {n : Nat} {q : CompletionObj} (hq : s.cq n = some q) (r : Record) :
    ∃ q', (s.cqWrite n r).cq n = some q' ∧ q'.count = q.count + 1 := by
  unfold State.cqWrite
  rw [hq]
  dsimp only
  split
  · rw [State.cq, signal_host, ← State.cq, cq_setCq_same]
    exact ⟨_, rfl, rfl⟩
  · rw [cq_setCq_same]
    exact ⟨_, rfl, rfl⟩

/-- The report of an end puts no record back into use. -/
theorem reportEnd_free {s : State} {t : Word} (k : Task) (hfree : tfind (s.unit (tidUnit t)).tasks (tidIndex t) = none) :
    (s.reportEnd t k).task? t = none := by
  have hstands {u : State} (hsched : u.sched = s.sched) : u.task? t = none :=
    task?_of_free (by rw [unit_of_sched hsched, hfree])
  unfold State.reportEnd
  extract_lets e reps pres rec u n x
  have hu : u.sched = s.sched := by
    unfold u
    split
    · exact setErr_sched ..
    · rfl
  have hx : tfind (u.unit (tidUnit t)).tasks (tidIndex t) = none := by rw [unit_of_sched hu, hfree]
  clear_value u
  split
  · split
    · exact hstands hu
    · rename_i parent j _ _ p hp
      have hother : tidIndex t ≠ parent := by
        rintro rfl
        exact nomatch hp.symm.trans hx
      refine task?_of_free ?_
      rw [unit_setUnit_same]
      exact (tfind_tset_other _ _ _ _ hother).trans hx
  · split
    · exact hstands hu
    · extract_lets silent v
      have hv : v.sched = s.sched := by
        unfold v
        split
        · exact (cqWrite_sched ..).trans hu
        · exact hu
      split
      · exact hstands hv
      · exact hstands ((sendGang_sched ..).trans hv)
  · split
    · exact hstands hu
    · exact hstands ((cqWrite_sched ..).trans hu)

/-- The end of a plain task that has not been killed is reported in its completion object (R65). -/
theorem reportEnd_plain {s : State} {t : Word} {k : Task} {q : CompletionObj} (hrole : k.role = .plain) (hpipe : k.pipe = none)
    (hkilled : k.killed = none) (hcmpl : lrNocmpl k.lr = false) (hq : s.cq (lrCq k.lr) = some q) :
    ∃ q', (s.reportEnd t k).cq (lrCq k.lr) = some q' ∧ q'.count = q.count + 1 := by
  have hend : k.ending.1 ≠ Status.replayFail := by
    unfold Task.ending
    rw [hkilled, hpipe]
    dsimp only [Option.bind_none, Option.map_none, Option.getD_none]
    split <;> decide
  simp only [State.reportEnd, if_neg hend, hrole, hcmpl, Bool.false_eq_true, if_false]
  exact cqWrite_count hq _

section
variable {s : State} {t : Word}

theorem taskEnd_unknown (hk : s.task? t = none) : exec (.taskEnd t) s = .next s := by
  change execTaskEnd t s = _
  simp only [execTaskEnd, hk]

variable {k : Task} (hk : s.task? t = some k)
include hk

theorem taskEnd_kills_stages (hlive : s.stagesLive t k = true) : exec (.taskEnd t) s = .next (s.killStages t k) := by
  change execTaskEnd t s = _
  simp only [execTaskEnd, hk, hlive, if_true]

variable (hlive : s.stagesLive t k = false)
include hlive

theorem taskEnd_steps_left (hend : k.allEnded = false) : exec (.taskEnd t) s = .next s := by
  change execTaskEnd t s = _
  simp only [execTaskEnd, hk, hlive, hend, Bool.not_false, Bool.false_eq_true, if_true, if_false]

variable (hend : k.allEnded = true)
include hend

theorem taskEnd_flushes {f : Nat} {b : BitVec 1} (hdirty : s.dirtyBanks t = [(f, b)]) :
    exec (.taskEnd t) s = .next (s.flushBasin f b fun l => l.task == t) := by
  change execTaskEnd t s = _
  simp only [execTaskEnd, hk, hlive, hend, hdirty, Bool.not_true, Bool.false_eq_true, if_false]
  rfl

variable (hdirty : s.dirtyBanks t = [])
include hdirty

theorem taskEnd_waits (hquiet : s.quiet t = false) : exec (.taskEnd t) s = .next s := by
  change execTaskEnd t s = _
  simp only [execTaskEnd, hk, hlive, hend, hdirty, hquiet, Bool.not_true, Bool.not_false, Bool.false_eq_true, if_true, if_false]

/-- Nothing of a task is left: it makes its arrivals, its record is free, and then its end is reported. -/
theorem taskEnd_ends (hquiet : s.quiet t = true) : ∃ u j a, exec (.taskEnd t) s = .next (State.reportEnd u t j) ∧ j = { k with arrived := a }
    ∧ tfind (u.unit (tidUnit t)).tasks (tidIndex t) = none ∧ u.host = s.host := by
  obtain ⟨a, hmarks, hhost⟩ := foldl_arriveSlot_marks
    (fun j => k.killed.isSome || !bit (((s.known (lrTemplate k.lr)).map tAuto).getD 0) j) (List.range 4) hk
  change ∃ u j a, execTaskEnd t s = _ ∧ _
  simp only [execTaskEnd, hk, hlive, hend, hdirty, hquiet, Bool.not_true, Bool.false_eq_true, if_false, hmarks, Option.getD_some]
  refine ⟨_, _, a, rfl, rfl, freeTask_free _ _, (eq_of_apartTraffic State.host (closeTask_apartTraffic _ t)).trans hhost⟩

end

/-! ### The obligation -/

/-- Settles O57: each event is one of the cases above. -/
theorem taskLifetimes : Obligations.TaskLifetimes := by
  intro s task k id r ch
  refine ⟨fun hr hhere hpkg => ⟨fun t n sys poison hkind hrun => dependenceDecrement_reaches hr hkind hhere hpkg (.inl hrun),
      fun t n sys poison hkind hrun => ⟨dependenceDecrement_waits hr hkind hhere hrun,
        fun hready hblocked => dependenceDecrement_reaches hr hkind hhere hpkg (.inr ⟨hready, hblocked⟩)⟩,
      fun slot poison => dependenceDecrement_arrives hr,
      fun lr viaRec sd st hkind => ⟨spawnArrival_waits hr hkind, spawnArrival_refused hr hkind,
        fun u x hready hask hst hu hx => spawnArrival_accepted hr hkind hready hask hst hu hx⟩⟩,
    fun hk hu w n => ⟨decrement_of_ended hk hu, ?lowers, ?zero, ?ready⟩,
    fun hk => ⟨paramImageLoaded_not_due hk, fun hst hloaded hkilled hask hhere => ⟨fun u hrole hgot => ?waits, fun u bs c hrole hgot => ?copies,
      fun x hrole hgot => ?traps, paramImageLoaded_undeclared hk hst hloaded hkilled hask hhere⟩⟩,
    fun p hk hp => ⟨pipelineRebalance_not_due hk hp, pipelineRebalance_moves hk hp⟩,
    taskEnd_unknown, taskEnd_kills_stages,
    fun hk hlive => ⟨taskEnd_steps_left hk hlive, fun f b hend => taskEnd_flushes hk hlive hend, taskEnd_waits hk hlive,
      fun hend hdirty hquiet => ?ends⟩⟩
  case lowers =>
    intro hst hw hn
    rw [decrement_lowers hk hu (by simp [hst]) hw hn]
    exact task?_putTask_same hk rfl
  case zero =>
    intro hst hw hcount
    rw [decrement_of_zero hk hu hst hw hcount]
    exact task?_putTask_same hk rfl
  case ready =>
    intro hst hw hcount hn hparam
    rw [decrement_to_zero hk hu (by simp [hst]) hw hcount hn]
    exact becomeReady_of_param (task?_putTask_same hk rfl) hparam
  case waits => rw [paramImageLoaded_reads hk hst hloaded hkilled hask hhere hrole, loadImage, hgot]
  case copies => rw [paramImageLoaded_reads hk hst hloaded hkilled hask hhere hrole, loadImage, hgot]
  case traps => rw [paramImageLoaded_reads hk hst hloaded hkilled hask hhere hrole, loadImage, hgot]
  case ends =>
    obtain ⟨u, j, a, hexec, rfl, hfree, hhost⟩ := taskEnd_ends hk hlive hend hdirty hquiet
    rw [hexec, ends_next]
    refine ⟨reportEnd_free _ hfree, fun hrole hpipe hkilled hcmpl q hq => ?_⟩
    exact reportEnd_plain (k := { k with arrived := a }) hrole hpipe hkilled hcmpl (by rw [State.cq, hhost]; exact hq)

end Sys2Proof.Laws
end

section
/-!
PROOFS. Answers to parked banks, the fault queue, the drain, resumption and uncorrectable errors (10_faults.md, R242 to R248, R253, R257,
R258; 06_scheduler.md, R131; 18_isa_tasks_system.md, R465).
-/

namespace Sys2Proof.Laws

open Sys2Proof Sys2Proof.Machine Sys2Proof.Safety

/-! ### Answers (R247, R248, Table 10-4) -/

section
variable {s : State} {f : Nat} {b : BitVec 1}

/-- A bank that is not parked under a fault is not answered. -/
theorem fanswer_ignored (h : (s.bank f b).fault = none ∨ (s.bank f b).st ≠ .parked) (n : Nat) (d : U16) : s.fanswer f b n d = s := by
  unfold State.fanswer
  dsimp only
  split
  · rfl
  · rename_i fi hfault
    exact if_pos (h.resolve_left (by simp [hfault]))

variable {fi : FaultInfo} (hfault : (s.bank f b).fault = some fi) (hst : (s.bank f b).st = .parked)
include hfault hst

theorem fanswer_resume : s.fanswer f b 0 0 = s.setBank f b { s.bank f b with st := .resumable, skip := false } := by
  simp only [State.fanswer, hfault, hst, ne_eq, not_true_eq_false, if_false]

theorem fanswer_skip : s.fanswer f b 1 0 = s.setBank f b { s.bank f b with st := .resumable, skip := true } := by
  simp only [State.fanswer, hfault, hst, ne_eq, not_true_eq_false, if_false]

theorem fanswer_kill (d : U16) : s.fanswer f b 3 d = s.killParked f b fi d := by
  simp only [State.fanswer, hfault, hst, ne_eq, not_true_eq_false, if_false]

theorem fanswer_replay (hrun : (s.bank f b).runOnFault = false)
    (htask : ∀ r, (s.bank f b).run = some r → r.committed = false ∧ r.task = fi.task) :
    s.fanswer f b 2 0 = s.replayStep f b fi.cause false := by
  have hany : ((s.bank f b).run.any fun r => r.committed || r.task != fi.task) = false := by
    cases hr : (s.bank f b).run with
    | none => rfl
    | some r =>
      obtain ⟨hcommitted, hmine⟩ := htask r hr
      simp [hcommitted, hmine]
  simp only [State.fanswer, hfault, hst, hrun, hany, ne_eq, not_true_eq_false, Bool.or_self, Bool.false_eq_true, if_false]

/-- A step past COMMIT is not replayed: its task is killed. -/
theorem fanswer_replay_committed {r : StepRun} (hr : (s.bank f b).run = some r) (hcommitted : r.committed = true) :
    s.fanswer f b 2 0 = s.killParked f b fi fi.cause := by
  simp only [State.fanswer, hfault, hst, hr, hcommitted, ne_eq, not_true_eq_false, if_false, Option.any_some, Bool.true_or, Bool.or_true,
    if_true]

end

/-! ### Step counters and the fault queue (R192, R246, R465) -/

theorem counter_setCounter (k : Bank) {q : QueueId} (hq : q ≠ .MQ) (n : Nat) : (k.setCounter q n).counter q = n % 65536 := by
  cases q with
  | MQ => exact absurd rfl hq
  | _ => exact BitVec.toNat_ofNat n 16

section
variable {s : State} {q : QueueId} {inst : BitVec 10} {v : Word}

theorem stepCounterWrite_beyond (h : 640 ≤ inst.toNat) : exec (.stepCounterWrite q inst v) s = .next s :=
  congrArg Host.Outcome.next (if_pos h)

variable (hinst : inst.toNat < 640) (hframed : (s.bank (inst.toNat / 2) (BitVec.ofNat 1 inst.toNat)).framed = false)
include hinst hframed

theorem stepCounterWrite_running (hst : (s.bank (inst.toNat / 2) (BitVec.ofNat 1 inst.toNat)).st = .running) :
    exec (.stepCounterWrite q inst v) s = .next s := by
  change Host.Outcome.next (s.writeStepCounter q inst.toNat v) = _
  simp only [State.writeStepCounter, if_neg (Nat.not_le.mpr hinst), hframed, hst, Bool.false_eq_true, if_false, reduceCtorEq]

theorem stepCounterWrite_idle (hst : (s.bank (inst.toNat / 2) (BitVec.ofNat 1 inst.toNat)).st = .idle) (hq : q ≠ .MQ) :
    Ends (exec (.stepCounterWrite q inst v) s) (fun t =>
      (t.bank (inst.toNat / 2) (BitVec.ofNat 1 inst.toNat)).counter q = v.toNat % 65536) := by
  change Ends (.next (s.writeStepCounter q inst.toNat v)) _
  rw [ends_next]
  simp only [State.writeStepCounter, if_neg (Nat.not_le.mpr hinst), hframed, hst, if_neg hq, Bool.false_eq_true, if_false, if_true,
    State.bank_setBank_same]
  rw [counter_setCounter _ hq, Nat.mod_mod]

end

section
variable {s : State} {v : Word} (hcores : s.cores = [])
include hcores

theorem fqheadWrite_advances (h : (v - s.faults.fqHead).toNat % 16384 ≤ s.faults.count) : Ends (exec (.fqheadWrite v) s) (fun t =>
    t.faults.fqHead = s.faults.fqHead + BitVec.ofNat 64 ((v - s.faults.fqHead).toNat % 16384) ∧ t.faults.fqTail = s.faults.fqTail) := by
  change Ends (.next (s.writeFqhead v)) _
  rw [ends_next, State.writeFqhead]
  simp only [if_pos h, hcores, List.foldl_nil, and_self]

theorem fqheadWrite_beyond (h : s.faults.count < (v - s.faults.fqHead).toNat % 16384) : exec (.fqheadWrite v) s = .next s := by
  change Host.Outcome.next (s.writeFqhead v) = _
  rw [State.writeFqhead]
  simp only [if_neg (Nat.not_le.mpr h), hcores, List.foldl_nil]

end

/-! ### The drain of a bank whose queues are empty (R242, R253) -/

theorem queue_of_cmds {k : Bank} (h : k.cmds = []) (q : QueueId) : k.queue q = [] := by
  simp only [Bank.cmds, List.append_eq_nil_iff] at h
  obtain ⟨⟨⟨⟨hl, hm⟩, hv⟩, hs⟩, hx⟩ := h
  cases q with
  | LQ => exact hl
  | MQ => exact hm
  | VQ => exact hv
  | SQ => exact hs
  | XQ => exact hx

/-- With nothing in flight and no vector command the drain leaves the bank as it is. -/
theorem drainVector_idle {k : Bank} (hcmds : k.cmds = []) (hlandings : k.landings = []) (n : Nat) :
    k.drainVector n = { k with nextV := 0 } := by
  have hvq : k.vq = [] := queue_of_cmds hcmds .VQ
  have hcount : k.countGroups = k := by simp only [Bank.countGroups, hvq]
  have hdue : k.landDue n = k := by simp only [Bank.landDue, hlandings, List.length_nil, Nat.mul_zero, Bank.landLoop, hcount]
  simp only [Bank.drainVector, hdue, hlandings, List.filter_nil, List.length_nil, sortLandings, Bank.landAll, hcount, hvq, List.map_nil]

section
variable {s : State} {f : Nat} {b : BitVec 1} (hempty : ∀ q, (s.bank f b).queue q = [])
include hempty

theorem retireAll_idle (n : Nat) : retireAll f b n s = s := by
  induction n with
  | zero => rfl
  | succ n ih =>
    have hretire : retire f b .VQ s = s := by simp only [retire, hempty]
    rw [retireAll, hretire, ih]

theorem drainEngines_idle (src : BitVec 3) (ch : Choices) (l : List (QueueId × Nat)) : drainEngines f b src ch l s = .next s := by
  induction l with
  | nil => rfl
  | cons x l ih =>
    obtain ⟨q, n⟩ := x
    have hsteps : runSteps f b q n ch s = .next s := by
      cases n with
      | zero => rfl
      | succ n => simp only [runSteps, hempty]
    have hretire : retire f b q s = s := by simp only [retire, hempty]
    simp only [drainEngines, hsteps, hretire, ih, ite_self]

theorem nbFinishAll_idle (p : Cmd → Bool) : s.nbFinishAll f b p = s := by
  have hxq : (s.bank f b).xq = [] := hempty .XQ
  simp only [State.nbFinishAll, hxq, List.filter_nil, List.foldl_nil]

end

theorem wake_cores (s : State) (k : Nat) : (s.wake k).cores = s.cores :=
  foldl_keeps State.cores _ (fun t n => State.setSys_cores t n _) _ _

theorem appendFault_cores (s : State) (ws : List Word) : (s.appendFault ws).cores = s.cores := wake_cores _ 0

/-- A bank that appends its record notes whether it waits for room (R246). -/
theorem appendRecord_bank (s : State) (f : Nat) (b : BitVec 1) : ∃ waits,
    (s.appendRecord f b).bank f b = { s.bank f b with record := waits } := by
  unfold State.appendRecord
  dsimp only
  split
  · exact ⟨true, State.bank_setBank_same ..⟩
  · refine ⟨false, ?_⟩
    rw [State.bank, State.core, appendFault_cores]
    exact State.bank_setBank_same s f b _

theorem dropServed_bank (s : State) (f g : Nat) (b c : BitVec 1) (gone : Nat → Bool) : (s.dropServed f b gone).bank g c = s.bank g c := rfl
theorem withdraw_bank (s : State) (f g : Nat) (b c : BitVec 1) : (s.withdraw f b).bank g c = s.bank g c := rfl

/-- A bank without commands that ends its drain, with its frame written (R131, R242). -/
def parkedBank (k : Bank) (fi : FaultInfo) : Bank :=
  { k with nextV := 0, xq := [], st := if fi.answered then .resumable else .parked, skip := false, stall := none }

section
variable {s : State} {f : BitVec 9} {b : BitVec 1} {n : Byte} {ch : Choices}

theorem faultFrameWrite_waits (h : (s.bank f.toNat b).fault = none ∨ (s.bank f.toNat b).st ≠ .draining ∨ s.valuesOut f.toNat b = true
    ∨ s.power.freqAct = 0) : exec (.faultFrameWrite f b n n n n ch) s = .next s := by
  change execFaultFrameWrite f b n n n n ch s = _
  unfold execFaultFrameWrite
  dsimp only
  split
  · rfl
  · rename_i fi hfault
    exact if_pos (by simpa [hfault, or_assoc] using h)

/-- The frame of a bank without commands in flight is written, the record is appended, and the other bank runs. -/
theorem faultFrameWrite_parks {fi : FaultInfo} (hfault : (s.bank f.toNat b).fault = some fi) (hst : (s.bank f.toNat b).st = .draining)
    (hvalues : s.valuesOut f.toNat b = false) (hcmds : (s.bank f.toNat b).cmds = []) (hlandings : (s.bank f.toNat b).landings = [])
    (hplan : (s.bank f.toNat b).plan = none) (hclock : s.power.freqAct ≠ 0) : ∃ t : State,
    exec (.faultFrameWrite f b n n n n ch) s = .next ((t.appendRecord f.toNat b).setCore f.toNat
      { (t.appendRecord f.toNat b).core f.toNat with active := 1 - b }) ∧ t.bank f.toNat b = parkedBank (s.bank f.toNat b) fi := by
  have hgo : (decide ((s.bank f.toNat b).st ≠ .draining) || s.valuesOut f.toNat b || decide (s.power.freqAct = 0)) = false := by
    rw [hst, hvalues, decide_eq_false hclock]
    rfl
  obtain ⟨u, hu⟩ : ∃ u, u = s.setBank f.toNat b ((s.bank f.toNat b).drainVector fi.cycle) := ⟨_, rfl⟩
  have hbank : u.bank f.toNat b = { s.bank f.toNat b with nextV := 0 } := by
    rw [hu, State.bank_setBank_same, drainVector_idle hcmds hlandings]
  have hqueues (q : QueueId) : (u.bank f.toNat b).queue q = [] := by
    rw [hbank]
    exact queue_of_cmds hcmds q
  have hxq : (u.bank f.toNat b).xq = [] := hqueues .XQ
  have hsame : (u.bank f.toNat b).fault = some fi := by
    rw [hbank]
    exact hfault
  change ∃ t : State, execFaultFrameWrite f b n n n n ch s = _ ∧ _
  simp only [execFaultFrameWrite, hfault, hgo, hplan, Option.isNone_none, ← hu, retireAll_idle hqueues, drainEngines_idle hqueues,
    nbFinishAll_idle hqueues, hxq, List.filter_nil, List.map_nil, ite_self, Bool.false_eq_true, if_false, if_true, dropServed_bank,
    withdraw_bank, State.bank_setBank_same, hsame]
  refine ⟨_, rfl, (State.bank_setBank_same ..).trans ?_⟩
  rw [parkedBank, hbank, hfault]

end

end Sys2Proof.Laws
end

section
/-!
PROOFS. Resumption of a parked step and uncorrectable errors (10_faults.md, R253, R257, R258; 06_scheduler.md, R131).
-/

namespace Sys2Proof.Laws

open Sys2Proof Sys2Proof.Machine Sys2Proof.Safety

/-! ### Resumption (R253) -/

section
variable {s : State} {f : BitVec 9} {b : BitVec 1}

theorem parkedStepResume_waits (h : (s.bank f.toNat b).fault = none ∨ (s.bank f.toNat b).st ≠ .resumable
    ∨ (s.bank f.toNat (1 - b)).st = .running ∨ (s.bank f.toNat (1 - b)).st = .draining) : exec (.parkedStepResume f b) s = .next s := by
  change execParkedStepResume f b s = _
  unfold execParkedStepResume
  dsimp only
  split
  · rfl
  · rename_i fi hfault
    exact if_pos (by simpa [hfault, or_assoc] using h)

/-- The bank that resumes: its registers and positions from the frame, running unless its step had run on. -/
def resumedBank (s : State) (f : Nat) (b : BitVec 1) : Bank :=
  let k := s.bank f b
  { k.restoreFrame fun n => (mword s.mem (s.frameAddr f b + 8 * n)).toNat with
    st := if k.runOnFault then .idle else .running, fault := none, skip := false }

theorem parkedStepResume_resumes {fi : FaultInfo} (hfault : (s.bank f.toNat b).fault = some fi) (hst : (s.bank f.toNat b).st = .resumable)
    (hskip : (s.bank f.toNat b).skip = false) (hother : (s.bank f.toNat (1 - b)).st = .idle) :
    exec (.parkedStepResume f b) s = .next ((s.setBank f.toNat b (resumedBank s f.toNat b)).setCore f.toNat
      { (s.setBank f.toNat b (resumedBank s f.toNat b)).core f.toNat with active := b }) := by
  have hkept : ((s.bank f.toNat b).restoreFrame fun n => (mword s.mem (s.frameAddr f.toNat b + 8 * n)).toNat).skip = false := hskip
  change execParkedStepResume f b s = _
  simp only [execParkedStepResume, hfault, hst, hother, hkept, ne_eq, not_true_eq_false, decide_false, reduceCtorEq, Bool.or_self,
    Bool.false_eq_true, if_false]
  rfl

/-- The bank of a core of which another bank is made active. -/
theorem bank_setActive (s : State) (f : Nat) (a b : BitVec 1) : (s.setCore f { s.core f with active := a }).bank f b = s.bank f b := by
  rw [State.bank, State.core_setCore_same]
  rfl

end

/-! ### The step that owns the bank is replayed or killed (R253, R257) -/

section
variable {s : State} {f : Nat} {b : BitVec 1} {cause : U16}

theorem replayReader_none : s.replayReader f b none cause = s.replayStep f b cause false := by
  unfold State.replayReader
  cases (s.bank f b).run <;> rfl

theorem requeue_host (r : StepRun) (preempt : Bool) : (s.requeue r preempt).host = s.host := mapTask_host ..

variable {r : StepRun} (hrun : (s.bank f b).run = some r)
include hrun

theorem replayReader_own {q : QueueId} {c : Cmd} (hhead : ((s.bank f b).queue q).head? = some c) (hown : c.run = r.id) :
    s.replayReader f b (some q) cause = s.replayStep f b cause false := by
  simp only [State.replayReader, Option.bind_some, hhead, hrun, hown, if_true]

theorem replayReader_earlier {q : QueueId} {c : Cmd} (hhead : ((s.bank f b).queue q).head? = some c) (hearlier : c.run ≠ r.id) :
    s.replayReader f b (some q) cause = s.killTask c.task 0x0020 cause := by
  simp only [State.replayReader, Option.bind_some, hhead, hrun, hearlier, if_false]
  rfl

theorem replayStep_done (hdone : r.committed = true ∨ r.ended = true) : s.replayStep f b cause false = s.killTask r.task 0x0020 cause := by
  simp only [State.replayStep, hrun, Bool.or_eq_true, if_pos hdone, Bool.false_eq_true, if_false]
  rfl

theorem replayStep_third (hcommitted : r.committed = false) (hended : r.ended = false) (hreplays : 2 ≤ r.replays.toNat) :
    s.replayStep f b cause false = s.killTask r.task 0x0023 cause := by
  simp only [State.replayStep, hrun, hcommitted, hended, Bool.or_self, Bool.false_eq_true, if_false, if_pos hreplays]
  rfl

end

/-- A replay leaves ERRSTAT as it is. -/
theorem replayStep_errstat (s : State) (f : Nat) (b : BitVec 1) (cause : U16) (link : Bool) :
    (s.replayStep f b cause link).host.errstat = s.host.errstat := by
  unfold State.replayStep
  split
  · rfl
  · split
    · rw [killTask_host]
    · split
      · rw [killTask_host]
      · change (((s.discardStep f b).noteFree f).requeue _ false).host.errstat = _
        rw [requeue_host, noteFree_host, discardStep_host]

/-! ### UE_MEM (R257, R258) -/

theorem loseObject_errstat {s : State} {k : Nat} (h : Word) (hset : s.host.errstat.getLsbD k = true) :
    (s.loseObject h).host.errstat.getLsbD k = true := by
  unfold State.loseObject
  dsimp only
  split
  · rwa [sendReq_host]
  · split
    · exact hset
    · exact setErr_errstat_keeps _ _ _ _ _ (by rwa [entryChanged_host, putEntry_host])

section
variable {s : State} {f : BitVec 9} {va : BitVec 52}

theorem ueMem_unmapped (h : s.objectAt va.toNat = none) :
    exec (.ueMem f (none, va)) s = .next (s.replayStep f.toNat (s.core f.toNat).active Cause.ueMem false) := by
  change execUeMem f (none, va) s = _
  simp only [execUeMem, h, replayReader_none]

variable {o : Word} {e : Entry} {a : Nat} {leaf : Word} {large : Bool} (hobj : s.objectAt va.toNat = some (o, e))
  (hwalk : s.walkTables va.toNat = .ok (a, leaf, large))
include hobj hwalk

theorem ueMem_copied (hcopy : s.otherCopy o e a = true) :
    exec (.ueMem f (none, va)) s = .next (s.replayStep f.toNat (s.core f.toNat).active Cause.ueMem false) := by
  change execUeMem f (none, va) s = _
  simp only [execUeMem, hobj, hwalk, hcopy, if_true, replayReader_none]

/-- Without another copy UEMEM is reported. -/
theorem ueMem_reported (hcopy : s.otherCopy o e a = false) :
    Ends (exec (.ueMem f (none, va)) s) (fun t => t.host.errstat.getLsbD 1 = true) := by
  change Ends (execUeMem f (none, va) s) _
  simp only [execUeMem, hobj, hwalk, hcopy, Bool.false_eq_true, if_false, replayReader_none]
  rw [ends_next, replayStep_errstat]
  exact loseObject_errstat _ (setErr_errstat _ _ _ _ (by decide))

end

/-! ### UE_BASIN, cache entries and slice buffers (R258) -/

section
variable {s : State} {f : BitVec 9} {b : BitVec 1}

theorem ueBasin_clean (h : ∀ l ∈ (s.bank f.toNat b).basin, l.dirty = []) : exec (.ueBasin f b) s = .next s := by
  have hnone : (s.bank f.toNat b).basin.find? (fun l => !l.dirty.isEmpty) = none :=
    List.find?_eq_none.mpr fun l hl => by simp [h l hl]
  change execUeBasin f b s = _
  simp only [execUeBasin, hnone]

theorem ueBasin_dirty {l : BasinLine} (h : (s.bank f.toNat b).basin.find? (fun l => !l.dirty.isEmpty) = some l) : ∃ slice,
    exec (.ueBasin f b) s = .next (((s.dropBasin f.toNat b fun x => x.handle == l.handle && x.va == l.va).setErr 1 slice l.handle).killTask
      l.task 0x0020 Cause.ueBasin) := by
  change ∃ slice, execUeBasin f b s = _
  simp only [execUeBasin, h]
  exact ⟨_, rfl⟩

end

section
variable (s : State) (f : Nat) (b : BitVec 1) (p : BasinLine → Bool)

theorem mem_basin_dropBasin {c : BitVec 1} {l : BasinLine} (h : l ∈ ((s.dropBasin f b p).bank f c).basin) :
    l ∈ (s.bank f c).basin ∧ (c = b → p l = false) := by
  by_cases hc : c = b
  · subst hc
    rw [State.dropBasin, State.bank_setBank_same] at h
    obtain ⟨hmem, hkept⟩ := List.mem_filter.mp h
    exact ⟨hmem, fun _ => by simpa using hkept⟩
  · rw [State.dropBasin, State.bank, State.setBank, State.core_setCore_same, Core.bank_setBank_other _ _ _ _ hc] at h
    exact ⟨h, fun h => absurd h hc⟩

end

/-- Both banks lose the clean lines at the address. -/
theorem ueCacheEntry_basin (s : State) (unit : BitVec 9) (key : Word) : Ends (exec (.ueCacheEntry 1 unit key) s) (fun t =>
    t.mem = s.mem ∧ ∀ b, ∀ l ∈ (t.bank unit.toNat b).basin, l.va.toNat = key.toNat / 64 * 64 → l.dirty ≠ []) := by
  obtain ⟨p, hp⟩ : ∃ p : BasinLine → Bool, p = fun l => l.va.toNat == key.toNat / 64 * 64 && l.dirty.isEmpty := ⟨_, rfl⟩
  change Ends (.next (([0, 1] : List (BitVec 1)).foldl (fun s b => s.dropBasin unit.toNat b fun l => _) s)) _
  rw [← hp, ends_next]
  refine ⟨rfl, fun b l hl hva hdirty => ?_⟩
  obtain ⟨hl, hone⟩ := mem_basin_dropBasin _ _ _ _ hl
  obtain ⟨-, hzero⟩ := mem_basin_dropBasin _ _ _ _ hl
  have hpl : p l = true := by simp [hp, hva, hdirty]
  have hbanks : ∀ c : BitVec 1, c = 0 ∨ c = 1 := by decide
  obtain rfl | rfl := hbanks b
  · exact absurd hpl (by simp [hzero rfl])
  · exact absurd hpl (by simp [hone rfl])

theorem ueCacheEntry_handle (s : State) (unit : BitVec 9) (key : Word) : Ends (exec (.ueCacheEntry 3 unit key) s) (fun t =>
    t.hunit unit.toNat = (s.hunit unit.toNat).dropEntry key false ∧ t.mem = s.mem) :=
  ⟨_, rfl, hunit_setHunit_same .., rfl⟩

theorem ueCacheEntry_translation (s : State) (unit : BitVec 9) (key : Word) : Ends (exec (.ueCacheEntry 4 unit key) s) (fun t =>
    t.hunit unit.toNat = (s.hunit unit.toNat).dropTlb key.toNat 1 false ∧ t.mem = s.mem) :=
  ⟨_, rfl, hunit_setHunit_same .., rfl⟩

theorem setErr_cores (s : State) (k : Nat) (d4 d5 : Word) : (s.setErr k d4 d5).cores = s.cores := by
  obtain ⟨p, h, m, l, heq⟩ := setErr_eq s k d4 d5
  rw [heq]

theorem ueSliceBuffer_reported (s : State) (sl : Byte) (h : Word) : Ends (exec (.ueSliceBuffer sl h) s) (fun t =>
    t.host.errstat.getLsbD 1 = true ∧ MemoryBut s t 0 ∧ t.cores = s.cores) :=
  ⟨_, rfl, setErr_errstat _ _ _ _ (by decide), setErr_memoryBut _ _ _ _, setErr_cores ..⟩

/-! ### The obligation -/

/-- A parked bank without commands keeps its fault, its scratchpad and its vector registers, and the other bank is active. -/
theorem faultFrameWrite_other {s : State} {f : BitVec 9} {b : BitVec 1} {n : Byte} {ch : Choices} {fi : FaultInfo}
    (hfault : (s.bank f.toNat b).fault = some fi) (hst : (s.bank f.toNat b).st = .draining) (hvalues : s.valuesOut f.toNat b = false)
    (hcmds : (s.bank f.toNat b).cmds = []) (hlandings : (s.bank f.toNat b).landings = []) (hplan : (s.bank f.toNat b).plan = none)
    (hclock : s.power.freqAct ≠ 0) : Ends (exec (.faultFrameWrite f b n n n n ch) s) (fun t =>
      (t.bank f.toNat b).st = (if fi.answered then .resumable else .parked) ∧ (t.core f.toNat).active = 1 - b
      ∧ (t.bank f.toNat b).fault = (s.bank f.toNat b).fault ∧ (t.bank f.toNat b).scratch = (s.bank f.toNat b).scratch
      ∧ (t.bank f.toNat b).vregs = (s.bank f.toNat b).vregs) := by
  obtain ⟨t, ht, hparked⟩ := faultFrameWrite_parks (n := n) (ch := ch) hfault hst hvalues hcmds hlandings hplan hclock
  obtain ⟨waits, hrecord⟩ := appendRecord_bank t f.toNat b
  refine ⟨_, ht, ?_⟩
  dsimp only
  rw [bank_setActive, hrecord, hparked, State.core_setCore_same]
  exact ⟨rfl, rfl, rfl, rfl, rfl⟩

theorem parkedStepResume_running {s : State} {f : BitVec 9} {b : BitVec 1} {fi : FaultInfo} (hfault : (s.bank f.toNat b).fault = some fi)
    (hst : (s.bank f.toNat b).st = .resumable) (hskip : (s.bank f.toNat b).skip = false)
    (hother : (s.bank f.toNat (1 - b)).st = .idle) : Ends (exec (.parkedStepResume f b) s) (fun t =>
      (t.core f.toNat).active = b ∧ (t.bank f.toNat b).fault = none
      ∧ (t.bank f.toNat b).st = (if (s.bank f.toNat b).runOnFault then .idle else .running)
      ∧ (t.bank f.toNat b).C.pos = posOfNat (bits (mword s.mem (s.frameAddr f.toNat b + 56)).toNat 59 32)
      ∧ (t.bank f.toNat b).escl = BitVec.ofNat 16 (bits (mword s.mem (s.frameAddr f.toNat b + 72)).toNat 15 0)
      ∧ (t.bank f.toNat b).scratch = (s.bank f.toNat b).scratch ∧ t.mem = s.mem) := by
  refine ⟨_, parkedStepResume_resumes hfault hst hskip hother, ?_⟩
  dsimp only
  rw [bank_setActive, State.bank_setBank_same, State.core_setCore_same]
  exact ⟨rfl, rfl, rfl, rfl, rfl, rfl, rfl⟩

/-- Settles O48, clause by clause: answers to a parked bank, step counters and the fault queue, then the drain, resumption and
uncorrectable errors. -/
theorem faultsAndParking : Obligations.FaultsAndParking := by
  unfold Obligations.FaultsAndParking
  constructor
  · intro s f b d q inst v
    refine ⟨fun h => ?_, fun fi hfault hst => ?_, stepCounterWrite_beyond, fun hinst hframed =>
      ⟨stepCounterWrite_running hinst hframed, stepCounterWrite_idle hinst hframed⟩, fun h hcores => fqheadWrite_advances hcores h,
      fun h hcores => fqheadWrite_beyond hcores h⟩
    · exact ⟨congrArg Host.Outcome.next (fanswer_ignored h 0 0), congrArg Host.Outcome.next (fanswer_ignored h 1 0),
        congrArg Host.Outcome.next (fanswer_ignored h 2 0), congrArg Host.Outcome.next (fanswer_ignored h 3 d)⟩
    · refine ⟨congrArg Host.Outcome.next (fanswer_resume hfault hst), congrArg Host.Outcome.next (fanswer_skip hfault hst),
        fun hrun htask => congrArg Host.Outcome.next (fanswer_replay hfault hst hrun htask), fun r hr hcommitted => ?_,
        _, congrArg Host.Outcome.next (fanswer_kill hfault hst d), fun u hu => ?_⟩
      · exact congrArg Host.Outcome.next
          ((fanswer_replay_committed hfault hst hr hcommitted).trans (fanswer_kill hfault hst fi.cause).symm)
      · rw [hu, State.killParked]
  · intro s f b n ch va unit key h sl
    exact ⟨faultFrameWrite_waits, fun fi => faultFrameWrite_other, parkedStepResume_waits, fun fi => parkedStepResume_running,
      congrArg Host.Outcome.next replayReader_none,
      fun qu c r hhead hrun => ⟨fun hown => congrArg Host.Outcome.next (replayReader_own hrun hhead hown),
        fun hearlier => congrArg Host.Outcome.next (replayReader_earlier hrun hhead hearlier)⟩,
      fun r => replayStep_done, fun r => replayStep_third, ueMem_unmapped, fun o e a leaf large => ueMem_copied,
      fun o e a leaf large => ueMem_reported, ueBasin_clean, fun l => ueBasin_dirty, rfl, ueCacheEntry_basin s unit key,
      ueCacheEntry_handle s unit key, ueCacheEntry_translation s unit key, ueSliceBuffer_reported s sl h⟩

end Sys2Proof.Laws
end

section
/-!
PROOFS. Guards, awaited registers and full queues (08_cores.md, R176, R186; 12_isa_encoding.md, R282).
-/

namespace Sys2Proof.Laws

open Sys2Proof Sys2Proof.Machine Sys2Proof.Safety

/-! ### What does not issue (R176, R282) -/

/-- An instruction of compute cores alone is not refused on one. -/
theorem compute_allowed {F : Form} {s : State} (h : F.compute = true → OnCore s) : (F.compute && s.isSys) = false := by
  cases hcompute : F.compute
  · rfl
  · exact h hcompute

section
variable {F : Form} {g : BitVec 4} {u : Uses} {s : State} {body : State → Res} (hcompute : F.compute = true → OnCore s)
  (hsys : F.sys = false)
include hcompute hsys

/-- An instruction waits, with nothing changed, while a register that it names or its guard's predicate awaits a result. -/
theorem control_awaits (ha : s.awaits g u = true) : Machine.control F g u s body = .next s := by
  simp [Machine.control, compute_allowed hcompute, hsys, ha]

/-- An instruction whose guard does not hold has no effect, and its context goes on after it. -/
theorem control_unguarded (ha : s.awaits g u = false) (hg : s.guardHolds g = false) :
    Machine.control F g u s body = .next (goOn s F.size) := by
  simp [Machine.control, compute_allowed hcompute, hsys, ha, hg, goOn]

end

section
variable {s : State} {g : BitVec 4} {u : Uses} {n : Nat} {commit : Bool} {body : State → Res}

/-- An instruction that any core may issue waits for a result. -/
theorem any_awaits (ha : s.awaits g u = true) : Machine.control { size := n, commit } g u s body = .next s :=
  control_awaits (fun h => nomatch h) rfl ha

/-- An instruction that any core may issue, and whose guard does not hold, has no effect. -/
theorem any_unguarded (ha : s.awaits g u = false) (hg : s.guardHolds g = false) :
    Machine.control { size := n, commit } g u s body = .next (goOn s n) :=
  control_unguarded (F := { size := n, commit }) (fun h => nomatch h) rfl ha hg

/-- An engine command whose guard does not hold enters no queue, and does not wait for a full one. -/
theorem engine_unguarded {q : QueueId} {tk : BitVec 4} {i : Instr} {sample : State → Except TrapInfo Sample} (hc : OnCore s)
    (ha : s.awaits g u = false) (hg : s.guardHolds g = false) : engine n commit q tk g u i s sample = .next (goOn s n) :=
  control_unguarded (F := { size := n, compute := true, commit }) (fun _ => hc) rfl ha hg

/-- An engine command that may be issued before COMMIT waits while its queue is full. -/
theorem engine_full {q : QueueId} {tk : BitVec 4} {i : Instr} {sample : State → Except TrapInfo Sample} (h : Issues s g u) (hc : OnCore s)
    (hq : 32 ≤ (s.curBank.queue q).length) : engine n false q tk g u i s sample = .next s :=
  engine_waits n false q tk g u i s sample h hc (fun hcommit => nomatch hcommit) hq

end

/-- Settles O7: what does not issue, by the checks of `control`, and a full queue, by `engine_waits`. -/
theorem issueConditions : Obligations.IssueConditions := by
  unfold Obligations.IssueConditions
  refine ⟨fun s g tk h x y z a vd va vb ty x3 x1 slot ld hg => ?_, fun s g h x y z p rd rc => ?_,
    fun s tk g d h vd va vb q x1 ty nr a x3 hc hscalar hplain => ?_⟩
  · refine ⟨fun ha => ?_, fun ha => ⟨?_, ?_, ?_⟩, fun ha => ?_, fun ha => ?_, fun ha hc => ⟨?_, ?_, ?_, ?_⟩⟩
    · show execAdd g x y z s = _
      rw [execAdd, aluRR, any_unguarded ha hg]
    · show execLde g x y h 0 0 s = _
      rw [execLde, any_unguarded ha hg]
    · show execSte g x y h 2 s = _
      rw [execSte, any_unguarded ha hg]
    · show execSpawn g x y a s = _
      rw [execSpawn, spawnWith, any_unguarded ha hg]
    · show execAtom g x y h 1 z 0 s = _
      rw [execAtom, atomicOn, any_unguarded ha hg]
    · show execBr g slot ld s = _
      rw [execBr, branchIf, any_unguarded ha hg]
    · show execVadd tk g vd 0 va vb ty 0 x3 x1 s = _
      rw [execVadd, vector, show vbUses 0 vb = {} from rfl, engine_unguarded hc ha hg]
    · show execMzero tk g a s = _
      rw [execMzero, engine_unguarded hc ha hg]
    · show execKvapp tk g h a va vb 0 s = _
      rw [execKvapp, engine_unguarded hc ha hg]
    · show execExit g s = _
      rw [execExit, control_unguarded (fun _ => hc) rfl ha hg]
  · refine ⟨fun ha => ⟨?_, ?_⟩, fun ha => ⟨?_, ?_⟩, fun ha => ?_, fun ha => ?_⟩
    · show execAdd g x y z s = _
      rw [execAdd, aluRR, any_awaits ha]
    · show execAtom g x y h 1 z 0 s = _
      rw [execAtom, atomicOn, any_awaits ha]
    · show execLde g x y h 0 rd s = _
      rw [execLde, any_awaits ha]
    · show execSte g x y h 0 s = _
      rw [execSte, any_awaits ha]
    · show execSel g x y p z s = _
      rw [execSel, any_awaits ha]
    · show execAndi g x y rc s = _
      rw [execAndi, aluRI, any_awaits ha]
  · refine ⟨fun hfull => ?_, fun hfull => ?_, fun hfull => ?_, fun hfull => ?_, fun hfull => ?_⟩
    · show execLdt tk g vd q d a x3 s = _
      rw [execLdt, engine_full hplain hc hfull]
    · show execStt tk g vd q d a x1 s = _
      rw [execStt, engine_full hplain hc hfull]
    · show execMzero tk g a s = _
      rw [execMzero, engine_full hplain hc hfull]
    · show execVadd tk g vd q va vb ty nr x3 x1 s = _
      rw [execVadd, vector, engine_full hscalar hc hfull]
    · show execRrzero tk g h a s = _
      exact engine_full hplain hc hfull

end Sys2Proof.Laws
end

section
/-!
PROOFS. Branches and their targets (08_cores.md, R181; 13_isa_scalar.md, R321, R324).
-/

namespace Sys2Proof.Laws

open Sys2Proof Sys2Proof.Machine Sys2Proof.Safety

/-! ### The target of a branch (R181, R321) -/

/-- The distance of a branch is its field as a signed number. -/
theorem signExt_toNat (ld : BitVec 28) : signExt ld.toNat 28 = ld.toInt := by
  have hlt := ld.isLt
  unfold signExt
  rw [BitVec.toInt_eq_toNat_cond, Nat.mod_eq_of_lt hlt]
  dsimp only
  split <;> split <;> omega

section
variable {s : State} {ld : BitVec 28} {slot : BitVec 4}

/-- A target outside the image raises CODE_BAD. -/
theorem branchTo_outside (h : (s.pos.line.toNat : Int) + ld.toInt < 0 ∨ (s.nLines : Int) ≤ (s.pos.line.toNat : Int) + ld.toInt) :
    s.branchTo ld slot = .trap (trapOf Cause.codeBad) := by
  rw [State.branchTo, lineAt, signExt_toNat]
  exact if_pos h

section
variable (hlow : 0 ≤ (s.pos.line.toNat : Int) + ld.toInt) (hhigh : (s.pos.line.toNat : Int) + ld.toInt < s.nLines)
  (hheld : s.lineHeld (target s ld slot).line = true)
include hlow hhigh hheld

/-- A target in the image, on a line in the code cache, raises CODE_BAD or is where the context goes on. -/
theorem branchTo_held : s.branchTo ld slot =
    if s.lineBad (linkOf (s.lineBytes (target s ld slot).line)) || !startsInstr (s.lineBytes (target s ld slot).line) slot.toNat 15 0 then
      .trap (trapOf Cause.codeBad)
    else .goto s (target s ld slot) := by
  rw [State.branchTo, lineAt, signExt_toNat]
  dsimp only
  rw [if_neg (by omega)]
  exact if_neg (by simpa [target] using hheld)

/-- A target on a line that is none of the context's, or where no instruction starts, raises CODE_BAD. -/
theorem branchTo_bad (h : s.lineBad (linkOf (s.lineBytes (target s ld slot).line)) = true
    ∨ startsInstr (s.lineBytes (target s ld slot).line) slot.toNat 15 0 = false) : s.branchTo ld slot = .trap (trapOf Cause.codeBad) := by
  rw [branchTo_held hlow hhigh hheld]
  exact if_pos (by simpa using h)

end

/-- A branch goes to a target that is at hand. -/
theorem branchTo_atHand (h : AtHand s ld slot) : s.branchTo ld slot = .goto s (target s ld slot) := by
  obtain ⟨hlow, hhigh, hheld, hgood, hstarts⟩ := h
  rw [branchTo_held hlow hhigh hheld, hgood, hstarts]
  rfl

/-! ### Branches and their conditions (R321) -/

variable {g : BitVec 4} {u : Uses} {c : State → Bool}

theorem branchIf_taken (h : Issues s g u) (hc : c s = true) : branchIf g u slot ld s c = finish s 2 (s.branchTo ld slot) := by
  rw [branchIf, plain_issues 2 g u s _ h, if_pos hc]

/-- A branch that is taken goes to its target. -/
theorem branchIf_goes (h : Issues s g u) (hc : c s = true) (hhand : AtHand s ld slot) :
    branchIf g u slot ld s c = .next (s.noteIssue.goto (target s ld slot)) := by
  rw [branchIf_taken h hc, branchTo_atHand hhand, finish]

/-- A branch that is not taken goes on after it, whatever its target. -/
theorem branchIf_not_taken (h : Issues s g u) (hc : c s = false) : branchIf g u slot ld s c = .next (goOn s 2) := by
  rw [branchIf, plain_issues 2 g u s _ h, if_neg (by simp [hc]), finish, goOn]

/-- A branch to a target that raises CODE_BAD takes that cause. -/
theorem br_causes (hbad : s.branchTo ld slot = .trap (trapOf Cause.codeBad)) (h : Issues s g {}) :
    exec (.br g slot ld) s = causes s Cause.codeBad := by
  show execBr g slot ld s = _
  rw [execBr, branchIf_taken h rfl, hbad, finish, causes]

end

/-- BRP takes its predicate as it is, or inverted. -/
theorem brp_condition : ∀ (v : Bool) (n : BitVec 1), (v != (n == 1)) = (v == (n == 0)) := by decide

/-- Settles O19: each branch is `branchIf` on its condition, and its target is looked up by `branchTo`. -/
theorem branches : Obligations.Branches := by
  unfold Obligations.Branches
  refine ⟨fun s g slot ld x p n w => ?_, fun s g slot ld => ?_⟩
  · refine ⟨fun h => ⟨?_, ?_⟩, fun h hhand => ?_, fun h => ⟨fun hhand hp => ?_, fun hp => ?_⟩,
      fun h => ⟨fun hhand hx => ?_, fun hx => ?_, fun hhand hx => ?_, fun hx => ?_⟩⟩
    · exact plain_issues 1 g {} s _ h
    · exact plain_issues 1 g {} s _ h
    · exact branchIf_goes (c := fun _ => true) h rfl hhand
    · exact branchIf_goes (c := fun s => s.getP p != (n == 1)) h ((brp_condition _ n).trans (beq_iff_eq.mpr hp)) hhand
    · exact branchIf_not_taken (c := fun s => s.getP p != (n == 1)) h ((brp_condition _ n).trans (beq_eq_false_iff_ne.mpr hp))
    · exact branchIf_goes (c := fun s => s.getS x == 0) h (by simpa using hx) hhand
    · exact branchIf_not_taken (c := fun s => s.getS x == 0) h (by simpa using hx)
    · exact branchIf_goes (c := fun s => s.getS x != 0) h (by simpa using hx) hhand
    · exact branchIf_not_taken (c := fun s => s.getS x != 0) h (by simpa using hx)
  · exact ⟨fun hout => ⟨branchTo_outside hout, br_causes (branchTo_outside hout)⟩, fun hlow hhigh hheld =>
      ⟨fun hbad => ⟨branchTo_bad hlow hhigh hheld hbad, br_causes (branchTo_bad hlow hhigh hheld hbad)⟩,
        fun hgood hstarts => branchTo_atHand ⟨hlow, hhigh, hheld, hgood, hstarts⟩⟩⟩

end Sys2Proof.Laws
end

section
/-!
PROOFS. XSTEP in the cycle in which another context writes a handle register (08_cores.md, R177; 18_isa_tasks_system.md, R462).
-/

namespace Sys2Proof.Laws

open Sys2Proof Sys2Proof.Machine Sys2Proof.Safety

/-! ### The handles that XSTEP samples

A command samples the handle registers as its context reads them. In the cycle in which another context has written one, that is the
value before the write (R177), and no longer what the bank holds. -/

/-- Core 0 runs a committed step with 64 bytes of scratchpad, in its context L. -/
def plainStep : State :=
  let s := { State.reset with turn := .core 0 .L }
  s.setCurBank { s.curBank with run := some { (default : StepRun) with committed := true, scratch := 64 } }

/-- Context L has written 1 to h0, and context C issues in the same cycle. -/
def writtenHandle : State := { plainStep.setH 0 1 with turn := .core 0 .C }

/-- The handles of the commands in the auxiliary queue of bank 0 of core 0, in the next state. -/
def queuedHandles : Host.Outcome State Fault Refusal → List (List Word)
  | .next t => (t.bank 0 0).xq.map Cmd.hs
  | _ => []

theorem xstep_samples_before : queuedHandles (exec (.xstep 0 0 0 0 0) writtenHandle) = [List.replicate 16 0] := by decide

/-- Refutes O36: of XSTEP it says that the command enters the queue with the handle registers as the bank holds them. In writtenHandle
context L has written h0 in this cycle, so that context C still reads the value before (R177), and the command samples that one: its
first handle is 0, where the bank holds 1. The statement lacks the hypothesis that no other context has written a handle register in
the cycle. -/
theorem not_auxiliaryCommands : ¬ Obligations.AuxiliaryCommands := by
  intro h
  have hquiet : ∀ u, Issues writtenHandle 0 u := fun u => issues_quiet _ u rfl rfl
  obtain ⟨-, -, -, -, -, hcommitted, -⟩ :=
    h writtenHandle 0 0 0 0 0 0 0 0 0 0 0 (hquiet {}) rfl (by decide) (by decide) (by decide)
  obtain ⟨-, -, -, hxstep⟩ := hcommitted (.inr (by decide))
  have hsampled := xstep_samples_before
  rw [hxstep (hquiet _)] at hsampled
  exact absurd hsampled (by decide)

end Sys2Proof.Laws
end

section
/-!
PROOFS. Issue and retirement of engine commands, and token stalls (08_cores.md, R189 to R193; 10_faults.md, R252; 15_isa_matrix.md, R367,
R383).
-/

namespace Sys2Proof.Laws

open Sys2Proof Sys2Proof.Machine Sys2Proof.Safety

/-! ### Queues, step counters and tokens of a bank (R189, R192, Table 8-8) -/

section
variable (k : Bank) (q p : QueueId) (n : Nat) (l : List Nat)

@[simp] theorem queue_setQueue_same (cs : List Cmd) : (k.setQueue q cs).queue q = cs := by cases q <;> rfl
@[simp] theorem queue_setCounter : (k.setCounter q n).queue p = k.queue p := by cases q <;> cases p <;> rfl
@[simp] theorem queue_subTokens : (k.subTokens l n).queue p = k.queue p := by cases p <;> rfl

@[simp] theorem counter_setCounter_zero : (k.setCounter q 0).counter q = 0 := by cases q <;> rfl
@[simp] theorem counter_setQueue (cs : List Cmd) : (k.setQueue q cs).counter p = k.counter p := by cases q <;> cases p <;> rfl
@[simp] theorem counter_subTokens : (k.subTokens l n).counter p = k.counter p := by cases p <;> rfl

@[simp] theorem run_setQueue (cs : List Cmd) : (k.setQueue q cs).run = k.run := by cases q <;> rfl
@[simp] theorem run_setCounter : (k.setCounter q n).run = k.run := by cases q <;> rfl
@[simp] theorem run_addTokens : (k.addTokens l n).run = k.run := by simp only [Bank.addTokens]

@[simp] theorem fault_setCounter : (k.setCounter q n).fault = k.fault := by cases q <;> rfl
@[simp] theorem fault_aputRow (a i : Nat) (row : List Nat) : (k.aputRow a i row).fault = k.fault := rfl
@[simp] theorem queue_aputRow (a i : Nat) (row : List Nat) : (k.aputRow a i row).queue q = k.queue q := by cases q <;> rfl
@[simp] theorem aget_setCounter (a i j : Nat) : (k.setCounter q n).aget a i j = k.aget a i j := by cases q <;> rfl

@[simp] theorem token_setQueue (cs : List Cmd) (j : Nat) : (k.setQueue q cs).token j = k.token j := by cases q <;> rfl
@[simp] theorem token_setCounter (j : Nat) : (k.setCounter q n).token j = k.token j := by cases q <;> rfl

/-- MROW counts modulo 128. -/
theorem counter_setCounter_MQ : (k.setCounter .MQ n).counter .MQ = n % 128 := by
  show (BitVec.ofNat 16 (n % 128)).toNat % 128 = n % 128
  rw [BitVec.toNat_ofNat]
  omega

/-- Each counter that a command pops falls by 1. -/
theorem token_subTokens {j : Nat} (hj : j < 10) : (k.subTokens l n).token j = k.token j - if l.contains j then 1 else 0 := by
  simp only [Bank.token, Bank.subTokens, tokStep, List.getD_eq_getElem?_getD]
  simp [hj]
  split <;> rfl

/-- Each counter that a command pushes rises by 1. -/
theorem token_addTokens {j : Nat} (hj : j < 10) : (k.addTokens l n).token j = k.token j + if l.contains j then 1 else 0 := by
  simp only [Bank.token, Bank.addTokens, tokStep, List.getD_eq_getElem?_getD]
  simp [hj]
  split <;> rfl

@[simp] theorem queue_setFmtq (ws : List (U32 × Nat × Word)) : ({ k with fmtq := ws } : Bank).queue q = k.queue q := by cases q <;> rfl
@[simp] theorem counter_setFmtq (ws : List (U32 × Nat × Word)) : ({ k with fmtq := ws } : Bank).counter q = k.counter q := by cases q <;> rfl

end

/-- A change of the command at the head leaves the others as they are. -/
theorem queue_mapCmd_head {k : Bank} {q : QueueId} {c : Cmd} {rest : List Cmd} (h : k.queue q = c :: rest) (g : Cmd → Cmd) :
    (k.mapCmd q c.ser g).queue q = g c :: rest := by
  simp [Bank.mapCmd, h, lmap1]

/-! ### Rows of an accumulator (R194, R383) -/

theorem mread_congr {m m' : Memory} {a n : Nat} (h : ∀ c, a ≤ c → c < a + n → mget m c = mget m' c) : mread m a n = mread m' a n := by
  induction n generalizing a with
  | zero => rfl
  | succ n ih => rw [mread, mread, h a (by omega) (by omega), ih fun c hlow hhigh => h c (by omega) (by omega)]

theorem mget_mwrite_zeros (m : Memory) {a n c : Nat} (hlow : a ≤ c) (hhigh : c < a + n) :
    mget (mwrite m a (List.replicate n 0)) c = 0 := by
  obtain ⟨d, rfl⟩ := Nat.exists_eq_add_of_le hlow
  rw [mget_mwrite_inside _ _ _ d (by rw [List.length_replicate]; omega), List.getElem_replicate]

theorem mget_mwrite_zeros_outside (m : Memory) {a n c : Nat} (h : c < a ∨ a + n ≤ c) :
    mget (mwrite m a (List.replicate n 0)) c = mget m c :=
  mget_mwrite_outside _ _ _ _ (by rwa [List.length_replicate])

theorem zeroRow_bytes (n : Nat) : (List.replicate n 0).flatMap (toBytes 4) = List.replicate (4 * n) 0 := by
  induction n with
  | zero => rfl
  | succ n ih =>
    rw [List.replicate_succ, List.flatMap_cons, ih, show toBytes 4 0 = List.replicate 4 0 from rfl, List.replicate_append_replicate,
      Nat.mul_succ, Nat.add_comm]

theorem accs_zeroRow (k : Bank) (a i : Nat) :
    (k.aputRow a i (List.replicate 64 0)).accs = mwrite k.accs (accAddr a i 0) (List.replicate (4 * 64) 0) := by
  simp only [Bank.aputRow, zeroRow_bytes]

/-- A row that is written with zeros reads as zeros. -/
theorem aget_zeroRow (k : Bank) (a i : Nat) {j : Nat} (hj : j < 64) : (k.aputRow a i (List.replicate 64 0)).aget a i j = 0 := by
  have hzero : ∀ c, accAddr a i j ≤ c → c < accAddr a i j + 4 → mget (k.aputRow a i (List.replicate 64 0)).accs c = mget [] c := by
    intro c hlow hhigh
    unfold accAddr at hlow hhigh
    rw [accs_zeroRow]
    obtain ⟨hfirst, hlast⟩ : accAddr a i 0 ≤ c ∧ c < accAddr a i 0 + 4 * 64 := by
      unfold accAddr
      omega
    exact mget_mwrite_zeros k.accs hfirst hlast
  rw [Bank.aget, mread_congr hzero]
  rfl

/-- The other rows of the accumulator read as before. -/
theorem aget_zeroRow_other (k : Bank) (a : Nat) {r i j : Nat} (hi : i ≠ r) (hj : j < 64) :
    (k.aputRow a r (List.replicate 64 0)).aget a i j = k.aget a i j := by
  refine congrArg ofBytes (mread_congr fun c hlow hhigh => ?_)
  unfold accAddr at hlow hhigh
  rw [accs_zeroRow]
  exact mget_mwrite_zeros_outside k.accs (by unfold accAddr; omega)

/-! ### Results that are due (R252) -/

theorem landOne_fault (k : Bank) (l : Landing) : (k.landOne l).fault = k.fault := by
  unfold Bank.landOne
  split
  · split <;> rfl
  · rfl

theorem landLoop_fault (now n : Nat) (k : Bank) : (Bank.landLoop now n k).fault = k.fault := by
  induction n generalizing k with
  | zero => rfl
  | succ n ih =>
    rw [Bank.landLoop]
    split
    · rfl
    · rw [ih, landOne_fault]

/-- Results that are due raise no cause. -/
theorem landDue_fault (k : Bank) (now : Nat) : (k.landDue now).fault = k.fault := by
  rw [Bank.landDue, Bank.countGroups]
  split
  · exact landLoop_fault ..
  · split
    · exact landLoop_fault ..
    · exact landLoop_fault ..

/-! ### Issue into an engine (R189, R190, R367) -/

/-- The bank when the command at the head of queue q issues: the step counter is cleared, its tokens are popped, and it is changed by g. -/
def issuedBank (k : Bank) (q : QueueId) (c : Cmd) (now : Nat) (g : Cmd → Cmd) : Bank :=
  ((k.setCounter q 0).subTokens (popsOf q c.tok) now).mapCmd q c.ser g

section
variable {k : Bank} {q : QueueId} {c : Cmd} (now : Nat) (g : Cmd → Cmd)

theorem issuedBank_queue {rest : List Cmd} (h : k.queue q = c :: rest) : (issuedBank k q c now g).queue q = g c :: rest :=
  queue_mapCmd_head (by rw [queue_subTokens, queue_setCounter, h]) g

theorem issuedBank_counter : (issuedBank k q c now g).counter q = 0 := by simp [issuedBank, Bank.mapCmd]

theorem issuedBank_token {j : Nat} (hj : j < 10) :
    (issuedBank k q c now g).token j = k.token j - if (popsOf q c.tok).contains j then 1 else 0 := by
  rw [issuedBank, Bank.mapCmd, token_setQueue, token_subTokens _ _ _ hj, token_setCounter]

end

section
variable {s : State} {f : Nat} {b : BitVec 1} {q : QueueId} {c : Cmd}

/-- A matrix command without a format word of its step raises FMTQ_EMPTY. -/
theorem issueCmd_without_word (hissued : c.issued = false) (hmatrix : isMatrix c.instr = true)
    (hword : (s.bank f b).fmtq.find? (fun x => x.2.1 == c.run) = none) :
    issueCmd f b q c s = .next (s.raise f b (engineSource q) c.pos c.task (trapOf Cause.fmtqEmpty)) := by
  simp only [issueCmd, hmatrix, hissued, hword, Bool.not_false, Bool.and_self, if_true]

/-- A vector command waits for the next issue of the vector engine. -/
theorem issueCmd_early (hmatrix : isMatrix c.instr = false) (hearly : s.cycle < (s.bank f b).nextV) : issueCmd f b .VQ c s = .next s := by
  simp only [issueCmd, hmatrix, Bool.false_and, Bool.false_eq_true, if_false, if_true, hearly, decide_true, Bool.true_or]

variable {rest : List Cmd} (hqueue : (s.bank f b).queue q = c :: rest) (hissued : c.issued = false)
include hqueue hissued

/-- A matrix command takes its tokens and the oldest format word of its step. -/
theorem issueCmd_with_word (hmatrix : isMatrix c.instr = true) {w : U32 × Nat × Word}
    (hword : (s.bank f b).fmtq.find? (fun x => x.2.1 == c.run) = some w) :
    issueCmd f b q c s = .next (s.setBank f b { issuedBank (s.bank f b) q c s.cycle
      fun c => { c with issued := true, issueCycle := s.cycle, word := some w.2.2 } with fmtq := (s.bank f b).fmtq.erase w }) := by
  simp only [issueCmd, hmatrix, hissued, hword, hqueue, issuedBank, List.head?_cons, Option.any_some, beq_self_eq_true, Bool.not_false,
    Bool.and_self, if_true, Bool.false_eq_true, if_false]
  cases q <;> rfl

/-- A command that needs no format word, of another queue than VQ, takes its tokens. -/
theorem issueCmd_plain (hmatrix : isMatrix c.instr = false) (hq : q ≠ .VQ) :
    issueCmd f b q c s = .next (s.setBank f b (issuedBank (s.bank f b) q c s.cycle
      fun c => { c with issued := true, issueCycle := s.cycle })) := by
  simp only [issueCmd, hmatrix, hissued, hqueue, hq, issuedBank, List.head?_cons, Option.any_some, beq_self_eq_true, Bool.false_and,
    Bool.false_eq_true, if_true, if_false]

end

/-! ### Steps and retirement (R189, R192, R383) -/

section
variable {s : State} {f : Nat} {b : BitVec 1} {q : QueueId} {c : Cmd} {rest : List Cmd} (hqueue : (s.bank f b).queue q = c :: rest)
include hqueue

/-- A head that has made its steps makes no more. -/
theorem runSteps_done (hsteps : c.steps ≤ (s.bank f b).counter q) (n : Nat) (ch : Choices) : runSteps f b q n ch s = .next s := by
  cases n with
  | zero => rfl
  | succ n => simp only [runSteps, hqueue, hsteps, decide_true, Bool.or_true, if_true]

/-- A head that cannot push its tokens does not retire. -/
theorem retire_held (hpush : (s.bank f b).canPush q c s.cycle = false) : retire f b q s = s := by
  simp only [retire, hqueue, hpush, Bool.not_false, if_true]

/-- A head that has steps to make does not retire. -/
theorem retire_unfinished (hskip : c.skip = false) (hsteps : (s.bank f b).counter q < c.steps) : retire f b q s = s := by
  have hfinished : finished f b q c s = none := by
    simp only [finished, hskip, hsteps, decide_true, Bool.or_true, Bool.true_or, if_true, Bool.false_eq_true, if_false]
  simp only [retire, hqueue, hfinished, ite_self]

end

/-- A matrix command that has made its steps is finished. -/
theorem finished_matrix {s : State} {f : Nat} {b : BitVec 1} {c : Cmd} (hskip : c.skip = false) (hissued : c.issued = true)
    (hmatrix : isMatrix c.instr = true) (hsteps : c.steps ≤ (s.bank f b).counter .MQ) : finished f b .MQ c s = some s := by
  have hlandings : ((s.bank f b).landings.any fun l => l.ser == c.ser && QueueId.MQ == QueueId.VQ) = false := by simp
  simp only [finished, hskip, hissued, hlandings, Nat.not_lt.mpr hsteps, decide_false, Bool.not_true, Bool.or_self, Bool.false_eq_true, if_false]
  split
  · rename_i hinstr
    rw [hinstr] at hmatrix
    cases hmatrix
  · rfl

section
variable {β : Type} (part : Bank → β) (hpart : ∀ k base v m h, part { k with srbase := base, srV := v, srM := m, srH := h } = part k)
  (k : Bank) (c : Cmd)
include hpart

theorem retireMatrix_keeps : part (k.retireMatrix c) = part k := by
  have hround : part (if fwRnd c.fw = 4 then { k with srM := srAdvance k.srM } else k) = part k := by
    split
    · exact hpart k k.srbase k.srV _ k.srH
    · rfl
  unfold Bank.retireMatrix
  split
  · exact hround
  · exact hround
  · rfl

/-- A command that retires changes of its bank no more than the generators. -/
theorem retireSr_keeps : part (k.retireSr c) = part k := by
  unfold Bank.retireSr
  split
  · exact hpart k _ _ _ _
  · exact retireMatrix_keeps part hpart k c
  · exact retireMatrix_keeps part hpart k c
  · split
    · exact hpart k k.srbase _ k.srM k.srH
    · rfl

end

/-- Nothing of an outgoing step is left to be dropped. -/
theorem settle_settled {k : Bank} (h : ∀ r, k.run = some r → r.fresh = false) : k.settle = k := by
  unfold Bank.settle
  split
  · rename_i r hr
    simp [h r hr]
  · rfl

theorem noteWorld_bank (s : State) (f : Nat) (q : QueueId) (w : Byte) (b : BitVec 1) : (s.noteWorld f q w).bank f b = s.bank f b := by
  simp [State.noteWorld, State.bank, Core.bank]

theorem ringRetired_bank (s : State) (f ser : Nat) (b : BitVec 1) : (s.ringRetired f ser).bank f b = s.bank f b := by
  simp [State.ringRetired, State.bank, Core.bank]

/-- A bank from which a command has gone, with its tokens pushed and the step counter cleared. -/
def retiredBank (k : Bank) (q : QueueId) (c : Cmd) (rest : List Cmd) (now : Nat) : Bank :=
  (((k.addTokens (pushesOf q c.tok) now).setCounter q 0).setQueue q rest).retireSr c

section
variable (k : Bank) (q : QueueId) (c : Cmd) (rest : List Cmd) (now : Nat)

theorem retiredBank_run : (retiredBank k q c rest now).run = k.run := by
  rw [retiredBank, retireSr_keeps Bank.run fun _ _ _ _ _ => rfl, run_setQueue, run_setCounter, run_addTokens]

theorem retiredBank_queue : (retiredBank k q c rest now).queue q = rest :=
  (retireSr_keeps (fun k => k.queue q) (fun _ _ _ _ _ => by cases q <;> rfl) _ c).trans (queue_setQueue_same _ q rest)

theorem retiredBank_counter : (retiredBank k q c rest now).counter q = 0 :=
  (retireSr_keeps (fun k => k.counter q) (fun _ _ _ _ _ => by cases q <;> rfl) _ c).trans (by simp)

theorem retiredBank_token {j : Nat} (hj : j < 10) :
    (retiredBank k q c rest now).token j = k.token j + if (pushesOf q c.tok).contains j then 1 else 0 := by
  rw [retiredBank, retireSr_keeps (fun k => k.token j) (fun _ _ _ _ _ => rfl), token_setQueue, token_setCounter, token_addTokens _ _ _ hj]

end

/-- A matrix command that has made its steps, and can push its tokens, retires. -/
theorem retire_matrix {s : State} {f : Nat} {b : BitVec 1} {c : Cmd} {rest : List Cmd} (hqueue : (s.bank f b).queue .MQ = c :: rest)
    (hskip : c.skip = false) (hissued : c.issued = true) (hmatrix : isMatrix c.instr = true)
    (hfresh : ∀ r, (s.bank f b).run = some r → r.fresh = false) (hsteps : c.steps ≤ (s.bank f b).counter .MQ)
    (hpush : (s.bank f b).canPush .MQ c s.cycle = true) :
    (retire f b .MQ s).bank f b = retiredBank (s.bank f b) .MQ c rest s.cycle := by
  simp only [retire, hqueue, hpush, finished_matrix hskip hissued hmatrix hsteps, hskip, Bool.not_true, Bool.false_eq_true, if_false]
  refine (ringRetired_bank _ f c.ser b).trans ((noteWorld_bank _ f .MQ c.world b).trans ((State.bank_setBank_same _ f b _).trans ?_))
  exact settle_settled fun r hr => hfresh r ((retiredBank_run _ .MQ c rest s.cycle).symm.trans hr)

/-- A bank in which MZERO has made its next step. -/
def zeroStepped (k : Bank) (acc : BitVec 3) : Bank :=
  (k.aputRow acc.toNat (k.counter .MQ) (List.replicate 64 0)).setCounter .MQ (k.counter .MQ + 1)

section
variable (k : Bank) (acc : BitVec 3)

theorem zeroStepped_fault : (zeroStepped k acc).fault = k.fault := by rw [zeroStepped, fault_setCounter, fault_aputRow]
theorem zeroStepped_queue : (zeroStepped k acc).queue .MQ = k.queue .MQ := by rw [zeroStepped, queue_setCounter, queue_aputRow]

theorem zeroStepped_counter (h : k.counter .MQ < 63) : (zeroStepped k acc).counter .MQ = k.counter .MQ + 1 := by
  rw [zeroStepped, counter_setCounter_MQ]
  omega

/-- The row that the counter names reads as zeros. -/
theorem zeroStepped_row {j : Nat} (hj : j < 64) : (zeroStepped k acc).aget acc.toNat (k.counter .MQ) j = 0 := by
  rw [zeroStepped, aget_setCounter, aget_zeroRow k _ _ hj]

theorem zeroStepped_other {i j : Nat} (hj : j < 64) (hi : i ≠ k.counter .MQ) :
    (zeroStepped k acc).aget acc.toNat i j = k.aget acc.toNat i j := by
  rw [zeroStepped, aget_setCounter, aget_zeroRow_other k _ hi hj]

end

/-- A step of MZERO zeroes its row and is counted. -/
theorem runSteps_mzero {s : State} {f : Nat} {b : BitVec 1} {c : Cmd} {rest : List Cmd} {tk g : BitVec 4} {acc : BitVec 3}
    (hqueue : (s.bank f b).queue .MQ = c :: rest) (hskip : c.skip = false) (hissued : c.issued = true) (hinstr : c.instr = .mzero tk g acc)
    (hsteps : (s.bank f b).counter .MQ < c.steps) (ch : Choices) :
    ∃ t, runSteps f b .MQ 1 ch s = .next t ∧ t.bank f b = zeroStepped (s.bank f b) acc := by
  have hstep : stepOf f b c ((s.bank f b).counter .MQ) ch s = .ok (mzeroStep f b acc ((s.bank f b).counter .MQ) s) ch := by
    simp only [stepOf, hinstr]
  refine ⟨_, ?_, State.bank_setBank_same (mzeroStep f b acc ((s.bank f b).counter .MQ) s) f b _⟩
  simp only [runSteps, hqueue, hskip, hissued, hstep, Nat.not_le.mpr hsteps, mzeroStep, State.bank_setBank_same, zeroStepped, decide_false,
    Bool.or_self, Bool.not_true, Bool.false_eq_true, if_false, reduceCtorEq]

/-! ### The events of an engine -/

/-- Where the bank of an engine does not run, its events do nothing. -/
theorem engine_off {s : State} {f : BitVec 9} (hoff : s.engineOn f.toNat (s.core f.toNat).active = false) (q : QueueId) (n : U16)
    (ch : Choices) : exec (.engineCommandIssue f q) s = .next s ∧ exec (.engineCommandRetire f q n ch) s = .next s
      ∧ exec (.sfuWriteback f) s = .next s ∧ exec (.tokenStall f) s = .next s := by
  refine ⟨?_, ?_, ?_, ?_⟩
  · show execEngineCommandIssue f q s = _
    simp only [execEngineCommandIssue, hoff, Bool.not_false, if_true]
  · show execEngineCommandRetire f q n ch s = _
    simp only [execEngineCommandRetire, hoff, Bool.not_false, if_true]
  · show execSfuWriteback f s = _
    simp only [execSfuWriteback, hoff, Bool.false_eq_true, if_false]
  · show execTokenStall f s = _
    simp only [execTokenStall, hoff, Bool.not_false, if_true]

section
variable {s u : State} {f : BitVec 9} {b : BitVec 1} (hb : (s.core f.toNat).active = b) (hu : s.landDue f.toNat b = u)
  (hon : s.engineOn f.toNat b = true)
include hb hu hon

theorem sfuWriteback_lands : exec (.sfuWriteback f) s = .next u := by
  show execSfuWriteback f s = _
  simp only [execSfuWriteback, hb, hu, hon, if_true]

theorem engineCommandIssue_empty {q : QueueId} (hqueue : (u.bank f.toNat b).queue q = []) : exec (.engineCommandIssue f q) s = .next u := by
  show execEngineCommandIssue f q s = _
  simp only [execEngineCommandIssue, hb, hu, hon, hqueue, List.find?_nil, Bool.not_true, Bool.false_eq_true, if_false]

/-- A command at the head that has not issued issues once nothing holds it back. -/
theorem engineCommandIssue_head {q : QueueId} {c : Cmd} {rest : List Cmd} (hqueue : (u.bank f.toNat b).queue q = c :: rest)
    (hskip : c.skip = false) (hissued : c.issued = false) (hstarted : c.started = false) :
    exec (.engineCommandIssue f q) s = if u.mayIssue f.toNat b q c then issueCmd f.toNat b q c u else .next u := by
  show execEngineCommandIssue f q s = _
  simp only [execEngineCommandIssue, hb, hu, hon, hqueue, List.find?_cons, hskip, hissued, hstarted, ite_self, Bool.or_self, Bool.not_true,
    Bool.not_false, Bool.false_eq_true, if_false]

omit hb in
theorem fault_of_engineOn : (u.bank f.toNat b).fault = none := by
  have hfault : (s.bank f.toNat b).fault = none := by
    simp only [State.engineOn, Bool.and_eq_true, Option.isNone_iff_eq_none] at hon
    obtain ⟨⟨-, hfault⟩, -⟩ := hon
    exact hfault
  rw [← hu, State.landDue, State.bank_setBank_same, landDue_fault, hfault]

/-- The matrix engine makes steps of its head, and then the head retires if it may. -/
theorem engineCommandRetire_matrix {t : State} {n : U16} {ch : Choices} (hsteps : runSteps f.toNat b .MQ n.toNat ch u = .next t)
    (hfault : (t.bank f.toNat b).fault = none) : exec (.engineCommandRetire f .MQ n ch) s = .next (retire f.toNat b .MQ t) := by
  show execEngineCommandRetire f .MQ n ch s = _
  simp only [execEngineCommandRetire, hb, hu, hon, hsteps, hfault, fault_of_engineOn hu hon, reduceCtorEq, Option.isSome_none, Bool.not_true,
    Bool.false_eq_true, if_false]

/-! ### Token stalls (R191) -/

theorem tokenStall_ends (h : (u.bank f.toNat b).tokenBound u.cycle = false ∨ u.coreBusy f.toNat = true) :
    exec (.tokenStall f) s = .next (u.setBank f.toNat b { u.bank f.toNat b with stall := none }) := by
  show execTokenStall f s = _
  simp only [execTokenStall, hb, hu, hon, Bool.not_true, Bool.false_eq_true, if_false]
  exact if_pos (by simpa using h)

variable (hbound : (u.bank f.toNat b).tokenBound u.cycle = true) (hbusy : u.coreBusy f.toNat = false)
include hbound hbusy

theorem tokenStall_starts (hstall : (u.bank f.toNat b).stall = none) :
    exec (.tokenStall f) s
      = .next (u.setBank f.toNat b { u.bank f.toNat b with stall := some (u.cycle, (u.bank f.toNat b).signature) }) := by
  show execTokenStall f s = _
  simp only [execTokenStall, hb, hu, hon, hbound, hbusy, hstall, Bool.or_self, Bool.not_true, Bool.false_eq_true, if_false]

variable {c : Nat} (hstall : (u.bank f.toNat b).stall = some (c, (u.bank f.toNat b).signature))
include hstall

theorem tokenStall_counts (hcycle : u.cycle < c + 65536) : exec (.tokenStall f) s = .next u := by
  show execTokenStall f s = _
  simp only [execTokenStall, hb, hu, hon, hbound, hbusy, hstall, hcycle, Bool.or_self, Bool.not_true, Bool.false_eq_true, if_false, if_true]

theorem tokenStall_raises (hcycle : c + 65536 ≤ u.cycle) {x : Cmd} (hlq : (u.bank f.toNat b).lq = [])
    (hmq : (u.bank f.toNat b).mq.head? = some x) :
    exec (.tokenStall f) s = .next ((u.setBank f.toNat b { u.bank f.toNat b with stall := none }).raise f.toNat b (engineSource .MQ) x.pos x.task
      (trapOf Cause.tokenStall)) := by
  have hfirst : (allQueues.filterMap fun q => ((u.bank f.toNat b).queue q).head?.map fun c => (q, c)).head? = some (.MQ, x) := by
    obtain ⟨rest, hrest⟩ := List.head?_eq_some_iff.mp hmq
    have hload : (u.bank f.toNat b).queue .LQ = [] := hlq
    have hmatrix : (u.bank f.toNat b).queue .MQ = x :: rest := hrest
    simp only [allQueues, List.filterMap_cons, hload, hmatrix, List.head?_nil, Option.map_none, List.head?_cons, Option.map_some]
  show execTokenStall f s = _
  simp only [execTokenStall, hb, hu, hon, hbound, hbusy, hstall, hfirst, Nat.not_lt.mpr hcycle, Bool.or_self, Bool.not_true,
    Bool.false_eq_true, if_false, if_true]

end

/-- Settles O59: each event of an engine is one of the cases above. -/
theorem engineProgress : Obligations.EngineProgress := by
  intro s f q n ch b u k
  have hb : (s.core f.toNat).active = b := rfl
  have hu : s.landDue f.toNat b = u := rfl
  refine ⟨fun hoff => engine_off hoff q n ch, fun hon => ⟨sfuWriteback_lands hb hu hon, engineCommandIssue_empty hb hu hon,
    fun c rest hqueue hskip hissued hstarted => ?_, ?_, fun h => ?_, fun hbound hbusy => ⟨fun hstall => ?_,
      fun c hstall => tokenStall_counts hb hu hon hbound hbusy hstall,
      fun c x hstall hcycle => tokenStall_raises hb hu hon hbound hbusy hstall hcycle⟩⟩⟩
  · have hissue := engineCommandIssue_head hb hu hon hqueue hskip hissued hstarted
    refine ⟨fun hmay => ?_, fun hmay hmatrix => ⟨fun hword => ?_, fun w hword => ?_⟩, fun hmay hplain hq => ?_,
      fun hmay hplain hq hearly => ?_⟩
    · rw [hissue, if_neg (by rw [hmay]; exact Bool.false_ne_true)]
    · rw [hissue, if_pos hmay, issueCmd_without_word hissued hmatrix hword]
    · rw [hissue, if_pos hmay, issueCmd_with_word hqueue hissued hmatrix hword, ends_next, State.bank_setBank_same,
        counter_setFmtq, queue_setFmtq]
      exact ⟨rfl, issuedBank_counter _ _, issuedBank_queue _ _ hqueue, fun j hj => issuedBank_token _ _ hj⟩
    · rw [hissue, if_pos hmay, issueCmd_plain hqueue hissued hplain hq, ends_next, State.bank_setBank_same]
      exact ⟨issuedBank_queue _ _ hqueue, fun j hj => issuedBank_token _ _ hj⟩
    · subst hq
      rw [hissue, if_pos hmay, issueCmd_early hplain hearly]
  · rintro c rest rfl hmq hskip hissued hmatrix hfresh
    have hqueue : (u.bank f.toNat b).queue .MQ = c :: rest := hmq
    have hfault : k.fault = none := fault_of_engineOn hu hon
    refine ⟨fun hsteps => ?_, fun hsteps hpush => ?_, fun hsteps hpush => ?_, fun tk g acc hinstr hrow => ?_⟩
    · rw [engineCommandRetire_matrix hb hu hon (t := u) rfl hfault, retire_unfinished hqueue hskip hsteps]
    · rw [engineCommandRetire_matrix hb hu hon (runSteps_done hqueue hsteps n.toNat ch) hfault, retire_held hqueue hpush]
    · rw [engineCommandRetire_matrix hb hu hon (runSteps_done hqueue hsteps n.toNat ch) hfault, ends_next,
        retire_matrix hqueue hskip hissued hmatrix hfresh hsteps hpush]
      exact ⟨retiredBank_queue _ .MQ c rest _, retiredBank_counter _ .MQ c rest _, fun j hj => retiredBank_token _ .MQ c rest _ hj⟩
    · have hsteps : c.steps = 64 := by rw [Cmd.steps, hinstr]
      obtain ⟨t, hrun, hbank⟩ := runSteps_mzero hqueue hskip hissued hinstr (hsteps ▸ Nat.lt_succ_of_lt hrow) ch
      have hnext : (t.bank f.toNat b).counter .MQ = k.counter .MQ + 1 := hbank ▸ zeroStepped_counter k acc hrow
      rw [engineCommandRetire_matrix hb hu hon (n := 1) hrun (by rw [hbank, zeroStepped_fault, hfault]),
        retire_unfinished (by rw [hbank, zeroStepped_queue, hqueue]) hskip (by rw [hnext, hsteps]; omega), ends_next, hnext, hbank]
      exact ⟨rfl, fun j hj => zeroStepped_row k acc hj, fun i j hi hj hother => zeroStepped_other k acc hj hother⟩
  · rw [tokenStall_ends hb hu hon h, ends_next, State.bank_setBank_same]
    exact ⟨rfl, rfl⟩
  · rw [tokenStall_starts hb hu hon hbound hbusy hstall, ends_next, State.bank_setBank_same]
    rfl

end Sys2Proof.Laws
end

section
/-!
PROOFS. What taking a cause records, and what it leaves alone (10_faults.md, R242, R243).
-/

namespace Sys2Proof.Laws

open Sys2Proof Sys2Proof.Machine Sys2Proof.Safety

/-! ### Banks other than the one written -/

theorem bank_setBank_other_core (s : State) {f e : Nat} (h : e ≠ f) (b c : BitVec 1) (k : Bank) :
    (s.setBank f b k).bank e c = s.bank e c :=
  congrArg (Core.bank · c) (State.core_setCore_other s f e ((s.core f).setBank b k) h)

theorem bank_setBank_other_bank (s : State) (f : Nat) {b c : BitVec 1} (h : c ≠ b) (k : Bank) :
    (s.setBank f b k).bank f c = s.bank f c :=
  calc (s.setBank f b k).bank f c
      = ((s.core f).setBank b k).bank c := congrArg (Core.bank · c) (State.core_setCore_same s f _)
    _ = s.bank f c := Core.bank_setBank_other (s.core f) c b k h

/-! ### A cause rewrites the state and the fault of its bank alone (R242, R243) -/

section
variable (s : State) (f : Nat) (b : BitVec 1) (src : BitVec 3) (p : Pos) (task : Word) (x : TrapInfo)

theorem raise_fresh (h : (s.bank f b).fault = none) :
    s.raise f b src p task x = s.setBank f b { s.bank f b with
      st := .draining
      fault := some ⟨x.cause, src, x.path, x.level, x.handle, x.idx, x.va, p, task, false, x.code, s.cycle, false⟩ } := by
  unfold State.raise
  simp only [h]

/-- The two cases of R243 in one: whichever it is, only the state and the fault of the bank are written. -/
theorem raise_eq_setBank : ∃ st fault, s.raise f b src p task x = s.setBank f b { s.bank f b with st, fault } := by
  cases h : (s.bank f b).fault with
  | none => exact ⟨_, _, raise_fresh s f b src p task x h⟩
  | some fi => exact ⟨_, _, raise_later s f b src p task x fi h⟩

end

/-! ### The obligation -/

/-- Settles O9: the two cases of `State.raise` say what is recorded, and the bank that both of them write, with only its state
and its fault changed, says what is left alone. -/
theorem takingACause : Obligations.TakingACause := by
  refine ⟨fun s f b src p task x => ⟨fun hfirst => ?_, fun fi hlater => ?_⟩, fun s f b src p task x => ?_⟩
  · rw [raise_fresh s f b src p task x hfirst, State.bank_setBank_same]
    exact ⟨rfl, rfl⟩
  · rw [raise_later s f b src p task x fi hlater, State.bank_setBank_same]
  · obtain ⟨st, fault, hraise⟩ := raise_eq_setBank s f b src p task x
    dsimp only
    rw [hraise, State.bank_setBank_same]
    exact ⟨rfl, rfl, rfl, rfl, rfl, rfl, rfl, rfl, rfl, rfl, rfl, rfl,
      fun _ c hcore => bank_setBank_other_core s hcore b c _, fun _ hbank => bank_setBank_other_bank s f hbank _⟩

end Sys2Proof.Laws
end

section
/-!
PROOFS. Scalar floating point (11_number_formats.md, R263; 13_isa_scalar.md, R315 to R320).
-/

namespace Sys2Proof.Laws

open Sys2Proof Sys2Proof.Machine Sys2Proof.Safety

/-! ### Special cases of the exact operations (R316) -/

section
variable (down s t : Bool) (a : Val) (d e : Nat)

@[simp] theorem add_nan : a.add down .nan = .nan := by cases a <;> rfl

@[simp] theorem nan_add : Val.nan.add down a = .nan := rfl

@[simp] theorem mul_nan : a.mul .nan = .nan := by cases a <;> rfl

@[simp] theorem nan_mul : Val.nan.mul a = .nan := rfl

@[simp] theorem div_nan : a.div .nan = .nan := by cases a <;> rfl

@[simp] theorem nan_div : Val.nan.div a = .nan := rfl

theorem add_opposite_inf : (Val.inf s).add down (.inf (!s)) = .nan := by cases s <;> rfl

theorem inf_mul_zero : (Val.inf s).mul (.fin t 0 d) = .nan := rfl

theorem zero_div_zero : (Val.fin s 0 d).div (.fin t 0 e) = .nan := rfl

theorem inf_div_inf : (Val.inf s).div (.inf t) = .nan := rfl

/-- An exact zero difference takes its sign from the rounding mode. -/
theorem add_opposite (n : Nat) : (Val.fin s n d).add down (.fin (!s) n d) = .fin down 0 1 := by
  cases s <;> exact if_pos rfl

theorem sqrt_negative_zero : (Val.fin true 0 d).sqrt = .fin true 0 1 := rfl

variable {n : Nat} (hn : 0 < n)
include hn

theorem number_div_zero : (Val.fin s n d).div (.fin t 0 e) = .inf (s != t) := if_neg (Nat.ne_of_gt hn)

theorem sqrt_negative : (Val.fin true n d).sqrt = .nan := if_neg (Nat.ne_of_gt hn)

end

/-- A result that is not a number is the canonical NaN of its format (R263). -/
theorem fres_nan (f : Nat) (r : Rnd) : fres f r .nan = BitVec.ofNat 64 (if f = 0 then 0x7FF8000000000000 else 0x7FC00000) := by
  rw [fres, scalarFlt]
  split <;> rfl

/-! ### Class and comparison (R318, R319) -/

/-- FCLASS sets one of the bits 0 to 9. -/
theorem fclassBit_lt (f : Flt) (code : Nat) : fclassBit f code < 10 := by
  unfold fclassBit
  split
  case h_1 => split <;> decide
  case h_2 neg _ => cases neg <;> decide
  case h_3 neg n d _ =>
    split
    · cases neg <;> decide
    split
    · cases neg <;> decide
    · cases neg <;> decide

section
variable {a b : Val}

/-- Of two values of which one is NaN, "not equal" holds, and no comparison by order. -/
theorem fltCond_unordered (h : (a.isNan || b.isNan) = true) {cc : Nat} (hcc : cc < 6) : fltCond cc a b = decide (cc = 1) := by
  interval_cases cc <;> simp [fltCond, h]

/-- Table 13-6 on two numbers. -/
theorem fltCond_ordered (ha : a.isNan = false) (hb : b.isNan = false) :
    fltCond 0 a b = decide (a.cmp b = 0) ∧ fltCond 1 a b = decide (a.cmp b ≠ 0) ∧ fltCond 2 a b = decide (a.cmp b < 0)
      ∧ fltCond 3 a b = decide (a.cmp b ≤ 0) ∧ fltCond 4 a b = decide (0 < a.cmp b) ∧ fltCond 5 a b = decide (0 ≤ a.cmp b) := by
  simp [fltCond, ha, hb, beq_eq_decide, bne]

end

/-! ### Issue (Table 13-5) -/

section
variable {s : State} {g : BitVec 4} {x y z b c : BitVec 5} {p : BitVec 3} {fm : BitVec 2} {f : BitVec 1} {rnd : BitVec 3}

/-- An operation on two values is rounded once to its format. -/
theorem floatRR_issues (h : Issues s g { s := [x, y, b] }) (op : Rnd → Val → Val → Val) :
    floatRR g x y b fm rnd s op = .next (goOn (s.setS x (fres fm.toNat (rndOf rnd.toNat)
      (op (rndOf rnd.toNat) (fval fm.toNat (s.getS y)) (fval fm.toNat (s.getS b))))) 2) := by
  rw [floatRR, plain_issues 2 g _ s _ h, finish, goOn]

/-- FMIN and FMAX are Table 11-8 on the codes of their sources. -/
theorem minMax_issues (h : Issues s g { s := [x, y, z] }) (isMax : Bool) :
    minMax isMax g x y z f s = .next (goOn (s.setS x (BitVec.ofNat 64
      (fminCode (scalarFlt f.toNat) isMax (scalarCode f.toNat (s.getS y)) (scalarCode f.toNat (s.getS z))))) 1) := by
  rw [minMax, plain_issues 1 g _ s _ h, finish, goOn]

/-- FFMA rounds once, after the sum. -/
theorem ffma_issues (h : Issues s g { s := [x, y, b, c] }) :
    execFfma g x y fm b rnd c s = .next (goOn (s.setS x (fres fm.toNat (rndOf rnd.toNat)
      (((fval fm.toNat (s.getS y)).mul (fval fm.toNat (s.getS b))).add (rndOf rnd.toNat == .rdn) (fval fm.toNat (s.getS c))))) 2) := by
  rw [execFfma, plain_issues 2 g _ s _ h, finish, goOn]

theorem fsqrt_issues (h : Issues s g { s := [x, y] }) :
    execFsqrt g x y fm rnd s
      = .next (goOn (s.setS x (fres fm.toNat (rndOf rnd.toNat) (fval fm.toNat (s.getS y)).sqrt)) 2) := by
  rw [execFsqrt, plain_issues 2 g _ s _ h, finish, goOn]

theorem fclass_issues (h : Issues s g { s := [x, y] }) :
    execFclass g x y f s
      = .next (goOn (s.setS x (BitVec.ofNat 64 (2 ^ fclassBit (scalarFlt f.toNat) (scalarCode f.toNat (s.getS y))))) 1) := by
  rw [execFclass, plain_issues 1 g _ s _ h, finish, goOn]

/-- FCMP writes its condition on the two values. -/
theorem fcmp_issues (h : Issues s g { s := [y, b], p := [p] }) (cc : BitVec 4) :
    execFcmp g p y fm cc b s
      = .next (goOn (s.setP p (fltCond cc.toNat (fval fm.toNat (s.getS y)) (fval fm.toNat (s.getS b)))) 2) := by
  rw [execFcmp, plain_issues 2 g _ s _ h, finish, goOn]

/-- FCVT rounds the exact value of its source to the target format. -/
theorem fcvt_issues (h : Issues s g { s := [x, y] }) (dfmt sfmt : BitVec 8) (sat : BitVec 1) :
    execFcvt g x y dfmt sfmt rnd sat s = .next (goOn (s.setS x (codeWord dfmt
      (roundTo (dec ((s.getS y).toNat % 2 ^ fmtWidth sfmt) sfmt) dfmt (rndOf rnd.toNat) (sat == 1) 0))) 2) := by
  rw [execFcvt, plain_issues 2 g _ s _ h, finish, goOn]

end

/-- Settles O18: each instruction has its effect once it issues, and the special cases and conditions are those above. -/
theorem scalarFloat : Obligations.ScalarFloat := by
  unfold Obligations.ScalarFloat
  refine ⟨⟨fun s g x y b c fm rnd => ?_, fun f r a down s t n d e _ _ hn => ?_⟩,
    fun s g cc x y z p f fm dfmt sfmt rnd sat => ⟨fun h => ?_, fun h => ?_, fun h => ?_⟩⟩
  · exact ⟨fun h => ⟨floatRR_issues h fun r v w => v.add (r == .rdn) w, floatRR_issues h fun r v w => v.add (r == .rdn) w.neg,
      floatRR_issues h fun _ v w => v.mul w, floatRR_issues h fun _ v w => v.div w⟩, ffma_issues, fsqrt_issues⟩
  · exact ⟨fres_nan f _, add_nan down a, nan_add down a, mul_nan a, nan_mul a, div_nan a, nan_div a, rfl, add_opposite_inf down s,
      inf_mul_zero s t d, zero_div_zero s t d e, inf_div_inf s t, sqrt_negative d hn, number_div_zero s t d e hn, sqrt_negative_zero d,
      add_opposite down s d n⟩
  · exact ⟨minMax_issues h false, minMax_issues h true⟩
  · exact ⟨⟨_, fclassBit_lt _ _, fclass_issues h, rfl⟩, fcvt_issues h dfmt sfmt sat⟩
  · refine ⟨_, fcmp_issues h cc, ?_, ?_, fun hun hcc => ?_, fun ha hb => ?_⟩
    · rintro rfl; rfl
    · rintro rfl; rfl
    · rw [fltCond_unordered hun hcc]
      exact decide_eq_decide.mpr (BitVec.toNat_inj (x := cc) (y := 1))
    · obtain ⟨heq, hne, hlt, hle, hgt, hge⟩ := fltCond_ordered ha hb
      exact ⟨by rintro rfl; exact heq, by rintro rfl; exact hne, by rintro rfl; exact hlt, by rintro rfl; exact hle,
        by rintro rfl; exact hgt, by rintro rfl; exact hge⟩

end Sys2Proof.Laws
end

section
/-!
PROOFS. The decoder reads every encoding back, and refuses what no encoding is (12_isa_encoding.md, R279 to R285, Table 12-6).
-/

namespace Sys2Proof.Laws

open Sys2Proof Sys2Proof.Decode

-- As in the tests, each proof is checked before the next begins: side by side with the proofs above, those of this section would
-- need more threads than memory holds.
set_option Elab.async false

/-! ### The rows of map 1 (R281, Table 12-5) -/

/-- Each list of the table is short enough for `decide` to go through it. -/
theorem forall_rows {P : Row → Prop} (h0 : ∀ r ∈ rows0, P r) (h1 : ∀ r ∈ rows1, P r) (h2 : ∀ r ∈ rows2, P r) (h3 : ∀ r ∈ rows3, P r)
    (h4 : ∀ r ∈ rows4, P r) (h5 : ∀ r ∈ rows5, P r) (h6 : ∀ r ∈ rows6, P r) (h7 : ∀ r ∈ rows7, P r) : ∀ r ∈ rows, P r := by
  simp only [rows, List.forall_mem_append]
  exact ⟨⟨⟨⟨⟨⟨⟨h0, h1⟩, h2⟩, h3⟩, h4⟩, h5⟩, h6⟩, h7⟩

/-- An operation has one to three words, an opcode of 10 bits, and segments that fill its words. -/
theorem rows_fill : ∀ r ∈ rows, 0 < r.words ∧ r.words < 4 ∧ r.op < 1024 ∧ r.widths.sum = 32 * r.words := by
  apply forall_rows <;> decide

theorem width_eq_sum (l : List (Nat × Nat)) : width l = (l.map fun f => f.1).sum := by
  induction l with
  | nil => rfl
  | cons f rest ih => rw [width, ih, List.map_cons, List.sum_cons]

/-! ### The row of an encoding

`unpack_pack` says what the decoder cuts out of the segments of an encoding, by a row of their widths. So the row that it finds can be
looked up by those values alone, without the number that the segments make. -/

/-- What is cut out of packed segments: their values, each modulo its width. -/
def cutValues (l : List (Nat × Nat)) : List Nat := l.map fun f => f.2 % 2 ^ f.1

/-- The first row of an opcode and a length that could fit these segments: it has other widths, or its fixed segments have their
values. -/
def rowFor (op n : Nat) (l : List (Nat × Nat)) : Option Row :=
  rows.find? fun r => r.op == op && r.words == n
    && (r.widths != l.map (fun f => f.1) || r.fixed.all fun f => (cutValues l).getD f.1 0 == f.2)

/-- The first element of which a weaker condition holds is also the first of which the stronger one does, where it does. -/
theorem find?_of_weaker {α : Type} {p q : α → Bool} (hpq : ∀ a, p a = true → q a = true) {l : List α} {r : α} (hr : l.find? q = some r)
    (hp : p r = true) : l.find? p = some r := by
  obtain ⟨-, before, after, hl, hbefore⟩ := List.find?_eq_some_iff_append.mp hr
  refine List.find?_eq_some_iff_append.mpr ⟨hp, before, after, hl, fun a ha => ?_⟩
  have hq := hbefore a ha
  cases hpa : p a
  · rfl
  · simp [hpq a hpa] at hq

/-- A row fits packed segments of its widths where its fixed segments have their values. -/
theorem fits_pack {r : Row} {l : List (Nat × Nat)} (hw : r.widths = l.map fun f => f.1) :
    r.fits (pack l) = r.fixed.all fun f => (cutValues l).getD f.1 0 == f.2 := by
  rw [Row.fits, hw, unpack_pack, cutValues]

/-- The row for segments of its own widths is the one that the decoder finds for their number. -/
theorem find_fits_of_rowFor {op n : Nat} {l : List (Nat × Nat)} {r : Row} (hr : rowFor op n l = some r)
    (hw : r.widths = l.map fun f => f.1) :
    rows.find? (fun q => q.op == op && q.words == n && q.fits (pack l)) = some r := by
  refine find?_of_weaker (fun q hq => ?_) hr ?_
  · rw [Bool.and_eq_true] at hq ⊢
    refine ⟨hq.1, ?_⟩
    by_cases hwq : q.widths = l.map fun f => f.1
    · rw [← fits_pack hwq, hq.2, Bool.or_true]
    · rw [bne_iff_ne.mpr hwq, Bool.true_or]
  · have hfound := List.find?_some hr
    rw [← fits_pack hw, hw] at hfound
    simpa using hfound

/-- An instruction is read back where the row for its segments builds it from their values. -/
theorem words_encode_of_rowFor {i : Instr} {n op : Nat} {fs : List (Nat × Nat)} {r : Row}
    (hs : segments i = (2, n) :: (10, op) :: fs) (hr : rowFor op n ((2, n) :: (10, op) :: fs) = some r)
    (hw : r.widths = ((2, n) :: (10, op) :: fs).map fun f => f.1) (hb : r.build (cutValues ((2, n) :: (10, op) :: fs)) = i)
    (hwf : i.wf = true) : Decode.words (encode i) = .ok i := by
  have hkey := List.find?_some hr
  simp only [Bool.and_eq_true, beq_iff_eq] at hkey
  obtain ⟨⟨rfl, rfl⟩, -⟩ := hkey
  obtain ⟨hpos, hlt, hop, hsum⟩ := rows_fill r (List.mem_of_find?_eq_some hr)
  rw [← hs] at hr hw hb
  refine words_encode i r.words r.op fs r hs hpos hlt hop ?_ ?_ (find_fits_of_rowFor hr hw) ?_ hwf
  · rw [width_eq_sum, ← hw, hsum]
  · rw [Instr.size, hs, List.headD_cons]
  · rw [hw, unpack_pack]
    exact hb

/-- A segment that holds a field of its width is read as the field. -/
theorem at_field {n : Nat} {v : List Nat} {k : Nat} {x : BitVec n} (h : v.getD k 0 = x.toNat % 2 ^ n) : at_ v k = x := by
  rw [at_, h, ofNat_toNat_mod]

/-- Settles O1: the rows are looked up by the values of the segments, and each field that a row reads is the one that the encoding
put there. An event has no words. -/
theorem decodeEncode : Obligations.DecodeEncode := by
  intro i hwf hsize
  cases i
  case add | sub | mul | mulh | mulhz | div | divz | rem | remz | and | or | xor | andn | shl | shr | sar | rotl | min | minz |
      max | maxz | clz | ctz | popc | bswap | sext | zext | mov | pand | por | pxor | pnot | addi | andi | ori | xori | shli |
      shri | sari | bfx | bfi | movi64 | movi96 | movhi | sel | cmp | fadd | fsub | fmul | ffma | fdiv | fsqrt | fmin | fmax |
      fclass | fcmp | fcvt | br | brp | brz | brnz | call | ret | loop | nop | hint | ldp | lds | sts | dmov | hld | hqry | dset
      | didx | dadd | dshp | dpad | lde | ste | atom | fatom | atomnr | cas | casc | ldt | stt | pft | bmap | bflush | bdrop |
      openv | pub | subv | pinv | unpv | verq | fenceP | nbfill | nbcopy | nbaxpy | nbscale | nbrelay | rrzero | rrcopy |
      fmtqReg | fmtqImm | mma64 | mma96 | mmam64 | mmam96 | mzero | mrd | mwr | mred | mscan | mtrn | vadd | vsub | vmul | vfma
      | vfms | vmin | vmax | vabs | vneg | vclamp | vcvt | vand | vor | vxor | vnot | vshl | vshr | vsar | vcmp | vsel | vmov |
      vmovi | vrotr | vrotc | vbcr | vbcc | vshuf | vgath | vscat | vexp2 | vlog2 | vrcp | vrsq | vsin | vcos | vtanh | vpack |
      vunpk | vqnt | vseed | attn | kvapp | rope | spanopen | spanclose | retspan | kvpromo | seqq | spawn | spawnRec | depdec |
      taskq | commit | exit | arrive | racqP | racqC | rrelP | rrelC | tokq | put | intk | sumprd | xsend | xstep | xsync | trap
      | omcall | sysrd | syswr | eret | waiti | halt | decmap | tlbinv | otinv | migr | zerob | keyset =>
    exact words_encode_of_rowFor rfl rfl rfl (by dsimp only; congr 1 <;> exact at_field (by rfl)) hwf
  all_goals exact absurd hsize (Nat.lt_irrefl 0)

/-! ### Refused words (Table 12-6) -/

/-- LEN and OP of the first word name the operation, where LEN words are at hand. -/
theorem words_eq_operation {ws : List U32} {n op : Nat} (hlen : lenOf (join ws) = n) (hop : opOf (join ws) = op) (hpos : 0 < n)
    (hheld : n ≤ ws.length) : Decode.words ws = operation op n (join ws % 2 ^ (32 * n)) := by
  have hword : (n == 0 || decide (ws.length < n)) = false := by simp; omega
  simp only [Decode.words, hlen, hop, hword]
  rfl

/-- LEN and OP are the low 12 bits of the first word (R279). -/
theorem len_op_of_low {w : U32} (ws : List U32) {v : Nat} (h : w.toNat % 2 ^ 12 = v) :
    lenOf (join (w :: ws)) = v % 4 ∧ opOf (join (w :: ws)) = v / 4 := by
  simp only [lenOf, opOf, join]
  omega

/-- Row 3: an opcode of no row is not mapped. -/
theorem operation_unmapped {op : Nat} (h : ∀ r ∈ rows, r.op ≠ op) (n x : Nat) : operation op n x = .error (.unmapped op) := by
  have hfind : rows.find? (fun r => r.op == op && r.words == n && r.fits x) = none :=
    List.find?_eq_none.mpr fun r hr => by simp [h r hr]
  have hlength : (rows.any fun r => r.op == op && r.words == n) = false := List.any_eq_false.mpr fun r hr => by simp [h r hr]
  have hop : (rows.any fun r => r.op == op) = false := List.any_eq_false.mpr fun r hr => by simp [h r hr]
  simp only [operation, hfind, hlength, hop]
  rfl

/-- Row 4: nothing is decoded at a length that the operation does not have. -/
theorem operation_badLength {op n : Nat} (h : ∀ r ∈ rows, r.op = op → r.words ≠ n) (x : Nat) (i : Instr) :
    operation op n x ≠ .ok i := by
  have hfind : rows.find? (fun r => r.op == op && r.words == n && r.fits x) = none :=
    List.find?_eq_none.mpr fun r hr => by simpa using fun hop hn => absurd hn (h r hr hop)
  rw [operation, hfind]
  dsimp only
  split
  · exact nofun
  · split <;> exact nofun

theorem ne_ok_of_error {o : Except DecodeError Instr} (e : DecodeError) (h : o = .error e) (i : Instr) : o ≠ .ok i := by
  rw [h]
  exact nofun

/-- Settles O2: the example words decode by evaluation; opcode 0 has no row, and ADD none of two words; the other words are refused
for the reasons written with them. -/
theorem decodedWords : Obligations.DecodedWords := by
  unfold Obligations.DecodedWords
  refine ⟨⟨rfl, rfl, rfl, rfl, rfl, rfl, rfl, rfl, rfl⟩, fun x => ?_, fun x y => ?_, ne_ok_of_error (.reservedBits 1) rfl,
    ne_ok_of_error .reservedCode rfl, ne_ok_of_error .reservedCode rfl⟩
  · have hlow : (x ++ (0b000000000001 : BitVec 12)).toNat % 2 ^ 12 = 1 := by
      rw [BitVec.toNat_append, ← Nat.shiftLeft_add_eq_or_of_lt (by decide)]
      simp [Nat.shiftLeft_eq]
    obtain ⟨hlen, hop⟩ := len_op_of_low [] hlow
    rw [words_eq_operation hlen hop (by decide) (Nat.le_refl _)]
    exact operation_unmapped (by apply forall_rows <;> decide) _ _
  · have hlow : (x &&& 0xFFFFF000 ||| 0x006).toNat % 2 ^ 12 = 6 := by
      rw [← BitVec.toNat_setWidth]
      simp [BitVec.setWidth_or, BitVec.setWidth_and]
    obtain ⟨hlen, hop⟩ := len_op_of_low [y] hlow
    rw [words_eq_operation hlen hop (by decide) (Nat.le_refl _)]
    exact operation_badLength (by apply forall_rows <;> decide) _

end Sys2Proof.Laws
end

section
/-!
PROOFS. PRIV, ILLEGAL_OP on system cores, and COMMIT_ORDER (10_faults.md, R251, Table 10-6; 12_isa_encoding.md, R288;
18_isa_tasks_system.md, R442, R443).
-/

namespace Sys2Proof.Laws

open Sys2Proof Sys2Proof.Machine Sys2Proof.Safety

/-! ### The causes of `control` -/

section
variable {n : Nat} {commit : Bool} {g : BitVec 4} {u : Uses} {s : State} {body : State → Res}

/-- A system instruction raises PRIV outside system mode, before its guard is looked at (R288). -/
theorem system_priv (hs : OnCore s) : Machine.control { size := n, sys := true } g u s body = causes s Cause.priv := by
  rw [OnCore] at hs
  simp [Machine.control, hs, causes]

/-- What a system core has no unit for raises ILLEGAL_OP there, before its guard is looked at (R443). -/
theorem compute_refused (hs : OnSys s) :
    Machine.control { size := n, compute := true, commit } g u s body = causes s Cause.illegalOp := by
  rw [OnSys] at hs
  simp [Machine.control, hs, causes]

/-- What is allowed only after COMMIT raises COMMIT_ORDER before it, where it would issue (R251). -/
theorem uncommitted {compute : Bool} (h : Issues s g u) (hs : OnCore s) (hc : s.committed = false) :
    Machine.control { size := n, compute, commit := true } g u s body = causes s Cause.commitOrder := by
  obtain ⟨ha, hg⟩ := h
  rw [OnCore] at hs
  simp [Machine.control, hs, ha, hg, hc, causes]

/-! ### The operations that several instructions share -/

section
variable {q : QueueId} {tk : BitVec 4} {i : Instr} {sample : State → Except TrapInfo Sample}

theorem engine_refused (hs : OnSys s) : engine n commit q tk g u i s sample = causes s Cause.illegalOp := compute_refused hs

theorem engine_uncommitted (h : Issues s g u) (hs : OnCore s) (hc : s.committed = false) :
    engine n true q tk g u i s sample = causes s Cause.commitOrder := uncommitted h hs hc

end

theorem vector_refused {tk : BitVec 4} {i : Instr} {sc : State → Word} (hs : OnSys s) :
    vector n tk g u i s sc = causes s Cause.illegalOp := engine_refused hs

theorem pushFormat_refused {w : State → Word} (hs : OnSys s) : pushFormat n g u s w = causes s Cause.illegalOp := compute_refused hs

theorem invalidateOn_priv {x y : BitVec 5} {sc : BitVec 2} {here : State → State} {op : State → RemoteOp} (hs : OnCore s) :
    invalidateOn g x y sc s here op = causes s Cause.priv := system_priv hs

theorem atomicOn_uncommitted {h : BitVec 4} {y : BitVec 5} {width : Nat} {kind : State → ReqKind} {wait : State → State}
    (hi : Issues s g u) (hs : OnCore s) (hc : s.committed = false) :
    atomicOn g n u h y width s kind wait = causes s Cause.commitOrder := uncommitted hi hs hc

theorem spawnWith_uncommitted {viaRec : Bool} {x y : BitVec 5} {a : BitVec 3} (hi : Issues s g { s := [x, y] }) (hs : OnCore s)
    (hc : s.committed = false) : spawnWith viaRec g x y a s = causes s Cause.commitOrder := uncommitted hi hs hc

end

/-- Settles O8: each instruction is issued by `control`, or by an operation on it, with the class that the cause names. -/
theorem issueCauses : Obligations.IssueCauses := by
  unfold Obligations.IssueCauses
  refine ⟨fun s g h x y a slot kind num sc b op wl hs => ?_,
    fun s g tk h d x a k vd va vb ty nr x3 x1 q lit slot rows cols c0 hs => ?_,
    fun s g tk h t x y v e n st a w ii md opc fop pd k va vb c tag mask imm ch ld hs hc hg hS hP => ?_⟩
  · exact ⟨(system_priv hs : execEret g s = _), (system_priv hs : execWaiti g x s = _), (system_priv hs : execHalt g s = _),
      (system_priv hs : execSyswr g x y num s = _), (system_priv hs : execDecmap g x y h slot s = _),
      (invalidateOn_priv hs : execTlbinv g x y sc b s = _), (invalidateOn_priv hs : execOtinv g x y sc b s = _),
      (system_priv hs : execMigr g x a s = _), (system_priv hs : execZerob g x y kind s = _),
      (system_priv hs : execKeyset g x op wl s = _)⟩
  · exact ⟨(vector_refused hs : execVadd tk g vd q va vb ty nr x3 x1 s = _), (engine_refused hs : execLdt tk g vd q d a k s = _),
      (engine_refused hs : execMzero tk g a s = _), (compute_refused hs : execDset g h d rows cols c0 lit s = _),
      (compute_refused hs : execDmov g h d s = _), (pushFormat_refused hs : execFmtqReg g x s = _),
      (compute_refused hs : execCommit g s = _), (compute_refused hs : execExit g s = _),
      (compute_refused hs : execArrive g slot q s = _), (compute_refused hs : execRacqP g a k s = _),
      (compute_refused hs : execRrelC g k s = _), (compute_refused hs : execTokq g x s = _)⟩
  · have hi {u : Uses} : Issues s g u := ⟨by simp [State.awaits, hS, hP], hg⟩
    exact ⟨(atomicOn_uncommitted hi hs hc : execAtom g x y h w v opc s = _),
      (atomicOn_uncommitted hi hs hc : execFatom g x y h v fop s = _),
      (atomicOn_uncommitted hi hs hc : execAtomnr g x y h w opc w s = _),
      (atomicOn_uncommitted hi hs hc : execCas g x y h w e n pd s = _),
      (uncommitted hi hs hc : execCasc g x y h w e n t st s = _), (uncommitted hi hs hc : execPub g h s = _),
      (spawnWith_uncommitted hi hs hc : execSpawn g x y a s = _), (spawnWith_uncommitted hi hs hc : execSpawnRec g x y a s = _),
      (uncommitted hi hs hc : execDepdec g x y ii k s = _), (engine_uncommitted hi hs hc : execKvapp tk g h a va vb c s = _),
      (engine_uncommitted hi hs hc : execRetspan tk g h a md mask s = _), (engine_uncommitted hi hs hc : execSpanopen tk g h tag s = _),
      (engine_uncommitted hi hs hc : execSpanclose tk g h s = _), (engine_uncommitted hi hs hc : execIntk tk g a imm s = _),
      (uncommitted hi hs hc : execSumprd g x a ch s = _), (engine_uncommitted hi hs hc : execXstep tk g x a ld s = _)⟩

end Sys2Proof.Laws
end

section
/-!
PROOFS. Registers and predicates read after a write (12_isa_encoding.md, R290).
-/

namespace Sys2Proof.Laws

open Sys2Proof Sys2Proof.Machine Sys2Proof.Safety

theorem ctx_getP_setP_other (x : Ctx) {r q : BitVec 3} (v : Bool) (h : q ≠ r) : (x.setP r v).getP q = x.getP q := by
  have hne : q.toNat ≠ r.toNat := fun e => h (BitVec.eq_of_toNat_eq e)
  have hmask : (1#8 <<< r.toNat).getLsbD q.toNat = false := by
    rw [← BitVec.twoPow_eq, BitVec.getLsbD_twoPow]
    simp [hne.symm]
  have hq : q.toNat < 8 := q.isLt
  unfold Ctx.setP Ctx.getP
  split
  · rfl
  split
  · rfl
  cases v
  · simp only [Bool.false_eq_true, if_false, BitVec.getLsbD_and, BitVec.getLsbD_not, hmask, hq, decide_true,
      Bool.not_false, Bool.and_true]
  · simp only [if_true, BitVec.getLsbD_or, hmask, Bool.or_false]

theorem getP_setP_other (s : State) {r q : BitVec 3} (v : Bool) (h : q ≠ r) : (s.setP r v).getP q = s.getP q := by
  rw [State.getP, State.setP, State.ctx_setCtx, ctx_getP_setP_other s.ctx v h, State.getP]

theorem getP_setP_same (s : State) {r : BitVec 3} (v : Bool) (h : r ≠ 0) : (s.setP r v).getP r = v := by
  rw [State.getP, State.setP, State.ctx_setCtx, Ctx.getP_setP_same s.ctx r v h]

/-- Settles O17: s0 and p0 by `Ctx.setS_zero` and `Ctx.setP_zero`, the other registers by what is read after a write. -/
theorem hardWiredRegisters : Obligations.HardWiredRegisters := by
  intro s v b
  refine ⟨rfl, rfl, ?_, ?_, fun r hr => State.getS_setS_same s r v hr, fun r hr => getP_setP_same s b hr,
    fun r q hq => State.getS_setS_other s r q v hq, fun r q hq => getP_setP_other s b hq⟩
  · rw [State.setS, Ctx.setS_zero, State.ctx_setCtx]
  · rw [State.setP, Ctx.setP_zero, State.ctx_setCtx]

end Sys2Proof.Laws
end

section
/-!
PROOFS. SYSRD, SYSWR, WAITI, HALT and ERET (18_isa_tasks_system.md, R465, R466, R468, Table 18-6).
-/

namespace Sys2Proof.Laws

open Sys2Proof Sys2Proof.Machine Sys2Proof.Safety

theorem onSys_of_turn {s : State} {n : BitVec 4} (hturn : s.turn = .sys n) : OnSys s := by rw [OnSys, State.isSys, hturn]

/-! ### The registers of Table 18-6 -/

/-- Each register of a step is there once. -/
theorem sysInstances_step {n : Nat} (h : n < 6) : sysInstances n = some 1 := by interval_cases n <;> rfl

section
variable {s : State} {g : BitVec 4} {x y : BitVec 5} {num : BitVec 12}

/-- A number that the table does not list is ILLEGAL_OP. -/
theorem sysrd_unlisted (h : Issues s g { s := [x, y] }) (hnone : sysInstances num.toNat = none) :
    execSysrd g x y num s = causes s Cause.illegalOp := by
  rw [execSysrd, hnone]
  exact plain_issues 2 g _ s _ h

theorem syswr_unlisted (h : Issues s g { s := [x, y] }) (hs : OnSys s) (hnone : sysInstances num.toNat = none) :
    execSyswr g x y num s = causes s Cause.illegalOp := by
  rw [execSyswr, hnone]
  exact system_issues 2 g _ s _ h hs

/-- PRIV keeps a step from the registers that are not its own. -/
theorem sysrd_priv {m : Nat} (hs : OnCore s) (hm : sysInstances num.toNat = some m) (hsys : 6 ≤ num.toNat) :
    execSysrd g x y num s = causes s Cause.priv := by
  have hreg : stepReg num.toNat = false := decide_eq_false (Nat.not_lt.mpr hsys)
  rw [execSysrd, hm, hreg]
  exact system_priv hs

/-- A step reads its own registers. -/
theorem sysrd_step (h : Issues s g { s := [x, y] }) (hstep : num.toNat < 6) (hy : s.getS y = 0) :
    execSysrd g x y num s = .next (goOn (s.setS x (s.stepRead num.toNat)) 2) := by
  have hreg : stepReg num.toNat = true := decide_eq_true hstep
  rw [execSysrd, sysInstances_step hstep, hreg]
  refine (plain_issues 2 g _ s _ h).trans ?_
  simp only [hy, if_true]
  rfl

section
variable {n : BitVec 4} {m : Nat} (hturn : s.turn = .sys n) (h : Issues s g { s := [x, y] }) (hm : sysInstances num.toNat = some m)
  (hi : (s.getS y).toNat < m)
include hturn h hm hi

/-- A system core reads a register that only system mode reads. -/
theorem sysrd_system (hsys : 6 ≤ num.toNat) :
    execSysrd g x y num s = .next (goOn ((s.sysRead (s.sysCore n.toNat) num.toNat (s.getS y).toNat).2.setS x
      (s.sysRead (s.sysCore n.toNat) num.toNat (s.getS y).toNat).1) 2) := by
  have hreg : stepReg num.toNat = false := decide_eq_false (Nat.not_lt.mpr hsys)
  rw [execSysrd, hm, hreg]
  refine (system_issues 2 g _ s _ h (onSys_of_turn hturn)).trans ?_
  simp only [hturn, if_neg (Nat.not_le.mpr hi)]
  rfl

theorem syswr_system :
    execSyswr g x y num s = .next (goOn (s.sysWrite n.toNat num.toNat (s.getS y).toNat (s.getS x)) 2) := by
  rw [execSyswr, system_issues 2 g _ s _ h (onSys_of_turn hturn)]
  simp only [hm, hturn, if_neg (Nat.not_le.mpr hi)]
  rfl

end

/-! ### HALT, ERET and WAITI on a system core (R466, R468) -/

section
variable {n : BitVec 4} (hturn : s.turn = .sys n)
include hturn

theorem halt_system (h : Issues s g {}) :
    execHalt g s = .next (goOn (s.setSys n.toNat { s.sysCore n.toNat with halted := true }) 1) := by
  rw [execHalt, system_issues 1 g _ s _ h (onSys_of_turn hturn), hturn]
  rfl

theorem eret_system (h : Issues s g {}) : execEret g s = .next (s.eret n.toNat) := by
  rw [execEret, system_issues 1 g _ s _ h (onSys_of_turn hturn), hturn]
  rfl

theorem waiti_sleeps (h : Issues s g { s := [x] }) (hnone : (s.sysCore n.toNat).latched = 0) :
    execWaiti g x s = .next (s.setSys n.toNat { s.sysCore n.toNat with sleeping := true }) := by
  rw [execWaiti, system_issues 1 g _ s _ h (onSys_of_turn hturn), hturn]
  simp only [hnone, if_true]
  rfl

theorem waiti_takes (h : Issues s g { s := [x] }) (hsome : (s.sysCore n.toNat).latched ≠ 0) :
    execWaiti g x s = .next (goOn ((s.setSys n.toNat { s.sysCore n.toNat with latched := 0 }).setS x
      ((s.sysCore n.toNat).latched.setWidth 64)) 1) := by
  rw [execWaiti, system_issues 1 g _ s _ h (onSys_of_turn hturn), hturn]
  simp only [if_neg hsome]
  rfl

end
end

/-- Settles O33: each instruction on a compute core and on a system core is one of the equations above. -/
theorem systemRegisters : Obligations.SystemRegisters := by
  intro s g x y num
  refine ⟨fun h _ hy hstep => sysrd_step h hstep hy, ?_, fun n hturn => ⟨fun h m hm hi => ⟨?_, ?_, ?_, ?_⟩,
    fun h hnone => ⟨?_, ?_⟩, fun h => ⟨halt_system hturn h, eret_system hturn h⟩, fun h => ⟨waiti_sleeps hturn h, waiti_takes hturn h⟩⟩⟩
  · rintro hs rfl
    exact sysrd_priv hs rfl (by decide)
  · exact syswr_system hturn h hm hi
  · exact sysrd_system hturn h hm hi
  · rintro rfl
    exact ⟨rfl, rfl⟩
  · rintro rfl
    exact congrArg SysCore.svec (State.sysCore_setSys_same s n.toNat _)
  · exact syswr_unlisted h (onSys_of_turn hturn) hnone
  · exact sysrd_unlisted h hnone

end Sys2Proof.Laws
end

section
/-!
PROOFS. A step of the package (08_cores.md, R181; 12_isa_encoding.md, R279; log entry 1).
-/

namespace Sys2Proof.Laws

open Sys2Proof Sys2Proof.Machine Sys2Proof.Safety

/-- The next instruction is at hand: it is on a line of the image that is held and good, and it decodes (R181, Table 12-6). -/
theorem fetch_run {s : State} {i : Instr} (hrun : s.runnable = true) (hline : s.pos.line.toNat < s.nLines)
    (hheld : s.lineHeld s.pos.line = true) (hgood : s.lineBad (linkOf (s.lineBytes s.pos.line)) = false) (hslot : s.pos.slot ≠ 15)
    (hskip : s.ctx.skip = false) (hlen : Decode.lenOf (slotWord (s.lineBytes s.pos.line) s.pos.slot.toNat) ≠ 0)
    (hi : s.decodeAt (s.lineBytes s.pos.line) s.pos.slot.toNat = .ok i) : fetch s = .run i := by
  simp only [fetch, hrun, hheld, hgood, hskip, hi, if_neg (Nat.not_le.mpr hline), if_neg hslot, if_neg hlen]
  rfl

theorem issue_run {s : State} {i : Instr} (h : fetch s = .run i) : issue s = exec i s := by rw [issue, h]

/-- Settles O3: `fetch_run` on the state as it is, and on the one that the agenda leaves. -/
theorem steps : Obligations.Steps := by
  refine ⟨fun s i rest hrun hline hheld hgood hslot hskip hlen hi => ⟨fun hempty => ?_, ?_⟩,
    fun s rest => ⟨fun i hsize => if_pos hsize, fun n => rfl, fun hempty hidle => ?_⟩⟩
  · rw [step, hempty]
    exact (if_pos hrun).trans (issue_run (fetch_run hrun hline hheld hgood hslot hskip hlen hi))
  · exact issue_run (s := { s with agenda := rest }) (fetch_run hrun hline hheld hgood hslot hskip hlen hi)
  · rw [step, hempty]
    exact if_neg (by simp [hidle])

end Sys2Proof.Laws
end
